-- ==== Sys2Proof/Word.lean ====
section
/-! DEFINITION. The word types of the Dyxel Z256 and the one container that registers, memory and tables are
held in: a list of key and value pairs. Operations over them stand in Machine/Tab.lean and Machine/Bits.lean. -/
namespace Sys2Proof

/-- One instruction word (R34). -/
abbrev Word := BitVec 32
/-- One byte (R2). -/
abbrev Byte := BitVec 8
/-- A scalar register, pointer or window value (R24, R47). -/
abbrev Dword := BitVec 64
/-- A set of lanes, bit l for lane l (R47). -/
abbrev Lanes := BitVec 32
/-- One vector register in all 32 lanes: lane l stands in bits 32l+31 : 32l (R47, R74). -/
abbrev Vec := BitVec 1024

/-- A sparse table: pairs of key and value, keys strictly rising. -/
abbrev Tab (α : Type) := List (Nat × α)

end Sys2Proof
end

