-- ==== Sys2Proof/Machine/Tab.lean ====
section
/-! DEFINITION. Sparse tables: reading, writing and erasing an entry of a sorted list of pairs, and the form that makes
equal tables equal lists. Registers, caches, columns and memory are all held this way. -/

namespace Sys2Proof.Machine

/-- The entry at a key, if the table lists one. -/
def Tab.find? {α : Type} : Tab α → Nat → Option α
  | [], _ => none
  | (k, x) :: t, n => if k = n then some x else Tab.find? t n

/-- The entry at a key, or the value an unlisted key reads as. -/
def Tab.get {α : Type} (dflt : α) (t : Tab α) (n : Nat) : α := (Tab.find? t n).getD dflt

/-- The table with one entry set, in key order. -/
def Tab.put {α : Type} : Tab α → Nat → α → Tab α
  | [], n, x => [(n, x)]
  | (k, y) :: t, n, x =>
    if n < k then (n, x) :: (k, y) :: t
    else if n = k then (n, x) :: t
    else (k, y) :: Tab.put t n x

/-- The table without one entry. -/
def Tab.erase {α : Type} (t : Tab α) (n : Nat) : Tab α := t.filter fun e => e.1 ≠ n

/-- The table with one entry set, in canonical form: the value an unlisted key reads as is not listed. -/
def Tab.store {α : Type} [DecidableEq α] (dflt : α) (t : Tab α) (n : Nat) (x : α) : Tab α :=
  if x = dflt then Tab.erase t n else Tab.put t n x

/-- Every key of the table is above a bound, and the keys rise strictly. -/
def Tab.sortedFrom {α : Type} : Nat → Tab α → Bool
  | _, [] => true
  | b, (k, _) :: t => decide (b ≤ k) && Tab.sortedFrom (k + 1) t

/-- The canonical form: keys strictly rising, and no entry equal to what an unlisted key reads as. -/
def Tab.wf {α : Type} [DecidableEq α] (dflt : α) (t : Tab α) : Bool :=
  Tab.sortedFrom 0 t && t.all fun e => decide (e.2 ≠ dflt)

/-- The keys of a table. -/
def Tab.keys {α : Type} (t : Tab α) : List Nat := t.map Prod.fst

/-- The table with every entry changed by a function. -/
def Tab.mapVals {α : Type} (f : Nat → α → α) (t : Tab α) : Tab α := t.map fun e => (e.1, f e.1 e.2)

/-- The entries that satisfy a test. -/
def Tab.keep {α : Type} (f : Nat → α → Bool) (t : Tab α) : Tab α := t.filter fun e => f e.1 e.2

/-- The lowest of the numbers 0 to n - 1 that satisfies a test. -/
def firstBelow (n : Nat) (f : Nat → Bool) : Option Nat := (List.range n).find? f

/-- The table with one entry changed. -/
def Tab.upd {α : Type} (dflt : α) (t : Tab α) (n : Nat) (f : α → α) : Tab α := Tab.put t n (f (Tab.get dflt t n))

/-- A list with one element put before the first that it precedes. -/
def insertBy {α : Type} (before : α → α → Bool) (x : α) : List α → List α
  | [] => [x]
  | y :: ys => if before x y then x :: y :: ys else y :: insertBy before x ys

/-- A list sorted by a strict order; elements that do not precede each other keep their places. -/
def sortBy {α : Type} (before : α → α → Bool) (l : List α) : List α :=
  l.foldl (fun acc x => insertBy before x acc) []

end Sys2Proof.Machine
end

