-- ==== Sys2Proof/Machine/Bits.lean ====
section
/-! DEFINITION. Bit-level helpers: lanes of a vector register, sets of lanes, little-endian bytes, sign extension of
immediates and the leading and trailing zero counts. -/

namespace Sys2Proof.Machine

/-- The 32 lane indices, ascending (R8). -/
def laneList : List Nat := List.range 32

/-- Lane l of a vector register (R47). -/
def lane (x : Vec) (l : Nat) : Word := x.extractLsb' (32 * l) 32

/-- A vector register from its lanes: the list's head is lane 0. -/
def vecOfList : List Word → Vec
  | [] => 0
  | w :: ws => (vecOfList ws <<< 32) ||| w.setWidth 1024

/-- The vector register whose lane l is f l. -/
def vecOf (f : Nat → Word) : Vec := vecOfList (laneList.map f)

/-- The same word in every lane. -/
def splat (w : Word) : Vec := vecOf fun _ => w

/-- A set of lanes, spread to 32 bits a lane. -/
def spread (m : Lanes) : Vec := vecOf fun l => if m.getLsbD l then 0xFFFFFFFF#32 else 0#32

/-- The lanes of m from x, the other lanes from old. -/
def blend (m : Lanes) (x old : Vec) : Vec := (x &&& spread m) ||| (old &&& ~~~ spread m)

/-- The lanes l for which f holds. -/
def lanesOf (f : Nat → Bool) : Lanes :=
  laneList.foldl (fun acc l => if f l then acc ||| (1#32 <<< l) else acc) 0#32

/-- The lanes of a set, ascending (R8). -/
def lanesIn (m : Lanes) : List Nat := laneList.filter fun l => m.getLsbD l

/-- How many lanes a set holds. -/
def laneCount (m : Lanes) : Nat := (lanesIn m).length

/-- The lowest lane of a set, the elected lane (R87); 32 for none. -/
def lowLane (m : Lanes) : Nat := (lanesIn m).headD 32

/-- The number of one bits. -/
def popcount {w : Nat} (x : BitVec w) : Nat := (List.range w).foldl (fun n i => if x.getLsbD i then n + 1 else n) 0

/-- The number of zero bits above the highest one. -/
def leadingZeros {w : Nat} (x : BitVec w) : Nat := if x = 0 then w else w - 1 - x.toNat.log2

/-- The bits of x in reversed order. -/
def reverseBits (x : Word) : Word :=
  (List.range 32).foldl (fun acc i => if x.getLsbD i then acc ||| (1#32 <<< (31 - i)) else acc) 0#32

/-- The n bytes of a value, least significant first (R2). -/
def bytesOf (n : Nat) (x : Nat) : List Byte := (List.range n).map fun i => BitVec.ofNat 8 (x >>> (8 * i))

/-- The value of bytes, least significant first (R2). -/
def natOfBytes : List Byte → Nat
  | [] => 0
  | b :: bs => b.toNat + 256 * natOfBytes bs

/-- Bits hi:lo of a number (R2). -/
def bitsOf (x hi lo : Nat) : Nat := (x >>> lo) % 2 ^ (hi + 1 - lo)

/-- Bit n of a number. -/
def bitOf (x n : Nat) : Bool := x.testBit n

/-- A signed immediate of 8, 14, 16 or 20 bits as a scalar (R14). -/
def sext64 {w : Nat} (x : BitVec w) : Dword := x.signExtend 64

/-- A 64-bit value of an even-odd register pair: the even register holds bits 31:0 (R47). -/
def pairOf (lo hi : Word) : Dword := hi ++ lo

/-- The smaller of two numbers. -/
def clampNat (lo hi x : Nat) : Nat := if x < lo then lo else if hi < x then hi else x

end Sys2Proof.Machine
end

