-- ==== Sys2Proof/Machine/Float.lean ====
section
/-! DEFINITION. Floating-point values and formats (R101 to R103, R210 to R212): decoding to an exact value, exact
arithmetic on it, the named roundings RNE, RTZ, RDN, RUP and RNA, saturation, and encoding. -/

namespace Sys2Proof.Machine

/-- An exact value (R8): a NaN, an infinity, or (-1)^neg * m * 2^e; a zero keeps its sign. -/
inductive FVal where
  | nan
  | inf (neg : Bool)
  | fin (neg : Bool) (m : Nat) (e : Int)
  deriving DecidableEq, Repr

/-- The rounding modes, coded as the prefix's RM (R42). -/
inductive Rm where
  | rne | rtz | rdn | rup | rna
  deriving DecidableEq, Repr

/-- The rounding mode of an RM field; 5 to 7 are rejected at decoding (R42). -/
def Rm.ofField (x : BitVec 3) : Rm :=
  if x = 1#3 then .rtz else if x = 2#3 then .rdn else if x = 3#3 then .rup else if x = 4#3 then .rna else .rne

/-- A floating-point format (R101, R210): exponent and fraction bits, bias, and how its top exponent is used. -/
structure FpFmt where
  eb : Nat
  fb : Nat
  bias : Nat
  /-- 0: infinities and NaNs as IEEE; 1: E4M3, whose S.1111.111 alone is NaN; 2: E2M1, neither -/
  top : Nat := 0
  /-- the canonical NaN -/
  canon : Nat
  deriving DecidableEq, Repr

def fp32 : FpFmt := { eb := 8, fb := 23, bias := 127, canon := 0x7FC00000 }
def fp16 : FpFmt := { eb := 5, fb := 10, bias := 15, canon := 0x7E00 }
def bf16 : FpFmt := { eb := 8, fb := 7, bias := 127, canon := 0x7FC0 }
def e4m3 : FpFmt := { eb := 4, fb := 3, bias := 7, top := 1, canon := 0x7F }
def e5m2 : FpFmt := { eb := 5, fb := 2, bias := 15, canon := 0x7E }
def e2m1 : FpFmt := { eb := 2, fb := 1, bias := 1, top := 2, canon := 0 }

/-- The exact value of an encoding (R101, R210). -/
def FpFmt.decode (f : FpFmt) (x : Nat) : FVal :=
  let neg := x.testBit (f.eb + f.fb)
  let ex := (x >>> f.fb) % 2 ^ f.eb
  let fr := x % 2 ^ f.fb
  if ex = 0 then .fin neg fr (1 - (f.bias : Int) - f.fb)
  else if f.top = 0 ∧ ex = 2 ^ f.eb - 1 then (if fr = 0 then .inf neg else .nan)
  else if f.top = 1 ∧ ex = 2 ^ f.eb - 1 ∧ fr = 2 ^ f.fb - 1 then .nan
  else .fin neg (2 ^ f.fb + fr) ((ex : Int) - f.bias - f.fb)

/-- The largest finite magnitude of a format, as fraction bits and exponent. -/
def FpFmt.maxFin (f : FpFmt) : Nat × Int :=
  match f.top with
  | 0 => (2 ^ (f.fb + 1) - 1, (2 ^ f.eb - 2 : Int) - f.bias - f.fb)
  | 1 => (2 ^ (f.fb + 1) - 2, (2 ^ f.eb - 1 : Int) - f.bias - f.fb)
  | _ => (2 ^ (f.fb + 1) - 1, (2 ^ f.eb - 1 : Int) - f.bias - f.fb)

/-- Compare m1 * 2^e1 with m2 * 2^e2. -/
def cmpMag (m1 : Nat) (e1 : Int) (m2 : Nat) (e2 : Int) : Ordering :=
  if m1 = 0 then (if m2 = 0 then .eq else .lt)
  else if m2 = 0 then .gt
  else
    let t1 := (m1.log2 : Int) + e1
    let t2 := (m2.log2 : Int) + e2
    if t1 < t2 then .lt else if t2 < t1 then .gt
    else
      let e := min e1 e2
      compare (m1 <<< (e1 - e).toNat) (m2 <<< (e2 - e).toNat)

/-- The integer nearest to m / 2^sh under a mode (R103): its quotient, and whether to round it away from zero. -/
def roundShift (rm : Rm) (neg : Bool) (m : Nat) (sh : Nat) : Nat :=
  if sh = 0 then m
  else if m.log2 + 2 < sh then
    -- less than half, and not zero
    (match rm with
     | .rup => if neg ∨ m = 0 then 0 else 1
     | .rdn => if neg ∧ m ≠ 0 then 1 else 0
     | _ => 0)
  else
    let q := m >>> sh
    let r := m % 2 ^ sh
    let half := 2 ^ (sh - 1)
    let up : Bool :=
      match rm with
      | .rne => decide (half < r) || (decide (r = half) && q % 2 == 1)
      | .rna => decide (half ≤ r)
      | .rtz => false
      | .rdn => neg && decide (r ≠ 0)
      | .rup => !neg && decide (r ≠ 0)
    if up then q + 1 else q

/-- Does an overflow under this mode give infinity, or the largest finite magnitude (R103)? -/
def overflowInf (rm : Rm) (neg : Bool) : Bool :=
  match rm with
  | .rne => true
  | .rna => true
  | .rtz => false
  | .rdn => neg
  | .rup => !neg

/-- RND_fmt(x, rm) (R103): the value rounded to the format's precision and range. A format without infinities gets an
infinity too, which its saturation replaces. -/
def FpFmt.round (f : FpFmt) (rm : Rm) : FVal → FVal
  | .nan => .nan
  | .inf n => .inf n
  | .fin neg m e =>
    if m = 0 then .fin neg 0 0
    else
      let top := (m.log2 : Int) + e
      let q := max top (1 - (f.bias : Int)) - f.fb
      let n := if q ≤ e then m <<< (e - q).toNat else roundShift rm neg m (q - e).toNat
      if cmpMag n q f.maxFin.1 f.maxFin.2 = .gt then
        (if overflowInf rm neg then .inf neg else .fin neg f.maxFin.1 f.maxFin.2)
      else .fin neg n q

/-- SAT_fmt(y) (R103): a magnitude above the maximum, infinities included, becomes the maximum. -/
def FpFmt.sat (f : FpFmt) : FVal → FVal
  | .inf n => .fin n f.maxFin.1 f.maxFin.2
  | .fin n m e => if cmpMag m e f.maxFin.1 f.maxFin.2 = .gt then .fin n f.maxFin.1 f.maxFin.2 else .fin n m e
  | .nan => .nan

/-- The encoding of a value that the format holds; a NaN is the canonical one (R101, R102). -/
def FpFmt.encode (f : FpFmt) : FVal → Nat
  | .nan => f.canon
  | .inf n => (if n then 2 ^ (f.eb + f.fb) else 0) + (2 ^ f.eb - 1) * 2 ^ f.fb
  | .fin neg m e =>
    let sg := if neg then 2 ^ (f.eb + f.fb) else 0
    if m = 0 then sg
    else
      let top := (m.log2 : Int) + e
      let q := max top (1 - (f.bias : Int)) - f.fb
      let n := if q ≤ e then m <<< (e - q).toNat else m >>> (q - e).toNat
      if n < 2 ^ f.fb then sg + n
      else sg + (q + f.fb + f.bias).toNat * 2 ^ f.fb + (n - 2 ^ f.fb)

/-- Round and encode. -/
def FpFmt.rnd (f : FpFmt) (rm : Rm) (x : FVal) : Nat := f.encode (f.round rm x)

/-- The negative of a value. -/
def FVal.neg : FVal → FVal
  | .nan => .nan
  | .inf n => .inf (!n)
  | .fin n m e => .fin (!n) m e

/-- The signed integer m * 2^(e - e0) of a finite value at a common exponent. -/
def signedAt (neg : Bool) (m : Nat) (e e0 : Int) : Int :=
  let x : Int := (m <<< (e - e0).toNat : Nat)
  if neg then -x else x

/-- The exact sum (R8); an exact zero of operands of opposite signs is +0, or -0 under RDN (R103). -/
def FVal.add (rm : Rm) : FVal → FVal → FVal
  | .nan, _ => .nan
  | _, .nan => .nan
  | .inf a, .inf b => if a = b then .inf a else .nan
  | .inf a, _ => .inf a
  | _, .inf b => .inf b
  | .fin n1 m1 e1, .fin n2 m2 e2 =>
    if m1 = 0 ∧ m2 = 0 then .fin (if n1 = n2 then n1 else decide (rm = .rdn)) 0 0
    else if m1 = 0 then .fin n2 m2 e2
    else if m2 = 0 then .fin n1 m1 e1
    else
      let e := min e1 e2
      let t := signedAt n1 m1 e1 e + signedAt n2 m2 e2 e
      if t = 0 then .fin (decide (rm = .rdn)) 0 0 else .fin (decide (t < 0)) t.natAbs e

/-- The exact product; zero times infinity is a NaN (R105). -/
def FVal.mul : FVal → FVal → FVal
  | .nan, _ => .nan
  | _, .nan => .nan
  | .inf a, .inf b => .inf (a != b)
  | .inf a, .fin b m _ => if m = 0 then .nan else .inf (a != b)
  | .fin a m _, .inf b => if m = 0 then .nan else .inf (a != b)
  | .fin n1 m1 e1, .fin n2 m2 e2 => .fin (n1 != n2) (m1 * m2) (e1 + e2)

/-- The value times a power of two, exactly. -/
def FVal.scale (k : Int) : FVal → FVal
  | .fin n m e => .fin n m (e + k)
  | x => x

/-- The order of two values that are no NaNs, with -0 equal to +0. -/
def FVal.cmp : FVal → FVal → Ordering
  | .inf a, .inf b => if a = b then .eq else if a then .lt else .gt
  | .inf a, _ => if a then .lt else .gt
  | _, .inf b => if b then .gt else .lt
  | .fin n1 m1 e1, .fin n2 m2 e2 =>
    if m1 = 0 ∧ m2 = 0 then .eq
    else if m1 = 0 then (if n2 then .gt else .lt)
    else if m2 = 0 then (if n1 then .lt else .gt)
    else
      match n1, n2 with
      | false, false => cmpMag m1 e1 m2 e2
      | true, true => cmpMag m2 e2 m1 e1
      | true, false => .lt
      | false, true => .gt
  | _, _ => .eq

/-- The sign of a value. -/
def FVal.isNeg : FVal → Bool
  | .nan => false
  | .inf n => n
  | .fin n _ _ => n

/-- Is the value a NaN? -/
def FVal.isNan : FVal → Bool
  | .nan => true
  | _ => false

/-- Is a below b, with -0 below +0 (R105)? -/
def FVal.below (a b : FVal) : Bool :=
  match a.cmp b with
  | .lt => true
  | .eq => a.isNeg && !b.isNeg
  | .gt => false

/-- FMIN and FMAX on encodings (R105): the operand kept, and the canonical NaN for two NaNs. -/
def FpFmt.minMax (f : FpFmt) (max : Bool) (x y : Nat) : Nat :=
  let a := f.decode x
  let b := f.decode y
  if a.isNan ∧ b.isNan then f.canon
  else if a.isNan then y
  else if b.isNan then x
  else if max then (if a.below b then y else x) else (if b.below a then y else x)

/-- A value rounded to an integer (R107, R110): the magnitude of the integer. -/
def roundInt (rm : Rm) (neg : Bool) (m : Nat) (e : Int) : Nat :=
  if 0 ≤ e then m <<< e.toNat else roundShift rm neg m (-e).toNat

/-- floor(log2 |x|) of a finite nonzero value. -/
def floorLog2 (m : Nat) (e : Int) : Int := (m.log2 : Int) + e

/-- The value of a scale byte's exponent (R212): s - 127. -/
def scaleExp (s : Nat) : Int := (s : Int) - 127

/-- A signed integer as an exact value. -/
def FVal.ofInt (x : Int) : FVal := .fin (decide (x < 0)) x.natAbs 0

/-! ## TS8 (R114, R211) -/

/-- One term of a TS8 byte, in units of 2^-6. -/
def ts8Term (s : Bool) (e : Nat) : Int := if e = 7 then 0 else if s then -((64 >>> e : Nat) : Int) else ((64 >>> e : Nat) : Int)

/-- The exact value of a TS8 byte (R211): every byte has one, and a zero is +0. -/
def ts8Decode (x : Nat) : FVal :=
  let t := ts8Term (x.testBit 7) (bitsOf x 6 4) + ts8Term (x.testBit 3) (bitsOf x 2 0)
  .fin (decide (t < 0)) t.natAbs (-6)

/-- The canonical encoding of a member of T, in units of 2^-6, with its number of nonzero terms (R114): one term, two
of one sign, or a difference. -/
def ts8Canon (t : Int) : Option (Nat × Nat) :=
  let s := if t < 0 then 1 else 0
  let a := t.natAbs
  let es := [0, 1, 2, 3, 4, 5, 6]
  if a = 0 then some (0x77, 0)
  else
    match es.find? fun e => decide ((64 >>> e : Nat) = a) with
    | some e => some (128 * s + 16 * e + 7, 1)
    | none =>
      match (es.flatMap fun e1 => es.map fun e2 => (e1, e2)).find? fun p =>
          decide (p.1 ≤ p.2) && decide ((64 >>> p.1) + (64 >>> p.2) = a) with
      | some p => some (128 * s + 16 * p.1 + 8 * s + p.2, 2)
      | none =>
        match (es.flatMap fun e1 => es.map fun e2 => (e1, e2)).find? fun p =>
            decide (p.1 < p.2) && decide ((64 >>> p.1) - (64 >>> p.2) = a) with
        | some p => some (128 * s + 16 * p.1 + 8 * (1 - s) + p.2, 2)
        | none => none

/-- The members of T, ascending, in units of 2^-6. -/
def ts8Members : List Int := ((List.range 257).map fun (n : Nat) => (n : Int) - 128).filter fun t => (ts8Canon t).isSome

/-- Compare a finite value with t * 2^-6. -/
def cmpUnits (neg : Bool) (m : Nat) (e : Int) (t : Int) : Ordering :=
  (FVal.fin neg m e).cmp (.fin (decide (t < 0)) t.natAbs (-6))

/-- PACK.TS8's choice of byte for a value under a mode (R114). -/
def ts8Pack (rm : Rm) : FVal → Nat
  | .nan => 0x77
  | .inf n => if n then 0x88 else 0x00
  | .fin neg m e =>
    if cmpMag m e 2 0 = .gt then (if neg then 0x88 else 0x00)
    else
      let lo := ((ts8Members.filter fun t => cmpUnits neg m e t ≠ .lt).getLast?).getD (-128)
      let hi := ((ts8Members.filter fun t => cmpUnits neg m e t ≠ .gt).head?).getD 128
      let near : Int :=
        -- twice the value against the sum of its neighbours
        match cmpUnits neg m (e + 1) (lo + hi) with
        | .lt => lo
        | .gt => hi
        | .eq =>
          let nl := ((ts8Canon lo).getD (0, 0)).2
          let nh := ((ts8Canon hi).getD (0, 0)).2
          if nl < nh then lo else if nh < nl then hi
          else if (lo.natAbs < hi.natAbs) = (rm = .rne) then lo else hi
      let t : Int :=
        if lo = hi then lo
        else
          match rm with
          | .rdn => lo
          | .rup => hi
          | .rtz => if neg then hi else lo
          | _ => near
      ((ts8Canon t).getD (0x77, 0)).1

end Sys2Proof.Machine
end

