-- ==== Sys2Proof/Machine/Special.lean ====
section
/-! DEFINITION. The special functions of R109: the exact value of the function, given to far more bits than FP32 holds
with a sticky bit below them, so that one rounding to FP32 is the correct one. Reciprocal and roots are exact integer
arithmetic. The others are fixed-point series of 256 bits and more (log 6, PRESUMED: an operand whose value lies within 2^-100 of
a rounding boundary is presumed not to exist, outside the exact cases, which are treated apart). -/

namespace Sys2Proof.Machine

/-- pi / 2 in units of 2^-448, rounded down. -/
def halfPi448 : Nat := 0x1921fb54442d18469898cc51701b839a252049c1114cf98e804177d4c76273644a29410f31c6809bbdf2a33679a748636605614dbe4be286e

/-- ln 2 in units of 2^-256, rounded down. -/
def ln2_256 : Nat := 0xb17217f7d1cf79abc9e3b39803f2f6af40f343267298b62d8a0d175b8baafa2b

/-- A value n * 2^e with a sticky bit: inexact values lie strictly between n and n + 1. -/
def sticky (neg : Bool) (n : Nat) (e : Int) (exact : Bool) : FVal :=
  if exact then .fin neg n e else .fin neg (2 * n + 1) (e - 1)

/-- The integer square root, bit by bit from bit i down. -/
def isqrtFrom : Nat → Nat → Nat → Nat
  | 0, _, r => r
  | i + 1, x, r =>
    let t := r + 2 ^ i
    isqrtFrom i x (if t * t ≤ x then t else r)

/-- floor(sqrt x). -/
def isqrt (x : Nat) : Nat := isqrtFrom (x.log2 / 2 + 1) x 0

/-- 1 / A (R109). -/
def fRcp : FVal → FVal
  | .nan => .nan
  | .inf n => .fin n 0 0
  | .fin n m e =>
    if m = 0 then .inf n
    else
      let k := m.log2 + 64
      sticky n (2 ^ k / m) (-(k : Int) - e) (decide (2 ^ k % m = 0))

/-- sqrt A (R109). -/
def fSqrt : FVal → FVal
  | .nan => .nan
  | .inf n => if n then .nan else .inf false
  | .fin n m e =>
    if m = 0 then .fin n 0 0
    else if n then .nan
    else
      let t := if e % 2 = 0 then m else 2 * m
      let h := e / 2
      let r := isqrt (t * 2 ^ 128)
      sticky false r (h - 64) (decide (r * r = t * 2 ^ 128))

/-- 1 / sqrt A (R109). -/
def fRsq : FVal → FVal
  | .nan => .nan
  | .inf n => if n then .nan else .fin false 0 0
  | .fin n m e =>
    if m = 0 then .inf n
    else if n then .nan
    else
      let t := if e % 2 = 0 then m else 2 * m
      let h := e / 2
      let r := isqrt (2 ^ 256 / t)
      sticky false r (-(h : Int) - 128) (decide (r * r * t = 2 ^ 256))

/-- The exponential series of x at scale 2^-p: the sum of the terms from t on, with k counting. -/
def expTerms (p : Nat) (x : Nat) : Nat → Nat → Nat → Nat → Nat
  | 0, _, _, acc => acc
  | fuel + 1, k, t, acc =>
    let t' := (t * x) / 2 ^ p / (k + 1)
    if t' = 0 then acc else expTerms p x fuel (k + 1) t' (acc + t')

/-- e^x for 0 <= x at scale 2^-256. -/
def expFix (x : Nat) : Nat := expTerms 256 x 400 0 (2 ^ 256) (2 ^ 256)

/-- A finite magnitude at scale 2^-p, rounded down. -/
def fixOf (p m : Nat) (e : Int) : Nat :=
  if 0 ≤ e + p then m <<< (e + p).toNat else if m.log2 < (-(e + p)).toNat then 0 else m >>> (-(e + p)).toNat

/-- 2^A (R109). -/
def fExp2 : FVal → FVal
  | .nan => .nan
  | .inf n => if n then .fin false 0 0 else .inf false
  | .fin n m e =>
    if m = 0 then .fin false 1 0
    else if 9 ≤ floorLog2 m e then (if n then .fin false 1 (-1000) else .fin false 1 1000)
    else
      -- A = i + f with f at scale 2^-256
      let a := fixOf 256 m e
      let v : Int := if n then -(a : Int) else a
      let i := v / 2 ^ 256
      let f := (v % 2 ^ 256).toNat
      let r := expFix (f * ln2_256 / 2 ^ 256)
      if f = 0 then .fin false 1 i else sticky false r (i - 256) false

/-- The fractional bits of log2 x for 1 <= x < 2 at scale 2^-320, by squaring. -/
def logBits : Nat → Nat → Nat → Nat
  | 0, _, acc => acc
  | n + 1, x, acc =>
    let y := x * x / 2 ^ 320
    if 2 ^ 321 ≤ y then logBits n (y / 2) (2 * acc + 1) else logBits n y (2 * acc)

/-- log2 A (R109). -/
def fLog2 : FVal → FVal
  | .nan => .nan
  | .inf n => if n then .nan else .inf false
  | .fin n m e =>
    if m = 0 then .inf true
    else if n then .nan
    else
      let k := floorLog2 m e
      if m = 2 ^ m.log2 then FVal.ofInt k
      else
        let f := logBits 150 (m <<< (320 - m.log2)) 0
        -- k + f * 2^-150, plus less than one unit
        let v : Int := k * 2 ^ 150 + f
        if v < 0 then sticky true (-v - 1).toNat (-150) false else sticky false v.toNat (-150) false

/-- The alternating series of sine and cosine at scale 2^-256: x2 = x^2, t the last term, k its index. -/
def trigTerms (x2 : Nat) : Nat → Nat → Nat → Bool → Int → Int
  | 0, _, _, _, acc => acc
  | fuel + 1, k, t, minus, acc =>
    let t' := t * x2 / 2 ^ 256 / ((k + 1) * (k + 2))
    if t' = 0 then acc
    else trigTerms x2 fuel (k + 2) t' (!minus) (if minus then acc - (t' : Int) else acc + t')

/-- sin x and cos x for 0 <= x < pi / 2 at scale 2^-256. -/
def sinFix (x : Nat) : Int := trigTerms (x * x / 2 ^ 256) 200 1 x true x
def cosFix (x : Nat) : Int := trigTerms (x * x / 2 ^ 256) 200 0 (2 ^ 256) true (2 ^ 256)

/-- A signed fixed-point value at scale 2^-256, known to be inexact, as a value. -/
def fixVal (x : Int) : FVal := sticky (decide (x < 0)) x.natAbs (-256) false

/-- The quadrant of |A| and its remainder at scale 2^-256, by exact reduction with pi / 2 at scale 2^-448. -/
def reduce (m : Nat) (e : Int) : Nat × Nat :=
  let a := fixOf 448 m e
  (a / halfPi448 % 4, a % halfPi448 / 2 ^ 192)

/-- sin A (R109): below 2^-13 the nearest value is A itself. -/
def fSin : FVal → FVal
  | .nan => .nan
  | .inf _ => .nan
  | .fin n m e =>
    if m = 0 then .fin n 0 0
    else if floorLog2 m e < -13 then .fin n m e
    else
      let (q, r) := reduce m e
      let v := if q = 0 then sinFix r else if q = 1 then cosFix r else if q = 2 then -sinFix r else -cosFix r
      if n then (fixVal v).neg else fixVal v

/-- cos A (R109). -/
def fCos : FVal → FVal
  | .nan => .nan
  | .inf _ => .nan
  | .fin _ m e =>
    if m = 0 then .fin false 1 0
    else
      let (q, r) := reduce m e
      fixVal (if q = 0 then cosFix r else if q = 1 then -sinFix r else if q = 2 then -cosFix r else sinFix r)

/-- x^(2^n) at scale 2^-256. -/
def sqTimes : Nat → Nat → Nat
  | 0, x => x
  | n + 1, x => sqTimes n (x * x / 2 ^ 256)

/-- tanh A (R109): below 2^-13 the nearest value is A itself, and from 16 on it is +-1. -/
def fTanh : FVal → FVal
  | .nan => .nan
  | .inf n => .fin n 1 0
  | .fin n m e =>
    if m = 0 then .fin n 0 0
    else if floorLog2 m e < -13 then .fin n m e
    else if 4 ≤ floorLog2 m e then .fin n 1 0
    else
      -- E = exp(2|A|) = exp(2|A| / 64)^64
      let x := sqTimes 6 (expFix (fixOf 256 m (e + 1) / 64))
      sticky n ((x - 2 ^ 256) * 2 ^ 256 / (x + 2 ^ 256)) (-256) false

end Sys2Proof.Machine
end

