-- ==== Sys2Proof/Machine/Flags.lean ====
section
/-! DEFINITION. The conditions of R13 and every comparison that writes a condition or a mask bit (R93, R98, R106,
R134). The machine has no other flags: floating-point words set none (R89). -/

namespace Sys2Proof.Machine

/-- cc_true on an ordering of the operands (R13); codes 6 and 7 are rejected at decoding. -/
def ccOf (cc : BitVec 3) (o : Ordering) : Bool :=
  match cc.toNat with
  | 0 => decide (o = .eq)
  | 1 => decide (o ≠ .eq)
  | 2 => decide (o = .lt)
  | 3 => decide (o ≠ .lt)
  | 4 => decide (o ≠ .gt)
  | 5 => decide (o = .gt)
  | _ => false

/-- A signed comparison. -/
def ccSigned {w : Nat} (cc : BitVec 3) (a b : BitVec w) : Bool := ccOf cc (compare a.toInt b.toInt)

/-- An unsigned comparison. -/
def ccUnsigned {w : Nat} (cc : BitVec 3) (a b : BitVec w) : Bool := ccOf cc (compare a.toNat b.toNat)

/-- An FP32 comparison (R106): with a NaN operand FCMP is false and FCMP.U true; +0 and -0 are equal. -/
def ccFloat (cc : BitVec 3) (unordered : Bool) (a b : Word) : Bool :=
  let x := fp32.decode a.toNat
  let y := fp32.decode b.toNat
  if x.isNan ∨ y.isNan then unordered else ccOf cc (x.cmp y)

/-- KSOME: does any lane of P have the bit (R134)? -/
def maskSome (p k : Lanes) : Bool := decide (p &&& k ≠ 0#32)
/-- KEVERY: does every lane of P have the bit? -/
def maskEvery (p k : Lanes) : Bool := decide (p &&& ~~~k = 0#32)
/-- KONE: does exactly one lane of P have the bit? -/
def maskOne (p k : Lanes) : Bool := decide (laneCount (p &&& k) = 1)
/-- KSAME: do the lanes of P all hold one value of the bit? -/
def maskSame (p k : Lanes) : Bool := decide (p &&& k = 0#32) || decide (p &&& ~~~k = 0#32)

end Sys2Proof.Machine
end

