-- ==== Sys2Proof/Config.lean ====
section
/-! DEFINITION. What the implementation fixes and the free values: constants without a body, of which nothing can be
proved. Each is named in an entry of the assumption log. -/

namespace Sys2Proof.Config

/-- A byte of a line dropped by last-use (R71), by the counter of free values in State and the byte's address. -/
opaque freeByte : Nat → Nat → Byte

/-- A 64-bit value that the spec leaves open, by the counter of free values in State. -/
opaque freeDword : Nat → Dword

/-- The packet at which a factor core's own trap handler starts (R185 names the handler, not its address). -/
opaque factorHandler : Nat → BitVec 32

/-- Selvis's signatures over a message, one for each scheme (R369, R371). -/
opaque signature : Nat → List Byte → List Byte

/-- SHA-384 of a message (R369, R371), as bytes. -/
opaque sha384 : List Byte → List Byte

/-- Does the signature of a scheme over an image's header verify against its key hash in fuses (R369)? -/
opaque imageVerifies : Nat → List Byte → Bool

/-- The security version that an image's header carries (R369), whose layout the spec does not give. -/
opaque imageVersion : List Byte → Nat

/-- The SHA-384 digest that an image's header carries (R369). -/
opaque imageDigest : List Byte → List Byte

/-- The bytes of an image that its header's length and digest cover, which are what is loaded (R368, R369). -/
opaque imageBody : List Byte → List Byte

/-- The version of the field firmware that an image holds, as FCT_ID shows it (R363). -/
opaque imageFirmware : List Byte → Nat

/-- Is an image one of the tinker firmware, rather than of the field firmware (R370)? -/
opaque imageTinker : List Byte → Bool

/-- The images in on-module flash, by slot (0 for A, 1 for B) and stage, and those that the network serves, by stage (R368). -/
opaque flashImage : Nat → Nat → List Byte
opaque netImage : Nat → List Byte

/-- The cycles in which factor cores 1 to 3 restart with new field firmware (R370). -/
opaque restartCycles : Nat

/-- The fuse configuration that an attestation report carries (R371). -/
opaque fuses : List Byte

/-- The cycles in which a host-tier line is expected to land (R311, R312 give none), by its line. -/
opaque hostCycles : Nat → Nat

/-- The HBM5 row and bank of a column address: the spec names rows of 1 KiB and banks, and gives no bank map (R316). -/
opaque bankOf : Nat → Nat

/-- The task record of the steward that the factor complex starts for a service region in host-assisted mode (R338 gives neither): its column
in bits 63:56 and its offset in bits 47:0, by region node. -/
opaque stewardTask : Nat → Nat

/-- The number of 64 MiB units above 256 MiB that the factor complex gives the system area at boot, taken modulo 13 (R331). -/
opaque sysUnits : Nat

/-- The line at which a warp's mailbox area begins in its column's system area (R297 gives no address), by gang, local group and warp. -/
opaque mailArea : Nat → Nat

end Sys2Proof.Config
end

