-- ==== Sys2Proof/Syntax.lean ====
section
/-! DEFINITION. The syntax: one constructor per row of spec/opcode_table.json. The first 267 are the encoded
words of R45 (those with operands first, so that Lean's runtime can build all but thirteen of them), with their format fields as the table names and sizes them; a field the table gives fewer bits than the
register number holds its upper bits (an even register, a multiple of four: R41). The last 84 are the part's
indivisible steps that no word encodes; their arguments name which instance of the step is meant, or carry the
outside input that the step takes. The control bits C, B and S of a word (R34) stand beside the instruction, in Ctl. -/

namespace Sys2Proof

/-- The control fields of a word, bits 31:27 (R34). -/
structure Ctl where
  /-- chain: ties the word to the next instruction of its packet -/
  c : Bool
  /-- boundary: ends the run after this packet -/
  b : Bool
  /-- stall count, 0 to 7 (R10) -/
  s : BitVec 3
  deriving DecidableEq, Repr

/-- The instructions of the Dyxel Z256. -/
inductive Instr where
  /-- BRK: Raises BREAKPOINT with an 18-bit tag for the tinker (R180) -/
  | brk (t : BitVec 18)
  /-- SLI: Loads a sign-extended 14-bit immediate into a scalar register (R93) -/
  | sli (d : BitVec 6) (i : BitVec 14)
  /-- SLIS: Shifts a scalar left by 14 and ORs in a 14-bit immediate (R93) -/
  | slis (d : BitVec 6) (i : BitVec 14)
  /-- SADD: Adds two scalars modulo 2^64 (R93) -/
  | sadd (d : BitVec 6) (a : BitVec 6) (b : BitVec 6)
  /-- SSUB: Subtracts two scalars modulo 2^64 (R93) -/
  | ssub (d : BitVec 6) (a : BitVec 6) (b : BitVec 6)
  /-- SMUL: Multiplies two scalars, low 64 bits (R93) -/
  | smul (d : BitVec 6) (a : BitVec 6) (b : BitVec 6)
  /-- SMULH: Signed high half of a 64-bit scalar product (R93) -/
  | smulh (d : BitVec 6) (a : BitVec 6) (b : BitVec 6)
  /-- SAND: Bitwise AND of two scalars (R93) -/
  | sand (d : BitVec 6) (a : BitVec 6) (b : BitVec 6)
  /-- SOR: Bitwise OR of two scalars (R93) -/
  | sor (d : BitVec 6) (a : BitVec 6) (b : BitVec 6)
  /-- SXOR: Bitwise XOR of two scalars (R93) -/
  | sxor (d : BitVec 6) (a : BitVec 6) (b : BitVec 6)
  /-- SANDN: Scalar a AND NOT b (R93) -/
  | sandn (d : BitVec 6) (a : BitVec 6) (b : BitVec 6)
  /-- SSHL: Scalar shift left, 0 for amounts of 64 or more (R93) -/
  | sshl (d : BitVec 6) (a : BitVec 6) (b : BitVec 6)
  /-- SSHR: Scalar logical shift right (R93) -/
  | sshr (d : BitVec 6) (a : BitVec 6) (b : BitVec 6)
  /-- SSAR: Scalar arithmetic shift right (R93) -/
  | ssar (d : BitVec 6) (a : BitVec 6) (b : BitVec 6)
  /-- SROL: Scalar rotate left (R93) -/
  | srol (d : BitVec 6) (a : BitVec 6) (b : BitVec 6)
  /-- SMIN: Signed scalar minimum (R93) -/
  | smin (d : BitVec 6) (a : BitVec 6) (b : BitVec 6)
  /-- SMAX: Signed scalar maximum (R93) -/
  | smax (d : BitVec 6) (a : BitVec 6) (b : BitVec 6)
  /-- SMINU: Unsigned scalar minimum (R93) -/
  | sminu (d : BitVec 6) (a : BitVec 6) (b : BitVec 6)
  /-- SMAXU: Unsigned scalar maximum (R93) -/
  | smaxu (d : BitVec 6) (a : BitVec 6) (b : BitVec 6)
  /-- SADDI: Adds a sign-extended imm8 to a scalar (R93) -/
  | saddi (d : BitVec 6) (a : BitVec 6) (i : BitVec 8)
  /-- SCMP: Signed scalar compare into a condition bit (R93) -/
  | scmp (g : BitVec 3) (d : BitVec 3) (a : BitVec 6) (b : BitVec 6)
  /-- SCMP_U: Unsigned scalar compare into a condition bit (R93) -/
  | scmpU (g : BitVec 3) (d : BitVec 3) (a : BitVec 6) (b : BitVec 6)
  /-- SCMPI: Signed scalar compare with sign-extended imm8 (R93) -/
  | scmpi (g : BitVec 3) (d : BitVec 3) (a : BitVec 6) (i : BitVec 8)
  /-- SMOV: Copies a scalar register (R93) -/
  | smov (d : BitVec 6) (a : BitVec 6)
  /-- SCSEL: Moves a scalar when a condition bit is set (R93) -/
  | scsel (d : BitVec 6) (a : BitVec 6) (b : BitVec 3)
  /-- SPOPC: Counts set bits of a scalar (R93) -/
  | spopc (d : BitVec 6) (a : BitVec 6)
  /-- SCLZ: Counts leading zeros of a scalar (R93) -/
  | sclz (d : BitVec 6) (a : BitVec 6)
  /-- CAND: AND of two condition bits (R93) -/
  | cand (d : BitVec 3) (a : BitVec 3) (b : BitVec 3)
  /-- COR: OR of two condition bits (R93) -/
  | cor (d : BitVec 3) (a : BitVec 3) (b : BitVec 3)
  /-- CXOR: XOR of two condition bits (R93) -/
  | cxor (d : BitVec 3) (a : BitVec 3) (b : BitVec 3)
  /-- CANDN: Condition a AND NOT b (R93) -/
  | candn (d : BitVec 3) (a : BitVec 3) (b : BitVec 3)
  /-- SREAD: Reads a special register into a scalar (R48) -/
  | sread (d : BitVec 6) (b : BitVec 6)
  /-- SWRITE: Writes a scalar to a writable special register such as %ejt (R48) -/
  | swrite (a : BitVec 6) (b : BitVec 6)
  /-- SLD: Loads one 64-bit scalar from column memory (R148) -/
  | sld (d : BitVec 6) (a : BitVec 6) (i : BitVec 8)
  /-- SST: Stores one 64-bit scalar to column memory (R148) -/
  | sst (d : BitVec 6) (a : BitVec 6) (i : BitVec 8)
  /-- IADD: Per-lane 32-bit add, optionally saturating (R95) -/
  | iadd (d : BitVec 6) (a : BitVec 6) (b : BitVec 6)
  /-- ISUB: Per-lane 32-bit subtract, optionally saturating (R95) -/
  | isub (d : BitVec 6) (a : BitVec 6) (b : BitVec 6)
  /-- IMIN: Per-lane signed minimum (R95) -/
  | imin (d : BitVec 6) (a : BitVec 6) (b : BitVec 6)
  /-- IMAX: Per-lane signed maximum (R95) -/
  | imax (d : BitVec 6) (a : BitVec 6) (b : BitVec 6)
  /-- IABS: Per-lane absolute value (R95) -/
  | iabs (d : BitVec 6) (a : BitVec 6)
  /-- INEG: Per-lane negation (R95) -/
  | ineg (d : BitVec 6) (a : BitVec 6)
  /-- IMUL: Per-lane low 32 bits of a product (R95) -/
  | imul (d : BitVec 6) (a : BitVec 6) (b : BitVec 6)
  /-- IMULH: Per-lane signed high half of a product (R95) -/
  | imulh (d : BitVec 6) (a : BitVec 6) (b : BitVec 6)
  /-- IMULHU: Per-lane unsigned high half of a product (R95) -/
  | imulhu (d : BitVec 6) (a : BitVec 6) (b : BitVec 6)
  /-- IMAD: Per-lane multiply-add with a fourth operand (R95) -/
  | imad (d : BitVec 6) (a : BitVec 6) (b : BitVec 6)
  /-- AND: Per-lane bitwise AND (R95) -/
  | and (d : BitVec 6) (a : BitVec 6) (b : BitVec 6)
  /-- OR: Per-lane bitwise OR (R95) -/
  | or (d : BitVec 6) (a : BitVec 6) (b : BitVec 6)
  /-- XOR: Per-lane bitwise XOR (R95) -/
  | xor (d : BitVec 6) (a : BitVec 6) (b : BitVec 6)
  /-- ANDN: Per-lane a AND NOT b (R95) -/
  | andn (d : BitVec 6) (a : BitVec 6) (b : BitVec 6)
  /-- SHL: Per-lane shift left by a register amount (R96) -/
  | shl (d : BitVec 6) (a : BitVec 6) (b : BitVec 6)
  /-- SHR: Per-lane logical shift right by a register amount (R96) -/
  | shr (d : BitVec 6) (a : BitVec 6) (b : BitVec 6)
  /-- SAR: Per-lane arithmetic shift right by a register amount (R96) -/
  | sar (d : BitVec 6) (a : BitVec 6) (b : BitVec 6)
  /-- ROL: Per-lane rotate left by a register amount (R96) -/
  | rol (d : BitVec 6) (a : BitVec 6) (b : BitVec 6)
  /-- POPC: Per-lane population count (R95) -/
  | popc (d : BitVec 6) (a : BitVec 6)
  /-- CLZ: Per-lane count of leading zeros (R95) -/
  | clz (d : BitVec 6) (a : BitVec 6)
  /-- BREV: Per-lane bit reversal (R95) -/
  | brev (d : BitVec 6) (a : BitVec 6)
  /-- PRMT: Per-lane byte permute with a selector operand (R97) -/
  | prmt (d : BitVec 6) (a : BitVec 6) (b : BitVec 6)
  /-- BFE: Per-lane signed bit-field extract (R97) -/
  | bfe (d : BitVec 6) (a : BitVec 6) (b : BitVec 6)
  /-- BFEU: Per-lane unsigned bit-field extract (R97) -/
  | bfeu (d : BitVec 6) (a : BitVec 6) (b : BitVec 6)
  /-- BFI: Per-lane bit-field insert into the fourth operand (R97) -/
  | bfi (d : BitVec 6) (a : BitVec 6) (b : BitVec 6)
  /-- IDOT4: Per-lane four-way signed byte dot product plus accumulator (R97) -/
  | idot4 (d : BitVec 6) (a : BitVec 6) (b : BitVec 6)
  /-- IADDI: Per-lane add of a sign-extended imm8 (R95) -/
  | iaddi (d : BitVec 6) (a : BitVec 6) (i : BitVec 8)
  /-- ANDI: Per-lane AND with a zero-extended imm8 (R95) -/
  | andi (d : BitVec 6) (a : BitVec 6) (i : BitVec 8)
  /-- ORI: Per-lane OR with a zero-extended imm8 (R95) -/
  | ori (d : BitVec 6) (a : BitVec 6) (i : BitVec 8)
  /-- XORI: Per-lane XOR with a zero-extended imm8 (R95) -/
  | xori (d : BitVec 6) (a : BitVec 6) (i : BitVec 8)
  /-- SHLI: Per-lane shift left by an immediate (R96) -/
  | shli (d : BitVec 6) (a : BitVec 6) (n : BitVec 5)
  /-- SHRI: Per-lane logical shift right by an immediate (R96) -/
  | shri (d : BitVec 6) (a : BitVec 6) (n : BitVec 5)
  /-- SARI: Per-lane arithmetic shift right by an immediate (R96) -/
  | sari (d : BitVec 6) (a : BitVec 6) (n : BitVec 5)
  /-- ROLI: Per-lane rotate left by an immediate (R96) -/
  | roli (d : BitVec 6) (a : BitVec 6) (n : BitVec 5)
  /-- ICMP: Per-lane signed compare into a k register (R98) -/
  | icmp (g : BitVec 3) (d : BitVec 3) (a : BitVec 6) (b : BitVec 6)
  /-- ICMP_U: Per-lane unsigned compare into a k register (R98) -/
  | icmpU (g : BitVec 3) (d : BitVec 3) (a : BitVec 6) (b : BitVec 6)
  /-- ICMPI: Per-lane signed compare with imm8 into a k register (R98) -/
  | icmpi (g : BitVec 3) (d : BitVec 3) (a : BitVec 6) (i : BitVec 8)
  /-- SEL: Per-lane select between two registers by the prefix mask (R99) -/
  | sel (d : BitVec 6) (a : BitVec 6) (b : BitVec 6)
  /-- VMOV: Per-lane register copy (R99) -/
  | vmov (d : BitVec 6) (a : BitVec 6)
  /-- VBC: Broadcasts the low 32 bits of a scalar to every lane (R99) -/
  | vbc (d : BitVec 6) (a : BitVec 6)
  /-- VGETL: Writes each lane's index (R99) -/
  | vgetl (d : BitVec 6)
  /-- VLI: Loads a sign-extended 14-bit immediate into every lane (R99) -/
  | vli (d : BitVec 6) (i : BitVec 14)
  /-- VSETL: Writes a scalar into one selected lane (R99) -/
  | vsetl (d : BitVec 6) (a : BitVec 6) (b : BitVec 6)
  /-- VLIS: Shifts each lane left by 12 and ORs a 12-bit immediate (R99) -/
  | vlis (d : BitVec 6) (i : BitVec 12)
  /-- IADDC: Per-lane 64-bit add of register pairs (R100) -/
  | iaddc (d : BitVec 5) (a : BitVec 5) (b : BitVec 5)
  /-- ISUBB: Per-lane 64-bit subtract of register pairs (R100) -/
  | isubb (d : BitVec 5) (a : BitVec 5) (b : BitVec 5)
  /-- FADD: FP32 add with one rounding (R105) -/
  | fadd (d : BitVec 6) (a : BitVec 6) (b : BitVec 6)
  /-- FSUB: FP32 subtract (R105) -/
  | fsub (d : BitVec 6) (a : BitVec 6) (b : BitVec 6)
  /-- FMUL: FP32 multiply (R105) -/
  | fmul (d : BitVec 6) (a : BitVec 6) (b : BitVec 6)
  /-- FFMA: FP32 fused multiply-add (R105) -/
  | ffma (d : BitVec 6) (a : BitVec 6) (b : BitVec 6)
  /-- FMIN: FP32 minimum with NaN rules (R105) -/
  | fmin (d : BitVec 6) (a : BitVec 6) (b : BitVec 6)
  /-- FMAX: FP32 maximum with NaN rules (R105) -/
  | fmax (d : BitVec 6) (a : BitVec 6) (b : BitVec 6)
  /-- FABS: Clears the FP32 sign bit (R105) -/
  | fabs (d : BitVec 6) (a : BitVec 6)
  /-- FNEG: Inverts the FP32 sign bit (R105) -/
  | fneg (d : BitVec 6) (a : BitVec 6)
  /-- FCMP: Ordered FP32 compare into a k register (R106) -/
  | fcmp (g : BitVec 3) (d : BitVec 3) (a : BitVec 6) (b : BitVec 6)
  /-- FCMP_U: Unordered FP32 compare into a k register (R106) -/
  | fcmpU (g : BitVec 3) (d : BitVec 3) (a : BitVec 6) (b : BitVec 6)
  /-- FRND: Rounds FP32 to an integral value (R107) -/
  | frnd (d : BitVec 6) (a : BitVec 6)
  /-- FSCALE: Multiplies FP32 by a power of two (R107) -/
  | fscale (d : BitVec 6) (a : BitVec 6) (b : BitVec 6)
  /-- FGETEXP: Extracts the FP32 exponent (R107) -/
  | fgetexp (d : BitVec 6) (a : BitVec 6)
  /-- FCLASS: Classifies an FP32 value as a one-hot mask (R107) -/
  | fclass (d : BitVec 6) (a : BitVec 6)
  /-- BFMA2: Packed BF16 pair fused multiply-add (R108) -/
  | bfma2 (d : BitVec 6) (a : BitVec 6) (b : BitVec 6)
  /-- FRCP: Correctly rounded FP32 reciprocal (R109) -/
  | frcp (d : BitVec 6) (a : BitVec 6)
  /-- FRSQ: Correctly rounded FP32 reciprocal square root (R109) -/
  | frsq (d : BitVec 6) (a : BitVec 6)
  /-- FSQRT: Correctly rounded FP32 square root (R109) -/
  | fsqrt (d : BitVec 6) (a : BitVec 6)
  /-- FTANH: Correctly rounded FP32 tanh (R109) -/
  | ftanh (d : BitVec 6) (a : BitVec 6)
  /-- FEXP2: Correctly rounded FP32 power of two (R109) -/
  | fexp2 (d : BitVec 6) (a : BitVec 6)
  /-- FLOG2: Correctly rounded FP32 base-2 logarithm (R109) -/
  | flog2 (d : BitVec 6) (a : BitVec 6)
  /-- FSIN: Correctly rounded FP32 sine (R109) -/
  | fsin (d : BitVec 6) (a : BitVec 6)
  /-- FCOS: Correctly rounded FP32 cosine (R109) -/
  | fcos (d : BitVec 6) (a : BitVec 6)
  /-- CVT_F2I: Converts FP32 to signed integer (R110) -/
  | cvtF2i (d : BitVec 6) (a : BitVec 6)
  /-- CVT_F2U: Converts FP32 to unsigned integer (R110) -/
  | cvtF2u (d : BitVec 6) (a : BitVec 6)
  /-- CVT_I2F: Converts signed integer to FP32 (R110) -/
  | cvtI2f (d : BitVec 6) (a : BitVec 6)
  /-- CVT_U2F: Converts unsigned integer to FP32 (R110) -/
  | cvtU2f (d : BitVec 6) (a : BitVec 6)
  /-- CVT_F2B: Packs two FP32 values into a BF16 pair (R111) -/
  | cvtF2b (d : BitVec 6) (a : BitVec 6) (b : BitVec 6)
  /-- CVT_F2H: Packs two FP32 values into an FP16 pair (R111) -/
  | cvtF2h (d : BitVec 6) (a : BitVec 6) (b : BitVec 6)
  /-- CVT_B2F: Widens one BF16 element to FP32 (R111) -/
  | cvtB2f (d : BitVec 6) (a : BitVec 6) (b : BitVec 1)
  /-- CVT_H2F: Widens one FP16 element to FP32 (R111) -/
  | cvtH2f (d : BitVec 6) (a : BitVec 6) (b : BitVec 1)
  /-- PACK_E4M3: Packs four FP32 values into saturating E4M3 bytes (R112) -/
  | packE4m3 (d : BitVec 6) (a : BitVec 5) (b : BitVec 5)
  /-- PACK_E5M2: Packs four FP32 values into E5M2 bytes (R112) -/
  | packE5m2 (d : BitVec 6) (a : BitVec 5) (b : BitVec 5)
  /-- UNPK_E4M3: Unpacks two E4M3 bytes to FP32 (R113) -/
  | unpkE4m3 (d : BitVec 5) (a : BitVec 6) (b : BitVec 1)
  /-- UNPK_E5M2: Unpacks two E5M2 bytes to FP32 (R113) -/
  | unpkE5m2 (d : BitVec 5) (a : BitVec 6) (b : BitVec 1)
  /-- PACK_TS8: Packs four scaled FP32 values into canonical TS8 bytes (R114) -/
  | packTs8 (d : BitVec 6) (a : BitVec 5) (b : BitVec 5)
  /-- UNPK_TS8: Unpacks two TS8 bytes to FP32 (R114) -/
  | unpkTs8 (d : BitVec 5) (a : BitVec 6) (b : BitVec 1)
  /-- MXSCALE: Computes the shared E8M0 block scale over the participating lanes (R115) -/
  | mxscale (d : BitVec 6) (a : BitVec 6) (b : BitVec 2)
  /-- MXAPPLY: Divides each element by its block scale (R116) -/
  | mxapply (d : BitVec 6) (a : BitVec 6) (b : BitVec 6)
  /-- LPICK: Reads a freely chosen source lane (R133) -/
  | lpick (d : BitVec 6) (a : BitVec 6) (b : BitVec 6)
  /-- LROT: Rotates values around all 32 lanes (R133) -/
  | lrot (d : BitVec 6) (a : BitVec 6) (b : BitVec 6)
  /-- LXOR: Butterfly lane exchange (R133) -/
  | lxor (d : BitVec 6) (a : BitVec 6) (b : BitVec 6)
  /-- LSPAN: Rotates within aligned spans of lanes (R133) -/
  | lspan (d : BitVec 6) (a : BitVec 6) (b : BitVec 6)
  /-- KSOME: Tests whether any participating lane's mask bit is set (R134) -/
  | ksome (d : BitVec 3) (a : BitVec 3)
  /-- KEVERY: Tests whether every participating lane's bit is set (R134) -/
  | kevery (d : BitVec 3) (a : BitVec 3)
  /-- KONE: Tests whether exactly one participating lane's bit is set (R134) -/
  | kone (d : BitVec 3) (a : BitVec 3)
  /-- KSAME: Tests whether all participating lanes' bits agree (R134) -/
  | ksame (d : BitVec 3) (a : BitVec 3)
  /-- LPEERS: Writes each lane the mask of lanes holding an equal value (R135) -/
  | lpeers (d : BitVec 6) (a : BitVec 6)
  /-- LFIRST: Writes each lane the lowest lane holding an equal value (R135) -/
  | lfirst (d : BitVec 6) (a : BitVec 6)
  /-- KPOPC: Counts participating lanes with a mask bit set (R135) -/
  | kpopc (d : BitVec 6) (a : BitVec 3)
  /-- KFFS: Finds the lowest participating lane with a mask bit set (R135) -/
  | kffs (d : BitVec 6) (a : BitVec 3)
  /-- FOLD: Reduces a register over the participating lanes into a scalar (R136) -/
  | fold (d : BitVec 6) (a : BitVec 6) (b : BitVec 6)
  /-- FOLD_BC: Reduces over the participating lanes and broadcasts the result (R136) -/
  | foldBc (d : BitVec 6) (a : BitVec 6) (b : BitVec 6)
  /-- SCAN_INC: Inclusive scan along the participating lanes (R137) -/
  | scanInc (d : BitVec 6) (a : BitVec 6) (b : BitVec 6)
  /-- SCAN_EXC: Exclusive scan along the participating lanes (R137) -/
  | scanExc (d : BitVec 6) (a : BitVec 6) (b : BitVec 6)
  /-- SEGRED: Segmented reduction written to every lane of each segment (R138) -/
  | segred (d : BitVec 6) (a : BitVec 6) (k : BitVec 3) (p : BitVec 3)
  /-- SEGSCAN: Segmented inclusive scan (R138) -/
  | segscan (d : BitVec 6) (a : BitVec 6) (k : BitVec 3) (p : BitVec 3)
  /-- KAND: Lane-mask AND (R139) -/
  | kand (d : BitVec 3) (a : BitVec 3) (b : BitVec 3)
  /-- KOR: Lane-mask OR (R139) -/
  | kor (d : BitVec 3) (a : BitVec 3) (b : BitVec 3)
  /-- KXOR: Lane-mask XOR (R139) -/
  | kxor (d : BitVec 3) (a : BitVec 3) (b : BitVec 3)
  /-- KANDN: Lane-mask a AND NOT b (R139) -/
  | kandn (d : BitVec 3) (a : BitVec 3) (b : BitVec 3)
  /-- KLD: Loads a lane mask from a scalar (R139) -/
  | kld (d : BitVec 3) (a : BitVec 6)
  /-- KST: Stores the participating lanes' mask bits to a scalar (R139) -/
  | kst (d : BitVec 6) (a : BitVec 3)
  /-- KNOT: Lane-mask NOT (R139) -/
  | knot (d : BitVec 3) (a : BitVec 3)
  /-- KACT: Sets a mask bit for each lane whose register is nonzero (R139) -/
  | kact (d : BitVec 3) (a : BitVec 6)
  /-- BR: Branches when the condition bit is set (R118) -/
  | br (k : BitVec 3) (o : BitVec 16)
  /-- BR_F: Branches when the condition bit is clear (R118) -/
  | brF (k : BitVec 3) (o : BitVec 16)
  /-- JMP: Jumps by a signed 20-bit packet offset (R118) -/
  | jmp (o : BitVec 20)
  /-- CALL: Jumps and writes the return packet to s63 (R118) -/
  | call (o : BitVec 20)
  /-- JMPI: Jumps to the packet held in a scalar (R118) -/
  | jmpi (a : BitVec 6)
  /-- CALLI: Calls the packet held in a scalar (R118) -/
  | calli (a : BitVec 6)
  /-- SPLIT: Divides the path by a mask, opening or sharing a divergent region (R122) -/
  | split (k : BitVec 3) (t : BitVec 10) (j : BitVec 7)
  /-- BRT: Per-lane table branch opening one region for all destinations (R123) -/
  | brt (a : BitVec 6) (n : BitVec 8)
  /-- WAIT_L: Blocks until at most n variable-latency writes are pending (R129) -/
  | waitL (a : BitVec 6)
  /-- WAIT_M: Blocks until at most n earlier memory words are unperformed (R129) -/
  | waitM (a : BitVec 6)
  /-- SLEEP: Blocks the path for at least a given number of cycles (R129) -/
  | sleep (a : BitVec 6)
  /-- LD: Per-lane load of 1, 2, 4 or 8 bytes from column memory (R144) -/
  | ld (d : BitVec 6) (a : BitVec 6) (b : BitVec 6) (z : BitVec 2)
  /-- LDS_B: Per-lane sign-extending byte load (R144) -/
  | ldsB (d : BitVec 6) (a : BitVec 6) (b : BitVec 6)
  /-- LDS_H: Per-lane sign-extending halfword load (R144) -/
  | ldsH (d : BitVec 6) (a : BitVec 6) (b : BitVec 6)
  /-- LD_Q: Per-lane 16-byte load into a register quad (R144) -/
  | ldQ (d : BitVec 4) (a : BitVec 6) (b : BitVec 6)
  /-- PF: Prefetches lines into the L1 without writing registers (R146) -/
  | pf (a : BitVec 6) (b : BitVec 6)
  /-- ST: Per-lane store of 1, 2, 4 or 8 bytes to column memory (R145) -/
  | st (d : BitVec 6) (a : BitVec 6) (b : BitVec 6) (z : BitVec 2)
  /-- ST_Q: Per-lane 16-byte store from a register quad (R145) -/
  | stQ (d : BitVec 4) (a : BitVec 6) (b : BitVec 6)
  /-- LDL: Per-lane load from the group's local store (R147) -/
  | ldl (d : BitVec 6) (a : BitVec 6) (b : BitVec 6) (z : BitVec 2)
  /-- STL: Per-lane store to the group's local store (R147) -/
  | stl (d : BitVec 6) (a : BitVec 6) (b : BitVec 6) (z : BitVec 2)
  /-- LD_ACQ_W: Word load followed by an acquire at its scope (R150) -/
  | ldAcqW (d : BitVec 6) (a : BitVec 6) (b : BitVec 6)
  /-- LD_ACQ_D: Doubleword load followed by an acquire at its scope (R150) -/
  | ldAcqD (d : BitVec 5) (a : BitVec 6) (b : BitVec 6)
  /-- ST_REL_W: Release at its scope followed by a word store (R150) -/
  | stRelW (d : BitVec 6) (a : BitVec 6) (b : BitVec 6)
  /-- ST_REL_D: Release at its scope followed by a doubleword store (R150) -/
  | stRelD (d : BitVec 5) (a : BitVec 6) (b : BitVec 6)
  /-- ATOM_ADD: Atomic 32-bit add at the slice, returning the old value (R154) -/
  | atomAdd (d : BitVec 6) (a : BitVec 6) (b : BitVec 6)
  /-- ATOM_MIN: Atomic signed minimum (R154) -/
  | atomMin (d : BitVec 6) (a : BitVec 6) (b : BitVec 6)
  /-- ATOM_MAX: Atomic signed maximum (R154) -/
  | atomMax (d : BitVec 6) (a : BitVec 6) (b : BitVec 6)
  /-- ATOM_AND: Atomic bitwise AND (R154) -/
  | atomAnd (d : BitVec 6) (a : BitVec 6) (b : BitVec 6)
  /-- ATOM_OR: Atomic bitwise OR (R154) -/
  | atomOr (d : BitVec 6) (a : BitVec 6) (b : BitVec 6)
  /-- ATOM_XOR: Atomic bitwise XOR (R154) -/
  | atomXor (d : BitVec 6) (a : BitVec 6) (b : BitVec 6)
  /-- ATOM_XCHG: Atomic exchange (R154) -/
  | atomXchg (d : BitVec 6) (a : BitVec 6) (b : BitVec 6)
  /-- ATOM_CAS: Atomic compare-and-swap using a register pair (R154) -/
  | atomCas (d : BitVec 5) (a : BitVec 6) (b : BitVec 6)
  /-- ATOM_MINU: Atomic unsigned minimum (R154) -/
  | atomMinu (d : BitVec 6) (a : BitVec 6) (b : BitVec 6)
  /-- ATOM_MAXU: Atomic unsigned maximum (R154) -/
  | atomMaxu (d : BitVec 6) (a : BitVec 6) (b : BitVec 6)
  /-- ATOM_INC: Atomic wrapping increment (R154) -/
  | atomInc (d : BitVec 6) (a : BitVec 6) (b : BitVec 6)
  /-- ATOM_DEC: Atomic wrapping decrement (R154) -/
  | atomDec (d : BitVec 6) (a : BitVec 6) (b : BitVec 6)
  /-- ATOM_FADD: Atomic FP32 add (R154) -/
  | atomFadd (d : BitVec 6) (a : BitVec 6) (b : BitVec 6)
  /-- ATOM_FMIN: Atomic FP32 minimum (R154) -/
  | atomFmin (d : BitVec 6) (a : BitVec 6) (b : BitVec 6)
  /-- ATOM_FMAX: Atomic FP32 maximum (R154) -/
  | atomFmax (d : BitVec 6) (a : BitVec 6) (b : BitVec 6)
  /-- ATOM_ADD64: Atomic 64-bit add using a register pair (R154) -/
  | atomAdd64 (d : BitVec 5) (a : BitVec 6) (b : BitVec 6)
  /-- ATOML_ADD: Atomic add on local store (R158) -/
  | atomlAdd (d : BitVec 6) (a : BitVec 6) (b : BitVec 6)
  /-- ATOML_MIN: Atomic signed minimum on local store (R158) -/
  | atomlMin (d : BitVec 6) (a : BitVec 6) (b : BitVec 6)
  /-- ATOML_MAX: Atomic signed maximum on local store (R158) -/
  | atomlMax (d : BitVec 6) (a : BitVec 6) (b : BitVec 6)
  /-- ATOML_CAS: Atomic compare-and-swap on local store (R158) -/
  | atomlCas (d : BitVec 5) (a : BitVec 6) (b : BitVec 6)
  /-- RED_ADD: No-return add combined into the agent's U copy (R155) -/
  | redAdd (d : BitVec 6) (a : BitVec 6) (b : BitVec 6)
  /-- RED_MIN: No-return signed minimum reduction (R155) -/
  | redMin (d : BitVec 6) (a : BitVec 6) (b : BitVec 6)
  /-- RED_MAX: No-return signed maximum reduction (R155) -/
  | redMax (d : BitVec 6) (a : BitVec 6) (b : BitVec 6)
  /-- RED_FADD: No-return FP32 add reduction (R155) -/
  | redFadd (d : BitVec 6) (a : BitVec 6) (b : BitVec 6)
  /-- RED_BAY_ADD: No-return add performed at the slice (R156) -/
  | redBayAdd (d : BitVec 6) (a : BitVec 6) (b : BitVec 6)
  /-- RED_BAY_MIN: No-return signed minimum at the slice (R156) -/
  | redBayMin (d : BitVec 6) (a : BitVec 6) (b : BitVec 6)
  /-- RED_BAY_MAX: No-return signed maximum at the slice (R156) -/
  | redBayMax (d : BitVec 6) (a : BitVec 6) (b : BitVec 6)
  /-- RED_BAY_FADD: No-return FP32 add at the slice (R156) -/
  | redBayFadd (d : BitVec 6) (a : BitVec 6) (b : BitVec 6)
  /-- CCLEAN: Writes a line's dirty bytes toward the bay, keeping it valid (R152) -/
  | cclean (a : BitVec 6) (b : BitVec 6)
  /-- CINV: Cleans and then drops a line from the core L1 (R152) -/
  | cinv (a : BitVec 6) (b : BitVec 6)
  /-- TBEGIN: Acquires at column scope and opens a transaction (R159) -/
  | tbegin (d : BitVec 3)
  /-- TABORT: Aborts the open transaction with a user code (R162) -/
  | tabort (a : BitVec 6)
  /-- TSTAT: Reads the status of the warp's most recent transaction (R162) -/
  | tstat (d : BitVec 6)
  /-- XCH_XOR: Exchanges a vector with gcol c xor m (R300) -/
  | xchXor (d : BitVec 6) (a : BitVec 6) (b : BitVec 6)
  /-- XCH_ROT: Sends a vector k gcols up and receives from k below (R300) -/
  | xchRot (d : BitVec 6) (a : BitVec 6) (b : BitVec 6)
  /-- XCH_BC: Broadcasts the root's vector to every gcol (R300) -/
  | xchBc (d : BitVec 6) (a : BitVec 6) (b : BitVec 6)
  /-- XCH_GATH: Gathers every gcol's vector into the root's local store (R300) -/
  | xchGath (a : BitVec 6) (b : BitVec 6)
  /-- XRED: Reduces every gcol's vector at the root in gcol order (R302) -/
  | xred (d : BitVec 6) (a : BitVec 6) (b : BitVec 6)
  /-- BNEW: Allocates a barrier entry and returns its handle (R169) -/
  | bnew (d : BitVec 6) (a : BitVec 6) (b : BitVec 6)
  /-- BFREE: Waits for engine commands naming the barrier, then frees it (R170) -/
  | bfree (a : BitVec 6)
  /-- BEXP: Adds to the byte target, posts it and tests the barrier (R171) -/
  | bexp (a : BitVec 6) (b : BitVec 6)
  /-- BARR: Releases at group scope, counts one arrival and returns a ticket (R172) -/
  | barr (d : BitVec 6) (a : BitVec 6)
  /-- BWAIT: Waits for the named phase to complete, then acquires (R173) -/
  | bwait (a : BitVec 6)
  /-- BWAITG: Waits until the barrier reaches a target generation, then acquires (R173) -/
  | bwaitg (a : BitVec 6) (b : BitVec 6)
  /-- BTEST: Returns a barrier's status without waiting (R173) -/
  | btest (d : BitVec 6) (a : BitVec 6)
  /-- HWAIT: Waits on a future handle, acquires on DONE, traps on FAULTED (R175) -/
  | hwait (a : BitVec 4)
  /-- HTEST: Returns a future handle's status (R176) -/
  | htest (d : BitVec 6) (a : BitVec 4)
  /-- HCANCEL: Stops the handle's command at its next pre-emption point and frees it (R176) -/
  | hcancel (a : BitVec 4)
  /-- HGET: Converts a handle to a token and frees the handle (R177) -/
  | hget (d : BitVec 6) (a : BitVec 4)
  /-- HPUT: Installs a token into a handle (R177) -/
  | hput (d : BitVec 4) (a : BitVec 6)
  /-- COPY: Issues a copy command on a copy queue (R241) -/
  | copy (a : BitVec 6) (b : BitVec 6) (h : BitVec 4) (q : BitVec 2)
  /-- GATH: Issues a gather of table rows chosen by an index tensor (R247) -/
  | gath (a : BitVec 6) (b : BitVec 6) (h : BitVec 4)
  /-- SCAT: Issues a scatter of rows into table rows chosen by an index tensor (R247) -/
  | scat (a : BitVec 6) (b : BitVec 6) (h : BitVec 4)
  /-- COPY_RST: Restarts a faulted copy or gather command from its report (R255) -/
  | copyRst (a : BitVec 6) (b : BitVec 6) (h : BitVec 4)
  /-- MLDW: Loads a weight tile from a grant into the shadow plane (R273) -/
  | mldw (a : BitVec 6) (b : BitVec 6) (h : BitVec 4)
  /-- MSWAP: Exchanges the active and shadow planes (R274) -/
  | mswap (h : BitVec 4)
  /-- MZERO: Clears an accumulator tile (R274) -/
  | mzero (m : BitVec 2) (h : BitVec 4)
  /-- MLOOP: Runs K-steps of the thresher into an accumulator tile (R276) -/
  | mloop (a : BitVec 6) (b : BitVec 6) (h : BitVec 4) (m : BitVec 2)
  /-- MRD: Reads one accumulator row into a register quad (R279) -/
  | mrd (a : BitVec 4) (b : BitVec 6) (m : BitVec 2)
  /-- MSTR: Stores accumulator rows to a tensor with conversion (R281) -/
  | mstr (a : BitVec 6) (m : BitVec 2) (h : BitVec 4)
  /-- CRES: Allocates a crib grant (R264) -/
  | cres (a : BitVec 6) (b : BitVec 6) (c : BitVec 6)
  /-- CREL: Waits for commands naming the grant, then frees it (R265) -/
  | crel (a : BitVec 6)
  /-- CSTAT: Returns the near pointer to a grant through the crib window (R265) -/
  | cstat (a : BitVec 6) (b : BitVec 6)
  /-- TRAP: Raises USER_TRAP with a 20-bit code (R180) -/
  | trap (i : BitVec 20)
  /-- ERET: Ends trap handling: resume, skip, end group or end launch (R185) -/
  | eret (a : BitVec 6)
  /-- TLBI: Invalidates a page or context translation and blocks until completion (R186) -/
  | tlbi (a : BitVec 6) (b : BitVec 6)
  /-- WINR: Reads agent state through the debug window (R184) -/
  | winr (d : BitVec 6) (a : BitVec 6)
  /-- WINW: Writes agent state through the debug window (R184) -/
  | winw (a : BitVec 6) (b : BitVec 6)
  /-- CLKR: Samples %time and %clk into a scalar pair (R181) -/
  | clkr (d : BitVec 5)
  /-- PERF: Reads a performance counter (R181) -/
  | perf (d : BitVec 6) (b : BitVec 6)
  /-- EJCTL: Reads and writes the warp's ejection control word (R203) -/
  | ejctl (d : BitVec 6) (a : BitVec 6)
  /-- SIGNAL: Releases at host scope and sends an MSI-X vector (R182) -/
  | signal (a : BitVec 6)
  /-- LAUNCH: Releases at device scope and hands a task record to the distributor (R183) -/
  | launch (a : BitVec 6) (b : BitVec 6) (h : BitVec 4)
  /-- PREFIX: Supplies mask, rounding, fourth operand, hints, extension and saturation to its base word (R42) -/
  | pfx (k : BitVec 3) (z : BitVec 1) (r : BitVec 3) (x : BitVec 6) (p : BitVec 2) (e : BitVec 2) (u : BitVec 1) (y : BitVec 1) (t : BitVec 1)
  /-- IMINU: Per-lane unsigned minimum (R95) -/
  | iminu (d : BitVec 6) (a : BitVec 6) (b : BitVec 6)
  /-- IMAXU: Per-lane unsigned maximum (R95) -/
  | imaxu (d : BitVec 6) (a : BitVec 6) (b : BitVec 6)
  /-- BADD2: Packed BF16 pair add (R108) -/
  | badd2 (d : BitVec 6) (a : BitVec 6) (b : BitVec 6)
  /-- BSUB2: Packed BF16 pair subtract (R108) -/
  | bsub2 (d : BitVec 6) (a : BitVec 6) (b : BitVec 6)
  /-- BMUL2: Packed BF16 pair multiply (R108) -/
  | bmul2 (d : BitVec 6) (a : BitVec 6) (b : BitVec 6)
  /-- HADD2: Packed FP16 pair add (R108) -/
  | hadd2 (d : BitVec 6) (a : BitVec 6) (b : BitVec 6)
  /-- HSUB2: Packed FP16 pair subtract (R108) -/
  | hsub2 (d : BitVec 6) (a : BitVec 6) (b : BitVec 6)
  /-- HMUL2: Packed FP16 pair multiply (R108) -/
  | hmul2 (d : BitVec 6) (a : BitVec 6) (b : BitVec 6)
  /-- HFMA2: Packed FP16 pair fused multiply-add (R108) -/
  | hfma2 (d : BitVec 6) (a : BitVec 6) (b : BitVec 6)
  /-- BMIN2: Packed BF16 pair minimum (R108) -/
  | bmin2 (d : BitVec 6) (a : BitVec 6) (b : BitVec 6)
  /-- BMAX2: Packed BF16 pair maximum (R108) -/
  | bmax2 (d : BitVec 6) (a : BitVec 6) (b : BitVec 6)
  /-- HMIN2: Packed FP16 pair minimum (R108) -/
  | hmin2 (d : BitVec 6) (a : BitVec 6) (b : BitVec 6)
  /-- HMAX2: Packed FP16 pair maximum (R108) -/
  | hmax2 (d : BitVec 6) (a : BitVec 6) (b : BitVec 6)
  /-- NOP: Does nothing (R179) -/
  | nop
  /-- YIELD: Ends the run and keeps the warp out of its quarter's next arbitration (R179) -/
  | yield
  /-- EXIT: Retires the path's lanes; the warp's last exit waits for its outstanding work, releases at column scope and frees the slot (R179) -/
  | exit
  /-- RET: Returns to the packet in s63 (R118) -/
  | ret
  /-- JOIN: Arrives at the region's join and merges when all lanes have arrived (R124) -/
  | join
  /-- FENCE: Full fence at the prefix scope, group by default (R151) -/
  | fence
  /-- TEND: Validates the read set and commits the write set in one step (R161) -/
  | tend
  /-- XBAR: Gang-scope barrier and full fence over the warp's members (R303) -/
  | xbar
  /-- TOKWAIT: Blocks until the warp holds the column's commit token (R178) -/
  | tokwait
  /-- TOKPASS: Hands the commit token to the next holder with a column release (R178) -/
  | tokpass
  /-- RUN_ARBITRATION: At a run boundary the quarter chooses the next warp's run by priority, role credit and age (R81) -/
  | runArbitration (col : Nat) (q : Nat)
  /-- VARIABLE_LATENCY_LAND: A pending load, engine or other variable-latency result lands in all lanes at once (R82) -/
  | variableLatencyLand (col : Nat) (agent : Nat) (id : Nat)
  /-- NACK_RETRY: A refused request's retry timer expires and the request is resent (R142) -/
  | nackRetry (col : Nat) (rid : Nat)
  /-- SLEEP_EXPIRE: A SLEEP's cycle count has passed and the path may issue again (R129) -/
  | sleepExpire (col : Nat) (agent : Nat) (slotB : Bool)
  /-- REJOIN_TIMEOUT: The rejoin timer reaches its limit and the warp parks (R199) -/
  | rejoinTimeout (col : Nat) (slot : Nat)
  /-- LANE_CONTEXT_START: An ejected lane's transfer and write-back are done and its gleaner context starts with an acquire (R195) -/
  | laneContextStart (col : Nat) (ctx : Nat)
  /-- LANE_RETURN: A returning lane's registers reach the warp and it joins the arrived set (R196) -/
  | laneReturn (col : Nat) (ctx : Nat)
  /-- TASK_RECORD_CHECK: The distributor takes a LAUNCH, checks the task record and RCB, and creates the launch or refuses it (R326) -/
  | taskRecordCheck
  /-- LAUNCH_RING_ENTRY: In hardware mode the distributor takes the next launch-ring entry and launches it (R339) -/
  | launchRingEntry (fn : Nat)
  /-- LAUNCH_COMPLETE: Every group of a launch has ended and its future becomes DONE (R336) -/
  | launchComplete (node : Nat)
  /-- MAKE_RESIDENT: The distributor makes a waiting group resident on a core and restores or initializes it (R332) -/
  | makeResident (col : Nat)
  /-- PREEMPT_GROUP: The distributor pre-empts a resident group and saves its state (R352) -/
  | preemptGroup (col : Nat) (entry : Nat)
  /-- QUANTUM_EXPIRE: A resident group's quantum runs out and it is pre-empted or restarted (R333) -/
  | quantumExpire (col : Nat) (entry : Nat)
  /-- WAIT_PRIORITY_RISE: A waiting group's effective priority rises after each full quantum of waiting (R332) -/
  | waitPriorityRise (node : Nat) (group : Nat)
  /-- START_TIME_REACHED: A held launch's groups become eligible once %time reaches the start time (R329) -/
  | startTimeReached (node : Nat)
  /-- WATCHDOG: A runtime counter reaches its budget and every group of the launch or region ends (R335) -/
  | watchdog (node : Nat)
  /-- CLAIM_SPAN: An engine command records its ownership claims, waiting for a free table entry (R242) -/
  | claimSpan (col : Nat) (id : Nat)
  /-- COPY_COMMAND_START: A queued copy or gather command begins transfers once its predecessors are done (R238) -/
  | copyCommandStart (col : Nat) (id : Nat)
  /-- COPY_TRANSFER: The copy engine performs one transfer of a box (R232) -/
  | copyTransfer (col : Nat) (id : Nat)
  /-- GATHER_TRANSFER: The gather engine performs one transfer over its index positions (R247) -/
  | gatherTransfer (col : Nat) (id : Nat)
  /-- ENGINE_COMMAND_DONE: All transfers are performed and counted and the command's future becomes DONE (R241) -/
  | engineCommandDone (col : Nat) (id : Nat)
  /-- BAR_BYTES_DELIVERED: A transfer's byte count is added to a barrier's BYTES and the barrier is tested (R168) -/
  | barBytesDelivered (col : Nat)
  /-- THRESHER_COMMAND_START: A thresher command reaches the head of its queue and is checked (R283) -/
  | thresherCommandStart (col : Nat) (node : Nat)
  /-- THRESHER_KSTEP: One K-step enters its rows into the array (R276) -/
  | thresherKstep (col : Nat) (node : Nat)
  /-- MLOOP_ROWS_LANDED: The last step's rows land in the tile and the MLOOP future becomes DONE (R276) -/
  | mloopRowsLanded (col : Nat) (node : Nat)
  /-- ROUTER_CYCLE: Each router places, ejects or deflects the flits present in a cycle (R291) -/
  | routerCycle
  /-- INJECTION_WINDOW: A new 1,024-cycle window begins and quota counts restart (R295) -/
  | injectionWindow
  /-- XDATA: An exchange message is written into its mailbox slot and acknowledged, or refused if the slot is full (R297) -/
  | xdata (col : Nat)
  /-- ACK: An acknowledgement reaches its reassembly entry (R296) -/
  | ack (col : Nat)
  /-- NACK: A refusal reaches its requester, which sets a retry timer (R290) -/
  | nack (col : Nat)
  /-- XCTL_ARRIVAL: An XBAR arrival reaches gcol 0's bay, which releases all members when complete (R303) -/
  | xctlArrival (col : Nat)
  /-- XCTL_RELEASE: An XBAR release reaches a member, which acquires at gang scope (R303) -/
  | xctlRelease (col : Nat)
  /-- XRED_COMBINE: The root bay combines all contributions in gcol order once they stand (R302) -/
  | xredCombine (col : Nat) (slot : Nat)
  /-- RD: An engine read request is served at a remote bay (R290) -/
  | rd (col : Nat)
  /-- RDATA: Read data reaches the requesting engine (R290) -/
  | rdata (col : Nat)
  /-- WDATA: Engine write data is written at a remote bay's slice (R251) -/
  | wdata (col : Nat)
  /-- MGMT: Debug-window, containment or distributor traffic reaches its target (R290) -/
  | mgmt (col : Nat)
  /-- SLICE_REQUEST: A request reaches a slice and is admitted or refused with a NACK (R312) -/
  | sliceRequest (col : Nat) (rid : Nat)
  /-- HBM_FILL: A line's fill from the HBM5 channel lands in its slice (R316) -/
  | hbmFill (col : Nat) (line : Nat)
  /-- BAY_MODE_SWITCH: A MODE write flushes the bay and applies the new mode (R314) -/
  | bayModeSwitch (col : Nat) (mode : BitVec 2)
  /-- CARVE_CHANGE: A CARVE write starts growing or shrinks the carve-out (R315) -/
  | carveChange (col : Nat) (ways : Nat)
  /-- CARVE_GROW_DONE: The added ways are clean; the new bytes are zeroed and CARVE_CUR rises (R315) -/
  | carveGrowDone (col : Nat)
  /-- BAY_RGN_HT_WRITE: A host-tier register write, refused while host-tier lines stand (R311) -/
  | bayRgnHtWrite (col : Nat) (n : Nat) (val : BitVec 64)
  /-- BAY_ALIAS_WRITE: An alias register write, refused with ERR on a rule break; clearing EN drains the range (R217) -/
  | bayAliasWrite (col : Nat) (n : Nat) (back : Bool) (val : BitVec 64)
  /-- SLSTAT_READ: A read of BAY_SLSTAT returns the counters and clears PEAK (R309) -/
  | slstatRead (col : Nat) (sl : Nat)
  /-- DUTY_MAP_WRITE: Selects hardware or host-assisted mode for each duty (R365) -/
  | dutyMapWrite (val : BitVec 64)
  /-- RING_CFG_WRITE: Enabling a launch or fault-report ring restarts its head and tail counts (R363) -/
  | ringCfgWrite (fn : Nat) (fault : Bool) (val : BitVec 64)
  /-- REGISTER_WRITE: A write to a register with no behaviour of its own, refused if it breaks a rule (R363) -/
  | registerWrite (sp : Nat) (off : Nat) (val : BitVec 64)
  /-- ATTEST: Selvis answers a nonce with a report signed under both schemes (R371) -/
  | attest
  /-- PFAULT_DONE: The host answers a page fault: retry, end group or end launch (R364) -/
  | pfaultDone
  /-- TRAIN: The host supplies trained parameters for an HBM5 channel (R365) -/
  | train
  /-- SCRUB: The host requests a scrub of a column range (R364) -/
  | scrub
  /-- ETH: The host sets a port's PCS and PMA parameters (R366) -/
  | eth
  /-- THERMAL: The host sets the clock step and power cap (R372) -/
  | thermal
  /-- SERVICE: The host installs, rewrites or removes a service region (R322) -/
  | service
  /-- QP: The host creates, binds or destroys a queue pair (R366) -/
  | qp
  /-- FWUPDATE: Selvis verifies a signed image and restarts factor cores 1 to 3 with it (R370) -/
  | fwupdate
  /-- ECC_SCRUB: In hardware mode field firmware scrubs every HBM share once each 24 hours (R365) -/
  | eccScrub
  /-- THERMAL_SAMPLE: Every 100 µs the policy samples power and temperature and may step the clock (R372) -/
  | thermalSample (power : Nat) (avg1 : Nat) (avg10 : Nat) (junction : Nat)
  /-- EMERGENCY_TRIP: A junction reaches 110 °C and hardware stops the clocks (R372) -/
  | emergencyTrip
  /-- BOOT: From reset the module runs its boot sequence up to ready (R368) -/
  | boot (fail : Nat) (net : Bool)
  /-- FUNCTION_LEVEL_RESET: A VF reset ends its region's launches and unbinds the region (R362) -/
  | functionLevelReset (vf : Nat)
  /-- PTP_SYNC: An IEEE 1588 timestamp corrects the device time base by slewing or forward step (R367) -/
  | ptpSync (port : Nat) (offset : Int)
  /-- PEER_RDMA_REQUEST: A peer's RoCEv2 request arrives; unsupported operations get a NAK (R366) -/
  | peerRdmaRequest (port : Nat) (qpn : Nat) (kind : Nat) (col : Nat) (pa : Nat) (data : List (BitVec 8))
  /-- STRAND_BEAT_ERROR: A column-bus beat fails its check code and is resent (R359) -/
  | strandBeatError (col : Nat) (strand : Nat) (beat : Nat) (again : Bool)
  /-- STRAND_RETIRE: A twice-failed strand is retired and its lines moved to substitute slices (R359) -/
  | strandRetire (col : Nat) (strand : Nat)
  /-- LINK_CHECK_ERROR: A fabric link's check code fails; the flit is resent or the link retired (R358) -/
  | linkCheckError (router : Nat) (port : Nat) (again : Bool)
  /-- CONTAINMENT: A lasting core or memory failure takes the part offline and each region contains it (R360) -/
  | containment (col : Nat) (memory : Bool)
  /-- MIGRATE_PAGE: The factor complex moves a page between HBM and the host tier (R357) -/
  | migratePage (ctx : Nat) (col : Nat) (va : Nat) (dest : Nat)
  /-- TLBI_COMPLETE: Every named column has dropped the entry and drained its accesses (R356) -/
  | tlbiComplete (col : Nat)
  /-- TINKER_EVENT: The tinker takes the next event with its record in s0 to s3 (R346) -/
  | tinkerEvent (col : Nat)
  /-- DEBUG_RESTART: A debug-window write restarts a faulted command (R256) -/
  | debugRestart (col : Nat) (slot : Nat) (h : BitVec 4)
  /-- DEBUG_CANCEL: A debug-window write cancels a command as HCANCEL does (R349) -/
  | debugCancel (col : Nat) (slot : Nat) (h : BitVec 4)
  /-- PEER_ACKNOWLEDGE: A remote device's acknowledgement of an RDMA WRITE, or its RDMA READ response, arrives over Ethernet and completes the copy engine's peer access and its count (R236) -/
  | peerAcknowledge (col : Nat) (id : Nat) (data : List (BitVec 8))
  /-- PEER_LINK: A peer request goes unacknowledged after the link's retries and the copy command faults PEER_LINK (R252) -/
  | peerLink (col : Nat) (id : Nat)
  /-- HOST_LINK_COMPLETION: The host link completes a host-tier fill or acknowledges a host-tier write-back, possibly with an error that faults PA_HOLE or drops the line (R311) -/
  | hostLinkCompletion (col : Nat) (rid : Nat) (error : Bool) (data : List (BitVec 8))
  /-- HOST_LINK_RETRIES_EXHAUSTED: A host-tier fill or write-back left uncompleted after the link's retries faults the access PA_HOLE or drops the line with a fault report (R311) -/
  | hostLinkRetriesExhausted (col : Nat) (rid : Nat)
  /-- SHADOW_PLANE_LOADED: An MLDW's weight tile stands in the shadow plane and its future becomes DONE (R273) -/
  | shadowPlaneLoaded (col : Nat) (node : Nat)
  /-- MSTR_TRANSFER: MSTR writes and counts one accumulator row, and after the last row is performed its tile may be zeroed and its future becomes DONE (R281) -/
  | mstrTransfer (col : Nat) (node : Nat)
  /-- TINKER_RESTART: The factor complex restarts a tinker stopped by its own trap, and the queued events are served again (R348) -/
  | tinkerRestart (col : Nat)
  /-- FRING_HEAD: A function's write of FRING_HEAD frees fault-report ring space, and the factor complex writes the reports it had kept (R363) -/
  | fringHead (fn : Nat) (val : BitVec 64)
  /-- UNKNOWN_OP: The factor complex takes a mailbox request whose op is unknown and answers it with status 2 (R364) -/
  | unknownOp
  /-- ETHERNET_LINK_BRING_UP: An Ethernet port's link goes down or comes up, and field firmware runs link training and auto-negotiation in hardware mode (R365) -/
  | ethernetLinkBringUp (port : Nat) (up : Bool)
  /-- TRIP_POINT_CLEARED: After an emergency trip the junction temperature falls below the trip point, and the factor complex reports the trip to PF0 (R372) -/
  | tripPointCleared
  deriving DecidableEq, Repr

end Sys2Proof
end

