-- ==== Sys2Proof/Machine/State.lean ====
section
/-! DEFINITION. The state of the module: every register, table, queue and memory the spec names, as plain data, and
State.reset, the module right after device reset. Faults and refusals, the reasons for which a step may stop, stand at
the end. -/

namespace Sys2Proof.Machine

/-! ## Causes, agents and pending writes -/

/-- The trap causes 1 to 30 and the notifications 64 to 66 (R347). -/
inductive Cause where
  | illegal | role | stallShort | ifetch | divergentScalar | divergeDepth | ejectCollective | cross | align
  | localRange | pageFault | prot | paHole | atomTarget | memoryUe | barStale | barOvershoot | barConfig | barFull
  | futureFault | futureStale | cribConfig | grantFull | grantStale | accumRange | xchParam | xchMismatch | xchPartner
  | breakpoint | userTrap | rejoinTimeout | engineFault | capacityShrink
  deriving DecidableEq, Repr

/-- Who issues words (R34, R51): a warp's path in PC slot A or B, a gleaner lane context, the column's tinker, or one of
the factor cores 0 to 3. -/
inductive Who where
  | warp (slot : Nat) (b : Bool)
  | lane (ctx : Nat)
  | tinker
  | factor (n : Nat)
  deriving DecidableEq, Repr

/-- One register write: lanes of a vector register, bits of a lane mask, a scalar register (s48-s63 and c0-c7 belong to
the path that path names, R126), a condition bit, or a handle's landing. -/
inductive Write where
  | v (r : Nat) (lanes : Lanes) (x : Vec)
  | k (r : Nat) (lanes : Lanes) (x : Lanes)
  | s (path : Nat) (r : Nat) (x : Dword)
  | c (path : Nat) (i : Nat) (x : Bool)
  deriving DecidableEq, Repr

/-- A pending fixed-latency write and the cycle from which its result can be read (R10, R37). -/
structure Pend where
  write : Write
  due : Nat
  deriving DecidableEq, Repr

/-- A register that a pending variable-latency write names, with the lanes it will write. -/
inductive Reg where
  | v (r : Nat) (lanes : Lanes)
  | k (r : Nat) (lanes : Lanes)
  | s (path : Nat) (r : Nat)
  | c (path : Nat) (i : Nat)
  | h (i : Nat)
  deriving DecidableEq, Repr

/-- A pending variable-latency write (R38, R82): the registers it names, its values once they are known, and the error
that R164 or R304 will raise at the first reader. -/
structure VPend where
  id : Nat
  regs : List Reg
  value : Option (List Write) := none
  error : Option (Cause × Lanes × BitVec 32 × Nat × Bool) := none
  /-- the pointer that the lowest of the failing lanes formed (R346) -/
  addr : BitVec 64 := 0#64
  /-- the result of a load, which is performed when it lands (R129) -/
  mem : Bool := false
  deriving DecidableEq, Repr

/-- The register files that an agent owns, with its pending writes (R47, R74, R191). The banked s48-s63 and c0-c7 stand
in the path. -/
structure Thread where
  v : Tab Vec := []
  k : Tab Lanes := []
  s : Tab Dword := []
  pend : List Pend := []
  vpend : List VPend := []
  deriving DecidableEq, Repr

/-- A divergent region's token (R119). -/
structure Token where
  join : BitVec 32
  epoch : BitVec 16
  deriving DecidableEq, Repr

/-- What a path waits for before its word can issue again (R39, R129): nothing, the rest of one arbitration (YIELD), a
future handle, a barrier phase, the commit token, a bound on pending writes or memory words, a cycle, the completion
of earlier words, or of the write-backs of a release, up to the first request that it does not wait for, or of those that it has given the
host links, of all that an EXIT waits for, or of its instruction fetch. A barrier wait that has ended is `passed`, or `failed` with the cause that it traps (R168, R173). -/
inductive Wait where
  | none
  | yield
  | handle (h : Nat)
  | barrier (entry : Nat) (gen : Nat) (target : Bool)
  | token
  | latency (n : Nat)
  | memory (n : Nat)
  | until (cycle : Nat)
  | earlier
  | release (upTo : Nat)
  | hosted
  | exit
  | code
  | command (id : Nat)
  | grant (g : Nat)
  | queue (q : Nat)
  | tlbi
  | barrierIdle (entry : Nat)
  | exchange
  | ticket
  | banks (all : Bool)
  | commit
  | passed
  | failed (c : Cause)
  deriving DecidableEq, Repr

/-- A running path (R119): its lanes, PC, innermost token, banked registers, next-issue cycle and wait. `uid` is the
model's own name of the path, used by pending writes to its banks. -/
structure Path where
  uid : Nat := 0
  pkt : BitVec 32 := 0#32
  wpos : Nat := 0
  /-- no word of this visit to the packet has issued yet -/
  fresh : Bool := true
  lanes : Lanes := 0#32
  token : Option Token := none
  bank : Tab Dword := []
  c : BitVec 8 := 0#8
  /-- the cycle from which the next word may issue: after a wait in place (R73), and, for an agent of one path, after a stall count
  (R10); a warp's stall count stands in the warp -/
  ready : Nat := 0
  wait : Wait := .none
  deriving DecidableEq, Repr

/-- One frame of a path stack (R350). -/
structure Frame where
  /-- 0 free, 1 region, 2 suspended path -/
  kind : BitVec 8 := 0#8
  c : BitVec 8 := 0#8
  epoch : BitVec 16 := 0#16
  join : BitVec 32 := 0#32
  lanes : Lanes := 0#32
  /-- region: arrived lanes; suspended: PC packet -/
  aux : BitVec 32 := 0#32
  /-- region: parent frame; suspended: innermost region frame; 0xFF for none -/
  link : BitVec 8 := 0#8
  wpos : BitVec 8 := 0#8
  bank : Tab Dword := []
  /-- the model's own: the name of a suspended path, the word position of a region's JOIN, and its lanes that were
  ejected -/
  uid : Nat := 0
  jpos : Nat := 0
  out : Lanes := 0#32
  /-- what the suspended path waits for, and its next-issue cycle -/
  wait : Wait := .none
  ready : Nat := 0
  deriving DecidableEq, Repr

/-- A path stack of five frames with its control entry (R119, R350). `order` lists the suspended-path frames, topmost
first; its head is the control entry's TOP. -/
structure PathStack where
  frames : Tab Frame := []
  epoch : BitVec 16 := 0#16
  order : List Nat := []
  /-- the control entry's number of frames in use and TOP as the debug window has written them, where they differ from what the frames
  give; the next change of a frame by the machine sets them right -/
  raw : Option (BitVec 8 × BitVec 8) := none
  deriving DecidableEq, Repr

/-- A stop by a trap (R46, R345): its cause, where it stopped, and whether the tinker serves it now. -/
structure Stop where
  cause : Cause
  slotB : Bool := false
  pkt : BitVec 32 := 0#32
  wpos : Nat := 0
  /-- the position after the issue unit, for ERET action 1 (R185) -/
  nextPkt : BitVec 32 := 0#32
  nextPos : Nat := 0
  served : Bool := false
  deriving DecidableEq, Repr

/-! ## Futures, transactions and deferred words -/

/-- The four states of a future handle (R174). -/
inductive HState where
  | free | pending | done | faulted
  deriving DecidableEq, Repr

/-- A future handle with the unit, code and command behind it (R174, R176). -/
structure Handle where
  st : HState := .free
  unit : Nat := 0
  code : Nat := 0
  cmd : Nat := 0
  record : Nat := 0
  deriving DecidableEq, Repr

/-- One lane's access of a memory word: its physical address, size, and the data it stores or operates with. -/
structure Acc where
  lane : Nat
  pa : Nat
  size : Nat
  x : Nat := 0
  y : Nat := 0
  deriving DecidableEq, Repr

/-- What a memory word does at each of its accesses. -/
inductive MemKind where
  | load (signed : Bool)
  | store
  | atom (op : Nat)
  | redBay (op : Nat)
  | red (op : Nat)
  | prefetch
  | scalarLoad
  /-- an ejected lane's instruction fetch (R191) -/
  | fetch
  deriving DecidableEq, Repr

/-- A memory word that has issued and is not yet performed (R129): its accesses still to perform, the values collected,
the pending write it will fill, and its hints. -/
structure MemOp where
  id : Nat
  /-- the agent that issued it -/
  who : Who
  /-- the L1 it goes through: 0 the core's, g + 1 gleaner g's -/
  cache : Nat
  kind : MemKind
  accs : List Acc
  /-- the pointers that its lanes formed (R346) -/
  ptrs : List (Nat × BitVec 64) := []
  got : List (Nat × Nat) := []
  /-- destination registers, low word first -/
  dest : List Nat := []
  lanes : Lanes := 0#32
  vid : Nat := 0
  path : Nat := 0
  rd : Nat := 0
  ep : Nat := 0
  lu : Bool := false
  /-- performed at the bay, past the L1 -/
  bypass : Bool := false
  /-- an acquire scope that follows the load (R150) -/
  acquire : Option Nat := none
  region : Nat := 0
  ctx : Nat := 0
  /-- one access of all its lanes, in the program order of each (R51) -/
  scalar : Bool := false
  /-- lanes whose data met an uncorrectable error (R164) -/
  bad : Lanes := 0#32
  /-- a store's lines that the L1 has brought or held, and whether they hit: its bytes take effect in one step (R50) -/
  fetched : List (Nat × Bool) := []
  pkt : BitVec 32 := 0#32
  wpos : Nat := 0
  /-- the word position after its issue unit -/
  unitEnd : Nat := 0
  deriving DecidableEq, Repr

/-- A word that a deterministic launch defers until its warp holds the commit token (R158, R342). -/
structure Deferred where
  op : MemOp
  /-- it has been begun: the next one is not before it has been performed -/
  begun : Bool := false
  deriving DecidableEq, Repr

/-- The transaction of a warp (R159 to R162). -/
structure Tx where
  /-- the path that opened it -/
  path : Nat
  /-- the word after TBEGIN, where an abort resumes -/
  pkt : BitVec 32
  wpos : Nat
  cond : Nat
  lanes : Lanes
  token : Option Token := none
  /-- bytes read: physical address and value found -/
  reads : List (Nat × Byte) := []
  /-- lines of the read set -/
  lines : List Nat := []
  /-- bytes written: lane, physical address and value, oldest first -/
  writes : List (Nat × Nat × Byte) := []
  /-- lines whose eviction priority and last-use take effect at commit: line, EP, LU, and whether the word wrote the line (R149) -/
  hints : List (Nat × Nat × Bool × Bool) := []
  /-- its write set touches an SHG page (R158) -/
  shared : Bool := false
  /-- its path as it stood when it arrived at a JOIN inside the transaction: an abort makes its lanes active again (R162) -/
  left : Option Path := none
  /-- an identifier given out at its TBEGIN: its accesses come after the words before it -/
  id : Nat := 0
  deriving DecidableEq, Repr

/-- An operation that holds the agent's later M- and E-pipe words (R150, R151, R241, R301, R303). -/
inductive Hold where
  | fence (scope : Nat) (pkt : BitVec 32) (wpos : Nat) (done : Wait)
  | acquire (op : Nat) (scope : Nat)
  | gatherRoot
  | xbar
  | claim (cmd : Nat)
  deriving DecidableEq, Repr

/-- The exchange word of a warp that has not completed (R301). -/
structure Exchange where
  /-- 0 XOR, 1 ROT, 2 BC, 3 GATH, 4 XRED, 5 XBAR (R289) -/
  kind : Nat
  parity : Nat
  mid : Nat
  /-- source gcols still to be received from -/
  sources : List Nat := []
  /-- messages not acknowledged yet -/
  unacked : Nat := 0
  /-- refused messages to be sent again: destination gcol and the cycle -/
  resend : List (Nat × Nat) := []
  data : Vec := 0#1024
  dest : Nat := 0
  lanes : Lanes := 0#32
  path : Nat := 0
  vid : Nat := 0
  /-- XRED's operator, and the vectors received so far by gcol -/
  op : Nat := 0
  got : Tab Vec := []
  /-- local-store offset of XCH.GATH at the root -/
  offset : Nat := 0
  error : Option Cause := none
  released : Bool := false
  slotB : Bool := false
  pkt : BitVec 32 := 0#32
  wpos : Nat := 0
  deriving DecidableEq, Repr

/-! ## Warps, groups, gleaner contexts and the tinker -/

/-- The roles of R77. -/
inductive Role where
  | copy | matrix | vector | unified
  deriving DecidableEq, Repr

/-- The rejoin states of R199. -/
inductive Rejoin where
  | running | waiting | parked
  deriving DecidableEq, Repr

/-- A warp slot (R74): the warp's registers, paths, stack, handles and controls. -/
structure Warp where
  live : Bool := false
  /-- the group entry of the core that owns it -/
  entry : Nat := 0
  index : Nat := 0
  role : Role := .unified
  th : Thread := {}
  h : Tab Handle := []
  a : Option Path := none
  b : Option Path := none
  stack : PathStack := {}
  /-- lanes that have executed EXIT -/
  exited : Lanes := 0#32
  /-- the ejection control of R203 -/
  ejt : BitVec 4 := 3#4
  limit : BitVec 16 := 0x40#16
  /-- the limit that takes effect with the next cycle (R203) -/
  limitNext : Option (BitVec 16) := none
  rt : Bool := false
  rejoin : Rejoin := .running
  /-- WAITING: the cycle from which the rejoin timer counts -/
  timerFrom : Int := 0
  /-- the value at which the rejoin timer stands in the other states (R199) -/
  timer : Nat := 0
  /-- the packet of the JOIN at which its latest core path arrived (R199) -/
  lastJoin : BitVec 32 := 0#32
  /-- what the PC slots hold while they are empty, for the debug window (R349) -/
  idleA : Path := {}
  idleB : Path := {}
  tx : Option Tx := none
  tstat : Dword := 0#64
  deferred : List Deferred := []
  holds : List Hold := []
  xch : Option Exchange := none
  xcount : Nat := 0
  stop : Option Stop := none
  /-- the cycle from which the warp's next word may issue, from whichever PC slot (R10, R81) -/
  ready : Nat := 0
  lastIssue : Nat := 0
  /-- the PC slot of its last run; a run that a SPLIT moved to slot A counts as one of the slot it began in (R80, log 87, DESIGN CHOICE) -/
  lastB : Bool := false
  check : Bool := false
  /-- the release of its end in progress: the first request that it does not wait for (R179) -/
  drain : Option Nat := none
  deriving DecidableEq, Repr

/-- A group entry of a core (R75), with the group's local store, its sync words and path stacks excepted. -/
structure Group where
  live : Bool := false
  launch : Nat := 0
  gid : Nat := 0
  localGroup : Nat := 0
  warps : Nat := 0
  /-- declared local-store bytes -/
  size : Nat := 0
  store : List Host.Cell := []
  /-- tokens of HGET: ticket number and the command's handle state -/
  tickets : Tab Handle := []
  /-- the cycle of its residency, from which its quantum counts -/
  since : Nat := 0
  order : Nat := 0
  promoted : Bool := false
  /-- its pre-emption has begun: no new run starts -/
  leaving : Bool := false
  /-- the cycle in which its pre-emption began, from which it waits again (R333) -/
  leftAt : Nat := 0
  /-- bytes of the system area reserved for its save, with the launch's where it may be the last to leave (R331) -/
  reserved : Nat := 0
  /-- its pre-emption has been deferred, and counted, because its save does not fit: the head waiter at that event, as node and group id (R331) -/
  deferred : Option (Nat × Nat) := none
  deriving DecidableEq, Repr

/-- The states of a barrier entry (R166, R168). -/
inductive BarState where
  | free | opened | broken
  deriving DecidableEq, Repr

/-- A barrier-table entry (R166, R167). -/
structure Barrier where
  st : BarState := .free
  g : BitVec 24 := 0#24
  /-- owning group entry -/
  entry : Nat := 0
  offset : Nat := 0
  xb : Bool := false
  p : Bool := false
  arr : Nat := 0
  atgt : Nat := 0
  btgt : Nat := 0
  bytes : Nat := 0
  deriving DecidableEq, Repr

/-- The run a quarter issues now (R39): the warp slot, the path and the packets counted. -/
structure Run where
  slot : Nat
  b : Bool
  packets : Nat := 0
  /-- an issued word of the packet had B set -/
  boundary : Bool := false
  deriving DecidableEq, Repr

/-- An issue quarter (R72, R81): its run and the credits of the copy, matrix, vector and unified classes. -/
structure Quarter where
  run : Option Run := none
  credits : List Nat := [0, 0, 0, 0]
  /-- the cycle from which the quarter may issue again, and the one from which it may arbitrate again -/
  free : Nat := 0
  arb : Nat := 0
  deriving DecidableEq, Repr

/-- A gleaner lane context (R191). -/
structure LaneCtx where
  live : Bool := false
  /-- owning warp slot and lane -/
  slot : Nat := 0
  lane : Nat := 0
  th : Thread := {}
  path : Path := {}
  /-- the token of the ejection region -/
  home : Token := ⟨0#32, 0#16⟩
  stack : PathStack := {}
  stop : Option Stop := none
  /-- hand-over not finished -/
  starting : Bool := false
  /-- arrived at its JOIN or exiting, its return not yet made -/
  leaving : Bool := false
  exiting : Bool := false
  holds : List Hold := []
  /-- a release of its hand-over or return in progress: the first request that it does not wait for (R195, R196) -/
  drain : Option Nat := none
  /-- the lines that its lane has written (R196) -/
  wrote : List Nat := []
  deriving DecidableEq, Repr

/-- A transfer that the gleaner port has been asked for: the context, whether it is a return, and the cycle at which it
is done (R195, R196). -/
structure PortJob where
  ctx : Nat
  back : Bool
  done : Nat
  deriving DecidableEq, Repr

/-- An event record of the tinker (R346). -/
structure Event where
  detail : BitVec 64 := 0#64
  info : BitVec 32 := 0#32
  lanes : BitVec 32 := 0#32
  context : BitVec 16 := 0#16
  wpos : BitVec 2 := 0#2
  pc : BitVec 32 := 0#32
  cause : Cause := .illegal
  note : Bool := false
  lost : Bool := false
  path : BitVec 2 := 0#2
  ctx : BitVec 5 := 0#5
  slot : BitVec 6 := 0#6
  group : BitVec 32 := 0#32
  /-- the event names a warp slot, a lane context, or no agent (R345) -/
  tier : Nat := 0
  cycle : Nat := 0
  /-- the contexts of the lanes still out, which REJOIN_TIMEOUT names (R199); R346's record has no place for them -/
  ctxs : List Nat := []
  deriving DecidableEq, Repr

/-- The tinker of a column (R345 to R348). -/
structure Tinker where
  th : Thread := {}
  path : Path := { lanes := 1#32 }
  stack : PathStack := {}
  entry : BitVec 32 := 0#32
  queue : List Event := []
  serving : Option Event := none
  lost : Bool := false
  stop : Option Stop := none
  holds : List Hold := []
  /-- a TLBI not complete: its columns, its context, and the identifier before which accesses are drained (R356) -/
  tlbi : Option (List Nat × Nat × Nat) := none
  /-- the status that its TSTAT reads (R162, R197) -/
  tstat : Dword := 0#64
  /-- new firmware that it takes up between two events (R370) -/
  update : Option (List Byte) := none
  deriving DecidableEq, Repr

/-! ## Caches, translation and the bay -/

/-- A line of the core's or a gleaner's L1 (R85, R191). -/
structure CacheLine where
  line : Nat := 0
  valid : BitVec 4 := 0#4
  dirty : BitVec 128 := 0#128
  v : Nat := 0
  /-- the reduction held in U, by its operator (R61) -/
  u : Option Nat := none
  data : BitVec 1024 := 0#1024
  /-- the eviction priority and the context of the latest access, which a write-back of the line carries (R149, R310) -/
  ep : Nat := 0
  region : Nat := 0
  deriving DecidableEq, Repr

/-- The value that an element write carries: the source's format, code and block scale, and a power of two (R244,
R281). -/
structure EltSrc where
  fmt : Nat
  code : Nat
  scale : Nat := 127
  exp : Int := 0
  deriving DecidableEq, Repr

/-- What an engine writes at a bay: bytes, one nibble of an MXFP4 element, or one destination block's written elements,
requantized once (R244, R245): its format, the
places of its elements and its scale, and which of its 32 positions belong to elements (R214). -/
inductive BayWrite where
  | bytes (pa : Nat) (b : List Byte)
  | nibble (pa : Nat) (hi : Bool) (x : Nat)
  | block (fmt elems scale : Nat) (own : BitVec 32) (elts : List (Nat × EltSrc))
  deriving DecidableEq, Repr

/-- A router's position and ports are given by the source id of R288. A flit in flight (R289): its header fields, its
payload as 64 bytes, and the router it enters next. -/
structure Flit where
  type : Nat
  dst : Nat
  src : Nat
  age : Nat := 0
  tc : Nat := 0
  mid : Nat := 0
  seq : Nat := 0
  tag : Nat := 0
  payload : List Byte := []
  /-- router where the flit stands, and the cycle from which it takes part there -/
  at_ : Nat := 0
  due : Nat := 0
  /-- what the message carries besides, in a place of its payload that the spec does not give (log 106, DESIGN CHOICE): the region that sends it,
  and the launch whose quota it keeps, its byte address, its context, the hint of a request or an answer, and a partner's refusal -/
  region : Nat := 0
  launch : Nat := 0
  addr : Nat := 0
  ctx : Nat := 0
  hint : Nat := 0
  partner : Bool := false
  /-- the window of R249 that an engine's read is for -/
  win : Nat := 0
  /-- the message's flit count -/
  count : Nat := 1
  /-- what a WDATA flit writes at the bay it reaches, all of it in the 64 bytes that its payload stands for -/
  ops : List BayWrite := []
  deriving DecidableEq, Repr

/-- A request on its way to a slice (R308 to R312): a memory word's for one line, a line that an L1 writes back, or an engine's message (R310). -/
structure Req where
  id : Nat
  cache : Nat
  line : Nat
  sectors : BitVec 4
  /-- the memory word that it serves; 0 for a write-back -/
  op : Nat := 0
  who : Who
  region : Nat := 0
  ctx : Nat := 0
  ep : Nat := 0
  /-- reuse distance of the load that caused it -/
  rd : Nat := 0
  /-- refusals in a row -/
  refused : Nat := 0
  /-- a retry reservation, and whether a slot is kept for it -/
  reserved : Bool := false
  slotKept : Bool := false
  /-- the cycle from which it is presented, the first time or again -/
  due : Nat := 0
  /-- refused, and waiting for its timer, or for the message of another bay's engine to come again -/
  held : Bool := false
  /-- it waits at its L1 and is not presented: for its agent's earlier words (R54), or for sectors that are on their way there -/
  atL1 : Bool := false
  /-- its sectors have been asked of the bay, so that its access is no hit (R85) -/
  missed : Bool := false
  /-- admitted into its slice -/
  admitted : Bool := false
  /-- its line stands in its slice, and it waits for its strand (R319) -/
  stands : Bool := false
  /-- the cycle by which its data has crossed its strand; 0 while it has not begun to (R319) -/
  till : Nat := 0
  /-- the line as the L1 sent it: dirty bytes under their mask, or a partial (R85) -/
  put : Option CacheLine := none
  /-- an engine's message, and the command that sent it, if it is this column's own; 0 for another's (R251, R310) -/
  eng : Option Flit := none
  cmd : Nat := 0
  deriving DecidableEq, Repr

/-- A TLB entry (R86): context, virtual page, physical frame, size and permissions. -/
structure TlbEntry where
  ctx : Nat
  va : Nat
  pa : Nat
  big : Bool
  kind : Nat
  r : Bool
  w : Bool
  shg : Bool
  deriving DecidableEq, Repr

/-- A line held in a slice (R308): its tag, valid sectors, dirty flag, eviction priority and age. -/
structure SliceLine where
  line : Nat := 0
  valid : BitVec 4 := 0#4
  dirty : Bool := false
  ep : Nat := 0
  used : Nat := 0
  /-- the region of the latest access, whose function a host-tier line belongs to (R311) -/
  region : Nat := 0
  deriving DecidableEq, Repr

/-- A line in flight in a slice (R309, R312) and the cycle at which it is expected to land. -/
structure Flight where
  slice : Nat
  line : Nat
  lands : Nat
  /-- a dirty line on its way to HBM -/
  wb : Bool := false
  deriving DecidableEq, Repr

/-- A cache slice (R308, R309). -/
structure Slice where
  lines : Tab SliceLine := []
  peak : Nat := 0
  /-- the cycle from which it accepts a request again -/
  next : Nat := 0
  /-- admission credits by region entry (R310) -/
  credits : Tab Nat := []
  deriving DecidableEq, Repr

/-- A region entry of the bay (R309, R311). -/
structure RgnEntry where
  ctl : BitVec 64 := 1#64
  way : List (BitVec 64) := [0xFFFFFFFFFFFFFFFF#64, 0xFFFFFFFFFFFFFFFF#64, 0xFFFFFFFFFFFFFFFF#64, 0xFFFFFFFFFFFFFFFF#64]
  /-- the weight and the way masks that take effect with the next cycle (R310) -/
  next : Option (Nat × List (BitVec 64)) := none
  ht : BitVec 64 := 0#64
  deriving DecidableEq, Repr

/-- An ownership entry of a bay (R242): the command, its context, the range of virtual offsets, the runs of physical
lines it covers (first line and number), and, in a deterministic launch, whether it records a source (R257). -/
structure Claim where
  col : Nat
  cmd : Nat
  ctx : Nat
  lo : Nat
  hi : Nat
  lines : List (Nat × Nat)
  source : Bool := false
  launch : Nat := 0
  /-- the queue of R239: issuing column, group id and queue; 5 is the thresher's -/
  queue : Nat × Nat × Nat := (0, 0, 0)
  deriving DecidableEq, Repr

/-- The bay of a column: registers, slices, requests, claims and counters. -/
structure Bay where
  ctl : BitVec 64 := 0#64
  stat : BitVec 64 := 0#64
  rgn : Tab RgnEntry := []
  aliasWin : Tab (BitVec 64) := []
  aliasBack : Tab (BitVec 64) := []
  /-- writes of alias registers that clear EN and wait for the range's accesses in progress (R217) -/
  aliasOff : Tab (BitVec 64) := []
  slices : Tab Slice := []
  reqs : List Req := []
  /-- the identifier of the next request -/
  nextReq : Nat := 1
  flights : List Flight := []
  /-- dirty lines that the channel has still to take: slice and line (R316) -/
  writeQ : List (Nat × Nat) := []
  /-- the mode that a flush in progress will apply (R314) -/
  modeTo : Option Nat := none
  /-- the mode that a service region asks for, until it can be applied (R314, R322) -/
  modeWant : Option Nat := none
  claims : List Claim := []
  /-- counters 32 to 50 by region, key 64 * region + n, and 51 to 55 (R313) -/
  counts : Tab Nat := []
  /-- frames under migration (R357): frame address and size -/
  migrating : List (Nat × Nat) := []
  /-- HBM rows open: row and segment mask (R316) -/
  rows : Tab (BitVec 8) := []
  /-- ways being added to the carve-out by a growth in progress -/
  carveTo : Nat := 0
  /-- strands that have failed twice and are not retired yet (R359) -/
  failing : BitVec 8 := 0#8
  /-- the slices are offline, and every access is served uncached (R360) -/
  slicesOff : Bool := false
  /-- the age given to the next access -/
  clock : Nat := 0
  /-- host-tier lines at the host link: line, whether it is a write-back, and region (R311) -/
  hostOut : List (Nat × Bool × Nat) := []
  /-- the cycle from which each strand is free again, from the bay to the core and from the core to the bay (R21, R319) -/
  strandOut : Tab Nat := []
  strandIn : Tab Nat := []
  deriving DecidableEq, Repr

/-! ## Engines and the thresher -/

/-- A tensor descriptor as read from a record (R223). -/
structure TD where
  bytes : List Byte := []
  format : Nat := 0
  rank : Nat := 0
  dist : Nat := 0
  oob : Nat := 0
  layout : Nat := 0
  base : BitVec 64 := 0#64
  size : List Nat := []
  stride : List Nat := []
  block : Nat := 0
  fill : BitVec 64 := 0#64
  tile0 : Nat := 0
  tile1 : Nat := 0
  super0 : Nat := 0
  super1 : Nat := 0
  deriving DecidableEq, Repr

/-- The commands of the engines and the thresher (R240, R272). -/
inductive CmdKind where
  | copy | gath | scat | mldw | mswap | mzero | mloop | mstr
  deriving DecidableEq, Repr

/-- A command's progress. -/
inductive CmdState where
  | queued | claimed | moving | faulted | completed
  deriving DecidableEq, Repr

/-- A message that a bay's engine has sent and not seen answered (R289): its command, the column, named as in `Command.fetched`, and line
that a read asks for, its flits, and, once it has been refused, the cycle from which they are sent again (R142, R312). -/
structure EngineMsg where
  cmd : Nat := 0
  col : Nat := 0
  line : Nat := 0
  flits : List Flit := []
  again : Option Nat := none
  deriving DecidableEq, Repr

/-- A fault of a command (R233, R253, R283): its code and the report's fields. -/
structure CmdFault where
  code : Nat
  dim : Nat := 0xFF
  side : Nat := 0
  coords : List Int := []
  ipos : Nat := 0
  addr : Nat := 0
  row : Nat := 0
  column : Nat := 0
  deriving DecidableEq, Repr

/-- An engine or thresher command in its queue (R237, R270). -/
structure Command where
  id : Nat
  kind : CmdKind
  st : CmdState := .queued
  /-- issuing column; the warp slot and the handle that name it, the issuing ones until an HPUT moves it; group entry and group id -/
  col : Nat := 0
  slot : Nat := 0
  entry : Nat := 0
  gid : Nat := 0
  handle : Nat := 0
  launch : Nat := 0
  /-- the context it runs in -/
  ctx : Nat := 0
  /-- copy queue 0 to 3, 4 the gather queue, 5 the thresher's -/
  queue : Nat := 0
  /-- the record as read at issue, its local-store offset, coordinates and barrier handle -/
  record : List Byte := []
  offset : Nat := 0
  coords : List Int := []
  bar : Option (BitVec 64) := none
  /-- operands of thresher commands -/
  x : BitVec 64 := 0#64
  y : BitVec 64 := 0#64
  tile : Nat := 0
  /-- iteration vector, loop 0 first -/
  iter : List Nat := []
  /-- MLOOP's next K-step, or MSTR's next row -/
  step : Nat := 0
  /-- sectors read for this transfer: column, sector and bytes; no bytes for an uncorrectable error. 256 * (w + 1) is added to the column of
  a table sector that a gather reads for its window w (R249) -/
  fetched : List (Nat × Nat × List Byte) := []
  /-- lines asked for and not come: column, named as in `fetched`, and line -/
  waiting : List (Nat × Nat) := []
  /-- peer bytes read for this transfer: queue pair with key, address and bytes -/
  peerGot : List (Nat × Nat × List Byte) := []
  /-- this transfer's messages that the interface has had no room for -/
  toSend : List Flit := []
  /-- what this transfer still writes into the crib, 16 bytes at a time (R262, R282): launch, offset and byte -/
  cribOut : List (Nat × List (Nat × Byte)) := []
  /-- writes not acknowledged, and reads that a peer has not answered (R252) -/
  unacked : Nat := 0
  asked : Nat := 0
  /-- this transfer's writes have been made, and its count -/
  written : Bool := false
  bytes : Nat := 0
  /-- its source, and its destination, have met a peer page (R252) -/
  peers : Bool × Bool := (false, false)
  /-- every transfer has been performed -/
  finished : Bool := false
  /-- a host-tier line that it reads could not be brought (R311), or a peer request failed (R252): the fault's code, and the
  kind and number of the store with the address where it was met -/
  broken : Option (Nat × (Nat × Nat) × Nat) := none
  /-- told to stop at its next stopping point (R176, R258) -/
  cancel : Bool := false
  restarted : Bool := false
  /-- what the thresher loads, or the rows of MLOOP's last step, land from this cycle on -/
  lands : Nat := 0
  deriving DecidableEq, Repr

/-- A count of bytes on its way to a barrier (R168, R236). -/
structure Count where
  cmd : Nat
  launch : Nat
  gid : Nat
  /-- the handle that names the barrier -/
  bar : BitVec 64
  bytes : Nat
  /-- the cycle in which it is delivered (R168) -/
  due : Nat := 0
  deriving DecidableEq, Repr

/-- A weight plane (R268): its tile's bytes with the format and SADJ of the grant it came from; no bytes when empty. -/
structure Plane where
  tile : List Byte := []
  fmt : Nat := 0
  sadj : Int := 0
  deriving DecidableEq, Repr

/-- A launch's share of a core's thresher and crib (R262, R268, R269). -/
structure CribShare where
  live : Bool := false
  kib : Nat := 0
  tiles : Nat := 0
  window : Nat := 0
  bytes : List Host.Cell := []
  /-- accumulator rows, key 128 * tile + row, 128 values of 32 bits -/
  accum : Tab (BitVec 4096) := []
  active : Plane := {}
  shadow : Plane := {}
  /-- waiting since -/
  since : Nat := 0
  deriving DecidableEq, Repr

/-- A grant-table entry (R263, R264). -/
structure Grant where
  live : Bool := false
  launch : Nat := 0
  gen : BitVec 24 := 0#24
  off : Nat := 0
  size : Nat := 0
  fmt : Nat := 0
  sadj : Int := 0
  deriving DecidableEq, Repr

/-! ## The fabric -/

/-- A network interface (R295, R296): its backlog, its window counts by region and class, and the entries in use. -/
structure Nif where
  backlog : List Flit := []
  counts : Tab Nat := []
  window : Nat := 0
  /-- reassembly entries: index to owning group entry and warp slot -/
  entries : Tab (Nat × Nat) := []
  deriving DecidableEq, Repr

/-- A mailbox slot (R297): the halves of a message on its way, and the unread message with the kind of its exchange word. -/
structure Mail where
  lo : Option (List Byte) := none
  hi : Option (List Byte) := none
  full : Bool := false
  kind : Nat := 0
  data : Vec := 0#1024
  deriving DecidableEq, Repr

/-! ## The column -/

/-- One column: core, gleaners, tinker, bay, memory and network interfaces (R21). -/
structure Column where
  warps : Tab Warp := []
  groups : Tab Group := []
  barriers : Tab Barrier := []
  quarters : Tab Quarter := []
  /-- L1 lines, key 2048 * cache + 16 * set + way -/
  l1 : Tab CacheLine := []
  /-- by cache, the cycle from which its port takes another line (R83) -/
  l1Port : Tab Nat := []
  l1tlb : List TlbEntry := []
  l2tlb : List TlbEntry := []
  ctxs : Tab LaneCtx := []
  port : List PortJob := []
  /-- the core's shared M and E units: the cycle from which each accepts an issue unit, and the quarter served last (R73); at reset quarter 3
  counts as served last, so that the first rotation begins at quarter 0 (log 3, DESIGN CHOICE) -/
  unitM : Nat × Nat := (0, 3)
  unitE : Nat × Nat := (0, 3)
  /-- each gleaner's issue stage: the cycle from which it may issue, and the context that issued last (R191) -/
  glean : Tab (Nat × Nat) := []
  tinker : Tinker := {}
  mem : List Host.Cell := []
  /-- 32-byte sectors marked uncorrectable (R164), and bytes dropped by last-use (R71) -/
  badSectors : List Nat := []
  /-- sectors of the HBM share whose next read meets an error, and whether the read that retries it meets it again (R358) -/
  weak : List (Nat × Bool) := []
  /-- by line, the bytes that hold no defined value -/
  undefined : Tab (BitVec 128) := []
  bay : Bay := {}
  mops : List MemOp := []
  cmds : List Command := []
  counts : List Count := []
  /-- the cycle from which the copy engine, 0, and the gather engine, 1, are free again (R237) -/
  engineFree : Tab Nat := []
  /-- the waiting group, as node and group id, for which room is being made by pre-emption (R333) -/
  roomFor : Option (Nat × Nat) := none
  /-- copy hardware queues: group entry and queue bound to each (R237) -/
  hwq : Tab (Nat × Nat) := []
  cribs : Tab CribShare := []
  grants : Tab Grant := []
  mail : Tab Mail := []
  /-- XBAR arrivals, by key, with the arriving gcol and MID (R303) -/
  xbar : List (Nat × Nat × Nat) := []
  nifCore : Nif := {}
  nifBay : Nif := {}
  /-- flits that the router has ejected at the column's interfaces and that nothing has taken yet -/
  ejected : List Flit := []
  /-- flits of engine data messages that are not complete -/
  parts : List Flit := []
  /-- the bay's outstanding engine messages, by MID (R289) -/
  msgs : Tab EngineMsg := []
  coreOffline : Bool := false
  memOffline : Bool := false
  /-- launch counters 1 to 8, key 16 * launch + n (R181) -/
  perf : Tab Nat := []
  /-- bytes allocated in the system area (R331) -/
  sysUsed : Nat := 0
  deriving DecidableEq, Repr

/-! ## The distributor -/

/-- Effective values of a region node (R324). -/
structure Eff where
  prio : Nat := 0
  det : Bool := false
  /-- containment: true for RETIRE -/
  retire : Bool := false
  mode : Nat := 0
  part : Nat := 0
  quantum : Nat := 1
  fdom : Nat := 0
  slots : Nat := 64
  crib : Nat := 1024
  budget : Nat := 0
  bonus : List Nat := [64, 32, 0, 0]
  bweight : Nat := 1
  cmask : BitVec 256 := 0#256
  ways : List (BitVec 16) := []
  quota : List (BitVec 16) := []
  deriving DecidableEq, Repr

/-- A task record's fields (R325). -/
structure Task where
  code : Nat := 0
  codelen : Nat := 0
  ngroups : Nat := 0
  dtab : Nat := 0
  limg : Nat := 0
  limglen : Nat := 0
  locals : Nat := 0
  ngcol : Nat := 1
  warps : Nat := 1
  ejt : Nat := 3
  roles : List Nat := [0, 0, 0]
  rwt : Nat := 0x111
  tflags : Nat := 0
  rjlim : Nat := 0x40
  crib : Nat := 0
  accum : Nat := 0
  cwin : Nat := 0
  start : Nat := 0
  deriving DecidableEq, Repr

/-- A saved group (R351, R352). While it is saved, its parts name its warps by their warp index. -/
structure Saved where
  group : Group
  warps : List Warp
  /-- its lane contexts, by warp and ascending lane; a deferred word of a lane names its place here -/
  ctxs : List LaneCtx
  barriers : List (Nat × Barrier)
  cmds : List Command
  /-- events with the warp index, or the place among `ctxs`, of the agent they name -/
  events : List (Nat × Event)
  /-- reassembly entries by index, with their warps, and the flits received meanwhile -/
  entries : List (Nat × Nat) := []
  flits : List Flit := []
  /-- bytes of the system area that the save takes (R331) -/
  bytes : Nat := 0
  /-- what its quantum had left, which the header records (R351) -/
  quantum : Nat := 0
  deriving DecidableEq, Repr

/-- Where a group of a launch stands (R329, R332, R351). -/
inductive GroupPlace where
  | held
  | waiting (since : Nat)
  | resident (entry : Nat)
  | ended
  deriving DecidableEq, Repr

/-- A group of a launch. -/
structure GroupState where
  gcol : Nat := 0
  localGroup : Nat := 0
  place : GroupPlace := .held
  saved : Option Saved := none
  /-- the order in which it was promoted (R334); 0 for not promoted -/
  promoted : Nat := 0
  /-- full quanta waited so far (R332) -/
  rises : Nat := 0
  /-- warps of the group that have ended, for the commit token's order -/
  endedWarps : List Nat := []
  /-- it has issued an exchange word or XBAR (R360) -/
  exchanged : Bool := false
  deriving DecidableEq, Repr

/-- A launch (R325 to R344). -/
structure Launch where
  task : Task := {}
  /-- the identifier by which a handle names it; 0 for none -/
  future : Nat := 0
  /-- ring function and index of the entry, with its vector -/
  ring : Option (Nat × Nat × Nat) := none
  col : Nat := 0
  map : List Nat := []
  /-- the lost columns of gcols that a proxy has taken (R361) -/
  lostCols : Tab Nat := []
  groups : Tab GroupState := []
  /-- commit tokens by physical column: group and warp holding it (R341) -/
  tokens : Tab (Nat × Nat) := []
  /-- the code with which it is being ended -/
  ending : Option Nat := none
  gang : Nat := 0
  order : Nat := 0
  det : Bool := false
  /-- a launch's crib and thresher state saved on a column (R284) -/
  savedCrib : Tab CribShare := []
  savedGrants : List (Nat × Nat × Grant) := []
  deriving DecidableEq, Repr

/-- The kinds of region node (R322, R323). -/
inductive NodeKind where
  | free | root | service | launch
  deriving DecidableEq, Repr

/-- A region node (R322). -/
structure Node where
  kind : NodeKind := .free
  parent : Nat := 0
  eff : Eff := {}
  /-- its control block; none for a launch that takes its parent's values whole -/
  rcb : List Byte := []
  /-- the runtime counter (R335), and its parent's at its creation (R324) -/
  runtime : Nat := 0
  base : Nat := 0
  /-- PCIe function bound to a service region -/
  fn : Nat := 0
  steward : Bool := true
  /-- the columns whose bays have still to take a rewritten weight and masks, and those that may take them now (R324) -/
  stale : BitVec 256 := 0#256
  due : BitVec 256 := 0#256
  launch : Launch := {}
  deriving DecidableEq, Repr

/-- A launch waiting for its record check (R183, R326). -/
structure Submit where
  col : Nat
  /-- the identifier by which a handle names it; 0 for none -/
  future : Nat := 0
  parent : Nat
  /-- node of the issuing launch -/
  issuerNode : Nat := 0
  /-- the task record's offset in `col`, and the RCB's column and offset, if it names one -/
  task : Nat
  rcbCol : Nat
  rcb : Option Nat
  ring : Option (Nat × Nat × Nat) := none
  deriving DecidableEq, Repr

/-- The distributor. -/
structure Dist where
  nodes : Tab Node := []
  submits : List Submit := []
  /-- root page-table entries, key 256 * context + column (R28, R353) -/
  roots : Tab (BitVec 64) := []
  /-- next order number of launches, promotions and residencies -/
  nextOrder : Nat := 1
  /-- system area size in MiB (R331) -/
  sysMib : Nat := 256
  deferrals : Nat := 0
  deriving DecidableEq, Repr

/-! ## Host, peers and the factor complex -/

/-- A PCIe function's rings and table (R339, R362, R363). -/
structure Fn where
  ringBase : BitVec 64 := 0#64
  ringCfg : BitVec 64 := 0#64
  fringBase : BitVec 64 := 0#64
  fringCfg : BitVec 64 := 0#64
  ringTail : Nat := 0
  ringHead : Nat := 0
  ringTaken : Nat := 0
  fringTail : Nat := 0
  fringHead : Nat := 0
  /-- entries of the launch ring completed but not in order -/
  finished : List Nat := []
  /-- size of its MSI-X table, up to 2,048 -/
  msix : Nat := 2048
  /-- reports kept while the ring is full (R363) -/
  kept : List (List Byte) := []
  /-- the service region bound to it -/
  region : Option Nat := none
  deriving DecidableEq, Repr

/-- A RoCEv2 queue pair (R366): the port that holds it, and the port that it is bound to. -/
structure QueuePair where
  home : Nat := 0
  port : Option Nat := none
  params : List Byte := []
  deriving DecidableEq, Repr

/-- A request to a peer in progress (R252). -/
structure PeerReq where
  id : Nat
  col : Nat
  cmd : Nat
  port : Nat
  qpn : Nat
  write : Bool
  key : Nat
  addr : Nat
  len : Nat
  data : List Byte := []
  deriving DecidableEq, Repr

/-- A report, or the completion of a launch-ring entry, that waits for the write-backs of its release at host scope (R337, R339): its function,
the report's bytes or the entry's index, vector and status, and the lines awaited, by column. -/
structure Posted where
  fn : Nat
  report : List Byte := []
  ring : Option (Nat × Nat × Nat) := none
  awaits : List (Nat × Nat) := []
  deriving DecidableEq, Repr

/-- An event of a duty that field firmware serves in hardware mode (R365): a scrub of every share, a channel to train again, a link to bring
up, or a thermal sample. -/
inductive Duty where
  | scrub
  | retrain (col : Nat)
  | linkUp (port : Nat)
  | thermal (avg1 avg10 junction : Nat)
  deriving DecidableEq, Repr

/-- The host side and the factor complex (R362 to R372). -/
structure HostSide where
  fns : Tab Fn := []
  dutyMap : BitVec 64 := 0x3F#64
  fctId : BitVec 64 := 0#64
  fctBoot : BitVec 64 := 0#64
  h2dBase : BitVec 64 := 0#64
  h2dHead : BitVec 64 := 0#64
  h2dTail : BitVec 64 := 0#64
  d2hBase : BitVec 64 := 0#64
  d2hHead : BitVec 64 := 0#64
  d2hTail : BitVec 64 := 0#64
  /-- host memory by function and I/O address: key 2^64 * function + address -/
  mem : List Host.Cell := []
  /-- messages to the host that have found the device-to-host ring full (log 18, DESIGN CHOICE) -/
  outbox : List (List Byte) := []
  /-- reports that could not be delivered (R337) -/
  undelivered : Nat := 0
  /-- reports and ring completions whose release is not complete, oldest first -/
  posted : List Posted := []
  /-- MSI-X vectors sent: function and vector, oldest first -/
  msix : List (Nat × Nat) := []
  /-- page faults forwarded and not answered: tag, column, warp slot or context (R364) -/
  pfaults : List (Nat × Nat × Who) := []
  nextTag : Nat := 1
  qps : Tab QueuePair := []
  linkUp : List Bool := [false, false]
  peerReqs : List PeerReq := []
  /-- bytes of peer traffic by service region (R366) -/
  peerTraffic : Tab Nat := []
  /-- answers to peers' requests, oldest first: port, queue pair, 0 for an acknowledgement, 1 for read data or 2 for a NAK, and the
  data -/
  peerAnswers : List (Nat × Nat × Nat × List Byte) := []
  ptpPort : Nat := 0
  /-- nanoseconds still to be slewed into %time, and the %time from which the next of them is (R367) -/
  slew : Int := 0
  slewDue : Nat := 0
  /-- training parameters, and Ethernet parameters, supplied by the host -/
  train : Tab (List Byte) := []
  eth : Tab (List Byte) := []
  /-- the flag in flash that selects host-assisted training at the next boot (R365) -/
  flashTrain : Bool := false
  /-- the columns whose HBM5 channel waits for training (R358, R365) -/
  untrained : BitVec 256 := 0#256
  /-- measurements and security versions of the loaded stages: Selvis, field and tinker firmware (R368 to R371) -/
  stages : List (Nat × Nat) := []
  /-- the field firmware that factor cores 1 to 3 run -/
  firmware : List Byte := []
  /-- the cycle at which their restart ends, and the events of hardware-mode duties that wait for it, oldest first (R370) -/
  restartAt : Nat := 0
  duties : List Duty := []
  minVersion : Nat := 0
  /-- the columns whose carve-out growth the factor complex has been told is complete, oldest first (R315) -/
  carved : List Nat := []
  /-- what the factor complex's latest read of a BAY_SLSTAT gave (R309) -/
  regRead : BitVec 64 := 0#64
  /-- errors that a retry has corrected (R358) -/
  corrected : Nat := 0
  /-- %time of the last scrub of every share (R365) -/
  lastScrub : Nat := 0
  clockStep : Nat := 0
  powerCap : Nat := 2400
  /-- %time of the last clock step, and of the last sample that was not cool and below 92% of the cap (R372) -/
  lastStep : Option Nat := none
  lastHot : Nat := 0
  tripped : Bool := false
  deriving DecidableEq, Repr

/-- A factor core (R34, R184, R185): its registers and path, the PC its own trap handler returns to, and its stop. -/
structure FactorCore where
  th : Thread := {}
  path : Path := { lanes := 1#32 }
  stack : PathStack := {}
  saved : BitVec 32 × Nat := (0#32, 0)
  cause : Nat := 0
  stop : Option Stop := none
  tlbi : Option (List Nat × Nat × Nat) := none
  deriving DecidableEq, Repr

/-! ## The issuing agent and the model's own schedule -/

/-- The fields of a prefix word (R42). -/
structure Pfx where
  k : BitVec 3 := 0#3
  z : Bool := false
  rm : BitVec 3 := 0#3
  x : BitVec 6 := 0#6
  rd : BitVec 2 := 0#2
  ep : BitVec 2 := 0#2
  lu : Bool := false
  e : Bool := false
  sat : Bool := false
  deriving DecidableEq, Repr

/-- The word that issues now: its column, agent, position and raw bits, and the prefix it carries. -/
structure Cur where
  col : Nat := 0
  who : Who := .warp 0 false
  pkt : BitVec 32 := 0#32
  wpos : Nat := 0
  word : Word := 0#32
  pfx : Option Pfx := none
  /-- the position after the word's issue unit: 3 stands for the next packet -/
  unitEnd : Nat := 1
  /-- what the path waited for at this word before -/
  wait : Wait := .none
  /-- the word has been left at its position, to issue later -/
  held : Bool := false
  /-- for a word that is chained after another: the handles as the chain found them, and the identifiers given out before it (R12) -/
  before : Option (Tab Handle × Nat) := none
  deriving DecidableEq, Repr

/-- What the model does next (log 1, DESIGN CHOICE): let one agent issue, run one of the steps that no word encodes, let one cycle
pass, let the debugger turn the checking scoreboard on for a launch, by its node (R37), let a sector of a column's HBM share go wrong, for
one read or for good, let an error elsewhere clear on its retry, or a channel lose its training (R358), let PF0 write the flag in flash
(R365), or let the factor complex choose the port that carries the clock (R367). -/
inductive Turn where
  | issue (col : Nat) (who : Who)
  | event (i : Instr)
  | tick
  | check (node : Nat)
  | weaken (col sector : Nat) (lasting : Bool)
  | retried
  | untrain (col : Nat)
  | flashFlag (hostTrains : Bool)
  | clockPort (port : Nat)
  deriving DecidableEq, Repr

/-- The whole machine. -/
structure State where
  cols : Tab Column := []
  dist : Dist := {}
  flits : List Flit := []
  /-- the cycle from which the routers act next (R291) -/
  routeAt : Nat := 0
  /-- links retired, as router and port (R358) -/
  deadLinks : List (Nat × Nat) := []
  host : HostSide := {}
  factors : Tab FactorCore := []
  clk : Nat := 0
  time : Nat := 0
  /-- parts of 1/39520 ns left over: a cycle takes 10/19, 10/16, 10/13 or 1 ns as the clock step says -/
  timeFrac : Nat := 0
  clocksStopped : Bool := false
  booted : Nat := 0
  cur : Cur := {}
  agenda : List Turn := []
  /-- next identifier of paths, requests, memory words and commands -/
  nextId : Nat := 1
  /-- next free value (log 4, DESIGN CHOICE) -/
  free : Nat := 0
  deriving DecidableEq, Repr

/-- The module right after device reset (R48, R166, R309, R363, R365, R372 and the log's entries for every register
that the spec gives no reset value): every table at its default, nothing in flight, the clock at zero. -/
def State.reset : State := {}

/-! ## Faults and refusals -/

/-- Why the machine stops with a fault. -/
inductive Fault where
  /-- raised by step while the clocks are stopped after an emergency trip (R372); safe: the hardware issues nothing
  either until the trip point has been cleared -/
  | clocksStopped
  deriving DecidableEq, Repr

/-- Why a step has no meaning. -/
inductive Refusal where
  /-- raised by an arm of exec that has no meaning yet; safe -/
  | notModelled (mnemonic : String)
  /-- raised by a factor core's access to memory, and by its fetch: the spec gives the factor cores no address space
  (R34, R184); safe -/
  | factorMemory
  deriving DecidableEq, Repr

end Sys2Proof.Machine
end

