-- ==== Sys2Proof/Machine/Ops.lean ====
section
/-! DEFINITION. The named operations over the state: columns, the issuing agent's registers and path, pending writes,
and taking a trap (R345 to R348), which every meaning that raises one shares. -/

namespace Sys2Proof.Machine

/-! ## Columns and their parts -/

/-- A column by its physical id. -/
def State.col (s : State) (c : Nat) : Column := Tab.get {} s.cols c
/-- The state with one column replaced. -/
def State.setCol (s : State) (c : Nat) (x : Column) : State := { s with cols := Tab.put s.cols c x }
/-- The state with one column changed. -/
def State.updCol (s : State) (c : Nat) (f : Column → Column) : State := s.setCol c (f (s.col c))

/-- A warp slot of a column. -/
def Column.warp (x : Column) (n : Nat) : Warp := Tab.get {} x.warps n
/-- The column with one warp slot replaced. -/
def Column.setWarp (x : Column) (n : Nat) (w : Warp) : Column := { x with warps := Tab.put x.warps n w }
/-- A gleaner lane context of a column. -/
def Column.ctx (x : Column) (n : Nat) : LaneCtx := Tab.get {} x.ctxs n
/-- The column with one lane context replaced. -/
def Column.setCtx (x : Column) (n : Nat) (w : LaneCtx) : Column := { x with ctxs := Tab.put x.ctxs n w }
/-- A group entry of a column. -/
def Column.group (x : Column) (n : Nat) : Group := Tab.get {} x.groups n
/-- The column with one group entry replaced. -/
def Column.setGroup (x : Column) (n : Nat) (g : Group) : Column := { x with groups := Tab.put x.groups n g }
/-- A quarter of a column. -/
def Column.quarter (x : Column) (q : Nat) : Quarter := Tab.get {} x.quarters q
/-- The column with one quarter replaced. -/
def Column.setQuarter (x : Column) (q : Nat) (r : Quarter) : Column := { x with quarters := Tab.put x.quarters q r }
/-- A barrier entry of a column. -/
def Column.barrier (x : Column) (n : Nat) : Barrier := Tab.get {} x.barriers n

/-- A region node of the distributor. -/
def State.node (s : State) (n : Nat) : Node := Tab.get {} s.dist.nodes n
/-- The state with one region node replaced. -/
def State.setNode (s : State) (n : Nat) (x : Node) : State :=
  { s with dist := { s.dist with nodes := Tab.put s.dist.nodes n x } }
/-- A factor core. -/
def State.factor (s : State) (n : Nat) : FactorCore := Tab.get {} s.factors n

/-- A fresh identifier, and the state that has given it out. -/
def State.fresh (s : State) : Nat × State := (s.nextId, { s with nextId := s.nextId + 1 })

/-! ## The issuing agent -/

/-- The column of the issuing agent. -/
def State.here (s : State) : Column := s.col s.cur.col
/-- The state with the issuing agent's column changed. -/
def State.updHere (s : State) (f : Column → Column) : State := s.updCol s.cur.col f

/-- The warp slot that the issuing agent belongs to: its own, or the owner of its lane context (R191); 64, which no warp has, for the tinker
and the factor cores. -/
def State.slotOf (s : State) : Who → Nat
  | .warp n _ => n
  | .lane x => (s.here.ctx x).slot
  | _ => 64

/-- The slot of the issuing agent's warp. -/
def State.slot (s : State) : Nat := s.slotOf s.cur.who

/-- The warp of the issuing agent, or an empty one for the tinker and the factor cores. -/
def State.warp (s : State) : Warp :=
  match s.cur.who with
  | .warp n _ => s.here.warp n
  | .lane x => s.here.warp (s.here.ctx x).slot
  | _ => {}

/-- The state with the issuing agent's warp changed; nothing for the tinker and the factor cores. -/
def State.updWarp (s : State) (f : Warp → Warp) : State :=
  match s.cur.who with
  | .warp n _ => s.updHere fun x => x.setWarp n (f (x.warp n))
  | .lane c => s.updHere fun x => x.setWarp (x.ctx c).slot (f (x.warp (x.ctx c).slot))
  | _ => s

/-- The register files of an agent. -/
def State.threadOf (s : State) (c : Nat) : Who → Thread
  | .warp n _ => ((s.col c).warp n).th
  | .lane x => ((s.col c).ctx x).th
  | .tinker => (s.col c).tinker.th
  | .factor n => (s.factor n).th

/-- The register files of the issuing agent. -/
def State.thread (s : State) : Thread := s.threadOf s.cur.col s.cur.who

/-- The state with an agent's register files replaced. -/
def State.setThreadOf (s : State) (c : Nat) (who : Who) (t : Thread) : State :=
  match who with
  | .warp n _ => s.updCol c fun x => x.setWarp n { x.warp n with th := t }
  | .lane i => s.updCol c fun x => x.setCtx i { x.ctx i with th := t }
  | .tinker => s.updCol c fun x => { x with tinker := { x.tinker with th := t } }
  | .factor n => { s with factors := Tab.put s.factors n { s.factor n with th := t } }

/-- The state with the issuing agent's register files changed. -/
def State.updThread (s : State) (f : Thread → Thread) : State :=
  s.setThreadOf s.cur.col s.cur.who (f s.thread)

/-- The path in a PC slot of a warp; an empty path where the slot holds none. -/
def Warp.slotPath (w : Warp) (b : Bool) : Path := (if b then w.b else w.a).getD {}
/-- The warp with one PC slot replaced. -/
def Warp.setSlot (w : Warp) (b : Bool) (p : Option Path) : Warp := if b then { w with b := p } else { w with a := p }

/-- The path of an agent. -/
def State.pathOf (s : State) (c : Nat) : Who → Path
  | .warp n b => ((s.col c).warp n).slotPath b
  | .lane x => ((s.col c).ctx x).path
  | .tinker => (s.col c).tinker.path
  | .factor n => (s.factor n).path

/-- The path that issues. -/
def State.path (s : State) : Path := s.pathOf s.cur.col s.cur.who

/-- The state with an agent's path replaced. -/
def State.setPathOf (s : State) (c : Nat) (who : Who) (p : Path) : State :=
  match who with
  | .warp n b => s.updCol c fun x => x.setWarp n ((x.warp n).setSlot b (some p))
  | .lane i => s.updCol c fun x => x.setCtx i { x.ctx i with path := p }
  | .tinker => s.updCol c fun x => { x with tinker := { x.tinker with path := p } }
  | .factor n => { s with factors := Tab.put s.factors n { s.factor n with path := p } }

/-- The state with the issuing path changed. -/
def State.updPath (s : State) (f : Path → Path) : State := s.setPathOf s.cur.col s.cur.who (f s.path)

/-- The launch of a group entry, with its node. -/
def State.launchNode (s : State) (c entry : Nat) : Nat := ((s.col c).group entry).launch

/-- The group entry of the issuing agent: of its warp, or, for the tinker, of the agent it serves; 64, which no group has, where there is none. -/
def State.entry (s : State) : Nat :=
  match s.cur.who with
  | .tinker =>
    match s.here.tinker.serving with
    | some e => (s.here.warp e.slot.toNat).entry
    | none => 64
  | .factor _ => 64
  | _ => s.warp.entry

/-- The group of the issuing agent. -/
def State.group (s : State) : Group := s.here.group s.entry

/-- The launch node of the issuing agent. -/
def State.launchId (s : State) : Nat := s.group.launch

/-- The launch of the issuing agent. -/
def State.launch (s : State) : Launch := (s.node s.launchId).launch

/-- The service region of a launch node, or the root: the node whose context the launch runs in (R28, R322). -/
def State.regionOf (s : State) (n : Nat) : Nat := if (s.node n).kind = .launch then (s.node n).parent else n

/-- The context of the issuing agent (R28), or, for the tinker, of the event it serves (R345). -/
def State.ctxNum (s : State) : Nat :=
  match s.cur.who with
  | .tinker =>
    match s.here.tinker.serving with
    | some e => e.context.toNat
    | none => 0
  | _ => s.regionOf s.launchId

/-! ## Registers -/

/-- The active lanes: those of the issuing path (R87). -/
def State.active (s : State) : Lanes := s.path.lanes

/-- A vector register (R47). -/
def State.readV (s : State) (r : Nat) : Vec := Tab.get 0#1024 s.thread.v r

/-- A lane mask; k0 reads as the active mask (R47). -/
def State.readK (s : State) (r : Nat) : Lanes := if r = 0 then s.active else Tab.get 0#32 s.thread.k r

/-- A scalar register: s48-s63 from the path's bank, and s0-s47 from the warp, which a lane context reads in its
owner (R47, R126, R192). -/
def State.readS (s : State) (r : Nat) : Dword :=
  if 48 ≤ r then Tab.get 0#64 s.path.bank r
  else
    match s.cur.who with
    | .lane _ => Tab.get 0#64 s.warp.th.s r
    | _ => Tab.get 0#64 s.thread.s r

/-- A condition bit of the path (R126). -/
def State.readC (s : State) (i : Nat) : Bool := s.path.c.getLsbD i

/-- A future handle of the warp (R174), as the chain of the issuing word found it (R12). -/
def State.handle (s : State) (i : Nat) : Handle := Tab.get {} (match s.cur.before with | some b => b.1 | none => s.warp.h) i

/-- The prefix fields in force: those of the prefix word, or zero (R42). -/
def State.pfx (s : State) : Pfx := s.cur.pfx.getD {}

/-- The participating lanes: the active lanes set in the prefix's K (R42, R87). -/
def State.part (s : State) : Lanes := s.active &&& s.readK s.pfx.k.toNat

/-- Is the issuing path inside a divergent region (R90, R126)? -/
def State.divergent (s : State) : Bool := s.path.token.isSome

/-- May the path write a scalar register (R90)? -/
def State.mayWriteS (s : State) (r : Nat) : Bool := decide (48 ≤ r) || !s.divergent

/-- A pending write with a fixed latency from now (R10). -/
def State.push (s : State) (latency : Nat) (w : Write) : State :=
  s.updThread fun t => { t with pend := t.pend ++ [{ write := w, due := s.clk + latency }] }

/-- A per-lane result: participating lanes take it, and active lanes outside K follow the Z policy (R42, R87). -/
def State.putV (s : State) (latency r : Nat) (x : Vec) : State :=
  if s.pfx.z then s.push latency (.v r s.active (blend s.part x 0#1024)) else s.push latency (.v r s.part x)

/-- A lane-mask result over the participating lanes (R98, R139). -/
def State.putK (s : State) (latency r : Nat) (x : Lanes) : State :=
  if s.pfx.z then s.push latency (.k r s.active (x &&& s.part)) else s.push latency (.k r s.part x)

/-- A scalar result (R47). -/
def State.putS (s : State) (latency r : Nat) (x : Dword) : State := s.push latency (.s s.path.uid r x)

/-- A condition result (R10). -/
def State.putC (s : State) (latency i : Nat) (x : Bool) : State := s.push latency (.c s.path.uid i x)

/-! ## Landing of writes -/

/-- Do two writes name one register (R37)? -/
def Write.sameReg : Write → Write → Bool
  | .v r m _, .v r' m' _ => decide (r = r') && decide (m &&& m' ≠ 0#32)
  | .k r m _, .k r' m' _ => decide (r = r') && decide (m &&& m' ≠ 0#32)
  | .s p r _, .s p' r' _ => decide (r = r') && (decide (r < 48) || decide (p = p'))
  | .c p i _, .c p' i' _ => decide (p = p') && decide (i = i')
  | _, _ => false

/-- Does a write touch a register, in the lanes it is named with? -/
def Write.touches : Write → Reg → Bool
  | .v r m _, .v r' m' => decide (r = r') && decide (m &&& m' ≠ 0#32)
  | .k r m _, .k r' m' => decide (r = r') && decide (m &&& m' ≠ 0#32)
  | .s p r _, .s p' r' => decide (r = r') && (decide (r < 48) || decide (p = p'))
  | .c p i _, .c p' i' => decide (p = p') && decide (i = i')
  | _, _ => false

/-- Do two named registers meet? -/
def Reg.meets : Reg → Reg → Bool
  | .v r m, .v r' m' => decide (r = r') && decide (m &&& m' ≠ 0#32)
  | .k r m, .k r' m' => decide (r = r') && decide (m &&& m' ≠ 0#32)
  | .s p r, .s p' r' => decide (r = r') && (decide (r < 48) || decide (p = p'))
  | .c p i, .c p' i' => decide (p = p') && decide (i = i')
  | .h i, .h i' => decide (i = i')
  | _, _ => false

/-- The writes that land by a cycle, and those that stay: a later write to a register waits for the earlier one (R37). -/
def splitPend (clk : Nat) : List Pend → List Write × List Pend
  | [] => ([], [])
  | p :: ps =>
    let rec go : List Pend → List Pend → List Write × List Pend
      | [], kept => ([], kept)
      | q :: qs, kept =>
        if decide (q.due ≤ clk) && kept.all (fun k => !k.write.sameReg q.write) then
          let r := go qs kept
          (q.write :: r.1, r.2)
        else go qs (kept ++ [q])
    go (p :: ps) []

/-- A path with one of its banked registers written; a write of another path leaves it alone. -/
def Path.write (p : Path) : Write → Path
  | .s u r x => if p.uid = u ∧ 48 ≤ r then { p with bank := Tab.store 0#64 p.bank r x } else p
  | .c u i x =>
    if p.uid = u then { p with c := if x then p.c ||| (1#8 <<< i) else p.c &&& ~~~(1#8 <<< i) } else p
  | _ => p

/-- Register files with one write landed; banked registers are the path's. -/
def Thread.write (t : Thread) : Write → Thread
  | .v r m x => { t with v := Tab.store 0#1024 t.v r (blend m x (Tab.get 0#1024 t.v r)) }
  | .k r m x => { t with k := Tab.store 0#32 t.k r ((x &&& m) ||| (Tab.get 0#32 t.k r &&& ~~~m)) }
  | .s _ r x => if 48 ≤ r then t else { t with s := Tab.store 0#64 t.s r x }
  | .c _ _ _ => t

/-- A path stack with a write landed in the banks of a suspended path (R126). -/
def PathStack.write (k : PathStack) (w : Write) : PathStack :=
  let one (x : Frame) : Frame :=
    if x.kind = 2#8 then
      let p := ({ uid := x.uid, bank := x.bank, c := x.c } : Path).write w
      { x with bank := p.bank, c := p.c }
    else x
  { k with frames := k.frames.map fun e => (e.1, one e.2) }

/-- An agent's state with one write landed, in its register files and in its paths. -/
def State.landWrite (s : State) (c : Nat) (who : Who) (w : Write) : State :=
  let s := s.setThreadOf c who ((s.threadOf c who).write w)
  match who with
  | .warp n _ =>
    s.updCol c fun x =>
      let wp := x.warp n
      x.setWarp n { wp with a := wp.a.map (·.write w), b := wp.b.map (·.write w), stack := wp.stack.write w }
  | _ => s.setPathOf c who ((s.pathOf c who).write w)

/-- An agent's state with every fixed-latency write landed that is due (R10, R37). -/
def State.landDue (s : State) (c : Nat) (who : Who) : State :=
  let t := s.threadOf c who
  if t.pend.any (fun p => decide (p.due ≤ s.clk)) then
    let r := splitPend s.clk t.pend
    let s := s.setThreadOf c who { t with pend := r.2 }
    r.1.foldl (fun s w => s.landWrite c who w) s
  else s

/-! ## Positions and waits of the issuing path -/

/-- The issuing path with its PC moved past the word that issues: to the next position, or to the next packet. -/
def Path.advance (p : Path) : Path :=
  if p.wpos < 2 then { p with wpos := p.wpos + 1, fresh := false }
  else { p with pkt := p.pkt + 1#32, wpos := 0, fresh := true }

/-- The state with the issuing path's PC at the start of a packet: a taken transfer (R15, R118). -/
def State.goto (s : State) (pkt : BitVec 32) : State :=
  s.updPath fun p => { p with pkt := pkt, wpos := 0, fresh := true }

/-- A quarter's run ended, if it is the run of this warp slot's path (R39). What the run noted goes with it: the B of a word that issued
before a break in the middle of its packet does not end the run that resumes there (log 88, DESIGN CHOICE). -/
def Column.endRun (x : Column) (slot : Nat) : Column :=
  let q := x.quarter (slot / 16)
  match q.run with
  | some r => if r.slot = slot then x.setQuarter (slot / 16) { q with run := none } else x
  | none => x

/-- The run of the issuing warp ended. -/
def State.endRun (s : State) : State :=
  match s.cur.who with
  | .warp n _ => s.updHere fun x => x.endRun n
  | _ => s

/-- The issuing path left at its word, or at the start of the word's prefix, to execute it again when its wait is over
(R39). -/
def State.holdAt (s : State) (w : Wait) : State :=
  let s := (s.updPath fun p => { p with pkt := s.cur.pkt, wpos := s.cur.wpos, fresh := decide (s.cur.wpos = 0), wait := w }).endRun
  { s with cur := { s.cur with held := true } }

/-- The issuing path left at its word until a cycle: the word waits in place, and its run goes on (R73). -/
def State.inPlaceUntil (s : State) (cycle : Nat) : State :=
  let s := s.updPath fun p => { p with pkt := s.cur.pkt, wpos := s.cur.wpos, fresh := decide (s.cur.wpos = 0), ready := cycle, wait := .none }
  { s with cur := { s.cur with held := true } }

/-- A counter of the issuing launch advanced (R181). -/
def Column.count (x : Column) (launch n : Nat) : Column :=
  { x with perf := Tab.upd 0 x.perf (16 * launch + n) (· + 1) }

/-- Is a wait one that goes on from another: the same, or the write-backs of a release after the words before it? -/
def Wait.goesOn (w before : Wait) : Bool :=
  decide (w = before) || match w, before with
    | .release _, .earlier => true
    | .release _, .release _ => true
    | .hosted, .earlier => true
    | .hosted, .release _ => true
    | _, _ => false

/-- The issuing path left at its word as one that would block (R38, R39): the run breaks there, and RUN_BROKEN is
counted for a warp, once for a wait that goes on; a gleaner counts nothing (R192). -/
def State.blockAt (s : State) (w : Wait) : State :=
  match s.cur.who with
  | .warp _ _ => if w ≠ .none ∧ w.goesOn s.cur.wait = true then s.holdAt w else (s.holdAt w).updHere fun x => x.count s.launchId 2
  | _ => s.holdAt w

/-! ## Taking a trap -/

/-- The code of a cause (R347). -/
def Cause.code : Cause → Nat
  | .illegal => 1 | .role => 2 | .stallShort => 3 | .ifetch => 4 | .divergentScalar => 5 | .divergeDepth => 6
  | .ejectCollective => 7 | .cross => 8 | .align => 9 | .localRange => 10 | .pageFault => 11 | .prot => 12
  | .paHole => 13 | .atomTarget => 14 | .memoryUe => 15 | .barStale => 16 | .barOvershoot => 17 | .barConfig => 18
  | .barFull => 19 | .futureFault => 20 | .futureStale => 21 | .cribConfig => 22 | .grantFull => 23 | .grantStale => 24
  | .accumRange => 25 | .xchParam => 26 | .xchMismatch => 27 | .xchPartner => 28 | .breakpoint => 29 | .userTrap => 30
  | .rejoinTimeout => 64 | .engineFault => 65 | .capacityShrink => 66

/-- The order in which events raised in one cycle are served (R345): warp slots, lane contexts, then the rest, each by
number, a trap before a notification. -/
def Event.rank (e : Event) : Nat :=
  match e.tier with
  | 0 => 2 * e.slot.toNat + (if e.note then 1 else 0)
  | 1 => 1000 + e.ctx.toNat
  | _ => 2000 + e.context.toNat

/-- The queue with one event added: in the order raised, and within a cycle by rank (R345). -/
def insertEvent (e : Event) : List Event → List Event
  | [] => [e]
  | x :: xs => if x.cycle = e.cycle ∧ e.rank < x.rank then e :: x :: xs else x :: insertEvent e xs

/-- An event raised at a column's tinker; a notification that finds its 32 entries full is dropped, and LOST is set in
the next record (R345). -/
def Column.raiseEvent (x : Column) (e : Event) : Column :=
  if e.note ∧ 32 ≤ (x.tinker.queue.filter (·.note)).length then { x with tinker := { x.tinker with lost := true } }
  else { x with tinker := { x.tinker with queue := insertEvent e x.tinker.queue } }

/-- What a trap reports besides its cause (R346). -/
structure TrapInfo where
  lanes : Lanes := 0#32
  detail : BitVec 64 := 0#64
  info : BitVec 32 := 0#32
  /-- the PC slot reported, where it is not the issuing path's (R164) -/
  path : Option (BitVec 2) := none
  /-- the PC reported, where the word that traps is not the issuing one: a FENCE that still waits (R164) -/
  pc : Option (BitVec 32 × Nat) := none
  deriving DecidableEq, Repr

/-- The position after the issue unit of the word that issues, where ERET action 1 resumes (R185). -/
def Cur.after (k : Cur) : BitVec 32 × Nat := if k.unitEnd < 3 then (k.pkt, k.unitEnd) else (k.pkt + 1#32, 0)

/-- Taking a trap (R46, R345): the issuing agent stops precisely at its word, nothing of the word takes effect, and the
event record of R346 joins the tinker's queue. The tinker's own trap stops the tinker (R348); a factor core's own trap
saves its PC and starts its handler (R185). -/
def State.raise (s : State) (c : Cause) (t : TrapInfo) : State :=
  let k := s.cur
  let stop (b : Bool) : Stop :=
    { cause := c, slotB := b, pkt := k.pkt, wpos := k.wpos, nextPkt := k.after.1, nextPos := k.after.2 }
  let back (p : Path) : Path := { p with pkt := k.pkt, wpos := k.wpos, fresh := decide (k.wpos = 0), wait := .none }
  let ev : Event :=
    { detail := t.detail, info := t.info, lanes := t.lanes, context := BitVec.ofNat 16 s.ctxNum,
      wpos := BitVec.ofNat 2 (t.pc.getD (k.pkt, k.wpos)).2, pc := (t.pc.getD (k.pkt, k.wpos)).1, cause := c, slot := BitVec.ofNat 6 s.slot,
      group := BitVec.ofNat 32 s.group.gid, cycle := s.clk }
  match k.who with
  | .warp n b =>
    ((s.updPath back).updHere fun x =>
      (x.setWarp n { x.warp n with stop := some (stop b) }).raiseEvent { ev with path := t.path.getD (if b then 1#2 else 0#2) }).endRun
  | .lane i =>
    (s.updPath back).updHere fun x =>
      (x.setCtx i { x.ctx i with stop := some (stop false) }).raiseEvent
        { ev with path := 2#2, ctx := BitVec.ofNat 5 i, tier := 1 }
  | .tinker =>
    (s.updPath back).updHere fun x => { x with tinker := { x.tinker with stop := some (stop false) } }
  | .factor n =>
    { s with factors := Tab.put s.factors n { s.factor n with
        saved := (k.pkt, k.wpos), cause := c.code,
        path := { (s.factor n).path with pkt := Config.factorHandler n, wpos := 0, fresh := true } } }

/-- A trap that names the path's active lanes. -/
def State.trap (s : State) (c : Cause) : State := s.raise c { lanes := s.active }

/-- ILLEGAL at the word, with the offending word as INFO (R46, R346). -/
def State.illegal (s : State) : State := s.raise .illegal { lanes := s.active, info := s.cur.word }

end Sys2Proof.Machine
end

