-- ==== Sys2Proof/Machine/Words.lean ====
section
/-! DEFINITION. What issue must know of a word before it executes: its pipe (R45, R72), the prefix fields it accepts
(R44), the roles that may issue it (R77), and the registers it reads and writes (R37, R38); and the checks that are
made when a word is decoded, before the scoreboard is consulted (R46, R77). -/

namespace Sys2Proof.Machine

/-- The pipes of R72; a prefix word has none of its own. -/
inductive Pipe where
  | s | v | x | m | e | none
  deriving DecidableEq, Repr

/-- How a word takes the prefix's K and Z. -/
inductive MaskUse where
  | none | k | kz
  deriving DecidableEq, Repr

/-- How a word takes the prefix's X (R42, R44, R152). -/
inductive XUse where
  | none | operand | scope | outerScope | offset
  deriving DecidableEq, Repr

/-- The rows of the role table (R77). -/
inductive RoleRow where
  | any | engine | matrix | accum | float
  deriving DecidableEq, Repr

/-- A register operand: `fourth d` is the fourth operand, X of the prefix or d without one (R42). -/
inductive Opnd where
  | v (r : Nat) | k (r : Nat) | s (r : Nat) | c (i : Nat) | fourth (d : Nat)
  deriving DecidableEq, Repr

/-- The data registers of a B, H, W or D access (R143). -/
def wide (z : BitVec 2) (d : BitVec 6) : List Opnd := if z = 3#2 then [.v d.toNat, .v (d.toNat + 1)] else [.v d.toNat]

/-- A word's class: what of a prefix it accepts and who may issue it (R44, R46, R77). -/
structure Cls where
  accepts : Bool := false
  kz : MaskUse := .none
  rm : Bool := false
  x : XUse := .none
  rd : Bool := false
  /-- EP and LU -/
  hints : Bool := false
  e : Bool := false
  sat : Bool := false
  /-- SPLIT's own reading of the prefix (R44, R122) -/
  split : Bool := false
  role : RoleRow := .any
  tinkerOnly : Bool := false
  deriving DecidableEq, Repr

/-- NOP, YIELD, EXIT, BRK, SLI, SLIS, SADD, SSUB, SMUL, SMULH, SAND, SOR, SXOR, SANDN, SSHL, SSHR, SSAR, SROL, SMIN, SMAX, SMINU, SMAXU, SADDI, SCMP, SCMP_U, SCMPI, SMOV, SCSEL, SPOPC, SCLZ, CAND, COR, CXOR, CANDN, SREAD, SWRITE, BR, BR_F, JMP, CALL, RET, JMPI, CALLI, JOIN, BRT, WAIT_L, WAIT_M, SLEEP, TBEGIN, TEND, TABORT, TSTAT, XCH_XOR, XCH_ROT, XCH_BC, XCH_GATH, XRED, XBAR, BNEW, BFREE, BEXP, BARR, BWAIT, BWAITG, BTEST, HWAIT, HTEST, HCANCEL, HGET, HPUT, TOKWAIT, TOKPASS, TRAP, CLKR, PERF, EJCTL, SIGNAL, LAUNCH, PREFIX. -/
def Cls.plain : Cls := {}
/-- SLD. -/
def Cls.scalarLoad : Cls := { accepts := true, x := .offset, e := true, hints := true, rd := true }
/-- SST. -/
def Cls.scalarStore : Cls := { accepts := true, x := .offset, e := true, hints := true }
/-- IADD, ISUB, IADDI. -/
def Cls.intSat : Cls := { accepts := true, kz := .kz, sat := true }
/-- IMIN, IMAX, IMINU, IMAXU, IABS, INEG, IMUL, IMULH, IMULHU, AND, OR, XOR, ANDN, SHL, SHR, SAR, ROL, POPC, CLZ, BREV, BFE, BFEU, ANDI, ORI, XORI, SHLI, SHRI, SARI, ROLI, ICMP, ICMP_U, ICMPI, VMOV, VBC, VGETL, VLI, VSETL, VLIS, IADDC, ISUBB, LPICK, LROT, LXOR, LSPAN, KSOME, KEVERY, KONE, KSAME, LPEERS, LFIRST, KPOPC, KFFS, FOLD, FOLD_BC, SCAN_INC, SCAN_EXC, SEGRED, SEGSCAN, KAND, KOR, KXOR, KANDN, KLD, KST, KNOT, KACT. -/
def Cls.int : Cls := { accepts := true, kz := .kz }
/-- IMAD, PRMT, BFI, IDOT4. -/
def Cls.intFourth : Cls := { accepts := true, kz := .kz, x := .operand }
/-- SEL, whose K selects and whose prefix may not set Z (R94). -/
def Cls.select : Cls := { accepts := true, kz := .k }
/-- FADD, FSUB, FMUL, FRND, FSCALE, BADD2, BSUB2, BMUL2, HADD2, HSUB2, HMUL2, CVT_I2F, CVT_U2F, PACK_E4M3, PACK_TS8. -/
def Cls.fpRound : Cls := { accepts := true, kz := .kz, rm := true, role := .float }
/-- FFMA, BFMA2, HFMA2. -/
def Cls.fpFourth : Cls := { accepts := true, kz := .kz, rm := true, x := .operand, role := .float }
/-- FMIN, FMAX, FABS, FNEG, FCMP, FCMP_U, FGETEXP, FCLASS, BMIN2, BMAX2, HMIN2, HMAX2, FRCP, FRSQ, FSQRT, FTANH, FEXP2, FLOG2, FSIN, FCOS, CVT_B2F, CVT_H2F, UNPK_E4M3, UNPK_E5M2, UNPK_TS8, MXSCALE, MXAPPLY. -/
def Cls.fp : Cls := { accepts := true, kz := .kz, role := .float }
/-- CVT_F2I, CVT_F2U, CVT_F2B, CVT_F2H, PACK_E5M2. -/
def Cls.cvtSat : Cls := { accepts := true, kz := .kz, rm := true, sat := true, role := .float }
/-- SPLIT. -/
def Cls.dividing : Cls := { accepts := true, split := true }
/-- LD, LDS_B, LDS_H, LD_Q, PF. -/
def Cls.load : Cls := { accepts := true, kz := .kz, rd := true, hints := true }
/-- ST, ST_Q, ATOM_ADD, ATOM_MIN, ATOM_MAX, ATOM_AND, ATOM_OR, ATOM_XOR, ATOM_XCHG, ATOM_CAS, ATOM_MINU, ATOM_MAXU, ATOM_INC, ATOM_DEC, ATOM_FADD, ATOM_FMIN, ATOM_FMAX, ATOM_ADD64, RED_ADD, RED_MIN, RED_MAX, RED_FADD, RED_BAY_ADD, RED_BAY_MIN, RED_BAY_MAX, RED_BAY_FADD. -/
def Cls.store : Cls := { accepts := true, kz := .kz, hints := true }
/-- LDL, STL, ATOML_ADD, ATOML_MIN, ATOML_MAX, ATOML_CAS. -/
def Cls.localMem : Cls := { accepts := true, kz := .k }
/-- LD_ACQ_W, LD_ACQ_D. -/
def Cls.loadAcquire : Cls := { accepts := true, kz := .kz, x := .scope, rd := true, hints := true }
/-- ST_REL_W, ST_REL_D. -/
def Cls.storeRelease : Cls := { accepts := true, kz := .kz, x := .scope, hints := true }
/-- FENCE. -/
def Cls.fence : Cls := { accepts := true, x := .scope }
/-- CCLEAN, CINV. -/
def Cls.cacheOp : Cls := { accepts := true, x := .outerScope }
/-- COPY, GATH, SCAT, COPY_RST. -/
def Cls.engine : Cls := { role := .engine }
/-- MLDW, MSWAP, MZERO, MLOOP, MSTR, CRES, CREL, CSTAT. -/
def Cls.thresher : Cls := { role := .matrix }
/-- MRD. -/
def Cls.accumRead : Cls := { role := .accum }
/-- ERET, TLBI, WINR, WINW. -/
def Cls.privileged : Cls := { tinkerOnly := true }

/-- May a role issue the words of a row (R77)? -/
def RoleRow.allows : RoleRow → Role → Bool
  | .any, _ => true
  | .engine, r => decide (r = .copy) || decide (r = .unified)
  | .matrix, r => decide (r = .matrix) || decide (r = .unified)
  | .accum, r => decide (r ≠ .copy)
  | .float, r => decide (r = .vector) || decide (r = .unified)

/-- The scope code that a prefix's X holds (R42). -/
def Pfx.scope (p : Pfx) : Nat := p.x.toNat % 16

/-- Are a prefix's fields ones that a word of this class accepts (R43, R44), with a legal scope where X is one (R7,
R152), an offset extension only with E (R148), and SPLIT's own use of the fields (R122)? -/
def Cls.admits (k : Cls) (p : Pfx) : Bool :=
  k.accepts &&
  if k.split then p.e && decide (p.rd = 0#2) && decide (p.ep = 0#2) && !p.lu && !p.sat
  else
    (decide (k.kz ≠ .none) || decide (p.k = 0#3)) && (decide (k.kz = .kz) || !p.z)
    && (k.rm || decide (p.rm = 0#3)) && (k.rd || decide (p.rd = 0#2))
    && (k.hints || (decide (p.ep = 0#2) && !p.lu)) && (k.e || !p.e) && (k.sat || !p.sat)
    && (match k.x with
        | .none => decide (p.x = 0#6)
        | .operand => true
        | .scope => decide (p.x.toNat ≤ 10)
        | .outerScope => decide (4 ≤ p.x.toNat) && decide (p.x.toNat ≤ 10)
        | .offset => p.e || decide (p.x = 0#6))

/-- Is a word one that an ejected lane refuses whatever the role (R197)? -/
def State.laneRefuses (s : State) (k : Cls) : Bool :=
  match s.cur.who with
  | .lane _ => decide (k.role = .matrix) || decide (k.role = .accum)
  | _ => false

/-- The cause that a word's decoding raises, before the scoreboard: ILLEGAL for OP 0x79 outside the tinker and the
factor cores and for a prefix the word does not accept, ROLE for a role that may not issue it (R46, R77). -/
def State.decodeCause (s : State) (k : Cls) : Option Cause :=
  let privileged : Bool :=
    match s.cur.who with
    | .tinker => true
    | .factor _ => true
    | _ => false
  if k.tinkerOnly && !privileged then some .illegal
  else if (match s.cur.pfx with
           | some p => !k.admits p
           | none => false) then some .illegal
  else if !k.role.allows s.warp.role && !s.laneRefuses k then some .role
  else none

/-- A meaning guarded by the checks of decoding: every word's meaning begins with it. -/
def accept (k : Cls) (s : State) (run : State → Host.Outcome State Fault Refusal) : Host.Outcome State Fault Refusal :=
  match s.decodeCause k with
  | some .illegal => .next s.illegal
  | some c => .next (s.trap c)
  | none => run s

end Sys2Proof.Machine

namespace Sys2Proof

open Sys2Proof.Machine

/-- The class of a word; the steps that no word encodes have the plain one. -/
def Instr.cls : Instr → Cls
  | .nop => .plain
  | .yield => .plain
  | .exit => .plain
  | .brk .. => .plain
  | .sli .. => .plain
  | .slis .. => .plain
  | .sadd .. => .plain
  | .ssub .. => .plain
  | .smul .. => .plain
  | .smulh .. => .plain
  | .sand .. => .plain
  | .sor .. => .plain
  | .sxor .. => .plain
  | .sandn .. => .plain
  | .sshl .. => .plain
  | .sshr .. => .plain
  | .ssar .. => .plain
  | .srol .. => .plain
  | .smin .. => .plain
  | .smax .. => .plain
  | .sminu .. => .plain
  | .smaxu .. => .plain
  | .saddi .. => .plain
  | .scmp .. => .plain
  | .scmpU .. => .plain
  | .scmpi .. => .plain
  | .smov .. => .plain
  | .scsel .. => .plain
  | .spopc .. => .plain
  | .sclz .. => .plain
  | .cand .. => .plain
  | .cor .. => .plain
  | .cxor .. => .plain
  | .candn .. => .plain
  | .sread .. => .plain
  | .swrite .. => .plain
  | .sld .. => .scalarLoad
  | .sst .. => .scalarStore
  | .iadd .. => .intSat
  | .isub .. => .intSat
  | .imin .. => .int
  | .imax .. => .int
  | .iminu .. => .int
  | .imaxu .. => .int
  | .iabs .. => .int
  | .ineg .. => .int
  | .imul .. => .int
  | .imulh .. => .int
  | .imulhu .. => .int
  | .imad .. => .intFourth
  | .and .. => .int
  | .or .. => .int
  | .xor .. => .int
  | .andn .. => .int
  | .shl .. => .int
  | .shr .. => .int
  | .sar .. => .int
  | .rol .. => .int
  | .popc .. => .int
  | .clz .. => .int
  | .brev .. => .int
  | .prmt .. => .intFourth
  | .bfe .. => .int
  | .bfeu .. => .int
  | .bfi .. => .intFourth
  | .idot4 .. => .intFourth
  | .iaddi .. => .intSat
  | .andi .. => .int
  | .ori .. => .int
  | .xori .. => .int
  | .shli .. => .int
  | .shri .. => .int
  | .sari .. => .int
  | .roli .. => .int
  | .icmp .. => .int
  | .icmpU .. => .int
  | .icmpi .. => .int
  | .sel .. => .select
  | .vmov .. => .int
  | .vbc .. => .int
  | .vgetl .. => .int
  | .vli .. => .int
  | .vsetl .. => .int
  | .vlis .. => .int
  | .iaddc .. => .int
  | .isubb .. => .int
  | .fadd .. => .fpRound
  | .fsub .. => .fpRound
  | .fmul .. => .fpRound
  | .ffma .. => .fpFourth
  | .fmin .. => .fp
  | .fmax .. => .fp
  | .fabs .. => .fp
  | .fneg .. => .fp
  | .fcmp .. => .fp
  | .fcmpU .. => .fp
  | .frnd .. => .fpRound
  | .fscale .. => .fpRound
  | .fgetexp .. => .fp
  | .fclass .. => .fp
  | .badd2 .. => .fpRound
  | .bsub2 .. => .fpRound
  | .bmul2 .. => .fpRound
  | .bfma2 .. => .fpFourth
  | .hadd2 .. => .fpRound
  | .hsub2 .. => .fpRound
  | .hmul2 .. => .fpRound
  | .hfma2 .. => .fpFourth
  | .bmin2 .. => .fp
  | .bmax2 .. => .fp
  | .hmin2 .. => .fp
  | .hmax2 .. => .fp
  | .frcp .. => .fp
  | .frsq .. => .fp
  | .fsqrt .. => .fp
  | .ftanh .. => .fp
  | .fexp2 .. => .fp
  | .flog2 .. => .fp
  | .fsin .. => .fp
  | .fcos .. => .fp
  | .cvtF2i .. => .cvtSat
  | .cvtF2u .. => .cvtSat
  | .cvtI2f .. => .fpRound
  | .cvtU2f .. => .fpRound
  | .cvtF2b .. => .cvtSat
  | .cvtF2h .. => .cvtSat
  | .cvtB2f .. => .fp
  | .cvtH2f .. => .fp
  | .packE4m3 .. => .fpRound
  | .packE5m2 .. => .cvtSat
  | .unpkE4m3 .. => .fp
  | .unpkE5m2 .. => .fp
  | .packTs8 .. => .fpRound
  | .unpkTs8 .. => .fp
  | .mxscale .. => .fp
  | .mxapply .. => .fp
  | .lpick .. => .int
  | .lrot .. => .int
  | .lxor .. => .int
  | .lspan .. => .int
  | .ksome .. => .int
  | .kevery .. => .int
  | .kone .. => .int
  | .ksame .. => .int
  | .lpeers .. => .int
  | .lfirst .. => .int
  | .kpopc .. => .int
  | .kffs .. => .int
  | .fold .. => .int
  | .foldBc .. => .int
  | .scanInc .. => .int
  | .scanExc .. => .int
  | .segred .. => .int
  | .segscan .. => .int
  | .kand .. => .int
  | .kor .. => .int
  | .kxor .. => .int
  | .kandn .. => .int
  | .kld .. => .int
  | .kst .. => .int
  | .knot .. => .int
  | .kact .. => .int
  | .br .. => .plain
  | .brF .. => .plain
  | .jmp .. => .plain
  | .call .. => .plain
  | .ret => .plain
  | .jmpi .. => .plain
  | .calli .. => .plain
  | .split .. => .dividing
  | .join => .plain
  | .brt .. => .plain
  | .waitL .. => .plain
  | .waitM .. => .plain
  | .sleep .. => .plain
  | .ld .. => .load
  | .ldsB .. => .load
  | .ldsH .. => .load
  | .ldQ .. => .load
  | .pf .. => .load
  | .st .. => .store
  | .stQ .. => .store
  | .ldl .. => .localMem
  | .stl .. => .localMem
  | .ldAcqW .. => .loadAcquire
  | .ldAcqD .. => .loadAcquire
  | .stRelW .. => .storeRelease
  | .stRelD .. => .storeRelease
  | .atomAdd .. => .store
  | .atomMin .. => .store
  | .atomMax .. => .store
  | .atomAnd .. => .store
  | .atomOr .. => .store
  | .atomXor .. => .store
  | .atomXchg .. => .store
  | .atomCas .. => .store
  | .atomMinu .. => .store
  | .atomMaxu .. => .store
  | .atomInc .. => .store
  | .atomDec .. => .store
  | .atomFadd .. => .store
  | .atomFmin .. => .store
  | .atomFmax .. => .store
  | .atomAdd64 .. => .store
  | .atomlAdd .. => .localMem
  | .atomlMin .. => .localMem
  | .atomlMax .. => .localMem
  | .atomlCas .. => .localMem
  | .redAdd .. => .store
  | .redMin .. => .store
  | .redMax .. => .store
  | .redFadd .. => .store
  | .redBayAdd .. => .store
  | .redBayMin .. => .store
  | .redBayMax .. => .store
  | .redBayFadd .. => .store
  | .fence => .fence
  | .cclean .. => .cacheOp
  | .cinv .. => .cacheOp
  | .tbegin .. => .plain
  | .tend => .plain
  | .tabort .. => .plain
  | .tstat .. => .plain
  | .xchXor .. => .plain
  | .xchRot .. => .plain
  | .xchBc .. => .plain
  | .xchGath .. => .plain
  | .xred .. => .plain
  | .xbar => .plain
  | .bnew .. => .plain
  | .bfree .. => .plain
  | .bexp .. => .plain
  | .barr .. => .plain
  | .bwait .. => .plain
  | .bwaitg .. => .plain
  | .btest .. => .plain
  | .hwait .. => .plain
  | .htest .. => .plain
  | .hcancel .. => .plain
  | .hget .. => .plain
  | .hput .. => .plain
  | .tokwait => .plain
  | .tokpass => .plain
  | .copy .. => .engine
  | .gath .. => .engine
  | .scat .. => .engine
  | .copyRst .. => .engine
  | .mldw .. => .thresher
  | .mswap .. => .thresher
  | .mzero .. => .thresher
  | .mloop .. => .thresher
  | .mrd .. => .accumRead
  | .mstr .. => .thresher
  | .cres .. => .thresher
  | .crel .. => .thresher
  | .cstat .. => .thresher
  | .trap .. => .plain
  | .eret .. => .privileged
  | .tlbi .. => .privileged
  | .winr .. => .privileged
  | .winw .. => .privileged
  | .clkr .. => .plain
  | .perf .. => .plain
  | .ejctl .. => .plain
  | .signal .. => .plain
  | .launch .. => .plain
  | .pfx .. => .plain
  | .runArbitration .. => .plain
  | .variableLatencyLand .. => .plain
  | .nackRetry .. => .plain
  | .sleepExpire .. => .plain
  | .rejoinTimeout .. => .plain
  | .laneContextStart .. => .plain
  | .laneReturn .. => .plain
  | .taskRecordCheck => .plain
  | .launchRingEntry .. => .plain
  | .launchComplete .. => .plain
  | .makeResident .. => .plain
  | .preemptGroup .. => .plain
  | .quantumExpire .. => .plain
  | .waitPriorityRise .. => .plain
  | .startTimeReached .. => .plain
  | .watchdog .. => .plain
  | .claimSpan .. => .plain
  | .copyCommandStart .. => .plain
  | .copyTransfer .. => .plain
  | .gatherTransfer .. => .plain
  | .engineCommandDone .. => .plain
  | .barBytesDelivered .. => .plain
  | .thresherCommandStart .. => .plain
  | .thresherKstep .. => .plain
  | .mloopRowsLanded .. => .plain
  | .routerCycle => .plain
  | .injectionWindow => .plain
  | .xdata .. => .plain
  | .ack .. => .plain
  | .nack .. => .plain
  | .xctlArrival .. => .plain
  | .xctlRelease .. => .plain
  | .xredCombine .. => .plain
  | .rd .. => .plain
  | .rdata .. => .plain
  | .wdata .. => .plain
  | .mgmt .. => .plain
  | .sliceRequest .. => .plain
  | .hbmFill .. => .plain
  | .bayModeSwitch .. => .plain
  | .carveChange .. => .plain
  | .carveGrowDone .. => .plain
  | .bayRgnHtWrite .. => .plain
  | .bayAliasWrite .. => .plain
  | .slstatRead .. => .plain
  | .dutyMapWrite .. => .plain
  | .ringCfgWrite .. => .plain
  | .registerWrite .. => .plain
  | .attest => .plain
  | .pfaultDone => .plain
  | .train => .plain
  | .scrub => .plain
  | .eth => .plain
  | .thermal => .plain
  | .service => .plain
  | .qp => .plain
  | .fwupdate => .plain
  | .eccScrub => .plain
  | .thermalSample .. => .plain
  | .emergencyTrip => .plain
  | .boot .. => .plain
  | .functionLevelReset .. => .plain
  | .ptpSync .. => .plain
  | .peerRdmaRequest .. => .plain
  | .strandBeatError .. => .plain
  | .strandRetire .. => .plain
  | .linkCheckError .. => .plain
  | .containment .. => .plain
  | .migratePage .. => .plain
  | .tlbiComplete .. => .plain
  | .tinkerEvent .. => .plain
  | .debugRestart .. => .plain
  | .debugCancel .. => .plain
  | .peerAcknowledge .. => .plain
  | .peerLink .. => .plain
  | .hostLinkCompletion .. => .plain
  | .hostLinkRetriesExhausted .. => .plain
  | .shadowPlaneLoaded .. => .plain
  | .mstrTransfer .. => .plain
  | .tinkerRestart .. => .plain
  | .fringHead .. => .plain
  | .unknownOp => .plain
  | .ethernetLinkBringUp .. => .plain
  | .tripPointCleared => .plain

/-- The pipe that a word issues to (R45). -/
def Instr.pipe : Instr → Pipe
  | .nop => .s
  | .yield => .s
  | .exit => .s
  | .brk .. => .s
  | .sli .. => .s
  | .slis .. => .s
  | .sadd .. => .s
  | .ssub .. => .s
  | .smul .. => .s
  | .smulh .. => .s
  | .sand .. => .s
  | .sor .. => .s
  | .sxor .. => .s
  | .sandn .. => .s
  | .sshl .. => .s
  | .sshr .. => .s
  | .ssar .. => .s
  | .srol .. => .s
  | .smin .. => .s
  | .smax .. => .s
  | .sminu .. => .s
  | .smaxu .. => .s
  | .saddi .. => .s
  | .scmp .. => .s
  | .scmpU .. => .s
  | .scmpi .. => .s
  | .smov .. => .s
  | .scsel .. => .s
  | .spopc .. => .s
  | .sclz .. => .s
  | .cand .. => .s
  | .cor .. => .s
  | .cxor .. => .s
  | .candn .. => .s
  | .sread .. => .s
  | .swrite .. => .s
  | .sld .. => .m
  | .sst .. => .m
  | .iadd .. => .v
  | .isub .. => .v
  | .imin .. => .v
  | .imax .. => .v
  | .iminu .. => .v
  | .imaxu .. => .v
  | .iabs .. => .v
  | .ineg .. => .v
  | .imul .. => .v
  | .imulh .. => .v
  | .imulhu .. => .v
  | .imad .. => .v
  | .and .. => .v
  | .or .. => .v
  | .xor .. => .v
  | .andn .. => .v
  | .shl .. => .v
  | .shr .. => .v
  | .sar .. => .v
  | .rol .. => .v
  | .popc .. => .v
  | .clz .. => .v
  | .brev .. => .v
  | .prmt .. => .v
  | .bfe .. => .v
  | .bfeu .. => .v
  | .bfi .. => .v
  | .idot4 .. => .v
  | .iaddi .. => .v
  | .andi .. => .v
  | .ori .. => .v
  | .xori .. => .v
  | .shli .. => .v
  | .shri .. => .v
  | .sari .. => .v
  | .roli .. => .v
  | .icmp .. => .v
  | .icmpU .. => .v
  | .icmpi .. => .v
  | .sel .. => .v
  | .vmov .. => .v
  | .vbc .. => .v
  | .vgetl .. => .v
  | .vli .. => .v
  | .vsetl .. => .v
  | .vlis .. => .v
  | .iaddc .. => .v
  | .isubb .. => .v
  | .fadd .. => .v
  | .fsub .. => .v
  | .fmul .. => .v
  | .ffma .. => .v
  | .fmin .. => .v
  | .fmax .. => .v
  | .fabs .. => .v
  | .fneg .. => .v
  | .fcmp .. => .v
  | .fcmpU .. => .v
  | .frnd .. => .v
  | .fscale .. => .v
  | .fgetexp .. => .v
  | .fclass .. => .v
  | .badd2 .. => .v
  | .bsub2 .. => .v
  | .bmul2 .. => .v
  | .bfma2 .. => .v
  | .hadd2 .. => .v
  | .hsub2 .. => .v
  | .hmul2 .. => .v
  | .hfma2 .. => .v
  | .bmin2 .. => .v
  | .bmax2 .. => .v
  | .hmin2 .. => .v
  | .hmax2 .. => .v
  | .frcp .. => .x
  | .frsq .. => .x
  | .fsqrt .. => .x
  | .ftanh .. => .x
  | .fexp2 .. => .x
  | .flog2 .. => .x
  | .fsin .. => .x
  | .fcos .. => .x
  | .cvtF2i .. => .x
  | .cvtF2u .. => .x
  | .cvtI2f .. => .x
  | .cvtU2f .. => .x
  | .cvtF2b .. => .x
  | .cvtF2h .. => .x
  | .cvtB2f .. => .x
  | .cvtH2f .. => .x
  | .packE4m3 .. => .x
  | .packE5m2 .. => .x
  | .unpkE4m3 .. => .x
  | .unpkE5m2 .. => .x
  | .packTs8 .. => .x
  | .unpkTs8 .. => .x
  | .mxscale .. => .x
  | .mxapply .. => .x
  | .lpick .. => .x
  | .lrot .. => .x
  | .lxor .. => .x
  | .lspan .. => .x
  | .ksome .. => .x
  | .kevery .. => .x
  | .kone .. => .x
  | .ksame .. => .x
  | .lpeers .. => .x
  | .lfirst .. => .x
  | .kpopc .. => .x
  | .kffs .. => .x
  | .fold .. => .x
  | .foldBc .. => .x
  | .scanInc .. => .x
  | .scanExc .. => .x
  | .segred .. => .x
  | .segscan .. => .x
  | .kand .. => .x
  | .kor .. => .x
  | .kxor .. => .x
  | .kandn .. => .x
  | .kld .. => .x
  | .kst .. => .x
  | .knot .. => .x
  | .kact .. => .x
  | .br .. => .s
  | .brF .. => .s
  | .jmp .. => .s
  | .call .. => .s
  | .ret => .s
  | .jmpi .. => .s
  | .calli .. => .s
  | .split .. => .s
  | .join => .s
  | .brt .. => .s
  | .waitL .. => .s
  | .waitM .. => .s
  | .sleep .. => .s
  | .ld .. => .m
  | .ldsB .. => .m
  | .ldsH .. => .m
  | .ldQ .. => .m
  | .pf .. => .m
  | .st .. => .m
  | .stQ .. => .m
  | .ldl .. => .m
  | .stl .. => .m
  | .ldAcqW .. => .m
  | .ldAcqD .. => .m
  | .stRelW .. => .m
  | .stRelD .. => .m
  | .atomAdd .. => .m
  | .atomMin .. => .m
  | .atomMax .. => .m
  | .atomAnd .. => .m
  | .atomOr .. => .m
  | .atomXor .. => .m
  | .atomXchg .. => .m
  | .atomCas .. => .m
  | .atomMinu .. => .m
  | .atomMaxu .. => .m
  | .atomInc .. => .m
  | .atomDec .. => .m
  | .atomFadd .. => .m
  | .atomFmin .. => .m
  | .atomFmax .. => .m
  | .atomAdd64 .. => .m
  | .atomlAdd .. => .m
  | .atomlMin .. => .m
  | .atomlMax .. => .m
  | .atomlCas .. => .m
  | .redAdd .. => .m
  | .redMin .. => .m
  | .redMax .. => .m
  | .redFadd .. => .m
  | .redBayAdd .. => .m
  | .redBayMin .. => .m
  | .redBayMax .. => .m
  | .redBayFadd .. => .m
  | .fence => .m
  | .cclean .. => .m
  | .cinv .. => .m
  | .tbegin .. => .m
  | .tend => .m
  | .tabort .. => .m
  | .tstat .. => .m
  | .xchXor .. => .m
  | .xchRot .. => .m
  | .xchBc .. => .m
  | .xchGath .. => .m
  | .xred .. => .m
  | .xbar => .m
  | .bnew .. => .m
  | .bfree .. => .m
  | .bexp .. => .m
  | .barr .. => .m
  | .bwait .. => .m
  | .bwaitg .. => .m
  | .btest .. => .m
  | .hwait .. => .m
  | .htest .. => .m
  | .hcancel .. => .m
  | .hget .. => .m
  | .hput .. => .m
  | .tokwait => .m
  | .tokpass => .m
  | .copy .. => .e
  | .gath .. => .e
  | .scat .. => .e
  | .copyRst .. => .e
  | .mldw .. => .e
  | .mswap .. => .e
  | .mzero .. => .e
  | .mloop .. => .e
  | .mrd .. => .e
  | .mstr .. => .e
  | .cres .. => .e
  | .crel .. => .e
  | .cstat .. => .e
  | .trap .. => .s
  | .eret .. => .s
  | .tlbi .. => .s
  | .winr .. => .s
  | .winw .. => .s
  | .clkr .. => .s
  | .perf .. => .s
  | .ejctl .. => .s
  | .signal .. => .s
  | .launch .. => .e
  | .pfx .. => .none
  | .runArbitration .. => .none
  | .variableLatencyLand .. => .none
  | .nackRetry .. => .none
  | .sleepExpire .. => .none
  | .rejoinTimeout .. => .none
  | .laneContextStart .. => .none
  | .laneReturn .. => .none
  | .taskRecordCheck => .none
  | .launchRingEntry .. => .none
  | .launchComplete .. => .none
  | .makeResident .. => .none
  | .preemptGroup .. => .none
  | .quantumExpire .. => .none
  | .waitPriorityRise .. => .none
  | .startTimeReached .. => .none
  | .watchdog .. => .none
  | .claimSpan .. => .none
  | .copyCommandStart .. => .none
  | .copyTransfer .. => .none
  | .gatherTransfer .. => .none
  | .engineCommandDone .. => .none
  | .barBytesDelivered .. => .none
  | .thresherCommandStart .. => .none
  | .thresherKstep .. => .none
  | .mloopRowsLanded .. => .none
  | .routerCycle => .none
  | .injectionWindow => .none
  | .xdata .. => .none
  | .ack .. => .none
  | .nack .. => .none
  | .xctlArrival .. => .none
  | .xctlRelease .. => .none
  | .xredCombine .. => .none
  | .rd .. => .none
  | .rdata .. => .none
  | .wdata .. => .none
  | .mgmt .. => .none
  | .sliceRequest .. => .none
  | .hbmFill .. => .none
  | .bayModeSwitch .. => .none
  | .carveChange .. => .none
  | .carveGrowDone .. => .none
  | .bayRgnHtWrite .. => .none
  | .bayAliasWrite .. => .none
  | .slstatRead .. => .none
  | .dutyMapWrite .. => .none
  | .ringCfgWrite .. => .none
  | .registerWrite .. => .none
  | .attest => .none
  | .pfaultDone => .none
  | .train => .none
  | .scrub => .none
  | .eth => .none
  | .thermal => .none
  | .service => .none
  | .qp => .none
  | .fwupdate => .none
  | .eccScrub => .none
  | .thermalSample .. => .none
  | .emergencyTrip => .none
  | .boot .. => .none
  | .functionLevelReset .. => .none
  | .ptpSync .. => .none
  | .peerRdmaRequest .. => .none
  | .strandBeatError .. => .none
  | .strandRetire .. => .none
  | .linkCheckError .. => .none
  | .containment .. => .none
  | .migratePage .. => .none
  | .tlbiComplete .. => .none
  | .tinkerEvent .. => .none
  | .debugRestart .. => .none
  | .debugCancel .. => .none
  | .peerAcknowledge .. => .none
  | .peerLink .. => .none
  | .hostLinkCompletion .. => .none
  | .hostLinkRetriesExhausted .. => .none
  | .shadowPlaneLoaded .. => .none
  | .mstrTransfer .. => .none
  | .tinkerRestart .. => .none
  | .fringHead .. => .none
  | .unknownOp => .none
  | .ethernetLinkBringUp .. => .none
  | .tripPointCleared => .none


/-- The registers that a word reads (R37, R38). The engine words' coordinates and second registers depend on their
records, and their meanings check those themselves. -/
def Instr.reads : Instr → List Opnd
  | .nop => []
  | .yield => []
  | .exit => []
  | .brk .. => []
  | .sli .. => []
  | .slis d _ => [.s d.toNat]
  | .sadd _ a b => [.s a.toNat, .s b.toNat]
  | .ssub _ a b => [.s a.toNat, .s b.toNat]
  | .smul _ a b => [.s a.toNat, .s b.toNat]
  | .smulh _ a b => [.s a.toNat, .s b.toNat]
  | .sand _ a b => [.s a.toNat, .s b.toNat]
  | .sor _ a b => [.s a.toNat, .s b.toNat]
  | .sxor _ a b => [.s a.toNat, .s b.toNat]
  | .sandn _ a b => [.s a.toNat, .s b.toNat]
  | .sshl _ a b => [.s a.toNat, .s b.toNat]
  | .sshr _ a b => [.s a.toNat, .s b.toNat]
  | .ssar _ a b => [.s a.toNat, .s b.toNat]
  | .srol _ a b => [.s a.toNat, .s b.toNat]
  | .smin _ a b => [.s a.toNat, .s b.toNat]
  | .smax _ a b => [.s a.toNat, .s b.toNat]
  | .sminu _ a b => [.s a.toNat, .s b.toNat]
  | .smaxu _ a b => [.s a.toNat, .s b.toNat]
  | .saddi _ a _ => [.s a.toNat]
  | .scmp _ _ a b => [.s a.toNat, .s b.toNat]
  | .scmpU _ _ a b => [.s a.toNat, .s b.toNat]
  | .scmpi _ _ a _ => [.s a.toNat]
  | .smov _ a => [.s a.toNat]
  | .scsel _ a b => [.s a.toNat, .c b.toNat]
  | .spopc _ a => [.s a.toNat]
  | .sclz _ a => [.s a.toNat]
  | .cand _ a b => [.c a.toNat, .c b.toNat]
  | .cor _ a b => [.c a.toNat, .c b.toNat]
  | .cxor _ a b => [.c a.toNat, .c b.toNat]
  | .candn _ a b => [.c a.toNat, .c b.toNat]
  | .sread .. => []
  | .swrite a _ => [.s a.toNat]
  | .sld _ a _ => [.s a.toNat]
  | .sst d a _ => [.s a.toNat, .s d.toNat]
  | .iadd _ a b => [.v a.toNat, .v b.toNat]
  | .isub _ a b => [.v a.toNat, .v b.toNat]
  | .imin _ a b => [.v a.toNat, .v b.toNat]
  | .imax _ a b => [.v a.toNat, .v b.toNat]
  | .iminu _ a b => [.v a.toNat, .v b.toNat]
  | .imaxu _ a b => [.v a.toNat, .v b.toNat]
  | .iabs _ a => [.v a.toNat]
  | .ineg _ a => [.v a.toNat]
  | .imul _ a b => [.v a.toNat, .v b.toNat]
  | .imulh _ a b => [.v a.toNat, .v b.toNat]
  | .imulhu _ a b => [.v a.toNat, .v b.toNat]
  | .imad d a b => [.v a.toNat, .v b.toNat, .fourth d.toNat]
  | .and _ a b => [.v a.toNat, .v b.toNat]
  | .or _ a b => [.v a.toNat, .v b.toNat]
  | .xor _ a b => [.v a.toNat, .v b.toNat]
  | .andn _ a b => [.v a.toNat, .v b.toNat]
  | .shl _ a b => [.v a.toNat, .v b.toNat]
  | .shr _ a b => [.v a.toNat, .v b.toNat]
  | .sar _ a b => [.v a.toNat, .v b.toNat]
  | .rol _ a b => [.v a.toNat, .v b.toNat]
  | .popc _ a => [.v a.toNat]
  | .clz _ a => [.v a.toNat]
  | .brev _ a => [.v a.toNat]
  | .prmt d a b => [.v a.toNat, .v b.toNat, .fourth d.toNat]
  | .bfe _ a b => [.v a.toNat, .v b.toNat]
  | .bfeu _ a b => [.v a.toNat, .v b.toNat]
  | .bfi d a b => [.v a.toNat, .v b.toNat, .fourth d.toNat]
  | .idot4 d a b => [.v a.toNat, .v b.toNat, .fourth d.toNat]
  | .iaddi _ a _ => [.v a.toNat]
  | .andi _ a _ => [.v a.toNat]
  | .ori _ a _ => [.v a.toNat]
  | .xori _ a _ => [.v a.toNat]
  | .shli _ a _ => [.v a.toNat]
  | .shri _ a _ => [.v a.toNat]
  | .sari _ a _ => [.v a.toNat]
  | .roli _ a _ => [.v a.toNat]
  | .icmp _ _ a b => [.v a.toNat, .v b.toNat]
  | .icmpU _ _ a b => [.v a.toNat, .v b.toNat]
  | .icmpi _ _ a _ => [.v a.toNat]
  | .sel _ a b => [.v a.toNat, .v b.toNat]
  | .vmov _ a => [.v a.toNat]
  | .vbc _ a => [.s a.toNat]
  | .vgetl .. => []
  | .vli .. => []
  | .vsetl _ a b => [.s a.toNat, .s b.toNat]
  | .vlis d _ => [.v d.toNat]
  | .iaddc _ a b => [.v (2 * a.toNat), .v ((2 * a.toNat) + 1), .v (2 * b.toNat), .v ((2 * b.toNat) + 1)]
  | .isubb _ a b => [.v (2 * a.toNat), .v ((2 * a.toNat) + 1), .v (2 * b.toNat), .v ((2 * b.toNat) + 1)]
  | .fadd _ a b => [.v a.toNat, .v b.toNat]
  | .fsub _ a b => [.v a.toNat, .v b.toNat]
  | .fmul _ a b => [.v a.toNat, .v b.toNat]
  | .ffma d a b => [.v a.toNat, .v b.toNat, .fourth d.toNat]
  | .fmin _ a b => [.v a.toNat, .v b.toNat]
  | .fmax _ a b => [.v a.toNat, .v b.toNat]
  | .fabs _ a => [.v a.toNat]
  | .fneg _ a => [.v a.toNat]
  | .fcmp _ _ a b => [.v a.toNat, .v b.toNat]
  | .fcmpU _ _ a b => [.v a.toNat, .v b.toNat]
  | .frnd _ a => [.v a.toNat]
  | .fscale _ a b => [.v a.toNat, .v b.toNat]
  | .fgetexp _ a => [.v a.toNat]
  | .fclass _ a => [.v a.toNat]
  | .badd2 _ a b => [.v a.toNat, .v b.toNat]
  | .bsub2 _ a b => [.v a.toNat, .v b.toNat]
  | .bmul2 _ a b => [.v a.toNat, .v b.toNat]
  | .bfma2 d a b => [.v a.toNat, .v b.toNat, .fourth d.toNat]
  | .hadd2 _ a b => [.v a.toNat, .v b.toNat]
  | .hsub2 _ a b => [.v a.toNat, .v b.toNat]
  | .hmul2 _ a b => [.v a.toNat, .v b.toNat]
  | .hfma2 d a b => [.v a.toNat, .v b.toNat, .fourth d.toNat]
  | .bmin2 _ a b => [.v a.toNat, .v b.toNat]
  | .bmax2 _ a b => [.v a.toNat, .v b.toNat]
  | .hmin2 _ a b => [.v a.toNat, .v b.toNat]
  | .hmax2 _ a b => [.v a.toNat, .v b.toNat]
  | .frcp _ a => [.v a.toNat]
  | .frsq _ a => [.v a.toNat]
  | .fsqrt _ a => [.v a.toNat]
  | .ftanh _ a => [.v a.toNat]
  | .fexp2 _ a => [.v a.toNat]
  | .flog2 _ a => [.v a.toNat]
  | .fsin _ a => [.v a.toNat]
  | .fcos _ a => [.v a.toNat]
  | .cvtF2i _ a => [.v a.toNat]
  | .cvtF2u _ a => [.v a.toNat]
  | .cvtI2f _ a => [.v a.toNat]
  | .cvtU2f _ a => [.v a.toNat]
  | .cvtF2b _ a b => [.v a.toNat, .v b.toNat]
  | .cvtF2h _ a b => [.v a.toNat, .v b.toNat]
  | .cvtB2f _ a _ => [.v a.toNat]
  | .cvtH2f _ a _ => [.v a.toNat]
  | .packE4m3 _ a b => [.v (2 * a.toNat), .v ((2 * a.toNat) + 1), .v (2 * b.toNat), .v ((2 * b.toNat) + 1)]
  | .packE5m2 _ a b => [.v (2 * a.toNat), .v ((2 * a.toNat) + 1), .v (2 * b.toNat), .v ((2 * b.toNat) + 1)]
  | .unpkE4m3 _ a _ => [.v a.toNat]
  | .unpkE5m2 _ a _ => [.v a.toNat]
  | .packTs8 _ a b => [.v (2 * a.toNat), .v ((2 * a.toNat) + 1), .v (2 * b.toNat), .v ((2 * b.toNat) + 1)]
  | .unpkTs8 _ a _ => [.v a.toNat]
  | .mxscale _ a _ => [.v a.toNat]
  | .mxapply _ a b => [.v a.toNat, .v b.toNat]
  | .lpick _ a b => [.v a.toNat, .v b.toNat]
  | .lrot _ a b => [.v a.toNat, .v b.toNat]
  | .lxor _ a b => [.v a.toNat, .v b.toNat]
  | .lspan _ a b => [.v a.toNat, .v b.toNat]
  | .ksome _ a => [.k a.toNat]
  | .kevery _ a => [.k a.toNat]
  | .kone _ a => [.k a.toNat]
  | .ksame _ a => [.k a.toNat]
  | .lpeers _ a => [.v a.toNat]
  | .lfirst _ a => [.v a.toNat]
  | .kpopc _ a => [.k a.toNat]
  | .kffs _ a => [.k a.toNat]
  | .fold _ a _ => [.v a.toNat]
  | .foldBc _ a _ => [.v a.toNat]
  | .scanInc _ a _ => [.v a.toNat]
  | .scanExc _ a _ => [.v a.toNat]
  | .segred _ a k _ => [.v a.toNat, .k k.toNat]
  | .segscan _ a k _ => [.v a.toNat, .k k.toNat]
  | .kand _ a b => [.k a.toNat, .k b.toNat]
  | .kor _ a b => [.k a.toNat, .k b.toNat]
  | .kxor _ a b => [.k a.toNat, .k b.toNat]
  | .kandn _ a b => [.k a.toNat, .k b.toNat]
  | .kld _ a => [.s a.toNat]
  | .kst _ a => [.k a.toNat]
  | .knot _ a => [.k a.toNat]
  | .kact _ a => [.v a.toNat]
  | .br k _ => [.c k.toNat]
  | .brF k _ => [.c k.toNat]
  | .jmp .. => []
  | .call .. => []
  | .ret => [.s 63]
  | .jmpi a => [.s a.toNat]
  | .calli a => [.s a.toNat]
  | .split k _ _ => [.k k.toNat]
  | .join => []
  | .brt a _ => [.v a.toNat]
  | .waitL .. => []
  | .waitM .. => []
  | .sleep a => [.s a.toNat]
  | .ld _ a b _ => [.s a.toNat, .v b.toNat]
  | .ldsB _ a b => [.s a.toNat, .v b.toNat]
  | .ldsH _ a b => [.s a.toNat, .v b.toNat]
  | .ldQ _ a b => [.s a.toNat, .v b.toNat]
  | .pf a b => [.s a.toNat, .v b.toNat]
  | .st d a b z => [.s a.toNat, .v b.toNat] ++ wide z d
  | .stQ d a b => [.s a.toNat, .v b.toNat, .v (4 * d.toNat), .v ((4 * d.toNat) + 1), .v ((4 * d.toNat) + 2), .v ((4 * d.toNat) + 3)]
  | .ldl _ a b _ => [.s a.toNat, .v b.toNat]
  | .stl d a b z => [.s a.toNat, .v b.toNat] ++ wide z d
  | .ldAcqW _ a b => [.s a.toNat, .v b.toNat]
  | .ldAcqD _ a b => [.s a.toNat, .v b.toNat]
  | .stRelW d a b => [.s a.toNat, .v b.toNat, .v d.toNat]
  | .stRelD d a b => [.s a.toNat, .v b.toNat, .v (2 * d.toNat), .v ((2 * d.toNat) + 1)]
  | .atomAdd d a b => [.s a.toNat, .v b.toNat, .v d.toNat]
  | .atomMin d a b => [.s a.toNat, .v b.toNat, .v d.toNat]
  | .atomMax d a b => [.s a.toNat, .v b.toNat, .v d.toNat]
  | .atomAnd d a b => [.s a.toNat, .v b.toNat, .v d.toNat]
  | .atomOr d a b => [.s a.toNat, .v b.toNat, .v d.toNat]
  | .atomXor d a b => [.s a.toNat, .v b.toNat, .v d.toNat]
  | .atomXchg d a b => [.s a.toNat, .v b.toNat, .v d.toNat]
  | .atomCas d a b => [.s a.toNat, .v b.toNat, .v (2 * d.toNat), .v ((2 * d.toNat) + 1)]
  | .atomMinu d a b => [.s a.toNat, .v b.toNat, .v d.toNat]
  | .atomMaxu d a b => [.s a.toNat, .v b.toNat, .v d.toNat]
  | .atomInc d a b => [.s a.toNat, .v b.toNat, .v d.toNat]
  | .atomDec d a b => [.s a.toNat, .v b.toNat, .v d.toNat]
  | .atomFadd d a b => [.s a.toNat, .v b.toNat, .v d.toNat]
  | .atomFmin d a b => [.s a.toNat, .v b.toNat, .v d.toNat]
  | .atomFmax d a b => [.s a.toNat, .v b.toNat, .v d.toNat]
  | .atomAdd64 d a b => [.s a.toNat, .v b.toNat, .v (2 * d.toNat), .v ((2 * d.toNat) + 1)]
  | .atomlAdd d a b => [.s a.toNat, .v b.toNat, .v d.toNat]
  | .atomlMin d a b => [.s a.toNat, .v b.toNat, .v d.toNat]
  | .atomlMax d a b => [.s a.toNat, .v b.toNat, .v d.toNat]
  | .atomlCas d a b => [.s a.toNat, .v b.toNat, .v (2 * d.toNat), .v ((2 * d.toNat) + 1)]
  | .redAdd d a b => [.s a.toNat, .v b.toNat, .v d.toNat]
  | .redMin d a b => [.s a.toNat, .v b.toNat, .v d.toNat]
  | .redMax d a b => [.s a.toNat, .v b.toNat, .v d.toNat]
  | .redFadd d a b => [.s a.toNat, .v b.toNat, .v d.toNat]
  | .redBayAdd d a b => [.s a.toNat, .v b.toNat, .v d.toNat]
  | .redBayMin d a b => [.s a.toNat, .v b.toNat, .v d.toNat]
  | .redBayMax d a b => [.s a.toNat, .v b.toNat, .v d.toNat]
  | .redBayFadd d a b => [.s a.toNat, .v b.toNat, .v d.toNat]
  | .fence => []
  | .cclean a b => [.s a.toNat, .v b.toNat]
  | .cinv a b => [.s a.toNat, .v b.toNat]
  | .tbegin .. => []
  | .tend => []
  | .tabort .. => []
  | .tstat .. => []
  | .xchXor _ a b => [.v a.toNat, .s b.toNat]
  | .xchRot _ a b => [.v a.toNat, .s b.toNat]
  | .xchBc _ a b => [.v a.toNat, .s b.toNat]
  | .xchGath a b => [.v a.toNat, .s b.toNat]
  | .xred _ a b => [.v a.toNat, .s b.toNat]
  | .xbar => []
  | .bnew _ a b => [.s a.toNat, .s b.toNat]
  | .bfree a => [.s a.toNat]
  | .bexp a b => [.s a.toNat, .s b.toNat]
  | .barr _ a => [.s a.toNat]
  | .bwait a => [.s a.toNat]
  | .bwaitg a b => [.s a.toNat, .s b.toNat]
  | .btest _ a => [.s a.toNat]
  | .hwait .. => []
  | .htest .. => []
  | .hcancel .. => []
  | .hget .. => []
  | .hput _ a => [.s a.toNat]
  | .tokwait => []
  | .tokpass => []
  | .copy a _ _ _ => [.s a.toNat]
  | .gath a _ _ => [.s a.toNat]
  | .scat a _ _ => [.s a.toNat]
  | .copyRst a _ _ => [.s a.toNat]
  | .mldw a b _ => [.s a.toNat, .s b.toNat]
  | .mswap .. => []
  | .mzero .. => []
  | .mloop a b _ _ => [.s a.toNat, .s b.toNat]
  | .mrd _ b _ => [.s b.toNat]
  | .mstr a _ _ => [.s a.toNat]
  | .cres _ b c => [.s b.toNat, .s c.toNat]
  | .crel a => [.s a.toNat]
  | .cstat _ b => [.s b.toNat]
  | .trap .. => []
  | .eret a => [.s a.toNat]
  | .tlbi a b => [.s a.toNat, .s b.toNat]
  | .winr _ a => [.s a.toNat]
  | .winw a b => [.s a.toNat, .s b.toNat]
  | .clkr .. => []
  | .perf .. => []
  | .ejctl _ a => [.s a.toNat]
  | .signal a => [.s a.toNat]
  | .launch a b _ => [.s a.toNat, .s b.toNat]
  | .pfx .. => []
  | .runArbitration .. => []
  | .variableLatencyLand .. => []
  | .nackRetry .. => []
  | .sleepExpire .. => []
  | .rejoinTimeout .. => []
  | .laneContextStart .. => []
  | .laneReturn .. => []
  | .taskRecordCheck => []
  | .launchRingEntry .. => []
  | .launchComplete .. => []
  | .makeResident .. => []
  | .preemptGroup .. => []
  | .quantumExpire .. => []
  | .waitPriorityRise .. => []
  | .startTimeReached .. => []
  | .watchdog .. => []
  | .claimSpan .. => []
  | .copyCommandStart .. => []
  | .copyTransfer .. => []
  | .gatherTransfer .. => []
  | .engineCommandDone .. => []
  | .barBytesDelivered .. => []
  | .thresherCommandStart .. => []
  | .thresherKstep .. => []
  | .mloopRowsLanded .. => []
  | .routerCycle => []
  | .injectionWindow => []
  | .xdata .. => []
  | .ack .. => []
  | .nack .. => []
  | .xctlArrival .. => []
  | .xctlRelease .. => []
  | .xredCombine .. => []
  | .rd .. => []
  | .rdata .. => []
  | .wdata .. => []
  | .mgmt .. => []
  | .sliceRequest .. => []
  | .hbmFill .. => []
  | .bayModeSwitch .. => []
  | .carveChange .. => []
  | .carveGrowDone .. => []
  | .bayRgnHtWrite .. => []
  | .bayAliasWrite .. => []
  | .slstatRead .. => []
  | .dutyMapWrite .. => []
  | .ringCfgWrite .. => []
  | .registerWrite .. => []
  | .attest => []
  | .pfaultDone => []
  | .train => []
  | .scrub => []
  | .eth => []
  | .thermal => []
  | .service => []
  | .qp => []
  | .fwupdate => []
  | .eccScrub => []
  | .thermalSample .. => []
  | .emergencyTrip => []
  | .boot .. => []
  | .functionLevelReset .. => []
  | .ptpSync .. => []
  | .peerRdmaRequest .. => []
  | .strandBeatError .. => []
  | .strandRetire .. => []
  | .linkCheckError .. => []
  | .containment .. => []
  | .migratePage .. => []
  | .tlbiComplete .. => []
  | .tinkerEvent .. => []
  | .debugRestart .. => []
  | .debugCancel .. => []
  | .peerAcknowledge .. => []
  | .peerLink .. => []
  | .hostLinkCompletion .. => []
  | .hostLinkRetriesExhausted .. => []
  | .shadowPlaneLoaded .. => []
  | .mstrTransfer .. => []
  | .tinkerRestart .. => []
  | .fringHead .. => []
  | .unknownOp => []
  | .ethernetLinkBringUp .. => []
  | .tripPointCleared => []

/-- The registers that a word writes (R38). -/
def Instr.writes : Instr → List Opnd
  | .nop => []
  | .yield => []
  | .exit => []
  | .brk .. => []
  | .sli d _ => [.s d.toNat]
  | .slis d _ => [.s d.toNat]
  | .sadd d _ _ => [.s d.toNat]
  | .ssub d _ _ => [.s d.toNat]
  | .smul d _ _ => [.s d.toNat]
  | .smulh d _ _ => [.s d.toNat]
  | .sand d _ _ => [.s d.toNat]
  | .sor d _ _ => [.s d.toNat]
  | .sxor d _ _ => [.s d.toNat]
  | .sandn d _ _ => [.s d.toNat]
  | .sshl d _ _ => [.s d.toNat]
  | .sshr d _ _ => [.s d.toNat]
  | .ssar d _ _ => [.s d.toNat]
  | .srol d _ _ => [.s d.toNat]
  | .smin d _ _ => [.s d.toNat]
  | .smax d _ _ => [.s d.toNat]
  | .sminu d _ _ => [.s d.toNat]
  | .smaxu d _ _ => [.s d.toNat]
  | .saddi d _ _ => [.s d.toNat]
  | .scmp _ d _ _ => [.c d.toNat]
  | .scmpU _ d _ _ => [.c d.toNat]
  | .scmpi _ d _ _ => [.c d.toNat]
  | .smov d _ => [.s d.toNat]
  | .scsel d _ _ => [.s d.toNat]
  | .spopc d _ => [.s d.toNat]
  | .sclz d _ => [.s d.toNat]
  | .cand d _ _ => [.c d.toNat]
  | .cor d _ _ => [.c d.toNat]
  | .cxor d _ _ => [.c d.toNat]
  | .candn d _ _ => [.c d.toNat]
  | .sread d _ => [.s d.toNat]
  | .swrite .. => []
  | .sld d _ _ => [.s d.toNat]
  | .sst .. => []
  | .iadd d _ _ => [.v d.toNat]
  | .isub d _ _ => [.v d.toNat]
  | .imin d _ _ => [.v d.toNat]
  | .imax d _ _ => [.v d.toNat]
  | .iminu d _ _ => [.v d.toNat]
  | .imaxu d _ _ => [.v d.toNat]
  | .iabs d _ => [.v d.toNat]
  | .ineg d _ => [.v d.toNat]
  | .imul d _ _ => [.v d.toNat]
  | .imulh d _ _ => [.v d.toNat]
  | .imulhu d _ _ => [.v d.toNat]
  | .imad d _ _ => [.v d.toNat]
  | .and d _ _ => [.v d.toNat]
  | .or d _ _ => [.v d.toNat]
  | .xor d _ _ => [.v d.toNat]
  | .andn d _ _ => [.v d.toNat]
  | .shl d _ _ => [.v d.toNat]
  | .shr d _ _ => [.v d.toNat]
  | .sar d _ _ => [.v d.toNat]
  | .rol d _ _ => [.v d.toNat]
  | .popc d _ => [.v d.toNat]
  | .clz d _ => [.v d.toNat]
  | .brev d _ => [.v d.toNat]
  | .prmt d _ _ => [.v d.toNat]
  | .bfe d _ _ => [.v d.toNat]
  | .bfeu d _ _ => [.v d.toNat]
  | .bfi d _ _ => [.v d.toNat]
  | .idot4 d _ _ => [.v d.toNat]
  | .iaddi d _ _ => [.v d.toNat]
  | .andi d _ _ => [.v d.toNat]
  | .ori d _ _ => [.v d.toNat]
  | .xori d _ _ => [.v d.toNat]
  | .shli d _ _ => [.v d.toNat]
  | .shri d _ _ => [.v d.toNat]
  | .sari d _ _ => [.v d.toNat]
  | .roli d _ _ => [.v d.toNat]
  | .icmp _ d _ _ => [.k d.toNat]
  | .icmpU _ d _ _ => [.k d.toNat]
  | .icmpi _ d _ _ => [.k d.toNat]
  | .sel d _ _ => [.v d.toNat]
  | .vmov d _ => [.v d.toNat]
  | .vbc d _ => [.v d.toNat]
  | .vgetl d => [.v d.toNat]
  | .vli d _ => [.v d.toNat]
  | .vsetl d _ _ => [.v d.toNat]
  | .vlis d _ => [.v d.toNat]
  | .iaddc d _ _ => [.v (2 * d.toNat), .v ((2 * d.toNat) + 1)]
  | .isubb d _ _ => [.v (2 * d.toNat), .v ((2 * d.toNat) + 1)]
  | .fadd d _ _ => [.v d.toNat]
  | .fsub d _ _ => [.v d.toNat]
  | .fmul d _ _ => [.v d.toNat]
  | .ffma d _ _ => [.v d.toNat]
  | .fmin d _ _ => [.v d.toNat]
  | .fmax d _ _ => [.v d.toNat]
  | .fabs d _ => [.v d.toNat]
  | .fneg d _ => [.v d.toNat]
  | .fcmp _ d _ _ => [.k d.toNat]
  | .fcmpU _ d _ _ => [.k d.toNat]
  | .frnd d _ => [.v d.toNat]
  | .fscale d _ _ => [.v d.toNat]
  | .fgetexp d _ => [.v d.toNat]
  | .fclass d _ => [.v d.toNat]
  | .badd2 d _ _ => [.v d.toNat]
  | .bsub2 d _ _ => [.v d.toNat]
  | .bmul2 d _ _ => [.v d.toNat]
  | .bfma2 d _ _ => [.v d.toNat]
  | .hadd2 d _ _ => [.v d.toNat]
  | .hsub2 d _ _ => [.v d.toNat]
  | .hmul2 d _ _ => [.v d.toNat]
  | .hfma2 d _ _ => [.v d.toNat]
  | .bmin2 d _ _ => [.v d.toNat]
  | .bmax2 d _ _ => [.v d.toNat]
  | .hmin2 d _ _ => [.v d.toNat]
  | .hmax2 d _ _ => [.v d.toNat]
  | .frcp d _ => [.v d.toNat]
  | .frsq d _ => [.v d.toNat]
  | .fsqrt d _ => [.v d.toNat]
  | .ftanh d _ => [.v d.toNat]
  | .fexp2 d _ => [.v d.toNat]
  | .flog2 d _ => [.v d.toNat]
  | .fsin d _ => [.v d.toNat]
  | .fcos d _ => [.v d.toNat]
  | .cvtF2i d _ => [.v d.toNat]
  | .cvtF2u d _ => [.v d.toNat]
  | .cvtI2f d _ => [.v d.toNat]
  | .cvtU2f d _ => [.v d.toNat]
  | .cvtF2b d _ _ => [.v d.toNat]
  | .cvtF2h d _ _ => [.v d.toNat]
  | .cvtB2f d _ _ => [.v d.toNat]
  | .cvtH2f d _ _ => [.v d.toNat]
  | .packE4m3 d _ _ => [.v d.toNat]
  | .packE5m2 d _ _ => [.v d.toNat]
  | .unpkE4m3 d _ _ => [.v (2 * d.toNat), .v ((2 * d.toNat) + 1)]
  | .unpkE5m2 d _ _ => [.v (2 * d.toNat), .v ((2 * d.toNat) + 1)]
  | .packTs8 d _ _ => [.v d.toNat]
  | .unpkTs8 d _ _ => [.v (2 * d.toNat), .v ((2 * d.toNat) + 1)]
  | .mxscale d _ _ => [.v d.toNat]
  | .mxapply d _ _ => [.v d.toNat]
  | .lpick d _ _ => [.v d.toNat]
  | .lrot d _ _ => [.v d.toNat]
  | .lxor d _ _ => [.v d.toNat]
  | .lspan d _ _ => [.v d.toNat]
  | .ksome d _ => [.c d.toNat]
  | .kevery d _ => [.c d.toNat]
  | .kone d _ => [.c d.toNat]
  | .ksame d _ => [.c d.toNat]
  | .lpeers d _ => [.v d.toNat]
  | .lfirst d _ => [.v d.toNat]
  | .kpopc d _ => [.s d.toNat]
  | .kffs d _ => [.s d.toNat]
  | .fold d _ _ => [.s d.toNat]
  | .foldBc d _ _ => [.v d.toNat]
  | .scanInc d _ _ => [.v d.toNat]
  | .scanExc d _ _ => [.v d.toNat]
  | .segred d _ _ _ => [.v d.toNat]
  | .segscan d _ _ _ => [.v d.toNat]
  | .kand d _ _ => [.k d.toNat]
  | .kor d _ _ => [.k d.toNat]
  | .kxor d _ _ => [.k d.toNat]
  | .kandn d _ _ => [.k d.toNat]
  | .kld d _ => [.k d.toNat]
  | .kst d _ => [.s d.toNat]
  | .knot d _ => [.k d.toNat]
  | .kact d _ => [.k d.toNat]
  | .br .. => []
  | .brF .. => []
  | .jmp .. => []
  | .call .. => [.s 63]
  | .ret => []
  | .jmpi .. => []
  | .calli .. => [.s 63]
  | .split .. => []
  | .join => []
  | .brt .. => []
  | .waitL .. => []
  | .waitM .. => []
  | .sleep .. => []
  | .ld d _ _ z => wide z d
  | .ldsB d _ _ => [.v d.toNat]
  | .ldsH d _ _ => [.v d.toNat]
  | .ldQ d _ _ => [.v (4 * d.toNat), .v ((4 * d.toNat) + 1), .v ((4 * d.toNat) + 2), .v ((4 * d.toNat) + 3)]
  | .pf .. => []
  | .st .. => []
  | .stQ .. => []
  | .ldl d _ _ z => wide z d
  | .stl .. => []
  | .ldAcqW d _ _ => [.v d.toNat]
  | .ldAcqD d _ _ => [.v (2 * d.toNat), .v ((2 * d.toNat) + 1)]
  | .stRelW .. => []
  | .stRelD .. => []
  | .atomAdd d _ _ => [.v d.toNat]
  | .atomMin d _ _ => [.v d.toNat]
  | .atomMax d _ _ => [.v d.toNat]
  | .atomAnd d _ _ => [.v d.toNat]
  | .atomOr d _ _ => [.v d.toNat]
  | .atomXor d _ _ => [.v d.toNat]
  | .atomXchg d _ _ => [.v d.toNat]
  | .atomCas d _ _ => [.v (2 * d.toNat)]
  | .atomMinu d _ _ => [.v d.toNat]
  | .atomMaxu d _ _ => [.v d.toNat]
  | .atomInc d _ _ => [.v d.toNat]
  | .atomDec d _ _ => [.v d.toNat]
  | .atomFadd d _ _ => [.v d.toNat]
  | .atomFmin d _ _ => [.v d.toNat]
  | .atomFmax d _ _ => [.v d.toNat]
  | .atomAdd64 d _ _ => [.v (2 * d.toNat), .v ((2 * d.toNat) + 1)]
  | .atomlAdd d _ _ => [.v d.toNat]
  | .atomlMin d _ _ => [.v d.toNat]
  | .atomlMax d _ _ => [.v d.toNat]
  | .atomlCas d _ _ => [.v (2 * d.toNat)]
  | .redAdd .. => []
  | .redMin .. => []
  | .redMax .. => []
  | .redFadd .. => []
  | .redBayAdd .. => []
  | .redBayMin .. => []
  | .redBayMax .. => []
  | .redBayFadd .. => []
  | .fence => []
  | .cclean .. => []
  | .cinv .. => []
  | .tbegin d => [.c d.toNat]
  | .tend => []
  | .tabort .. => []
  | .tstat d => [.s d.toNat]
  | .xchXor d _ _ => [.v d.toNat]
  | .xchRot d _ _ => [.v d.toNat]
  | .xchBc d _ _ => [.v d.toNat]
  | .xchGath .. => []
  | .xred d _ _ => [.v d.toNat]
  | .xbar => []
  | .bnew d _ _ => [.s d.toNat]
  | .bfree .. => []
  | .bexp .. => []
  | .barr d _ => [.s d.toNat]
  | .bwait .. => []
  | .bwaitg .. => []
  | .btest d _ => [.s d.toNat]
  | .hwait .. => []
  | .htest d _ => [.s d.toNat]
  | .hcancel .. => []
  | .hget d _ => [.s d.toNat]
  | .hput .. => []
  | .tokwait => []
  | .tokpass => []
  | .copy .. => []
  | .gath .. => []
  | .scat .. => []
  | .copyRst .. => []
  | .mldw .. => []
  | .mswap .. => []
  | .mzero .. => []
  | .mloop .. => []
  | .mrd a _ _ => [.v (4 * a.toNat), .v (4 * a.toNat + 1), .v (4 * a.toNat + 2), .v (4 * a.toNat + 3)]
  | .mstr .. => []
  | .cres a _ _ => [.s a.toNat]
  | .crel .. => []
  | .cstat a _ => [.s a.toNat]
  | .trap .. => []
  | .eret .. => []
  | .tlbi .. => []
  | .winr d _ => [.s d.toNat]
  | .winw .. => []
  | .clkr d => [.s (2 * d.toNat), .s ((2 * d.toNat) + 1)]
  | .perf d _ => [.s d.toNat]
  | .ejctl d _ => [.s d.toNat]
  | .signal .. => []
  | .launch .. => []
  | .pfx .. => []
  | .runArbitration .. => []
  | .variableLatencyLand .. => []
  | .nackRetry .. => []
  | .sleepExpire .. => []
  | .rejoinTimeout .. => []
  | .laneContextStart .. => []
  | .laneReturn .. => []
  | .taskRecordCheck => []
  | .launchRingEntry .. => []
  | .launchComplete .. => []
  | .makeResident .. => []
  | .preemptGroup .. => []
  | .quantumExpire .. => []
  | .waitPriorityRise .. => []
  | .startTimeReached .. => []
  | .watchdog .. => []
  | .claimSpan .. => []
  | .copyCommandStart .. => []
  | .copyTransfer .. => []
  | .gatherTransfer .. => []
  | .engineCommandDone .. => []
  | .barBytesDelivered .. => []
  | .thresherCommandStart .. => []
  | .thresherKstep .. => []
  | .mloopRowsLanded .. => []
  | .routerCycle => []
  | .injectionWindow => []
  | .xdata .. => []
  | .ack .. => []
  | .nack .. => []
  | .xctlArrival .. => []
  | .xctlRelease .. => []
  | .xredCombine .. => []
  | .rd .. => []
  | .rdata .. => []
  | .wdata .. => []
  | .mgmt .. => []
  | .sliceRequest .. => []
  | .hbmFill .. => []
  | .bayModeSwitch .. => []
  | .carveChange .. => []
  | .carveGrowDone .. => []
  | .bayRgnHtWrite .. => []
  | .bayAliasWrite .. => []
  | .slstatRead .. => []
  | .dutyMapWrite .. => []
  | .ringCfgWrite .. => []
  | .registerWrite .. => []
  | .attest => []
  | .pfaultDone => []
  | .train => []
  | .scrub => []
  | .eth => []
  | .thermal => []
  | .service => []
  | .qp => []
  | .fwupdate => []
  | .eccScrub => []
  | .thermalSample .. => []
  | .emergencyTrip => []
  | .boot .. => []
  | .functionLevelReset .. => []
  | .ptpSync .. => []
  | .peerRdmaRequest .. => []
  | .strandBeatError .. => []
  | .strandRetire .. => []
  | .linkCheckError .. => []
  | .containment .. => []
  | .migratePage .. => []
  | .tlbiComplete .. => []
  | .tinkerEvent .. => []
  | .debugRestart .. => []
  | .debugCancel .. => []
  | .peerAcknowledge .. => []
  | .peerLink .. => []
  | .hostLinkCompletion .. => []
  | .hostLinkRetriesExhausted .. => []
  | .shadowPlaneLoaded .. => []
  | .mstrTransfer .. => []
  | .tinkerRestart .. => []
  | .fringHead .. => []
  | .unknownOp => []
  | .ethernetLinkBringUp .. => []
  | .tripPointCleared => []

end Sys2Proof
end

