-- ==== Sys2Proof/Machine/Operands.lean ====
section
/-! DEFINITION. The operand forms of the register words: immediates (R14), the fourth operand (R42), even-odd pairs
(R47), per-lane application over a path's lanes (R87), and the result forms with their latencies and traps (R88, R90). -/

namespace Sys2Proof.Machine

/-- A word's per-lane function over one vector register. -/
def map1 (f : Word → Word) (x : Vec) : Vec := vecOf fun l => f (lane x l)
/-- A word's per-lane function over two vector registers. -/
def map2 (f : Word → Word → Word) (x y : Vec) : Vec := vecOf fun l => f (lane x l) (lane y l)
/-- A word's per-lane function over three vector registers. -/
def map3 (f : Word → Word → Word → Word) (x y z : Vec) : Vec := vecOf fun l => f (lane x l) (lane y l) (lane z l)
/-- The lanes whose operands satisfy a test. -/
def test1 (f : Word → Bool) (x : Vec) : Lanes := lanesOf fun l => f (lane x l)
/-- The lanes whose two operands satisfy a test. -/
def test2 (f : Word → Word → Bool) (x y : Vec) : Lanes := lanesOf fun l => f (lane x l) (lane y l)

/-- A signed 8-bit immediate as a 32-bit operand (R14). -/
def imm32 (i : BitVec 8) : Word := i.signExtend 32
/-- An unsigned 8-bit immediate as a 32-bit operand (R14). -/
def uimm32 (i : BitVec 8) : Word := i.setWidth 32

/-- The vector register of a 6-bit field. -/
def State.vr (s : State) (r : BitVec 6) : Vec := s.readV r.toNat
/-- The scalar register of a 6-bit field. -/
def State.sr (s : State) (r : BitVec 6) : Dword := s.readS r.toNat
/-- The mask register of a 3-bit field. -/
def State.kr (s : State) (r : BitVec 3) : Lanes := s.readK r.toNat

/-- The fourth operand: X of the prefix, whatever its value, or d without a prefix (R42). -/
def State.fourth (s : State) (d : BitVec 6) : Vec :=
  match s.cur.pfx with
  | some p => s.vr p.x
  | none => s.vr d

/-- The rounding mode: the prefix's RM, or RNE (R103). -/
def State.rm (s : State) : Rm := Rm.ofField s.pfx.rm

/-- A scalar result after a latency; DIVERGENT_SCALAR for s0-s47 inside a divergent region (R90). -/
def State.scalarTo (s : State) (latency : Nat) (d : BitVec 6) (x : Dword) : Host.Outcome State Fault Refusal :=
  if s.mayWriteS d.toNat then .next (s.putS latency d.toNat x) else .next (s.trap .divergentScalar)

/-- A condition result after a latency. -/
def State.condTo (s : State) (latency : Nat) (d : BitVec 3) (x : Bool) : Host.Outcome State Fault Refusal :=
  .next (s.putC latency d.toNat x)

/-- A vector result after a latency. -/
def State.vectorTo (s : State) (latency : Nat) (d : BitVec 6) (x : Vec) : Host.Outcome State Fault Refusal :=
  .next (s.putV latency d.toNat x)

/-- A vector pair result after a latency: the even register 2d takes bits 31:0 (R47). -/
def State.pairTo (s : State) (latency : Nat) (d : BitVec 5) (lo hi : Vec) : Host.Outcome State Fault Refusal :=
  .next ((s.putV latency (2 * d.toNat) lo).putV latency (2 * d.toNat + 1) hi)

/-- A mask result after a latency. -/
def State.maskTo (s : State) (latency : Nat) (d : BitVec 3) (x : Lanes) : Host.Outcome State Fault Refusal :=
  .next (s.putK latency d.toNat x)

end Sys2Proof.Machine
end

