-- ==== Sys2Proof/Machine/VecInt.lean ====
section
/-! DEFINITION. The vector integer words (R94 to R100): OP 0x10 to 0x20, V pipe, latency 4. -/

namespace Sys2Proof.Machine

/-! ## Lane functions -/

/-- SAT_I32 (R95): a signed result clamped to 32 bits. -/
def satI32 (x : Int) : Word :=
  if x < -(2 ^ 31) then 0x80000000#32 else if 2 ^ 31 - 1 < x then 0x7FFFFFFF#32 else BitVec.ofInt 32 x

/-- IADD and IADDI. -/
def lIadd (sat : Bool) (a b : Word) : Word := if sat then satI32 (a.toInt + b.toInt) else a + b
/-- ISUB. -/
def lIsub (sat : Bool) (a b : Word) : Word := if sat then satI32 (a.toInt - b.toInt) else a - b
def lImin (a b : Word) : Word := if a.slt b then a else b
def lImax (a b : Word) : Word := if a.slt b then b else a
def lIminu (a b : Word) : Word := if a.ult b then a else b
def lImaxu (a b : Word) : Word := if a.ult b then b else a
def lIabs (a : Word) : Word := if a.msb then -a else a
def lImulh (a b : Word) : Word := (a.signExtend 64 * b.signExtend 64).extractLsb' 32 32
def lImulhu (a b : Word) : Word := (a.setWidth 64 * b.setWidth 64).extractLsb' 32 32
def lPopc (a : Word) : Word := BitVec.ofNat 32 (popcount a)
def lClz (a : Word) : Word := BitVec.ofNat 32 (leadingZeros a)

/-- The shifts of R96, with the whole register as the amount. -/
def lShl (a n : Word) : Word := if 32 ≤ n.toNat then 0#32 else a <<< n.toNat
def lShr (a n : Word) : Word := if 32 ≤ n.toNat then 0#32 else a >>> n.toNat
def lSar (a n : Word) : Word := a.sshiftRight (min n.toNat 31)
def lRol (a n : Word) : Word := a.rotateLeft (n.toNat % 32)

/-- BFE and BFEU (R97). -/
def lBfe (signed : Bool) (a b : Word) : Word :=
  let pos := min (bitsOf b.toNat 7 0) 32
  let len := min (bitsOf b.toNat 15 8) 32
  let w : Dword := if signed then a.signExtend 64 else a.setWidth 64
  if len = 0 then 0#32
  else
    let f := (w.toNat >>> pos) % 2 ^ len
    if signed ∧ f.testBit (len - 1) then BitVec.ofInt 32 ((f : Int) - 2 ^ len) else BitVec.ofNat 32 f

/-- BFI (R97): a's low bits inserted into x. -/
def lBfi (a b x : Word) : Word :=
  let pos := min (bitsOf b.toNat 7 0) 32
  let len := min (bitsOf b.toNat 15 8) 32
  let m : Word := BitVec.ofNat 32 ((2 ^ len - 1) <<< pos)
  (x &&& ~~~m) ||| ((a <<< pos) &&& m)

/-- One byte of PRMT's result (R97). -/
def prmtByte (p : Dword) (n : Nat) : Byte :=
  let q : Byte := p.extractLsb' (8 * (n % 8)) 8
  if n.testBit 3 then (if q.msb then 0xFF#8 else 0x00#8) else q

/-- PRMT (R97). -/
def lPrmt (a b x : Word) : Word :=
  let p : Dword := b ++ a
  let f (i : Nat) : Byte := prmtByte p (bitsOf x.toNat (4 * i + 3) (4 * i))
  f 3 ++ f 2 ++ f 1 ++ f 0

/-- IDOT4 (R97). -/
def lIdot4 (a b x : Word) : Word :=
  let t (i : Nat) : Word := ((a.extractLsb' (8 * i) 8).signExtend 32) * ((b.extractLsb' (8 * i) 8).signExtend 32)
  x + t 0 + t 1 + t 2 + t 3

/-! ## Arithmetic and logic -/

/-- A two-operand vector word. -/
def State.vec2 (s : State) (f : Word → Word → Word) (d a b : BitVec 6) : Host.Outcome State Fault Refusal :=
  s.vectorTo 4 d (map2 f (s.vr a) (s.vr b))

/-- A one-operand vector word. -/
def State.vec1 (s : State) (f : Word → Word) (d a : BitVec 6) : Host.Outcome State Fault Refusal :=
  s.vectorTo 4 d (map1 f (s.vr a))

/-- A three-operand vector word, with the fourth register operand of R42. -/
def State.vec3 (s : State) (f : Word → Word → Word → Word) (d a b : BitVec 6) : Host.Outcome State Fault Refusal :=
  s.vectorTo 4 d (map3 f (s.vr a) (s.vr b) (s.fourth d))

def execIadd (d a b : BitVec 6) (s : State) := accept .intSat s fun s => s.vec2 (lIadd s.pfx.sat) d a b
def execIsub (d a b : BitVec 6) (s : State) := accept .intSat s fun s => s.vec2 (lIsub s.pfx.sat) d a b
def execImin (d a b : BitVec 6) (s : State) := accept .int s fun s => s.vec2 lImin d a b
def execImax (d a b : BitVec 6) (s : State) := accept .int s fun s => s.vec2 lImax d a b
def execIminu (d a b : BitVec 6) (s : State) := accept .int s fun s => s.vec2 lIminu d a b
def execImaxu (d a b : BitVec 6) (s : State) := accept .int s fun s => s.vec2 lImaxu d a b
def execIabs (d a : BitVec 6) (s : State) := accept .int s fun s => s.vec1 lIabs d a
def execIneg (d a : BitVec 6) (s : State) := accept .int s fun s => s.vec1 (fun x => -x) d a
def execImul (d a b : BitVec 6) (s : State) := accept .int s fun s => s.vec2 (fun x y => x * y) d a b
def execImulh (d a b : BitVec 6) (s : State) := accept .int s fun s => s.vec2 lImulh d a b
def execImulhu (d a b : BitVec 6) (s : State) := accept .int s fun s => s.vec2 lImulhu d a b
def execImad (d a b : BitVec 6) (s : State) := accept .intFourth s fun s => s.vec3 (fun x y z => x * y + z) d a b
def execAnd (d a b : BitVec 6) (s : State) := accept .int s fun s => s.vec2 (fun x y => x &&& y) d a b
def execOr (d a b : BitVec 6) (s : State) := accept .int s fun s => s.vec2 (fun x y => x ||| y) d a b
def execXor (d a b : BitVec 6) (s : State) := accept .int s fun s => s.vec2 (fun x y => x ^^^ y) d a b
def execAndn (d a b : BitVec 6) (s : State) := accept .int s fun s => s.vec2 (fun x y => x &&& ~~~y) d a b
def execShl (d a b : BitVec 6) (s : State) := accept .int s fun s => s.vec2 lShl d a b
def execShr (d a b : BitVec 6) (s : State) := accept .int s fun s => s.vec2 lShr d a b
def execSar (d a b : BitVec 6) (s : State) := accept .int s fun s => s.vec2 lSar d a b
def execRol (d a b : BitVec 6) (s : State) := accept .int s fun s => s.vec2 lRol d a b
def execPopc (d a : BitVec 6) (s : State) := accept .int s fun s => s.vec1 lPopc d a
def execClz (d a : BitVec 6) (s : State) := accept .int s fun s => s.vec1 lClz d a
def execBrev (d a : BitVec 6) (s : State) := accept .int s fun s => s.vec1 reverseBits d a
def execPrmt (d a b : BitVec 6) (s : State) := accept .intFourth s fun s => s.vec3 lPrmt d a b
def execBfe (d a b : BitVec 6) (s : State) := accept .int s fun s => s.vec2 (lBfe true) d a b
def execBfeu (d a b : BitVec 6) (s : State) := accept .int s fun s => s.vec2 (lBfe false) d a b
def execBfi (d a b : BitVec 6) (s : State) := accept .intFourth s fun s => s.vec3 lBfi d a b
def execIdot4 (d a b : BitVec 6) (s : State) := accept .intFourth s fun s => s.vec3 lIdot4 d a b

/-! ## Immediates -/

def execIaddi (d a : BitVec 6) (i : BitVec 8) (s : State) :=
  accept .intSat s fun s => s.vec1 (fun x => lIadd s.pfx.sat x (imm32 i)) d a
def execAndi (d a : BitVec 6) (i : BitVec 8) (s : State) := accept .int s fun s => s.vec1 (fun x => x &&& uimm32 i) d a
def execOri (d a : BitVec 6) (i : BitVec 8) (s : State) := accept .int s fun s => s.vec1 (fun x => x ||| uimm32 i) d a
def execXori (d a : BitVec 6) (i : BitVec 8) (s : State) := accept .int s fun s => s.vec1 (fun x => x ^^^ uimm32 i) d a
def execShli (d a : BitVec 6) (n : BitVec 5) (s : State) :=
  accept .int s fun s => s.vec1 (fun x => lShl x (n.setWidth 32)) d a
def execShri (d a : BitVec 6) (n : BitVec 5) (s : State) :=
  accept .int s fun s => s.vec1 (fun x => lShr x (n.setWidth 32)) d a
def execSari (d a : BitVec 6) (n : BitVec 5) (s : State) :=
  accept .int s fun s => s.vec1 (fun x => lSar x (n.setWidth 32)) d a
def execRoli (d a : BitVec 6) (n : BitVec 5) (s : State) :=
  accept .int s fun s => s.vec1 (fun x => lRol x (n.setWidth 32)) d a

/-! ## Compares (R98) -/

def execIcmp (g d : BitVec 3) (a b : BitVec 6) (s : State) :=
  accept .int s fun s => s.maskTo 4 d (test2 (ccSigned g) (s.vr a) (s.vr b))
def execIcmpU (g d : BitVec 3) (a b : BitVec 6) (s : State) :=
  accept .int s fun s => s.maskTo 4 d (test2 (ccUnsigned g) (s.vr a) (s.vr b))
def execIcmpi (g d : BitVec 3) (a : BitVec 6) (i : BitVec 8) (s : State) :=
  accept .int s fun s => s.maskTo 4 d (test1 (fun x => ccSigned g x (imm32 i)) (s.vr a))

/-! ## Moves (R99, R100) -/

/-- SEL: K selects, and every active lane is written; a prefix that sets Z is ILLEGAL (R94). -/
def execSel (d a b : BitVec 6) (s : State) :=
  accept .select s fun s => .next (s.push 4 (.v d.toNat s.active (blend (s.kr s.pfx.k) (s.vr a) (s.vr b))))

def execVmov (d a : BitVec 6) (s : State) := accept .int s fun s => s.vec1 (fun x => x) d a
def execVbc (d a : BitVec 6) (s : State) := accept .int s fun s => s.vectorTo 4 d (splat ((s.sr a).setWidth 32))
def execVgetl (d : BitVec 6) (s : State) := accept .int s fun s => s.vectorTo 4 d (vecOf fun l => BitVec.ofNat 32 l)
def execVli (d : BitVec 6) (i : BitVec 14) (s : State) := accept .int s fun s => s.vectorTo 4 d (splat (i.signExtend 32))
def execVlis (d : BitVec 6) (i : BitVec 12) (s : State) :=
  accept .int s fun s => s.vec1 (fun x => (x <<< 12) ||| i.setWidth 32) d d

/-- VSETL: one lane is written, if it participates, and no other whatever Z holds. -/
def execVsetl (d a b : BitVec 6) (s : State) :=
  accept .int s fun s =>
    .next (s.push 4 (.v d.toNat (s.part &&& (1#32 <<< ((s.sr b).toNat % 32))) (splat ((s.sr a).setWidth 32))))

/-- A 64-bit word on even-odd pairs (R100). -/
def State.vecPair (s : State) (f : Dword → Dword → Dword) (d a b : BitVec 5) : Host.Outcome State Fault Refusal :=
  let ra := 2 * a.toNat
  let rb := 2 * b.toNat
  let r (l : Nat) : Dword :=
    f (pairOf (lane (s.readV ra) l) (lane (s.readV (ra + 1)) l)) (pairOf (lane (s.readV rb) l) (lane (s.readV (rb + 1)) l))
  s.pairTo 4 d (vecOf fun l => (r l).setWidth 32) (vecOf fun l => (r l).extractLsb' 32 32)

def execIaddc (d a b : BitVec 5) (s : State) := accept .int s fun s => s.vecPair (fun x y => x + y) d a b
def execIsubb (d a b : BitVec 5) (s : State) := accept .int s fun s => s.vecPair (fun x y => x - y) d a b

end Sys2Proof.Machine
end

