-- ==== Sys2Proof/Machine/VecFloat.lean ====
section
/-! DEFINITION. The floating-point words: FP32 (R104 to R107), packed BF16 and FP16 (R108) and the special functions
(R109). V-pipe results have latency 4, special functions 10 (R88). -/

namespace Sys2Proof.Machine

/-! ## Lane functions -/

/-- An FP32 operand. -/
def f32 (x : Word) : FVal := fp32.decode x.toNat
/-- An FP32 result. -/
def r32 (rm : Rm) (x : FVal) : Word := BitVec.ofNat 32 (fp32.rnd rm x)

def lFadd (rm : Rm) (a b : Word) : Word := r32 rm ((f32 a).add rm (f32 b))
def lFsub (rm : Rm) (a b : Word) : Word := r32 rm ((f32 a).add rm (f32 b).neg)
def lFmul (rm : Rm) (a b : Word) : Word := r32 rm ((f32 a).mul (f32 b))
def lFfma (rm : Rm) (a b x : Word) : Word := r32 rm (((f32 a).mul (f32 b)).add rm (f32 x))
def lFmin (a b : Word) : Word := BitVec.ofNat 32 (fp32.minMax false a.toNat b.toNat)
def lFmax (a b : Word) : Word := BitVec.ofNat 32 (fp32.minMax true a.toNat b.toNat)

/-- FRND (R107): the sign is kept, infinities stay, and a NaN is the canonical one. -/
def lFrnd (rm : Rm) (a : Word) : Word :=
  match f32 a with
  | .fin n m e => BitVec.ofNat 32 (fp32.encode (.fin n (roundInt rm n m e) 0))
  | x => BitVec.ofNat 32 (fp32.encode x)

/-- FSCALE (R107). -/
def lFscale (rm : Rm) (a b : Word) : Word := r32 rm ((f32 a).scale b.toInt)

/-- FGETEXP (R107). -/
def lFgetexp (a : Word) : Word :=
  match f32 a with
  | .nan => 0x80000001#32
  | .inf _ => 0x7FFFFFFF#32
  | .fin _ m e => if m = 0 then 0x80000000#32 else BitVec.ofInt 32 (floorLog2 m e)

/-- FCLASS (R107): one bit of ten. -/
def lFclass (a : Word) : Word :=
  let frac := a.toNat % 2 ^ 23
  let ex := (a.toNat >>> 23) % 256
  let neg := a.msb
  let bit : Nat :=
    if ex = 255 then (if frac = 0 then (if neg then 0 else 7) else if frac.testBit 22 then 9 else 8)
    else if ex = 0 then (if frac = 0 then (if neg then 3 else 4) else if neg then 2 else 5)
    else if neg then 1 else 6
  BitVec.ofNat 32 (2 ^ bit)

/-- A packed word from its two elements: element 0 in bits 15:0 (R101). -/
def pack16 (e0 e1 : Nat) : Word := BitVec.ofNat 32 (e0 % 2 ^ 16 + 2 ^ 16 * (e1 % 2 ^ 16))
/-- An element of a packed word. -/
def elem16 (x : Word) (e : Nat) : Nat := bitsOf x.toNat (16 * e + 15) (16 * e)

/-- A two-operand packed word (R108): each element exact, then rounded once. -/
def lPacked (f : FpFmt) (rm : Rm) (op : FVal → FVal → FVal) (a b : Word) : Word :=
  let r (e : Nat) : Nat := f.rnd rm (op (f.decode (elem16 a e)) (f.decode (elem16 b e)))
  pack16 (r 0) (r 1)

/-- A packed fused multiply-add (R108). -/
def lPackedFma (f : FpFmt) (rm : Rm) (a b x : Word) : Word :=
  let r (e : Nat) : Nat :=
    f.rnd rm (((f.decode (elem16 a e)).mul (f.decode (elem16 b e))).add rm (f.decode (elem16 x e)))
  pack16 (r 0) (r 1)

/-- A packed minimum or maximum (R108). -/
def lPackedMinMax (f : FpFmt) (max : Bool) (a b : Word) : Word :=
  let r (e : Nat) : Nat := f.minMax max (elem16 a e) (elem16 b e)
  pack16 (r 0) (r 1)

/-! ## FP32 words -/

def execFadd (d a b : BitVec 6) (s : State) := accept .fpRound s fun s => s.vec2 (lFadd s.rm) d a b
def execFsub (d a b : BitVec 6) (s : State) := accept .fpRound s fun s => s.vec2 (lFsub s.rm) d a b
def execFmul (d a b : BitVec 6) (s : State) := accept .fpRound s fun s => s.vec2 (lFmul s.rm) d a b
def execFfma (d a b : BitVec 6) (s : State) := accept .fpFourth s fun s => s.vec3 (lFfma s.rm) d a b
def execFmin (d a b : BitVec 6) (s : State) := accept .fp s fun s => s.vec2 lFmin d a b
def execFmax (d a b : BitVec 6) (s : State) := accept .fp s fun s => s.vec2 lFmax d a b
/-- FABS and FNEG act on bit 31 alone, NaN payloads kept (R105). -/
def execFabs (d a : BitVec 6) (s : State) := accept .fp s fun s => s.vec1 (fun x => x &&& 0x7FFFFFFF#32) d a
def execFneg (d a : BitVec 6) (s : State) := accept .fp s fun s => s.vec1 (fun x => x ^^^ 0x80000000#32) d a
def execFcmp (g d : BitVec 3) (a b : BitVec 6) (s : State) :=
  accept .fp s fun s => s.maskTo 4 d (test2 (ccFloat g false) (s.vr a) (s.vr b))
def execFcmpU (g d : BitVec 3) (a b : BitVec 6) (s : State) :=
  accept .fp s fun s => s.maskTo 4 d (test2 (ccFloat g true) (s.vr a) (s.vr b))
def execFrnd (d a : BitVec 6) (s : State) := accept .fpRound s fun s => s.vec1 (lFrnd s.rm) d a
def execFscale (d a b : BitVec 6) (s : State) := accept .fpRound s fun s => s.vec2 (lFscale s.rm) d a b
def execFgetexp (d a : BitVec 6) (s : State) := accept .fp s fun s => s.vec1 lFgetexp d a
def execFclass (d a : BitVec 6) (s : State) := accept .fp s fun s => s.vec1 lFclass d a

/-! ## Packed words (R108) -/

def execBadd2 (d a b : BitVec 6) (s : State) :=
  accept .fpRound s fun s => s.vec2 (lPacked bf16 s.rm (FVal.add s.rm)) d a b
def execBsub2 (d a b : BitVec 6) (s : State) :=
  accept .fpRound s fun s => s.vec2 (lPacked bf16 s.rm fun x y => x.add s.rm y.neg) d a b
def execBmul2 (d a b : BitVec 6) (s : State) := accept .fpRound s fun s => s.vec2 (lPacked bf16 s.rm FVal.mul) d a b
def execBfma2 (d a b : BitVec 6) (s : State) := accept .fpFourth s fun s => s.vec3 (lPackedFma bf16 s.rm) d a b
def execHadd2 (d a b : BitVec 6) (s : State) :=
  accept .fpRound s fun s => s.vec2 (lPacked fp16 s.rm (FVal.add s.rm)) d a b
def execHsub2 (d a b : BitVec 6) (s : State) :=
  accept .fpRound s fun s => s.vec2 (lPacked fp16 s.rm fun x y => x.add s.rm y.neg) d a b
def execHmul2 (d a b : BitVec 6) (s : State) := accept .fpRound s fun s => s.vec2 (lPacked fp16 s.rm FVal.mul) d a b
def execHfma2 (d a b : BitVec 6) (s : State) := accept .fpFourth s fun s => s.vec3 (lPackedFma fp16 s.rm) d a b
def execBmin2 (d a b : BitVec 6) (s : State) := accept .fp s fun s => s.vec2 (lPackedMinMax bf16 false) d a b
def execBmax2 (d a b : BitVec 6) (s : State) := accept .fp s fun s => s.vec2 (lPackedMinMax bf16 true) d a b
def execHmin2 (d a b : BitVec 6) (s : State) := accept .fp s fun s => s.vec2 (lPackedMinMax fp16 false) d a b
def execHmax2 (d a b : BitVec 6) (s : State) := accept .fp s fun s => s.vec2 (lPackedMinMax fp16 true) d a b

/-! ## Special functions (R109) -/

/-- A special function: exact, then one RNE rounding to FP32. -/
def State.special (s : State) (f : FVal → FVal) (d a : BitVec 6) : Host.Outcome State Fault Refusal :=
  s.vectorTo 10 d (map1 (fun x => r32 .rne (f (f32 x))) (s.vr a))

def execFrcp (d a : BitVec 6) (s : State) := accept .fp s fun s => s.special fRcp d a
def execFrsq (d a : BitVec 6) (s : State) := accept .fp s fun s => s.special fRsq d a
def execFsqrt (d a : BitVec 6) (s : State) := accept .fp s fun s => s.special fSqrt d a
def execFtanh (d a : BitVec 6) (s : State) := accept .fp s fun s => s.special fTanh d a
def execFexp2 (d a : BitVec 6) (s : State) := accept .fp s fun s => s.special fExp2 d a
def execFlog2 (d a : BitVec 6) (s : State) := accept .fp s fun s => s.special fLog2 d a
def execFsin (d a : BitVec 6) (s : State) := accept .fp s fun s => s.special fSin d a
def execFcos (d a : BitVec 6) (s : State) := accept .fp s fun s => s.special fCos d a

end Sys2Proof.Machine
end

