-- ==== Sys2Proof/Machine/Bay.lean ====
section
/-! DEFINITION. The bay's home of memory (R22, R30, R308 to R317): the physical map, bytes at the home, the slice hash
with its modes, partitions and retired strands, tags and their replacement, region entries and counters. -/

namespace Sys2Proof.Machine

/-! ## The physical map (R30) -/

/-- The contents of a range of the column physical map. -/
inductive PaKind where
  | hbm | aliased (n : Nat) | carve | host | hole
  deriving DecidableEq, Repr

/-- Bits hi:lo of a register. -/
def regField (r : BitVec 64) (hi lo : Nat) : Nat := bitsOf r.toNat hi lo

/-- The number of slices that no retired strand serves (R315). -/
def Bay.surviving (b : Bay) : Nat := 16 - 2 * popcount (b.stat.extractLsb' 0 8)

/-- Is a slice retired (R317)? -/
def Bay.isRetired (b : Bay) (sl : Nat) : Bool := b.stat.getLsbD (sl / 2)

/-- The bytes of carve-out: CARVE_CUR * 16 KiB * S (R315). -/
def Bay.carveSize (b : Bay) : Nat := regField b.ctl 36 32 * 16384 * b.surviving

/-- A bay region entry (R309): entry 0 is in use at reset, the others are not. -/
def Bay.entry (b : Bay) (n : Nat) : RgnEntry :=
  Tab.get { ctl := if n = 0 then 0x8000000000000001#64 else 1#64 } b.rgn n

/-- The entry of a region: the enabled one whose RGN matches, or entry 0 (R310). -/
def Bay.entryOf (b : Bay) (region : Nat) : Nat :=
  ((List.range 16).find? fun n => (b.entry n).ctl.getLsbD 63 && regField (b.entry n).ctl 31 16 == region).getD 0

/-- The alias range that a window offset lies in (R216). -/
def Bay.aliasRange (b : Bay) (off : Nat) : Option Nat :=
  (List.range 4).find? fun n =>
    let w := Tab.get 0#64 b.aliasWin n
    w.getLsbD 63 && decide (regField w 31 16 * 65536 ≤ off) && decide (off < (regField w 31 16 + regField w 47 32) * 65536)

/-- What a physical address names for a region's access (R30, R216, R311, R315). -/
def Bay.kindOf (b : Bay) (region pa : Nat) : PaKind :=
  if pa < 0x100000000 then .hbm
  else if pa < 0x200000000 then
    (match b.aliasRange (pa - 0x100000000) with
     | some n => .aliased n
     | none => .hole)
  else if pa < 0x300000000 then (if pa - 0x200000000 < b.carveSize then .carve else .hole)
  else if pa < 0x400000000 then
    (if b.ctl.getLsbD 4 ∧ (b.entry (b.entryOf region)).ht.getLsbD 0 then .host else .hole)
  else .hole

/-- What a physical address names for an access that begins: a range whose EN is being cleared takes none (R217). -/
def Bay.openKind (b : Bay) (region pa : Nat) : PaKind :=
  match b.kindOf region pa with
  | .aliased n => if (Tab.find? b.aliasOff n).isSome then .hole else .aliased n
  | k => k

/-- Does an ownership entry cover a line (R242)? -/
def Claim.owns (c : Claim) (line : Nat) : Bool := c.lines.any fun r => decide (r.1 ≤ line) && decide (line < r.1 + r.2)

/-- Does an engine command own a line in a context (R59, R242)? -/
def Bay.owned (b : Bay) (ctx line : Nat) : Bool := b.claims.any fun c => !c.source && decide (c.ctx = ctx) && c.owns line

/-- The line of an address. -/
def lineOf (pa : Nat) : Nat := pa / 128

/-- The lines of a page that a claim's offsets reach, added to those that it covers: its range is one of virtual offsets, wherever their pages
lie when they are used (R242). -/
def Claim.meetPage (c : Claim) (ctx va size frame : Nat) : Claim :=
  let lo := max c.lo va
  let hi := min (c.hi + 1) (va + size)
  let run := (lineOf (frame + (lo - va)), (hi - lo) / 128)
  if c.source ∨ c.ctx ≠ ctx ∨ hi ≤ lo ∨ c.lines.contains run = true then c else { c with lines := c.lines ++ [run] }

/-! ## Bytes at the home -/

/-- What a byte of memory that nothing has written reads as (log 2, DESIGN CHOICE). -/
def emptyByte : Byte := 0#8

/-- The canonical form of a memory: addresses strictly rising, and no entry equal to what an unlisted address reads
as. -/
def Memory.wf (m : List Host.Cell) : Bool := Tab.wf emptyByte m

/-- The byte at an address. -/
def Memory.read (m : List Host.Cell) (a : Nat) : Byte := Tab.get emptyByte m a

/-- The memory with one byte written, in canonical form. -/
def Memory.write (m : List Host.Cell) (a : Nat) (b : Byte) : List Host.Cell := Tab.store emptyByte m a b

/-- The memory with bytes written from an address on. -/
def Memory.writeBytes (m : List Host.Cell) (a : Nat) : List Byte → List Host.Cell
  | [] => m
  | b :: bs => Memory.writeBytes (Memory.write m a b) (a + 1) bs

/-- n bytes from an address on. -/
def Memory.readBytes (m : List Host.Cell) (a n : Nat) : List Byte := (List.range n).map fun i => Memory.read m (a + i)

/-- The home value of a byte; a byte dropped by last-use is a free value (R71, log 4, DESIGN CHOICE). -/
def Column.byteAt (x : Column) (free pa : Nat) : Byte :=
  if (Tab.get 0#128 x.undefined (lineOf pa)).getLsbD (pa % 128) then Config.freeByte free pa else Memory.read x.mem pa

/-- n home bytes from an address on. -/
def Column.bytesAt (x : Column) (free pa n : Nat) : List Byte := (List.range n).map fun i => x.byteAt free (pa + i)

/-- The column with one home byte written; the byte is defined from then on. -/
def Column.putByte (x : Column) (pa : Nat) (b : Byte) : Column :=
  let u := Tab.get 0#128 x.undefined (lineOf pa)
  { x with
    mem := Memory.write x.mem pa b
    undefined := Tab.store 0#128 x.undefined (lineOf pa) (u &&& ~~~(1#128 <<< (pa % 128))) }

/-- The column with home bytes written from an address on. -/
def Column.putBytes (x : Column) (pa : Nat) : List Byte → Column
  | [] => x
  | b :: bs => (x.putByte pa b).putBytes (pa + 1) bs

/-- Uncorrectable marks cleared in the sectors of a line whose every byte a write covers (R164). -/
def Column.clearMarks (x : Column) (line : Nat) (mask : BitVec 128) : Column :=
  { x with badSectors := x.badSectors.filter fun q =>
      !(decide (q / 4 = line) && decide (mask.extractLsb' (32 * (q % 4)) 32 = 0xFFFFFFFF#32)) }

/-- The column with the masked bytes of a line written at the home (R31, R85). -/
def Column.putLine (x : Column) (line : Nat) (mask : BitVec 128) (data : BitVec 1024) : Column :=
  ((List.range 128).foldl (fun x i =>
    if mask.getLsbD i then x.putByte (128 * line + i) (data.extractLsb' (8 * i) 8) else x) x).clearMarks line mask

/-- The home data of a line. -/
def Column.lineData (x : Column) (free line : Nat) : BitVec 1024 :=
  (List.range 128).foldr (fun i acc => (acc <<< 8) ||| (x.byteAt free (128 * line + i)).setWidth 1024) 0#1024

/-! ## The slice hash (R308, R317) -/

/-- The 4-bit hash of a physical address. -/
def hashOf (pa : Nat) : Nat :=
  let f (hi lo : Nat) : BitVec 4 := BitVec.ofNat 4 (bitsOf pa hi lo)
  (f 10 7 ^^^ f 14 11 ^^^ f 18 15 ^^^ f 22 19 ^^^ f 26 23 ^^^ f 30 27 ^^^ f 33 31).toNat

/-- The slice that the mode and partition choose, before retirement. -/
def Bay.baseSlice (b : Bay) (region pa : Nat) : Nat :=
  let h := hashOf pa
  let part := regField (b.entry (b.entryOf region)).ctl 9 8
  if 0x200000000 ≤ pa ∧ pa < 0x300000000 then h
  else
    match regField b.ctl 1 0 with
    | 1 => 8 * (part % 2) + Nat.xor (h % 8) (h / 8)
    | 2 => 4 * part + Nat.xor (h % 4) (h / 4)
    | _ => h

/-- The substitute of a retired slice: the same low bit on the next strand not retired (R317). -/
def Bay.substitute (b : Bay) (sl : Nat) : Nat :=
  match (List.range 8).find? fun k => !b.stat.getLsbD ((sl / 2 + k) % 8) with
  | some k => 2 * ((sl / 2 + k) % 8) + sl % 2
  | none => sl

/-- The surviving slices, ascending. -/
def Bay.survivors (b : Bay) : List Nat := (List.range 16).filter fun sl => !b.isRetired sl

/-- The slice that serves an address for a region. -/
def Bay.sliceOf (b : Bay) (region pa : Nat) : Nat :=
  if 0x200000000 ≤ pa ∧ pa < 0x300000000 ∧ b.surviving < 16 then
    b.survivors.getD (((pa - 0x200000000) / 128) % b.surviving) 0
  else b.substitute (b.baseSlice region pa)

/-- The set of a line in its slice: physical address bits 17:11. -/
def setOf (line : Nat) : Nat := (line / 16) % 128

/-! ## Slice tags (R308, R310) -/

/-- A slice of a bay. -/
def Bay.slice (b : Bay) (n : Nat) : Slice := Tab.get {} b.slices n
/-- The bay with one slice replaced. -/
def Bay.setSlice (b : Bay) (n : Nat) (x : Slice) : Bay := { b with slices := Tab.put b.slices n x }

/-- The slice with one tag written. -/
def Slice.put (x : Slice) (k : Nat) (t : SliceLine) : Slice := { x with lines := Tab.put x.lines k t }

/-- The key of a line among a slice's tags, if the slice holds it. -/
def Slice.find (x : Slice) (line : Nat) : Option Nat :=
  (x.lines.find? fun e => e.2.line == line && decide (e.2.valid ≠ 0#4)).map Prod.fst

/-- The slice that holds a line, with the key of its tag (two regions in different partitions may both hold it). -/
def Bay.holder (b : Bay) (line : Nat) : Option (Nat × Nat) :=
  (List.range 16).findSome? fun n => ((b.slice n).find line).map fun k => (n, k)

/-- A bay counter of a region advanced (R313). -/
def Bay.bump (b : Bay) (region n amount : Nat) : Bay :=
  { b with counts := Tab.upd 0 b.counts (64 * region + n) (· + amount) }

/-- The ways a region entry may allocate in a slice (R310): set in its mask, not carve-out, slice not retired. -/
def Bay.allowedWays (b : Bay) (region sl : Nat) : List Nat :=
  let m := ((b.entry (b.entryOf region)).way.getD (sl / 4) 0#64).extractLsb' (16 * (sl % 4)) 16
  let carve := max (regField b.ctl 36 32) b.carveTo
  if b.isRetired sl || b.slicesOff then [] else (List.range 16).filter fun w => m.getLsbD w && decide (w < 16 - carve)

/-- The rank of an eviction priority: 3, then 1, then 0, then 2 (R310). -/
def epRank (ep : Nat) : Nat := if ep = 3 then 0 else if ep = 1 then 1 else if ep = 0 then 2 else 3

/-- The victim among allowed ways: an invalid one, else by eviction priority, least recently used within one. -/
def Slice.victim (x : Slice) (set : Nat) (ways : List Nat) : Option Nat :=
  let cost (w : Nat) : Nat :=
    let t := Tab.get {} x.lines (16 * set + w)
    if t.valid = 0#4 then 0 else 1 + epRank t.ep * 2 ^ 64 + t.used
  ways.foldl (fun best w =>
    match best with
    | none => some w
    | some v => if cost w < cost v then some w else best) none

/-- Does a line lie in the host-tier window (R30)? -/
def hostLine (line : Nat) : Bool := decide (0x300000000 ≤ 128 * line)

/-- A cached line's way left: its dirty line written back to HBM (counter 53), whose home bytes need no move and whose segment waits for
the channel (R316), or sent to the host link for the host tier (R311). -/
def Bay.evictWay (b : Bay) (sl key : Nat) : Bay :=
  let t := Tab.get {} (b.slice sl).lines key
  let b :=
    if t.valid ≠ 0#4 ∧ t.dirty then
      (if hostLine t.line then { b with hostOut := b.hostOut ++ [(t.line, true, t.region)] }
       else { b.bump 0 53 1 with writeQ := b.writeQ ++ [(sl, t.line)] })
    else b
  b.setSlice sl { b.slice sl with lines := Tab.erase (b.slice sl).lines key }

/-- A line brought into its slice for an access, or touched there: valid sectors, dirty state, eviction priority of the
latest access and age (R149, R308, R310). An empty allowed set leaves it uncached: a write merges into HBM, or goes on to the host link. -/
def Bay.touch (b : Bay) (region line : Nat) (sectors : BitVec 4) (dirty : Bool) (ep : Nat) : Bay :=
  let sl := b.sliceOf region (128 * line)
  let b := { b with clock := b.clock + 1 }
  if 0x200000000 ≤ 128 * line ∧ 128 * line < 0x300000000 then b
  else match (b.slice sl).find line with
  | some k =>
    let t := Tab.get {} (b.slice sl).lines k
    b.setSlice sl ((b.slice sl).put k
      { t with valid := t.valid ||| sectors, dirty := t.dirty || dirty, ep := ep, used := b.clock, region := region })
  | none =>
    match (b.slice sl).victim (setOf line) (b.allowedWays region sl) with
    | none =>
      if dirty ∧ hostLine line then { b with hostOut := b.hostOut ++ [(line, true, region)] } else b
    | some w =>
      let k := 16 * setOf line + w
      let b := b.evictWay sl k
      b.setSlice sl ((b.slice sl).put k
        { line := line, valid := sectors, dirty := dirty, ep := ep, used := b.clock, region := region })

/-- A line dropped from every slice without write-back. -/
def Bay.drop (b : Bay) (line : Nat) : Bay :=
  (List.range 16).foldl (fun b n =>
    match (b.slice n).find line with
    | some k => b.setSlice n { b.slice n with lines := Tab.erase (b.slice n).lines k }
    | none => b) b

/-- Does a slice hold the sectors that a request needs? -/
def Bay.hits (b : Bay) (region line : Nat) (sectors : BitVec 4) : Bool :=
  let sl := b.sliceOf region (128 * line)
  match (b.slice sl).find line with
  | some k => decide (sectors &&& ~~~(Tab.get {} (b.slice sl).lines k).valid = 0#4)
  | none => false

/-! ## Requests and their slots (R308, R312) -/

/-- The slice that serves a request. -/
def Bay.sliceFor (b : Bay) (r : Req) : Nat := b.sliceOf r.region (128 * r.line)

/-- The slots occupied in a slice: requests waiting there, and slots kept for reservations. -/
def Bay.occupied (b : Bay) (sl : Nat) : Nat :=
  (b.reqs.filter fun r => decide (b.sliceFor r = sl) && (r.admitted || r.slotKept)).length

/-- A bay's request replaced. -/
def Bay.setReq (b : Bay) (r : Req) : Bay := { b with reqs := b.reqs.map fun q => if q.id = r.id then r else q }

/-- A slot freed in a slice: kept for the first reservation that has none (R312). -/
def Bay.freeSlot (b : Bay) (sl : Nat) : Bay :=
  match b.reqs.find? fun q => q.reserved && !q.slotKept && decide (b.sliceFor q = sl) with
  | some q => b.setReq { q with slotKept := true }
  | none => b

/-- A request gone, and the slot that it held freed. -/
def Bay.removeReq (b : Bay) (r : Req) : Bay :=
  let b := { b with reqs := b.reqs.filter fun q => decide (q.id ≠ r.id) }
  if r.admitted ∨ r.slotKept then b.freeSlot (b.sliceFor r) else b

/-- A request posted under the next identifier. -/
def Bay.post (b : Bay) (r : Req) : Bay := { b with reqs := b.reqs ++ [{ r with id := b.nextReq }], nextReq := b.nextReq + 1 }

/-- A bay as a cycle begins: the weights and way masks written in the cycle before take effect (R310). -/
def Bay.newCycle (b : Bay) : Bay :=
  if b.rgn.all fun e => e.2.next.isNone then b
  else
    { b with rgn := Tab.mapVals (fun _ (r : RgnEntry) =>
        match r.next with
        | some (w, m) => { r with ctl := (r.ctl &&& ~~~15#64) ||| BitVec.ofNat 64 (w % 16), way := m, next := none }
        | none => r) b.rgn }

/-- A column's bay changed. -/
def Column.updBay (x : Column) (f : Bay → Bay) : Column := { x with bay := f x.bay }

end Sys2Proof.Machine
end

