-- ==== Sys2Proof/Machine/Cache.lean ====
section
/-! DEFINITION. The L1 of the core and of the gleaners (R85, R191): lookup, replacement, fills, merges, the update-only
state U with its folds at the bay (R61), and what a release and an acquire at column scope do to it (R31). -/

namespace Sys2Proof.Machine

/-! ## Lookup -/

/-- The number of sets: 128 in the core L1, indexed by address bits 13:7, and 16 in a gleaner's (R85, R191). -/
def l1Set (cache line : Nat) : Nat := if cache = 0 then line % 128 else line % 16

/-- The key of a way of an L1. -/
def l1Key (cache set way : Nat) : Nat := 2048 * cache + 16 * set + way

/-- Does an L1 line hold anything: valid sectors, dirty bytes or a partial? -/
def CacheLine.present (l : CacheLine) : Bool := decide (l.valid ≠ 0#4) || decide (l.dirty ≠ 0#128) || l.u.isSome

/-- The sectors of a line with written bytes, or with words that its partial has combined. -/
def CacheLine.written (l : CacheLine) : BitVec 4 :=
  (List.range 4).foldl (fun m i => if l.dirty.extractLsb' (32 * i) 32 = 0#32 then m else m ||| (1#4 <<< i)) 0#4

/-- A line after an acquire (R31, R85): its clean sectors are invalid. The clean bytes of a sector with some dirty bytes are stale too, so
only a sector that is dirty whole stays valid; the dirty bytes stay (log 96, DEDUCED). -/
def CacheLine.acquired (l : CacheLine) : CacheLine :=
  if l.u.isSome then l
  else if l.dirty = 0#128 then {}
  else
    { l with valid := (List.range 4).foldl (fun (m : BitVec 4) i =>
        if l.valid.getLsbD i ∧ l.dirty.extractLsb' (32 * i) 32 = 0xFFFFFFFF#32 then m ||| (1#4 <<< i) else m) 0#4 }

/-- A line of the L1s by its key. -/
def Column.l1Line (x : Column) (k : Nat) : CacheLine := Tab.get {} x.l1 k
/-- The column with one L1 line replaced. -/
def Column.setL1 (x : Column) (k : Nat) (l : CacheLine) : Column := { x with l1 := Tab.store {} x.l1 k l }

/-- The key of the way of a cache that holds a line. -/
def Column.l1Find (x : Column) (cache line : Nat) : Option Nat :=
  ((List.range 16).map (l1Key cache (l1Set cache line))).find? fun k =>
    (x.l1Line k).present && (x.l1Line k).line == line

/-- The keys of a cache's lines. -/
def Column.l1Keys (x : Column) (cache : Nat) : List Nat :=
  (Tab.keys x.l1).filter fun k => decide (k / 2048 = cache)

/-- The sectors that bytes off to off + n - 1 of a line touch. -/
def sectorsOf (off n : Nat) : BitVec 4 :=
  (List.range 4).foldl (fun m i =>
    if off < 32 * i + 32 ∧ 32 * i < off + n then m ||| (1#4 <<< i) else m) 0#4

/-- Does a cache hold these sectors of a line, readable? -/
def Column.l1Has (x : Column) (cache line : Nat) (sectors : BitVec 4) : Bool :=
  match x.l1Find cache line with
  | some k => (x.l1Line k).u.isNone && decide (sectors &&& ~~~(x.l1Line k).valid = 0#4)
  | none => false

/-! ## U (R61) -/

/-- One combination of a reduction: 0 ADD, 1 MIN, 2 MAX, 3 FADD (R155). -/
def redCombine (op : Nat) (m v : Word) : Word :=
  match op with
  | 0 => m + v
  | 1 => lImin m v
  | 2 => lImax m v
  | _ => lFadd .rne m v

/-- The identity with which a U copy begins. -/
def redStart (op : Nat) : Word :=
  match op with
  | 0 => 0#32
  | 1 => 0x7FFFFFFF#32
  | 2 => 0x80000000#32
  | _ => 0x80000000#32

/-- Word i of a line. -/
def lineWord (d : BitVec 1024) (i : Nat) : Word := d.extractLsb' (32 * i) 32

/-- The column with one 32-bit word at the home replaced. -/
def Column.putWord (x : Column) (pa : Nat) (w : Word) : Column := x.putBytes pa (bytesOf 4 w.toNat)
/-- A 32-bit word at the home. -/
def Column.wordAt (x : Column) (free pa : Nat) : Word := BitVec.ofNat 32 (natOfBytes (x.bytesAt free pa 4))

/-- A partial folded into memory: mem := op(mem, p) for every word that the partial has combined. -/
def Column.foldLine (x : Column) (free : Nat) (l : CacheLine) (op : Nat) : Column :=
  (List.range 32).foldl (fun x i =>
    if l.dirty.extractLsb' (4 * i) 4 = 0#4 then x
    else x.putWord (128 * l.line + 4 * i) (redCombine op (x.wordAt free (128 * l.line + 4 * i)) (lineWord l.data i))) x

/-- What an L1 has sent, merged at the home: dirty bytes under their mask, or a partial folded into memory (R61, R85). -/
def Column.land (x : Column) (free : Nat) (l : CacheLine) : Column :=
  match l.u with
  | some op => x.foldLine free l op
  | none => x.putLine l.line l.dirty l.data

/-- The same with its slice's tag touched. -/
def Column.landTouched (x : Column) (free : Nat) (l : CacheLine) : Column :=
  (x.land free l).updBay fun b => b.touch l.region l.line l.written true l.ep

/-- One L1 line sent to the bay: its dirty bytes under their mask, or its partial, as a request of its own (R85, R310, R319). -/
def Column.sendLine (x : Column) (cache : Nat) (l : CacheLine) : Column :=
  if l.u.isNone ∧ l.dirty = 0#128 then x
  else
    x.updBay fun b => b.post
      { id := 0, cache := cache, line := l.line, sectors := l.written, who := .tinker, region := l.region, ctx := l.region, ep := l.ep, put := some l }

/-- An L1 line evicted: dirty bytes or a partial are sent to the bay, and the line is dropped. -/
def Column.evictL1 (x : Column) (k : Nat) : Column :=
  let l := x.l1Line k
  if l.present then (x.sendLine (k / 2048) l).setL1 k {} else x

/-- The write-backs of a cache's line that have not merged yet, oldest first. -/
def Column.puts (x : Column) (cache line : Nat) : List Req :=
  x.bay.reqs.filter fun r => r.put.isSome && r.cache == cache && r.line == line

/-- The write-backs of a cache's line merged at once, in their order. -/
def Column.settlePuts (x : Column) (free cache line : Nat) : Column :=
  (x.puts cache line).foldl (fun x r =>
    match r.put with
    | some l => (x.landTouched free l).updBay (·.removeReq r)
    | none => x) x

/-- A held line merged at the bay at once and dropped. -/
def Column.takeL1 (x : Column) (free k : Nat) : Column :=
  let l := x.l1Line k
  (if l.u.isSome ∨ l.dirty ≠ 0#128 then x.landTouched free l else x).setL1 k {}

/-- What a cache has written of a line merged at the bay, before an access that bypasses it, and its copy dropped (R153). -/
def Column.settleLine (x : Column) (free cache line : Nat) : Column :=
  let x := x.settlePuts free cache line
  match x.l1Find cache line with
  | some k => x.takeL1 free k
  | none => x

/-- Does what a cache has combined of a line wait, as a reduction that comes after the claim, for an engine command that owns the line
(R59, R242)? -/
def Column.recallWaits (x : Column) (c line : Nat) : Bool :=
  ((x.l1Find c line).any fun k => (x.l1Line k).u.isSome && x.bay.owned (x.l1Line k).region line) ||
    (x.puts c line).any fun r => x.bay.owned r.ctx line

/-- The U copies of a line in some caches recalled, in their order (R61): with each what its cache has sent before, in its own order. -/
def Column.recallFrom (x : Column) (free line : Nat) (caches : List Nat) : Column :=
  caches.foldl (fun x c =>
    let held := (x.l1Find c line).filter fun k => (x.l1Line k).u.isSome
    if (held.isSome ∨ (x.puts c line).any (fun r => (r.put.bind (·.u)).isSome)) ∧ x.recallWaits c line = false then
      let x := x.settlePuts free c line
      match held with
      | some k => x.takeL1 free k
      | none => x
    else x) x

/-- Every U copy of a line recalled, by ascending agent index, before the bay serves an access (R61). -/
def Column.recallU (x : Column) (free line : Nat) : Column := x.recallFrom free line (List.range 9)

/-- A line that an L1 has sent merged at the home (R61, R85): a partial for its agent alone; dirty bytes, a store at the bay, after the U
copies of the other agents have been recalled. Its own agent's copy is newer and stays (R54). -/
def Column.landPut (x : Column) (free cache : Nat) (l : CacheLine) : Column :=
  if l.u.isSome then x.land free l
  else (x.recallFrom free l.line ((List.range 9).filter (· ≠ cache))).land free l

/-! ## Replacement -/

/-- The first way of a set, in order, that satisfies a test. -/
def Column.l1Way (x : Column) (cache set : Nat) (f : CacheLine → Bool) : Option Nat :=
  ((List.range 16).map (l1Key cache set)).find? fun k => f (x.l1Line k)

/-- The way to fill: the lowest with V = 3, raising every V of the set until there is one (R85); an empty way of the set is filled first,
which R85 does not say (log 97, DESIGN CHOICE). -/
def Column.l1Victim : Nat → Column → Nat → Nat → Column × Nat
  | 0, x, cache, set => (x, l1Key cache set 0)
  | n + 1, x, cache, set =>
    match x.l1Way cache set fun l => !l.present with
    | some k => (x, k)
    | none =>
      match x.l1Way cache set fun l => decide (3 ≤ l.v) with
      | some k => (x, k)
      | none =>
        Column.l1Victim n
          ((List.range 16).foldl (fun x w =>
            x.setL1 (l1Key cache set w) { x.l1Line (l1Key cache set w) with v := (x.l1Line (l1Key cache set w)).v + 1 }) x)
          cache set

/-- The insertion value of a reuse distance (R85): 0 gives 2, 1 gives 1, 2 gives 0, 3 gives 3. -/
def rdValue (rd : Nat) : Nat := if rd = 0 then 2 else if rd = 1 then 1 else if rd = 2 then 0 else 3

/-- A mask of a line's bytes from its sectors. -/
def sectorBytes (m : BitVec 4) : BitVec 128 :=
  (List.range 4).foldl (fun b i => if m.getLsbD i then b ||| (0xFFFFFFFF#128 <<< (32 * i)) else b) 0#128

/-- The bytes of a line, spread to their bits. -/
def spreadBytes (m : BitVec 128) : BitVec 1024 :=
  (List.range 128).foldr (fun i acc => (acc <<< 8) ||| (if m.getLsbD i then 0xFF#1024 else 0#1024)) 0#1024

/-- The home data of a line as a cache sees it: with what it has written back and the bay has not merged yet (R54). -/
def Column.seenData (x : Column) (free cache line : Nat) : BitVec 1024 :=
  (x.puts cache line).foldl (fun d r =>
    match r.put with
    | some l => if l.u.isSome then d else (l.data &&& spreadBytes l.dirty) ||| (d &&& ~~~spreadBytes l.dirty)
    | none => d) (x.lineData free line)

/-- The sectors of a line brought from the bay into an L1, with the insertion value, priority and context of the access; bytes that are
dirty there stay. A U copy is sent first. -/
def Column.fillL1 (x : Column) (free cache line : Nat) (sectors : BitVec 4) (v ep region : Nat) : Column :=
  if sectors = 0#4 then x
  else
    match x.l1Find cache line with
    | some k =>
      let x := if (x.l1Line k).u.isSome then x.evictL1 k else x
      let l := x.l1Line k
      let m := spreadBytes (sectorBytes (sectors &&& ~~~l.valid) &&& ~~~l.dirty)
      x.setL1 k { l with line := line, valid := l.valid ||| sectors, data := (x.seenData free cache line &&& m) ||| (l.data &&& ~~~m), v := v
                         ep := ep, region := region }
    | none =>
      let (x, k) := Column.l1Victim 5 x cache (l1Set cache line)
      let x := x.evictL1 k
      x.setL1 k { line := line, valid := sectors, v := v, data := x.seenData free cache line &&& spreadBytes (sectorBytes sectors), ep := ep
                  region := region }

/-! ## Accesses that hit -/

/-- Bytes read from a held line; the access sets V to 0 (R85). -/
def CacheLine.bytes (l : CacheLine) (off n : Nat) : List Byte :=
  (List.range n).map fun i => l.data.extractLsb' (8 * (off + i)) 8

/-- A byte merged into a held line, with its dirty bit. -/
def CacheLine.merge (l : CacheLine) (off : Nat) (b : Byte) : CacheLine :=
  { l with
    dirty := l.dirty ||| (1#128 <<< off)
    data := (l.data &&& ~~~(0xFF#1024 <<< (8 * off))) ||| (b.setWidth 1024 <<< (8 * off))
    v := 0 }

/-- Bytes merged into a held line from an offset on. -/
def CacheLine.mergeBytes (l : CacheLine) (off : Nat) : List Byte → CacheLine
  | [] => l
  | b :: bs => (l.merge off b).mergeBytes (off + 1) bs

/-! ## Release and acquire at the L1 (R31, R85) -/

/-- Every dirty byte and every partial of a cache sent to the bay; lines stay valid and clean, U copies are dropped. -/
def Column.drainL1 (x : Column) (cache : Nat) : Column :=
  (x.l1Keys cache).foldl (fun x k =>
    let l := x.l1Line k
    let x := x.sendLine cache l
    if l.u.isSome ∨ l.valid = 0#4 then x.setL1 k {} else x.setL1 k { l with dirty := 0#128 }) x

/-- Are write-backs of a cache from before a request still to merge? -/
def Column.putsBefore (x : Column) (cache upTo : Nat) : Bool :=
  x.bay.reqs.any fun r => r.put.isSome && decide (r.cache = cache) && decide (r.id < upTo)

/-- A cache's part of a release at column scope, begun or gone on with: is it complete, the first request that it does not wait for while
it is not, and the column (R31, R85, R319). -/
def Column.drain (x : Column) (cache : Nat) : Option Nat → Bool × Option Nat × Column
  | some n => if x.putsBefore cache n then (false, some n, x) else (true, none, x)
  | none =>
    let x := x.drainL1 cache
    if x.putsBefore cache x.bay.nextReq then (false, some x.bay.nextReq, x) else (true, none, x)

/-- Every clean sector of a cache invalidated. -/
def Column.acquireL1 (x : Column) (cache : Nat) : Column :=
  (x.l1Keys cache).foldl (fun x k => x.setL1 k (x.l1Line k).acquired) x

/-- The clean copies of some lines dropped from the core L1 (R66, R196). -/
def Column.dropClean (x : Column) (lines : List Nat) : Column :=
  lines.foldl (fun x ln =>
    match x.l1Find 0 ln with
    | some k => x.setL1 k (x.l1Line k).acquired
    | none => x) x

end Sys2Proof.Machine
end

