-- ==== Sys2Proof/Machine/Convert.lean ====
section
/-! DEFINITION. The conversions of OP 0x42 to 0x45 (R110 to R116): X pipe, latency 6. -/

namespace Sys2Proof.Machine

/-! ## Lane functions -/

/-- CVT.F2I (R110). -/
def lF2i (rm : Rm) (sat : Bool) (a : Word) : Word :=
  match f32 a with
  | .nan => if sat then 0#32 else 0x80000000#32
  | .inf n => if sat then (if n then 0x80000000#32 else 0x7FFFFFFF#32) else 0x80000000#32
  | .fin n m e =>
    let k := roundInt rm n m e
    let v : Int := if n then -(k : Int) else k
    if -(2 ^ 31) ≤ v ∧ v ≤ 2 ^ 31 - 1 then BitVec.ofInt 32 v
    else if sat then (if v < 0 then 0x80000000#32 else 0x7FFFFFFF#32) else 0x80000000#32

/-- CVT.F2U (R110). -/
def lF2u (rm : Rm) (sat : Bool) (a : Word) : Word :=
  match f32 a with
  | .nan => if sat then 0#32 else 0xFFFFFFFF#32
  | .inf n => if sat then (if n then 0#32 else 0xFFFFFFFF#32) else 0xFFFFFFFF#32
  | .fin n m e =>
    let k := roundInt rm n m e
    let v : Int := if n then -(k : Int) else k
    if 0 ≤ v ∧ v ≤ 2 ^ 32 - 1 then BitVec.ofInt 32 v
    else if sat then (if v < 0 then 0#32 else 0xFFFFFFFF#32) else 0xFFFFFFFF#32

/-- One half-width element of an FP32 value (R111). -/
def halfOf (f : FpFmt) (rm : Rm) (sat : Bool) (a : Word) : Nat :=
  let y := f.round rm (f32 a)
  f.encode (if sat then f.sat y else y)

/-- An exact value as FP32. -/
def exact32 (x : FVal) : Word := BitVec.ofNat 32 (fp32.encode (fp32.round .rne x))

/-- A byte of PACK.E4M3: saturation is unconditional (R112). -/
def packE4m3 (rm : Rm) (x : FVal) : Nat := e4m3.encode (e4m3.sat (e4m3.round rm x))
/-- A byte of PACK.E5M2 (R112). -/
def packE5m2 (rm : Rm) (sat : Bool) (x : FVal) : Nat :=
  let y := e5m2.round rm x
  e5m2.encode (if sat then e5m2.sat y else y)

/-- The word whose bytes are given, byte 0 first. -/
def word4 (b0 b1 b2 b3 : Nat) : Word :=
  BitVec.ofNat 32 (b0 % 256 + 256 * (b1 % 256) + 65536 * (b2 % 256) + 16777216 * (b3 % 256))

/-- Byte i of a word. -/
def byteOf (x : Word) (i : Nat) : Nat := bitsOf x.toNat (8 * i + 7) (8 * i)

/-! ## Integer and half-width conversions -/

/-- A one-operand X-pipe word. -/
def State.cvt1 (s : State) (f : Word → Word) (d a : BitVec 6) : Host.Outcome State Fault Refusal :=
  s.vectorTo 6 d (map1 f (s.vr a))

def execCvtF2i (d a : BitVec 6) (s : State) := accept .cvtSat s fun s => s.cvt1 (lF2i s.rm s.pfx.sat) d a
def execCvtF2u (d a : BitVec 6) (s : State) := accept .cvtSat s fun s => s.cvt1 (lF2u s.rm s.pfx.sat) d a
def execCvtI2f (d a : BitVec 6) (s : State) :=
  accept .fpRound s fun s => s.cvt1 (fun x => r32 s.rm (FVal.ofInt x.toInt)) d a
def execCvtU2f (d a : BitVec 6) (s : State) :=
  accept .fpRound s fun s => s.cvt1 (fun x => r32 s.rm (FVal.ofInt x.toNat)) d a

def execCvtF2b (d a b : BitVec 6) (s : State) :=
  accept .cvtSat s fun s =>
    s.vectorTo 6 d (map2 (fun x y => pack16 (halfOf bf16 s.rm s.pfx.sat x) (halfOf bf16 s.rm s.pfx.sat y)) (s.vr a) (s.vr b))
def execCvtF2h (d a b : BitVec 6) (s : State) :=
  accept .cvtSat s fun s =>
    s.vectorTo 6 d (map2 (fun x y => pack16 (halfOf fp16 s.rm s.pfx.sat x) (halfOf fp16 s.rm s.pfx.sat y)) (s.vr a) (s.vr b))
def execCvtB2f (d a : BitVec 6) (b : BitVec 1) (s : State) :=
  accept .fp s fun s => s.cvt1 (fun x => exact32 (bf16.decode (elem16 x b.toNat))) d a
def execCvtH2f (d a : BitVec 6) (b : BitVec 1) (s : State) :=
  accept .fp s fun s => s.cvt1 (fun x => exact32 (fp16.decode (elem16 x b.toNat))) d a

/-! ## FP8 and TS8 (R112 to R114) -/

/-- A pack word over the four FP32 values of two register pairs. -/
def State.pack4 (s : State) (f : FVal → Nat) (d : BitVec 6) (a b : BitVec 5) : Host.Outcome State Fault Refusal :=
  let x (r : Nat) (l : Nat) : Nat := f (f32 (lane (s.readV r) l))
  s.vectorTo 6 d (vecOf fun l =>
    word4 (x (2 * a.toNat) l) (x (2 * a.toNat + 1) l) (x (2 * b.toNat) l) (x (2 * b.toNat + 1) l))

def execPackE4m3 (d : BitVec 6) (a b : BitVec 5) (s : State) := accept .fpRound s fun s => s.pack4 (packE4m3 s.rm) d a b
def execPackE5m2 (d : BitVec 6) (a b : BitVec 5) (s : State) :=
  accept .cvtSat s fun s => s.pack4 (packE5m2 s.rm s.pfx.sat) d a b
def execPackTs8 (d : BitVec 6) (a b : BitVec 5) (s : State) := accept .fpRound s fun s => s.pack4 (ts8Pack s.rm) d a b

/-- An unpack word: two bytes of a, as FP32, into a register pair. -/
def State.unpack2 (s : State) (f : Nat → FVal) (d : BitVec 5) (a : BitVec 6) (b : BitVec 1) :
    Host.Outcome State Fault Refusal :=
  let j := 2 * b.toNat
  s.pairTo 6 d (map1 (fun x => exact32 (f (byteOf x j))) (s.vr a)) (map1 (fun x => exact32 (f (byteOf x (j + 1)))) (s.vr a))

def execUnpkE4m3 (d : BitVec 5) (a : BitVec 6) (b : BitVec 1) (s : State) :=
  accept .fp s fun s => s.unpack2 e4m3.decode d a b
def execUnpkE5m2 (d : BitVec 5) (a : BitVec 6) (b : BitVec 1) (s : State) :=
  accept .fp s fun s => s.unpack2 e5m2.decode d a b
def execUnpkTs8 (d : BitVec 5) (a : BitVec 6) (b : BitVec 1) (s : State) :=
  accept .fp s fun s => s.unpack2 ts8Decode d a b

/-! ## Block scales (R115, R116, R219) -/

/-- The top exponent of a block format: 0 E4M3, 1 E5M2, 2 E2M1, 3 TS8. -/
def emaxOf (fmt : Nat) : Int := if fmt = 0 then 8 else if fmt = 1 then 15 else if fmt = 2 then 2 else 0

/-- The largest floor(log2) among finite nonzero magnitudes; none when all are zero. -/
def topExp : List FVal → Option Int
  | [] => none
  | .fin _ m e :: xs =>
    if m = 0 then topExp xs
    else
      match topExp xs with
      | some t => some (max t (floorLog2 m e))
      | none => some (floorLog2 m e)
  | _ :: xs => topExp xs

/-- Is a value a NaN or an infinity? -/
def FVal.special : FVal → Bool
  | .fin _ _ _ => false
  | _ => true

/-- The scale byte of a block of values: 0xFF with a NaN or an infinity among them (R115, R219). -/
def blockScale (fmt : Nat) (xs : List FVal) : Nat :=
  if xs.any FVal.special then 0xFF
  else
    match topExp xs with
    | none => 0
    | some t =>
      let v := t - emaxOf fmt + 127
      if v < 0 then 0 else if 254 < v then 254 else v.toNat

/-- MXSCALE: one scale over the participating lanes. -/
def execMxscale (d a : BitVec 6) (b : BitVec 2) (s : State) :=
  accept .fp s fun s =>
    s.vectorTo 6 d (splat (BitVec.ofNat 32 (blockScale b.toNat ((lanesIn s.part).map fun l => f32 (lane (s.vr a) l)))))

/-- MXAPPLY's lane function. -/
def lMxapply (a b : Word) : Word :=
  let e := b.toNat % 256
  if e = 0xFF then 0x7FC00000#32 else r32 .rne ((f32 a).scale (127 - (e : Int)))

def execMxapply (d a b : BitVec 6) (s : State) := accept .fp s fun s => s.vectorTo 6 d (map2 lMxapply (s.vr a) (s.vr b))

end Sys2Proof.Machine
end

