-- ==== Sys2Proof/Machine/Mx.lean ====
section
/-! DEFINITION. MX tiles (R212 to R214) and the BF16 alias window over them (R216 to R220). Block formats are coded
0 MXE4M3, 1 MXE5M2, 2 MXFP4 and 3 TS8, as BAY_ALIAS_BACK's FMT codes them. -/

namespace Sys2Proof.Machine

/-- The bytes of an MX tile (R213). -/
def mxTile (fmt : Nat) : Nat := if fmt = 2 then 2176 else 4224

/-- The byte offset of an element's scale, from the tensor's base (R214). -/
def mxScaleOff (fmt e : Nat) : Nat := e / 4096 * mxTile fmt + e % 4096 / 32

/-- The byte offset of an element, and its nibble in MXFP4 (R214). -/
def mxElemOff (fmt e : Nat) : Nat := e / 4096 * mxTile fmt + 128 + (if fmt = 2 then e % 4096 / 2 else e % 4096)

/-- The code of an element in its byte. -/
def mxCode (fmt e byte : Nat) : Nat := if fmt = 2 then (if e % 2 = 0 then byte % 16 else byte / 16 % 16) else byte % 256

/-- A byte with an element's code written in it. -/
def mxPut (fmt e byte code : Nat) : Nat :=
  if fmt = 2 then (if e % 2 = 0 then byte / 16 * 16 + code % 16 else byte % 16 + 16 * (code % 16)) else code % 256

/-- An element's own value, without its scale. -/
def elemVal (fmt code : Nat) : FVal :=
  if fmt = 0 then e4m3.decode code else if fmt = 1 then e5m2.decode code else if fmt = 2 then e2m1.decode code
  else ts8Decode code

/-- The value of an element under its scale byte (R212). -/
def mxVal (fmt scale code : Nat) : FVal :=
  if scale = 0xFF then .nan
  else
    match elemVal fmt code with
    | .nan => .nan
    | x => x.scale (scaleExp scale)

/-- An element's code for a value already divided by its scale (R219). -/
def mxEncode (fmt : Nat) (y : FVal) : Nat :=
  if fmt = 0 then packE4m3 .rne y
  else if fmt = 1 then packE5m2 .rne true y
  else if fmt = 2 then e2m1.encode (e2m1.sat (e2m1.round .rne y))
  else ts8Pack .rne y

/-- The zero code of a block format. -/
def mxZero (fmt : Nat) : Nat := if fmt = 3 then 0x77 else 0

/-- A block requantized (R219): its scale byte and its 32 codes. -/
def requantize (fmt : Nat) (xs : List FVal) : Nat × List Nat :=
  let s := blockScale fmt xs
  if s = 0xFF then (s, xs.map fun _ => mxZero fmt) else (s, xs.map fun x => mxEncode fmt (x.scale (127 - (s : Int))))

/-- The BF16 image of a value (R218). -/
def bf16Of (x : FVal) : Nat := bf16.rnd .rne x

/-! ## The alias window -/

/-- The format and the backing address of a range (R216). -/
def Bay.aliasFmt (b : Bay) (n : Nat) : Nat := regField (Tab.get 0#64 b.aliasBack n) 55 52
def Bay.aliasAddr (b : Bay) (n : Nat) : Nat := regField (Tab.get 0#64 b.aliasBack n) 33 7 * 128

/-- The element that a window byte belongs to, counted in its range. -/
def Bay.aliasElem (b : Bay) (n pa : Nat) : Nat :=
  (pa - 0x100000000 - regField (Tab.get 0#64 b.aliasWin n) 31 16 * 65536) / 2

/-- The backing lines of the block of an element. -/
def Bay.backingLines (b : Bay) (n e : Nat) : List Nat :=
  [lineOf (b.aliasAddr n + mxScaleOff (b.aliasFmt n) e), lineOf (b.aliasAddr n + mxElemOff (b.aliasFmt n) e)]

/-- The values of the block of an element, as the backing stands. -/
def Column.blockVals (x : Column) (free n e : Nat) : List FVal :=
  let f := x.bay.aliasFmt n
  let a := x.bay.aliasAddr n
  let e0 := e / 32 * 32
  let s := (x.byteAt free (a + mxScaleOff f e0)).toNat
  (List.range 32).map fun k => mxVal f s (mxCode f (e0 + k) (x.byteAt free (a + mxElemOff f (e0 + k))).toNat)

/-- The BF16 image of one element (R218). -/
def Column.aliasImage (x : Column) (free n e : Nat) : Nat := bf16Of ((x.blockVals free n e).getD (e % 32) .nan)

/-- Bytes of the window read. -/
def Column.aliasRead (x : Column) (free n pa size : Nat) : List Byte :=
  (List.range size).map fun i =>
    let v := x.aliasImage free n (x.bay.aliasElem n (pa + i))
    BitVec.ofNat 8 (if (pa + i) % 2 = 0 then v % 256 else v / 256)

/-- One block of backing written from a scale and its codes. -/
def Column.putBlock (x : Column) (n e0 : Nat) (s : Nat) (codes : List Nat) : Column :=
  let f := x.bay.aliasFmt n
  let a := x.bay.aliasAddr n
  let x := x.putByte (a + mxScaleOff f e0) (BitVec.ofNat 8 s)
  (codes.zip (List.range 32)).foldl (fun x c =>
    let p := a + mxElemOff f (e0 + c.2)
    x.putByte p (BitVec.ofNat 8 (mxPut f (e0 + c.2) (Memory.read x.mem p).toNat c.1))) x

/-- The bytes that one store word writes to one block of the window, applied in one requantization (R219). Later bytes
of the list win. -/
def Column.aliasBlock (x : Column) (free n e0 : Nat) (bytes : List (Nat × Byte)) : Column :=
  let old := x.blockVals free n e0
  let byteAt (a : Nat) : Option Byte := (bytes.reverse.find? fun p => p.1 == a).map Prod.snd
  let base := regField (Tab.get 0#64 x.bay.aliasWin n) 31 16 * 65536 + 0x100000000
  let new := (List.range 32).map fun k =>
    let a := base + 2 * (e0 + k)
    match byteAt a, byteAt (a + 1) with
    | none, none => old.getD k .nan
    | lo, hi =>
      let im := bf16Of (old.getD k .nan)
      let l := (lo.map BitVec.toNat).getD (im % 256)
      let h := (hi.map BitVec.toNat).getD (im / 256)
      bf16.decode (l + 256 * h)
  let r := requantize (x.bay.aliasFmt n) new
  x.putBlock n e0 r.1 r.2

/-- The bytes that one store word writes to a window line, block by block. -/
def Column.aliasWrite (x : Column) (free n : Nat) (bytes : List (Nat × Byte)) : Column :=
  let blocks := bytes.map fun p => x.bay.aliasElem n p.1 / 32 * 32
  let distinct := blocks.foldl (fun (acc : List Nat) b => if acc.contains b then acc else acc ++ [b]) []
  distinct.foldl (fun x b => x.aliasBlock free n b (bytes.filter fun p => x.bay.aliasElem n p.1 / 32 * 32 == b)) x

end Sys2Proof.Machine
end

