-- ==== Sys2Proof/Machine/Scalar.lean ====
section
/-! DEFINITION. The scalar words (R92, R93) and the special registers (R48): OP 0x01 to 0x0C, S pipe, latency 2. -/

namespace Sys2Proof.Machine

/-! ## Scalar functions -/

/-- SMULH: the signed high half of the product. -/
def sMulh (a b : Dword) : Dword := (a.signExtend 128 * b.signExtend 128).extractLsb' 64 64
/-- The shifts: amounts of 64 and more give 0, or the sign fill of 63 (R93). -/
def sShl (a n : Dword) : Dword := if 64 ≤ n.toNat then 0#64 else a <<< n.toNat
def sShr (a n : Dword) : Dword := if 64 ≤ n.toNat then 0#64 else a >>> n.toNat
def sSar (a n : Dword) : Dword := a.sshiftRight (min n.toNat 63)
def sRol (a n : Dword) : Dword := a.rotateLeft (n.toNat % 64)
def sMin (a b : Dword) : Dword := if a.slt b then a else b
def sMax (a b : Dword) : Dword := if a.slt b then b else a
def sMinu (a b : Dword) : Dword := if a.ult b then a else b
def sMaxu (a b : Dword) : Dword := if a.ult b then b else a

/-- A two-operand scalar word. -/
def State.scalar2 (s : State) (f : Dword → Dword → Dword) (d a b : BitVec 6) : Host.Outcome State Fault Refusal :=
  s.scalarTo 2 d (f (s.sr a) (s.sr b))

/-! ## Arithmetic and logic -/

def execSli (d : BitVec 6) (i : BitVec 14) (s : State) := accept .plain s fun s => s.scalarTo 2 d (sext64 i)
def execSlis (d : BitVec 6) (i : BitVec 14) (s : State) :=
  accept .plain s fun s => s.scalarTo 2 d ((s.sr d <<< 14) ||| i.setWidth 64)
def execSadd (d a b : BitVec 6) (s : State) := accept .plain s fun s => s.scalar2 (fun x y => x + y) d a b
def execSsub (d a b : BitVec 6) (s : State) := accept .plain s fun s => s.scalar2 (fun x y => x - y) d a b
def execSmul (d a b : BitVec 6) (s : State) := accept .plain s fun s => s.scalar2 (fun x y => x * y) d a b
def execSmulh (d a b : BitVec 6) (s : State) := accept .plain s fun s => s.scalar2 sMulh d a b
def execSand (d a b : BitVec 6) (s : State) := accept .plain s fun s => s.scalar2 (fun x y => x &&& y) d a b
def execSor (d a b : BitVec 6) (s : State) := accept .plain s fun s => s.scalar2 (fun x y => x ||| y) d a b
def execSxor (d a b : BitVec 6) (s : State) := accept .plain s fun s => s.scalar2 (fun x y => x ^^^ y) d a b
def execSandn (d a b : BitVec 6) (s : State) := accept .plain s fun s => s.scalar2 (fun x y => x &&& ~~~y) d a b
def execSshl (d a b : BitVec 6) (s : State) := accept .plain s fun s => s.scalar2 sShl d a b
def execSshr (d a b : BitVec 6) (s : State) := accept .plain s fun s => s.scalar2 sShr d a b
def execSsar (d a b : BitVec 6) (s : State) := accept .plain s fun s => s.scalar2 sSar d a b
def execSrol (d a b : BitVec 6) (s : State) := accept .plain s fun s => s.scalar2 sRol d a b
def execSmin (d a b : BitVec 6) (s : State) := accept .plain s fun s => s.scalar2 sMin d a b
def execSmax (d a b : BitVec 6) (s : State) := accept .plain s fun s => s.scalar2 sMax d a b
def execSminu (d a b : BitVec 6) (s : State) := accept .plain s fun s => s.scalar2 sMinu d a b
def execSmaxu (d a b : BitVec 6) (s : State) := accept .plain s fun s => s.scalar2 sMaxu d a b
def execSaddi (d a : BitVec 6) (i : BitVec 8) (s : State) :=
  accept .plain s fun s => s.scalarTo 2 d (s.sr a + sext64 i)
def execSmov (d a : BitVec 6) (s : State) := accept .plain s fun s => s.scalarTo 2 d (s.sr a)

/-- SCSEL: with the condition clear nothing is written, and R90 applies all the same. -/
def execScsel (d a : BitVec 6) (b : BitVec 3) (s : State) :=
  accept .plain s fun s =>
    if s.readC b.toNat then s.scalarTo 2 d (s.sr a)
    else if s.mayWriteS d.toNat then .next s else .next (s.trap .divergentScalar)

def execSpopc (d a : BitVec 6) (s : State) :=
  accept .plain s fun s => s.scalarTo 2 d (BitVec.ofNat 64 (popcount (s.sr a)))
def execSclz (d a : BitVec 6) (s : State) :=
  accept .plain s fun s => s.scalarTo 2 d (BitVec.ofNat 64 (leadingZeros (s.sr a)))

/-! ## Compares and conditions -/

def execScmp (g d : BitVec 3) (a b : BitVec 6) (s : State) :=
  accept .plain s fun s => s.condTo 2 d (ccSigned g (s.sr a) (s.sr b))
def execScmpU (g d : BitVec 3) (a b : BitVec 6) (s : State) :=
  accept .plain s fun s => s.condTo 2 d (ccUnsigned g (s.sr a) (s.sr b))
def execScmpi (g d : BitVec 3) (a : BitVec 6) (i : BitVec 8) (s : State) :=
  accept .plain s fun s => s.condTo 2 d (ccSigned g (s.sr a) (sext64 i))
def execCand (d a b : BitVec 3) (s : State) :=
  accept .plain s fun s => s.condTo 2 d (s.readC a.toNat && s.readC b.toNat)
def execCor (d a b : BitVec 3) (s : State) :=
  accept .plain s fun s => s.condTo 2 d (s.readC a.toNat || s.readC b.toNat)
def execCxor (d a b : BitVec 3) (s : State) :=
  accept .plain s fun s => s.condTo 2 d (s.readC a.toNat != s.readC b.toNat)
def execCandn (d a b : BitVec 3) (s : State) :=
  accept .plain s fun s => s.condTo 2 d (s.readC a.toNat && !s.readC b.toNat)

/-! ## Special registers (R48) -/

/-- The region whose quotas and counts apply to a launch: its service region (R295). -/
def State.quotaOf (s : State) (launch i : Nat) : Nat :=
  (((s.node launch).eff.quota.getD i 0#16).toNat) % 2048

/-- Backlog flits of a region and class at an interface (R295). -/
def Nif.backlogOf (n : Nif) (region tc : Nat) : Nat :=
  (n.backlog.filter fun f => decide (f.region = region) && decide (f.tc = tc)).length

/-- Flits a region has injected for a class in the current window of 1,024 cycles (R295). -/
def Nif.countOf (n : Nif) (clk region tc : Nat) : Nat :=
  if n.window = clk / 1024 then Tab.get 0 n.counts (4 * region + tc) else 0

/-- Is the injection gate of a class closed: the window's quota is used, or 32 flits wait (R295)? -/
def State.gateClosed (s : State) (col launch tc : Nat) : Bool :=
  let n := if tc < 2 then (s.col col).nifCore else (s.col col).nifBay
  let r := s.regionOf launch
  let q := s.quotaOf launch (if tc < 2 then tc else 4 + tc)
  (decide (q ≠ 0) && decide (q ≤ n.countOf s.clk r tc)) || decide (32 ≤ n.backlogOf r tc)

/-- One 16-bit field of %inj (R48, R295). -/
def State.injField (s : State) (tc : Nat) : BitVec 16 :=
  let n := if tc < 2 then s.here.nifCore else s.here.nifBay
  BitVec.ofBool (s.gateClosed s.cur.col s.launchId tc) ++ BitVec.ofNat 15 (n.backlogOf (s.regionOf s.launchId) tc)

/-- The gang-relative index of the issuing column (R27). -/
def State.gcol (s : State) : Nat := (s.launch.map.findIdx? fun c => c == s.cur.col).getD 0

/-- %path: 0 slot A, 1 slot B, 2 an ejected lane; the tinker and the factor cores run as one lane's path (R345). -/
def State.pathCode (s : State) : Nat :=
  match s.cur.who with
  | .warp _ b => if b then 1 else 0
  | .lane _ => 2
  | _ => 2

/-- The contents of a special register (R48). -/
def State.special48 (s : State) (n : Nat) : Dword :=
  match n with
  | 0 => BitVec.ofNat 64 (lowLane s.active)
  | 1 => BitVec.ofNat 64 s.warp.index
  | 2 => BitVec.ofNat 64 s.group.gid
  | 3 => BitVec.ofNat 64 (s.slot / 16)
  | 4 => BitVec.ofNat 64 s.cur.col
  | 5 => BitVec.ofNat 64 s.gcol
  | 6 => BitVec.ofNat 64 s.launch.map.length
  | 7 => BitVec.ofNat 64 s.pathCode
  | 8 => BitVec.ofNat 64 (laneCount s.active)
  | 9 => s.warp.ejt.setWidth 64
  | 10 => s.injField 3 ++ s.injField 2 ++ s.injField 1 ++ s.injField 0
  | 11 => BitVec.ofNat 64 s.clk
  | 12 => BitVec.ofNat 64 s.time
  | _ => 0#64

/-- SREAD. -/
def execSread (d b : BitVec 6) (s : State) :=
  accept .plain s fun s => if 12 < b.toNat then .next s.illegal else s.scalarTo 2 d (s.special48 b.toNat)

/-- SWRITE: %ejt alone is writable, with a value of at most 8 (R48); an ejected lane acts on its warp (R197). The new threshold stands at
once: an SREAD %ejt or EJCTL within the latency of 2 reads it (log 116, DESIGN CHOICE). -/
def execSwrite (a b : BitVec 6) (s : State) :=
  accept .plain s fun s =>
    if b.toNat ≠ 9 ∨ 8 < (s.sr a).toNat then .next s.illegal
    else .next (s.updWarp fun w => { w with ejt := (s.sr a).setWidth 4 })

end Sys2Proof.Machine
end

