-- ==== Sys2Proof/Machine/Translate.lean ====
section
/-! DEFINITION. Addresses (R24, R25), page tables and their walk (R353, R354), the TLBs (R28, R86), the checks of a
memory word's lanes (R142, R163), and the fetching of an instruction packet's bytes (R35). -/

namespace Sys2Proof.Machine

/-! ## Host memory, and a column's bytes wherever they lie (R30, R311) -/

/-- Host memory is kept by function and I/O address. -/
def hostKey (fn a : Nat) : Nat := 2 ^ 64 * fn + a % 2 ^ 64

/-- Bytes of host memory as a function's requester sees them. -/
def HostSide.read (h : HostSide) (fn a n : Nat) : List Byte := (List.range n).map fun i => Memory.read h.mem (hostKey fn (a + i))
/-- Bytes written into host memory with a function's requester ID. -/
def HostSide.write (h : HostSide) (fn a : Nat) (b : List Byte) : HostSide :=
  { h with mem := (b.zip (List.range b.length)).foldl (fun m e => Memory.write m (hostKey fn (a + e.2)) e.1) h.mem }

/-- The function that a region's host-tier requests carry: its own, or PF0 for the root region (R362). -/
def State.fnOf (s : State) (region : Nat) : Nat := if (s.node region).kind = .service then (s.node region).fn else 0

/-- The host I/O address of a host-tier line for a region. -/
def Bay.hostAddr (b : Bay) (region line : Nat) : Nat :=
  regField (b.entry (b.entryOf region)).ht 63 32 * 2 ^ 32 + (128 * line - 0x300000000)

/-- Does the bay have a host-tier line's latest bytes: it holds the line, or its write-back is not made yet (R311)? -/
def Bay.hasHost (b : Bay) (line : Nat) : Bool := (b.holder line).isSome || b.hostOut.any fun h => decide (h.1 = line) && h.2.1

/-- A host-tier line brought into its bay within a step, for an instruction fetch or a read of the distributor (R311, log 103, DEDUCED). -/
def State.bringHost (s : State) (c ctx line : Nat) : State :=
  let x := s.col c
  if x.bay.hasHost line then s
  else
    s.setCol c ((x.putBytes (128 * line) (s.host.read (s.fnOf ctx) (x.bay.hostAddr ctx line) 128)).updBay (·.touch ctx line 15#4 false 0))

/-- Bytes of a column read within a step for a context, all of them in one line: converted in the alias window (R218), brought from the
host in the host tier (R311). -/
def State.homeBytes (s : State) (c ctx pa n : Nat) : List Byte × State :=
  match (s.col c).bay.kindOf ctx pa with
  | .aliased k => ((s.col c).aliasRead s.free k pa n, s)
  | .host =>
    let s := s.bringHost c ctx (lineOf pa)
    ((s.col c).bytesAt s.free pa n, s)
  | _ => ((s.col c).bytesAt s.free pa n, s)

/-- Is an offset of a context on a column in the code image of a launch there, which the distributor maps without write permission (R35;
the other bytes of its pages keep what their entries say, log 104, DEDUCED)? -/
def State.inCode (s : State) (c ctx off : Nat) : Bool :=
  s.dist.nodes.any fun e =>
    decide (e.2.kind = .launch) && decide (s.regionOf e.1 = ctx) && e.2.launch.map.contains c && decide (e.2.launch.task.code ≤ off) &&
      decide (off < e.2.launch.task.code + 12 * e.2.launch.task.codelen)

/-! ## Page tables -/

/-- ADDR of a page-table entry as a physical address. -/
def pteAddr (e : Nat) : Nat := bitsOf e 33 8 * 256

/-- Bytes of a column that no context maps: the tinker's range and the system area below it (R331). -/
def inSystem (sysMib pa len : Nat) : Bool :=
  decide (0xFFFF0000 - sysMib * 1048576 < pa + len) && decide (pa < 0x100000000)

/-- Is an entry valid and not misformed, with its LEAF as its level wants it (R353, R354)? -/
def pteValid (e : Nat) (leaf : Bool) : Bool :=
  bitOf e 0 && decide (e / 2 ^ 34 = 0) && decide (bitsOf e 4 3 ≠ 3) && (bitOf e 1 == leaf)

/-- A valid entry that names a table of 4 KiB outside the ranges no context maps. -/
def pteTable (sysMib e align : Nat) : Option Nat :=
  if pteValid e false ∧ pteAddr e % align = 0 ∧ ¬ inSystem sysMib (pteAddr e) align then some (pteAddr e) else none

/-- A leaf entry as a TLB entry: frame aligned to its page, a crib page of 64 KiB only, a peer descriptor of 32 bytes. -/
def pteLeaf (sysMib ctx e page size : Nat) : Option TlbEntry :=
  let kind := bitsOf e 4 3
  let big := decide (size = 0x200000)
  let ok :=
    match kind with
    | 0 => decide (pteAddr e % size = 0) && !inSystem sysMib (pteAddr e) size
    | 1 => !big && decide (pteAddr e % size = 0)
    | _ => !inSystem sysMib (pteAddr e) 32
  if pteValid e true ∧ ok = true then
    some { ctx := ctx, va := page, pa := pteAddr e, big := big, kind := kind, r := bitOf e 7, w := bitOf e 2,
           shg := bitOf e 5 }
  else none

/-- The page walk of an offset in a column's tables of a context, reading the tables at the bay (R353). -/
def State.walk (s : State) (col ctx va : Nat) : Option TlbEntry :=
  let x := s.col col
  let m := s.dist.sysMib
  let read (pa : Nat) : Nat := natOfBytes (x.bytesAt s.free pa 8)
  if x.memOffline then none
  else do
    let t1 ← pteTable m (Tab.get 0#64 s.dist.roots (256 * ctx + col)).toNat 4096
    let t2 ← pteTable m (read (t1 + 8 * bitsOf va 47 39)) 4096
    let t3 ← pteTable m (read (t2 + 8 * bitsOf va 38 30)) 4096
    let e3 := read (t3 + 8 * bitsOf va 29 21)
    if bitOf e3 1 then pteLeaf m ctx e3 (va / 0x200000 * 0x200000) 0x200000
    else
      let t4 ← pteTable m e3 256
      pteLeaf m ctx (read (t4 + 8 * bitsOf va 20 16)) (va / 65536 * 65536) 65536

/-! ## TLBs -/

/-- The page size of an entry. -/
def TlbEntry.size (e : TlbEntry) : Nat := if e.big then 0x200000 else 65536

/-- Does an entry map an offset of a context? -/
def TlbEntry.covers (e : TlbEntry) (ctx va : Nat) : Bool :=
  decide (e.ctx = ctx) && decide (e.va ≤ va) && decide (va < e.va + e.size)

/-- The physical address that an entry gives an offset. -/
def TlbEntry.at_ (e : TlbEntry) (va : Nat) : Nat := e.pa + (va - e.va)

/-- A TLB of n entries with one added; a full one drops its oldest (log 12, DESIGN CHOICE). -/
def tlbAdd (n : Nat) (e : TlbEntry) (l : List TlbEntry) : List TlbEntry :=
  (if n ≤ l.length then l.drop 1 else l) ++ [e]

/-- A translation through the L2 TLB and, for a core access, the L1 TLB, walking on a miss; the entry found is kept, and the claims whose offsets
lie in its page cover the frame from then on (R242). No TLB keeps a fault (R28, R86, R353). -/
def State.translate (s : State) (col ctx va : Nat) (core : Bool) : Option TlbEntry × State :=
  let x := s.col col
  match (if core then x.l1tlb.find? (·.covers ctx va) else none) with
  | some e => (some e, s)
  | none =>
    let keep (e : TlbEntry) (s : State) : State :=
      if core then s.updCol col fun x => { x with l1tlb := tlbAdd 128 e x.l1tlb } else s
    match x.l2tlb.find? (·.covers ctx va) with
    | some e => (some e, keep e s)
    | none =>
      match s.walk col ctx va with
      | some e =>
        let claims (x : Column) : Bay :=
          { x.bay with claims := if e.kind = 0 then x.bay.claims.map (·.meetPage ctx e.va e.size e.pa) else x.bay.claims }
        (some e, keep e (s.updCol col fun x => { x with l2tlb := tlbAdd 4096 e x.l2tlb, bay := claims x }))
      | none => (none, s)

/-! ## Addresses of the issuing agent -/

/-- The offset of a near pointer, or of a far pointer that names the given gcol (R25). -/
def offsetIn (gcol : Nat) (a : Dword) : Option Nat :=
  if a.extractLsb' 48 16 = 0#16 then some (a.extractLsb' 0 48).toNat
  else if a.getLsbD 63 ∧ a.extractLsb' 48 7 = 0#7 ∧ (a.extractLsb' 55 8).toNat = gcol then
    some (a.extractLsb' 0 48).toNat
  else none

/-- The L1 that an agent's accesses go through: the core's, or its gleaner's (R85, R191, R345). -/
def Who.cache : Who → Nat
  | .lane x => x / 4 + 1
  | _ => 0

/-- The tinker's own range, which it reaches by physical address (R345). -/
def tinkerRange (off : Nat) : Bool := decide (0xFFFF0000 ≤ off) && decide (off < 0x100000000)

/-- The launch whose crib window covers an offset of a context on a column, with the offset in its reservation (R262). -/
def State.cribOf (s : State) (c ctx va : Nat) : Option (Nat × Nat) :=
  ((s.col c).cribs.find? fun e =>
    e.2.live && decide (e.2.window ≠ 0) && decide (e.2.kib ≠ 0) && decide (s.regionOf e.1 = ctx) && decide (e.2.window ≤ va) &&
      decide (va < e.2.window + (e.2.kib * 1024 + 65535) / 65536 * 65536)).map fun e => (e.1, va - e.2.window)

/-- The translation of an offset in a context for an ordinary access: a crib window's pages are of the crib kind (R262). -/
def State.windowed (s : State) (off : Nat) (core : Bool) : Option TlbEntry × State :=
  if (s.cribOf s.cur.col s.ctxNum off).isSome then
    (some { ctx := s.ctxNum, va := off / 65536 * 65536, pa := 0, big := false, kind := 1, r := true, w := true, shg := false }, s)
  else s.translate s.cur.col s.ctxNum off core

/-- The translation of an offset for the issuing agent. -/
def State.pageOf (s : State) (off : Nat) : Option TlbEntry × State :=
  let own : TlbEntry := { ctx := 0, va := 0xFFFF0000, pa := 0xFFFF0000, big := false, kind := 0, r := true, w := true, shg := false }
  match s.cur.who with
  | .tinker =>
    if tinkerRange off then (some own, s)
    else if s.here.tinker.serving.isNone then (none, s)
    else s.windowed off true
  | .lane _ => s.windowed off false
  | _ => s.windowed off true

/-- What a lane's access needs of its page. -/
structure Need where
  size : Nat
  r : Bool := false
  w : Bool := false
  /-- an atomic or a reduction, which the alias window refuses (R157) -/
  atom : Bool := false
  deriving DecidableEq, Repr

/-- The outcome of checking one address: its physical address with the page's SHG mark, or the cause found first,
with the physical address where there is one. -/
inductive Checked where
  | ok (pa : Nat) (shg : Bool)
  | bad (c : Cause) (pa : Nat)
  deriving DecidableEq, Repr

/-- One lane's address checked in the order of R163; MEMORY_UE is found when the data is read (R164). The tinker's own range is physical, and no
code image lies there for it (R35, R345). -/
def State.checkAddr (s : State) (n : Need) (a : Dword) : Checked × State :=
  match offsetIn s.gcol a with
  | none => (.bad .cross 0, s)
  | some off =>
    if off % n.size ≠ 0 then (.bad .align 0, s)
    else
      match s.pageOf off with
      | (none, s) => (.bad .pageFault 0, s)
      | (some e, s) =>
        if e.kind ≠ 0 ∨ (n.r ∧ ¬ e.r) ∨ (n.w ∧ (¬ e.w ∨ (s.inCode s.cur.col s.ctxNum off && !(decide (s.cur.who = .tinker) && tinkerRange off)))) then (.bad .prot 0, s)
        else
          let pa := e.at_ off
          match s.here.bay.openKind s.ctxNum pa with
          | .hole => (.bad .paHole pa, s)
          | .aliased _ => if n.atom then (.bad .atomTarget pa, s) else (.ok pa e.shg, s)
          | _ => (.ok pa e.shg, s)

/-- Every lane's address checked, in ascending lane order. -/
def State.checkLanes (s : State) (n : Need) : List (Nat × Dword) → List (Nat × Dword × Checked) × State
  | [] => ([], s)
  | (l, a) :: rest =>
    let r := s.checkAddr n a
    let t := r.2.checkLanes n rest
    ((l, a, r.1) :: t.1, t.2)

/-- The priority of a cause in R163. -/
def Cause.rank (c : Cause) : Nat := c.code

/-- The cause of highest priority among the lanes' outcomes, the mask of every failing lane, and the address of the
lowest (R142, R346). -/
def worst (l : List (Nat × Dword × Checked)) : Option (Cause × Lanes × Dword) :=
  l.foldl (fun acc e =>
    match e.2.2 with
    | .ok _ _ => acc
    | .bad c _ =>
      match acc with
      | none => some (c, 1#32 <<< e.1, e.2.1)
      | some (d, m, a) => some (if c.rank < d.rank then c else d, m ||| (1#32 <<< e.1), a)) none

/-- The lanes that passed, with their physical addresses. -/
def passed (l : List (Nat × Dword × Checked)) : List (Nat × Nat) :=
  l.filterMap fun e => match e.2.2 with | .ok pa _ => some (e.1, pa) | .bad _ _ => none

/-- Does any lane reach a page shared between groups (R158)? -/
def anyShg (l : List (Nat × Dword × Checked)) : Bool :=
  l.any fun e => match e.2.2 with | .ok _ g => g | .bad _ _ => false

/-! ## Fetching code (R35, R191) -/

/-- A 32-bit word of code at an offset of the issuing agent's context: an ejected lane's from its gleaner's L1, which an access leaves
with V at 0 (R85, R191); a hole has none (R30). -/
def State.codeWord (s : State) (off : Nat) : Except Cause Word × State :=
  match s.pageOf off with
  | (none, s) => (.error .pageFault, s)
  | (some e, s) =>
    if e.kind ≠ 0 ∨ ¬ e.r then (.error .pageFault, s)
    else
      let pa := e.at_ off
      let word (b : List Byte) : Word := BitVec.ofNat 32 (natOfBytes b)
      match (if s.cur.who.cache ≠ 0 ∧ s.here.l1Has s.cur.who.cache (lineOf pa) (sectorsOf (pa % 128) 4) = true
             then s.here.l1Find s.cur.who.cache (lineOf pa) else none) with
      | some k => (.ok (word ((s.here.l1Line k).bytes (pa % 128) 4)), s.updHere fun x => x.setL1 k { x.l1Line k with v := 0 })
      | none =>
        match s.here.bay.openKind s.ctxNum pa with
        | .hole => (.error .paHole, s)
        | _ =>
          let (b, s) := s.homeBytes s.cur.col s.ctxNum pa 4
          (.ok (word b), s)

/-- The offset at which the issuing agent's code image begins, and its packets; the tinker's packet 0 stands at the start of its range
(log 14, DEDUCED). -/
def State.codeImage (s : State) : Nat × Nat :=
  if s.cur.who = .tinker then (0xFFFF0000, 5461) else (s.launch.task.code, s.launch.task.codelen)

/-- The three words of a packet of the issuing agent's code image, or the cause that its fetch raises: IFETCH beyond
the image (R35), PAGE_FAULT where its bytes have no translation or may not be read, PA_HOLE where nothing is mapped (log 13, DEDUCED). -/
def State.fetchPacket (s : State) (pkt : BitVec 32) : Except Cause (List Word) × State :=
  let (base, len) := s.codeImage
  if len ≤ pkt.toNat then (.error .ifetch, s)
  else
    let o := base + 12 * pkt.toNat
    match s.codeWord o with
    | (.error c, s) => (.error c, s)
    | (.ok w0, s) =>
      match s.codeWord (o + 4) with
      | (.error c, s) => (.error c, s)
      | (.ok w1, s) =>
        match s.codeWord (o + 8) with
        | (.error c, s) => (.error c, s)
        | (.ok w2, s) => (.ok [w0, w1, w2], s)

/-- The addresses of a packet's words that an ejected lane's gleaner does not hold yet and can bring (R191): a window's words bypass its
L1 (R220), and marked sectors stay out of it (R164). -/
def State.codeMisses (s : State) (pkt : BitVec 32) : List Nat :=
  match s.cur.who with
  | .lane _ =>
    let (base, len) := s.codeImage
    if len ≤ pkt.toNat then []
    else (List.range 3).filterMap fun i =>
      let off := base + 12 * pkt.toNat + 4 * i
      match (s.pageOf off).1 with
      | none => none
      | some e =>
        let pa := e.at_ off
        let cached := match s.here.bay.openKind s.ctxNum pa with | .hole => false | .aliased _ => false | _ => true
        if e.kind = 0 ∧ e.r ∧ cached = true ∧ ¬ s.here.badSectors.contains (pa / 32) ∧
            ¬ s.here.l1Has s.cur.who.cache (lineOf pa) (sectorsOf (pa % 128) 4) then some pa else none
  | _ => []

end Sys2Proof.Machine
end

