-- ==== Sys2Proof/Machine/Paths.lean ====
section
/-! DEFINITION. A warp's paths (R119 to R128): the path stack and its frames, opening and closing a region, placing the
candidates of a division, ejection to the gleaners (R194, R195), leaving lanes (R125) and the rejoin states (R199). -/

namespace Sys2Proof.Machine

/-! ## The path stack (R119, R350) -/

/-- A frame of a path stack. -/
def PathStack.frame (k : PathStack) (f : Nat) : Frame := Tab.get {} k.frames f
/-- The stack with one frame replaced. -/
def PathStack.setFrame (k : PathStack) (f : Nat) (x : Frame) : PathStack := { k with frames := Tab.put k.frames f x, raw := none }
/-- The free frames among the five. -/
def PathStack.freeFrames (k : PathStack) : List Nat := (List.range 5).filter fun f => decide ((k.frame f).kind = 0#8)
/-- The region frame of a token. -/
def PathStack.region (k : PathStack) (t : Token) : Option Nat :=
  (List.range 5).find? fun f =>
    decide ((k.frame f).kind = 1#8) && decide ((k.frame f).join = t.join) && decide ((k.frame f).epoch = t.epoch)
/-- The frame index that names a token's region, 0xFF for none. -/
def PathStack.linkOf (k : PathStack) (t : Option Token) : BitVec 8 :=
  match t.bind k.region with
  | some f => BitVec.ofNat 8 f
  | none => 0xFF#8
/-- The token that a link names; a link of 0xFF names the token outside the stack, an ejected lane's home or none. -/
def PathStack.tokenAt (k : PathStack) (base : Option Token) (link : BitVec 8) : Option Token :=
  if link = 0xFF#8 then base else some ⟨(k.frame link.toNat).join, (k.frame link.toNat).epoch⟩

/-- The next value of an epoch counter, skipping the values held (R119). -/
def nextEpoch (held : List (BitVec 16)) : Nat → BitVec 16 → BitVec 16
  | 0, e => e + 1#16
  | n + 1, e => if held.contains (e + 1#16) then nextEpoch held n (e + 1#16) else e + 1#16

/-- The epochs of the open regions. -/
def PathStack.epochs (k : PathStack) : List (BitVec 16) :=
  ((List.range 5).filter fun f => decide ((k.frame f).kind = 1#8)).map fun f => (k.frame f).epoch

/-- A region opened by a path in a frame: token, lane set, parent and the path's banks (R119, R122). -/
def PathStack.openRegion (k : PathStack) (f : Nat) (p : Path) (join : BitVec 32) (home : List (BitVec 16)) : PathStack :=
  let e := k.epoch
  let k := k.setFrame f { kind := 1#8, c := p.c, epoch := e, join := join, lanes := p.lanes, link := k.linkOf p.token,
                          bank := p.bank, uid := p.uid }
  { k with epoch := nextEpoch (home ++ k.epochs) 6 e }

/-- A path suspended in a frame, on top of the others. -/
def PathStack.push (k : PathStack) (f : Nat) (p : Path) : PathStack :=
  let t := p.token.getD ⟨0#32, 0#16⟩
  let k := k.setFrame f { kind := 2#8, c := p.c, epoch := t.epoch, join := t.join, lanes := p.lanes, aux := p.pkt,
                          link := k.linkOf p.token, wpos := BitVec.ofNat 8 p.wpos, bank := p.bank, uid := p.uid,
                          wait := p.wait, ready := p.ready }
  { k with order := f :: k.order.filter (· ≠ f) }

/-- The path that a suspended-path frame holds. -/
def Frame.toPath (x : Frame) : Path :=
  { uid := x.uid, pkt := x.aux, wpos := x.wpos.toNat, lanes := x.lanes, bank := x.bank, c := x.c, wait := x.wait,
    ready := x.ready, token := if x.link = 0xFF#8 then none else some ⟨x.join, x.epoch⟩ }

/-- The topmost suspended path popped, its frame freed. -/
def PathStack.pop (k : PathStack) : Option (Path × PathStack) :=
  match k.order with
  | f :: rest => some ((k.frame f).toPath, { k.setFrame f {} with order := rest })
  | [] => none

/-! ## Slots -/

/-- Suspended paths popped into the slots that are free (R120). -/
def Warp.fill (w : Warp) : Warp :=
  let one (w : Warp) : Warp :=
    match (if w.a.isNone ∨ w.b.isNone then w.stack.pop else none) with
    | some (p, k) => if w.a.isNone then { w with a := some p, stack := k } else { w with b := some p, stack := k }
    | none => w
  one (one w)

/-- A transaction whose path arrived at the JOIN of a region that closes: it goes on with the merged path (log 95, DESIGN CHOICE). -/
def Tx.merged (t : Tx) (region : Token) (p : Path) : Tx :=
  match t.left with
  | some q => if q.token = some region then { t with path := p.uid, token := p.token, left := none } else t
  | none => t

/-- A region closed (R124): the arrived lanes become one path in slot A with the banks of the region's opening, at the
word after the JOIN; a displaced path goes to slot B, or is pushed in the frame of the region. No arrived lane, no
path. -/
def Warp.closeRegion (w : Warp) (f : Nat) : Warp :=
  let x := w.stack.frame f
  if x.aux = 0#32 then { w with stack := w.stack.setFrame f {} }
  else
    let p : Path :=
      { uid := x.uid, lanes := x.aux, bank := x.bank, c := x.c, token := w.stack.tokenAt none x.link,
        pkt := if x.jpos < 2 then x.join else x.join + 1#32, wpos := if x.jpos < 2 then x.jpos + 1 else 0,
        fresh := decide (2 ≤ x.jpos) }
    let w := { w with tx := w.tx.map fun (t : Tx) => t.merged ⟨x.join, x.epoch⟩ p }
    match w.a, w.b with
    | none, _ => { w with a := some p, stack := w.stack.setFrame f {} }
    | some q, none => { w with a := some p, b := some q, stack := w.stack.setFrame f {} }
    | some q, some _ => { w with a := some p, stack := (w.stack.setFrame f {}).push f q }

/-- Has every lane of a region that has not left arrived? -/
def Frame.complete (x : Frame) : Bool := decide (x.kind = 1#8) && decide (x.lanes &&& ~~~x.aux = 0#32)

/-- The complete regions of a warp slot closed; a merge with lanes that were ejected is an acquire at column scope
(R196). -/
def Column.settleRegions (x : Column) (n : Nat) : Column :=
  (List.range 5).foldl (fun x f =>
    let w := x.warp n
    let fr := w.stack.frame f
    if fr.complete then
      let x := x.setWarp n (w.closeRegion f)
      if fr.out = 0#32 then x else x.acquireL1 0
    else x) x

/-- Lanes of a warp that have executed EXIT removed from every open region (R125). -/
def Warp.exitLanes (w : Warp) (m : Lanes) : Warp :=
  { w with
    exited := w.exited ||| m
    stack := { w.stack with frames := Tab.mapVals (fun _ (x : Frame) =>
      if x.kind = 1#8 then { x with lanes := x.lanes &&& ~~~m, aux := x.aux &&& ~~~m } else x) w.stack.frames } }

/-- The lanes of a warp slot that are out on the gleaners. -/
def Column.lanesOut (x : Column) (n : Nat) : Lanes :=
  x.ctxs.foldl (fun m e => if e.2.live ∧ e.2.slot = n then m ||| (1#32 <<< e.2.lane) else m) 0#32

/-- Does some path of the warp stand in a slot or in the stack, not waiting at a JOIN? -/
def Warp.hasPath (w : Warp) : Bool := w.a.isSome || w.b.isSome || !w.stack.order.isEmpty

/-! ## Events that a warp slot raises -/

/-- An event that names a warp slot (R346). -/
def State.slotEvent (s : State) (c n : Nat) (cause : Cause) (note : Bool) : Event :=
  let w := (s.col c).warp n
  let g := (s.col c).group w.entry
  { cause := cause, note := note, slot := BitVec.ofNat 6 n, group := BitVec.ofNat 32 g.gid,
    context := BitVec.ofNat 16 (s.regionOf g.launch), cycle := s.clk }

/-- The contexts of a warp slot's ejected lanes. -/
def Column.ctxsOut (x : Column) (n : Nat) : List Nat := (x.ctxs.filter fun e => e.2.live && decide (e.2.slot = n)).map Prod.fst

/-- The rejoin timer of a warp (R199). -/
def Warp.timerAt (w : Warp) (clk : Nat) : Nat := if w.rejoin = .waiting then ((clk : Int) - w.timerFrom).toNat else w.timer

/-- A warp parked (R199): its timer stands, REJOIN_TIMEOUT is counted, and raised when RT = 1, naming the packet of the JOIN at which its
latest core path arrived (log 112, DEDUCED), the lanes still out and their contexts. -/
def State.park (s : State) (c n : Nat) : State :=
  let x := s.col c
  let w := x.warp n
  let x := (x.setWarp n { w with rejoin := .parked, timer := w.timerAt s.clk }).count (x.group w.entry).launch 4
  let ev := { s.slotEvent c n .rejoinTimeout true with lanes := x.lanesOut n, pc := w.lastJoin, ctxs := x.ctxsOut n }
  s.setCol c (if w.rt then x.raiseEvent ev else x)

/-- The rejoin state of a warp slot after an arrival, a return or an exit (R199). A warp with a limit of 0 parks at once, which counts and raises
REJOIN_TIMEOUT as reaching the limit does (log 126, DESIGN CHOICE). -/
def State.rejoinUpdate (s : State) (c n : Nat) : State :=
  let x := s.col c
  let w := x.warp n
  if x.lanesOut n = 0#32 ∨ w.hasPath then s.setCol c (x.setWarp n { w with rejoin := .running, timer := w.timerAt s.clk })
  else
    let s := s.setCol c (x.setWarp n { w with rejoin := .waiting, timerFrom := s.clk })
    if w.limit = 0#16 then s.park c n else s

/-! ## Ejection (R194, R195) -/

/-- The free contexts of a gleaner, lowest first. -/
def Column.freeCtxs (x : Column) (g : Nat) : List Nat :=
  ((List.range 4).map (4 * g + ·)).filter fun i => !(x.ctx i).live

/-- The number of free contexts of the pool. -/
def Column.poolFree (x : Column) : Nat := ((List.range 8).map fun g => (x.freeCtxs g).length).foldl (· + ·) 0

/-- The context that the next lane takes: of the gleaner with the most free contexts, the lower number on a tie, its
lowest free one. -/
def Column.pickCtx (x : Column) : Option Nat :=
  let g := (List.range 8).foldl (fun b g => if (x.freeCtxs b).length < (x.freeCtxs g).length then g else b) 0
  (x.freeCtxs g).head?

/-- The cycle at which the gleaner port is free again. -/
def Column.portFree (x : Column) (clk : Nat) : Nat := x.port.foldl (fun m j => max m j.done) clk

/-- One lane's part of a register table. -/
def laneOnly (l : Nat) (t : Tab Vec) : Tab Vec :=
  (Tab.mapVals (fun _ v => blend (1#32 <<< l) v 0#1024) t).filter fun e => e.2 ≠ 0#1024

/-- One lane handed to a context (R195): the snapshot of its registers, its place, token and banks, and its transfer
asked of the port. -/
def Column.ejectLane (x : Column) (n l clk : Nat) (p : Path) (t : Token) : Column :=
  match x.pickCtx with
  | none => x
  | some i =>
    let th := (x.warp n).th
    let c : LaneCtx :=
      { live := true, slot := n, lane := l, home := t, starting := true
        th := { v := laneOnly l th.v
                k := (Tab.mapVals (fun _ m => m &&& (1#32 <<< l)) th.k).filter fun e => e.2 ≠ 0#32 }
        path := { p with lanes := 1#32 <<< l, token := some t } }
    { x.setCtx i c with port := x.port ++ [{ ctx := i, back := false, done := x.portFree clk + 6 }] }

/-- A candidate handed to the gleaners whole, lane by lane, and counted (R181 counter 5). -/
def Column.eject (x : Column) (n clk launch : Nat) (p : Path) (t : Token) : Column :=
  let x := (lanesIn p.lanes).foldl (fun x l => (x.ejectLane n l clk p t).count launch 5) x
  let w := x.warp n
  match w.stack.region t with
  | some f =>
    x.setWarp n { w with stack := w.stack.setFrame f { w.stack.frame f with out := (w.stack.frame f).out ||| p.lanes } }
  | none => x

/-! ## The issuing path's stack -/

/-- The path stack of the issuing agent. -/
def State.stack (s : State) : PathStack :=
  match s.cur.who with
  | .warp n _ => (s.here.warp n).stack
  | .lane i => (s.here.ctx i).stack
  | .tinker => s.here.tinker.stack
  | .factor n => (s.factor n).stack

/-- The issuing agent's path stack replaced. -/
def State.setStack (s : State) (k : PathStack) : State :=
  match s.cur.who with
  | .warp n _ => s.updHere fun x => x.setWarp n { x.warp n with stack := k }
  | .lane i => s.updHere fun x => x.setCtx i { x.ctx i with stack := k }
  | .tinker => s.updHere fun x => { x with tinker := { x.tinker with stack := k } }
  | .factor n => { s with factors := Tab.put s.factors n { s.factor n with stack := k } }

/-- The token outside the issuing agent's stack: an ejected lane's home (R191). -/
def State.homeToken (s : State) : Option Token :=
  match s.cur.who with
  | .lane i => some (s.here.ctx i).home
  | _ => none

/-! ## Waiting for the banks (R383) -/

/-- Does a pending write belong to what a division copies: the path's banks, and, when a candidate is ejected, the
path's v and k registers? -/
def Write.copied (uid : Nat) (lanes : Lanes) (all : Bool) : Write → Bool
  | .s p r _ => decide (48 ≤ r) && decide (p = uid)
  | .c p _ _ => decide (p = uid)
  | .v _ m _ => all && decide (m &&& lanes ≠ 0#32)
  | .k _ m _ => all && decide (m &&& lanes ≠ 0#32)

/-- The same of a register that a pending variable-latency write names. -/
def Reg.copied (uid : Nat) (lanes : Lanes) (all : Bool) : Reg → Bool
  | .s p r => decide (48 ≤ r) && decide (p = uid)
  | .c p _ => decide (p = uid)
  | .v _ m => all && decide (m &&& lanes ≠ 0#32)
  | .k _ m => all && decide (m &&& lanes ≠ 0#32)
  | .h _ => false

/-- Has the issuing path a pending variable-latency write of what its word is about to copy or discard? -/
def State.pendingBanks (s : State) (all : Bool) : Bool := s.thread.vpend.any fun v => v.regs.any (·.copied s.path.uid s.path.lanes all)

/-- The first of them that has met an error (R164). -/
def State.erredBanks (s : State) (all : Bool) : Option VPend :=
  s.thread.vpend.find? fun v => v.error.isSome && v.regs.any (·.copied s.path.uid s.path.lanes all)

/-- Is a pending write's error one of an exchange word (R304)? -/
def VPend.ofExchange (v : VPend) : Bool := match v.error with | some (c, _) => decide (c = .xchMismatch) || decide (c = .xchPartner) | none => false

/-- The trap of a pending write that met an error (R164): it names the load's PC slot and the lanes whose data failed,
and the write is left unwritten and no longer pending; the PC is the issuing word's, or that of the FENCE that waits. -/
def State.raiseErred (s : State) (v : VPend) (pc : Option (BitVec 32 × Nat) := none) : State :=
  let s := s.updThread fun t => { t with vpend := t.vpend.filter fun u => decide (u.id ≠ v.id) }
  match v.error with
  | some (c, lanes, _, _, slotB) =>
    match s.cur.who with
    | .warp _ _ => s.raise c { lanes := lanes, detail := v.addr, path := some (if slotB then 1#2 else 0#2), pc := pc }
    | _ => s.raise c { lanes := lanes, detail := v.addr, pc := pc }
  | none => s

/-- The state that waits, if the issuing path has pending writes of what its word is about to copy or discard: in place
for fixed latencies, blocked under R38 for variable ones, whose error traps (R164). -/
def State.bankWait (s : State) (all : Bool) : Option State :=
  let t := s.thread
  let p := s.path
  match s.erredBanks all with
  | some v => some (s.raiseErred v)
  | none =>
  if s.pendingBanks all then some (s.blockAt (.banks all))
  else
    let due := (t.pend.filter fun q => q.write.copied p.uid p.lanes all).map (·.due)
    if due.isEmpty then none
    else some (s.inPlaceUntil (due.foldl max 0))

/-! ## Division (R120 to R123) -/

/-- A candidate: where it starts and its lanes. -/
structure Cand where
  pkt : BitVec 32
  wpos : Nat
  lanes : Lanes
  deriving DecidableEq, Repr

/-- Candidates in order: the largest first, and the order given on a tie (R120). -/
def orderCands (l : List Cand) : List Cand :=
  sortBy (fun a b => decide (laneCount b.lanes < laneCount a.lanes)) (l.filter fun c => decide (c.lanes ≠ 0#32))

/-- A candidate as a path that starts from a copy of the dividing one. -/
def Cand.toPath (c : Cand) (p : Path) (uid : Nat) (t : Token) : Path :=
  { p with uid := uid, pkt := c.pkt, wpos := c.wpos, fresh := decide (c.wpos = 0), lanes := c.lanes, token := some t, wait := .none }

/-- Is a further candidate ejected, given how many contexts are free (R194)? -/
def ejects (t free : Nat) (c : Cand) : Bool :=
  decide (0 < t) && decide (laneCount c.lanes ≤ t) && decide (laneCount c.lanes ≤ free)

/-- The fate of each further candidate: ejected, or kept on the core. -/
def fates (t : Nat) : Nat → List Cand → List (Bool × Cand)
  | _, [] => []
  | free, c :: cs => if ejects t free c then (true, c) :: fates t (free - laneCount c.lanes) cs else (false, c) :: fates t free cs

/-- The fates of the further candidates of a division by the issuing agent: a warp's may be ejected (R194), unless its group's pre-emption
waits for the end of its run, for the save of such a run holds no context of it (R206; log 113, DEDUCED). -/
def State.fatesOf (s : State) (rest : List Cand) : List (Bool × Cand) :=
  match s.cur.who with
  | .warp _ _ => fates (if (s.here.group s.warp.entry).leaving then 0 else s.warp.ejt.toNat) s.here.poolFree rest
  | _ => rest.map fun c => (false, c)

/-- Would some candidate of a division be ejected? -/
def State.ejectsAny (s : State) (cands : List Cand) : Bool := (s.fatesOf (orderCands cands).tail).any Prod.fst

/-- A warp's division placed: the first candidate in slot A, the other slot's path in slot B, each further one ejected,
in slot B, or pushed with the earliest on top. A run that began in slot B goes on in slot A, and still counts as one from slot B for the
alternation of R80 (log 87, DESIGN CHOICE). -/
def State.placeWarp (s : State) (n : Nat) (b : Bool) (p : Path) (t : Token) (first : Cand) (rest : List (Bool × Cand)) : State :=
  let launch := s.launchId
  let id := s.nextId
  let s := { s with nextId := id + 1 + rest.length, cur := { s.cur with who := .warp n false } }
  let paths := (rest.zip (List.range rest.length)).map fun e => (e.1.1, e.1.2.toPath p (id + 1 + e.2) t)
  let kept := (paths.filter fun e => !e.1).map Prod.snd
  let out := (paths.filter fun e => e.1).map Prod.snd
  s.updHere fun x =>
    let w := x.warp n
    let w := { w with a := some (first.toPath p id t), b := if b then w.a else w.b }
    let (w, pushed) :=
      match w.b, kept with
      | none, q :: qs => ({ w with b := some q }, qs)
      | _, qs => (w, qs)
    let w := pushed.reverse.foldl (fun (w : Warp) q =>
      match w.stack.freeFrames with
      | f :: _ => { w with stack := w.stack.push f q }
      | [] => w) w
    let x := x.setWarp n w
    let x :=
      match (x.quarter (n / 16)).run with
      | some r => if r.slot = n then x.setQuarter (n / 16) { x.quarter (n / 16) with run := some { r with b := false } } else x
      | none => x
    out.foldl (fun x q => x.eject n s.clk launch q t) x

/-- A SPLIT or BRT (R120 to R123, R127, R383): the waits for the banks, the frames it needs, the region it opens or
shares, and the placement of its candidates. -/
def State.divide (s : State) (join : BitVec 32) (cands : List Cand) : Host.Outcome State Fault Refusal :=
  let p := s.path
  match orderCands cands with
  | [] => .next s
  | first :: rest =>
    let shares := decide ((p.token.map (·.join)) = some join)
    let x := s.here
    let fs := s.fatesOf rest
    match s.bankWait (fs.any Prod.fst) with
    | some s => .next s
    | none =>
      let bFree :=
        match s.cur.who with
        | .warp n true => (x.warp n).a.isNone
        | .warp n false => (x.warp n).b.isNone
        | _ => false
      let kept := (fs.filter fun e => !e.1).length
      let need := (if shares then 0 else 1) + (kept - if bFree then 1 else 0)
      let free := s.stack.freeFrames
      if free.length < need then .next (s.trap .divergeDepth)
      else
        let home := (s.homeToken.map fun t => [t.epoch]).getD []
        let t : Token :=
          match p.token with
          | some t => if shares then t else ⟨join, s.stack.epoch⟩
          | none => ⟨join, s.stack.epoch⟩
        let s := if shares then s else s.setStack (s.stack.openRegion (free.headD 0) p join home)
        match s.cur.who with
        | .warp n b => .next (s.placeWarp n b p t first fs)
        | _ => .next { s.setPathOf s.cur.col s.cur.who (first.toPath p s.nextId t) with nextId := s.nextId + 1 }

end Sys2Proof.Machine
end

