-- ==== Sys2Proof/Machine/Tx.lean ====
section
/-! DEFINITION. What a transaction's own path may do (R159, R160) and its abort (R162). -/

namespace Sys2Proof.Machine

/-- The abort codes of R162. -/
inductive Abort where
  | conflict | capacityRead | capacityWrite | cross | fault | preempt | user | flow | nest | unsupported | tier
  deriving DecidableEq, Repr

/-- The code of an abort in TSTAT. -/
def Abort.code : Abort → Nat
  | .conflict => 1 | .capacityRead => 2 | .capacityWrite => 3 | .cross => 4 | .fault => 5 | .preempt => 6 | .user => 7
  | .flow => 8 | .nest => 9 | .unsupported => 10 | .tier => 11

/-- TSTAT's word (R162). -/
def tstatOf (a : Abort) (user : Nat) (addr : Dword) : Dword :=
  addr.extractLsb' 0 48 ++ BitVec.ofNat 8 user ++ BitVec.ofNat 8 a.code

/-- The transaction that the issuing path itself has open (R159). -/
def State.ownTx (s : State) : Option Tx :=
  match s.cur.who with
  | .warp _ _ =>
    match s.warp.tx with
    | some t => if t.path = s.path.uid then some t else none
    | none => none
  | _ => none

/-- A path moved to the word after its TBEGIN, with its condition cleared. -/
def Tx.resume (t : Tx) (p : Path) : Path :=
  if p.uid = t.path then
    { p with pkt := t.pkt, wpos := t.wpos, fresh := decide (t.wpos = 0), wait := .none, c := p.c &&& ~~~(1#8 <<< t.cond) }
  else p

/-- The same of a suspended path's frame. -/
def Tx.resumeFrame (t : Tx) (x : Frame) : Frame :=
  if x.kind = 2#8 ∧ x.uid = t.path then
    { x with aux := t.pkt, wpos := BitVec.ofNat 8 t.wpos, wait := .none, c := x.c &&& ~~~(1#8 <<< t.cond) }
  else x

/-- The path of a transaction that left its slot at a JOIN, active again (R162): its lanes leave the arrived set of the region and stand
at the word after TBEGIN, in a free slot, or suspended in a free frame; where the five are taken, in a sixth of the model's (log 95,
DESIGN CHOICE). -/
def Warp.reenter (w : Warp) (t : Tx) : Warp :=
  match t.left with
  | none => w
  | some p =>
    let q := t.resume { p with lanes := t.lanes &&& ~~~w.exited }
    let k :=
      match p.token.bind w.stack.region with
      | some f => w.stack.setFrame f { w.stack.frame f with aux := (w.stack.frame f).aux &&& ~~~q.lanes }
      | none => w.stack
    let w := { w with stack := k, rejoin := .running }
    if w.a.isNone then { w with a := some q }
    else if w.b.isNone then { w with b := some q }
    else { w with stack := w.stack.push (w.stack.freeFrames.headD 5) q }

/-- The writes of a thread without those still pending on a condition bit of a path. -/
def Thread.dropCond (t : Thread) (path i : Nat) : Thread :=
  { t with
    pend := t.pend.filter fun p => !p.write.touches (.c path i)
    vpend := t.vpend.filter fun v => !v.regs.any fun r => r.meets (.c path i) }

/-- A warp whose open transaction aborts (R162): the write set is discarded, the status recorded, and the path resumes
after its TBEGIN with c[d] = 0. -/
def Warp.abort (w : Warp) (a : Abort) (user : Nat) (addr : Dword) : Warp :=
  match w.tx with
  | none => w
  | some t =>
    ({ w with
      tx := none
      tstat := tstatOf a user addr
      th := w.th.dropCond t.path t.cond
      a := w.a.map t.resume
      b := w.b.map t.resume
      stack := { w.stack with frames := Tab.mapVals (fun _ x => t.resumeFrame x) w.stack.frames } } : Warp).reenter t

/-- A warp slot's transaction aborted and counted (R181 counter 7). -/
def Column.abortTx (x : Column) (n : Nat) (a : Abort) (user : Nat) (addr : Dword) : Column :=
  let w := x.warp n
  if w.tx.isNone then x else (x.setWarp n (w.abort a user addr)).count (x.group w.entry).launch 7

/-- The issuing agent's warp's transaction aborted. -/
def State.abortTx (s : State) (a : Abort) (user : Nat) (addr : Dword) : State :=
  match s.cur.who with
  | .warp _ _ => s.updHere fun x => x.abortTx s.slot a user addr
  | .lane _ => s.updHere fun x => x.abortTx s.slot a user addr
  | _ => s

/-- The status that TSTAT reads: the warp's, or the tinker's own (R162, R345). -/
def State.tstat (s : State) : Dword :=
  match s.cur.who with
  | .tinker => s.here.tinker.tstat
  | _ => s.warp.tstat

/-- A word that a transaction does not allow (R160): inside the path's own transaction it aborts TX_UNSUPPORTED. -/
def outsideTx (s : State) (run : State → Host.Outcome State Fault Refusal) : Host.Outcome State Fault Refusal :=
  if s.ownTx.isSome then .next (s.abortTx .unsupported 0 0#64) else run s

end Sys2Proof.Machine
end

