-- ==== Sys2Proof/Machine/Control.lean ====
section
/-! DEFINITION. Branches and calls (R117, R118), division and joining of paths (R119 to R128), the waiting words
(R129), warp control (R179) and the words that trap by intent (R180). -/

namespace Sys2Proof.Machine

/-! ## Branches and calls (R118) -/

/-- The link written to s63, ready two cycles later. -/
def State.link (s : State) : State := s.putS 2 63 ((s.cur.pkt + 1#32).setWidth 64)

def execBr (k : BitVec 3) (o : BitVec 16) (s : State) :=
  accept .plain s fun s => .next (if s.readC k.toNat then s.goto (s.cur.pkt + o.signExtend 32) else s)
def execBrF (k : BitVec 3) (o : BitVec 16) (s : State) :=
  accept .plain s fun s => .next (if s.readC k.toNat then s else s.goto (s.cur.pkt + o.signExtend 32))
def execJmp (o : BitVec 20) (s : State) := accept .plain s fun s => .next (s.goto (s.cur.pkt + o.signExtend 32))
def execCall (o : BitVec 20) (s : State) := accept .plain s fun s => .next (s.link.goto (s.cur.pkt + o.signExtend 32))
def execRet (s : State) := accept .plain s fun s => .next (s.goto ((s.readS 63).setWidth 32))
def execJmpi (a : BitVec 6) (s : State) := accept .plain s fun s => .next (s.goto ((s.sr a).setWidth 32))
/-- CALLI reads its target before it writes the link. -/
def execCalli (a : BitVec 6) (s : State) := accept .plain s fun s => .next (s.link.goto ((s.sr a).setWidth 32))

/-! ## Division -/

/-- SPLIT's two offsets: of the base word, or widened by a prefix with E (R44, R122). -/
def State.splitOffsets (s : State) (t : BitVec 10) (j : BitVec 7) : BitVec 32 × BitVec 32 :=
  match s.cur.pfx with
  | some p =>
    let hi := p.k ++ BitVec.ofBool p.z ++ p.rm
    ((p.x ++ t).signExtend 32, (hi ++ j).setWidth 32)
  | none => (t.signExtend 32, j.setWidth 32)

/-- The candidates of a SPLIT: the fall-through side and the taken side, or one where both begin at the same word (R120, R122). -/
def State.splitCands (s : State) (taken : BitVec 32) (k : Lanes) : List Cand :=
  let m := k &&& s.active
  if s.path.pkt = taken ∧ s.path.wpos = 0 then [{ pkt := taken, wpos := 0, lanes := s.active }]
  else [{ pkt := s.path.pkt, wpos := s.path.wpos, lanes := s.active &&& ~~~m }, { pkt := taken, wpos := 0, lanes := m }]

/-- SPLIT (R122): the lanes set in k go to the taken side; the fall-through side is ordered first on a tie. -/
def execSplit (k : BitVec 3) (t : BitVec 10) (j : BitVec 7) (s : State) :=
  accept .dividing s fun s =>
    let o := s.splitOffsets t j
    if o.2 = 0#32 then .next s.illegal
    else if s.ownTx.isSome then .next (s.abortTx .flow 0 0#64)
    else s.divide (s.cur.pkt + o.2) (s.splitCands (s.cur.pkt + o.1) (s.kr k))

/-- The table words of a BRT: the words of the packets after it, as many as asked for. -/
def State.tableWords (s : State) : Nat → BitVec 32 → Except Cause (List Word) × State
  | 0, _ => (.ok [], s)
  | n + 1, pkt =>
    match s.fetchPacket pkt with
    | (.error c, s) => (.error c, s)
    | (.ok ws, s) =>
      match s.tableWords n (pkt + 1#32) with
      | (.error c, s) => (.error c, s)
      | (.ok rest, s) => (.ok (ws ++ rest), s)

/-- The candidates of a BRT: one for each distinct destination packet, ordered by the lowest index that names it, the
default last (R120, R123). -/
def brtCands (pkt : BitVec 32) (offs : List (BitVec 32)) (dflt : BitVec 32) (lanes : Lanes) (v : Vec) : List Cand :=
  let dest (l : Nat) : BitVec 32 :=
    match offs[(lane v l).toNat]? with
    | some o => pkt + o
    | none => dflt
  ((offs.map (pkt + ·)) ++ [dflt]).foldl (fun (acc : List Cand) d =>
    if acc.any (fun c => c.pkt == d) then acc
    else acc ++ [{ pkt := d, wpos := 0, lanes := lanes &&& lanesOf fun l => dest l == d }]) []

/-- The target offsets of a BRT's table, after the join word: bits 19:0 of each, sign-extended (R123). -/
def tableOffsets (t : List Word) : List (BitVec 32) := t.tail.map fun w => (w.extractLsb' 0 20).signExtend 32

/-- BRT (R123). A table packet whose fetch fails raises the fetch's own cause at the BRT, precise there (log 90, DESIGN CHOICE). -/
def execBrt (a : BitVec 6) (n : BitVec 8) (s : State) :=
  accept .plain s fun s =>
    let k := n.toNat
    let packets := (k + 3) / 3
    match s.tableWords packets (s.cur.pkt + 1#32) with
    | (.error c, s) => .next (s.trap c)
    | (.ok ws, s) =>
      let t := ws.take (k + 1)
      if k = 0 ∨ t.headD 0#32 = 0#32 ∨ t.any (fun w => decide (w.extractLsb' 20 12 ≠ 0#12)) = true then .next s.illegal
      else if s.ownTx.isSome then .next (s.abortTx .flow 0 0#64)
      else
        s.divide (s.cur.pkt + t.headD 0#32)
          (brtCands s.cur.pkt (tableOffsets t) (s.cur.pkt + 1#32 + BitVec.ofNat 32 packets) s.active (s.vr a))

/-! ## Joining (R124) -/

/-- A warp's path arrived at the JOIN of its region: it leaves its slot, and the region closes once every lane that has
not exited has arrived. Two points are the model's choice (log 91): the JOIN always ends its path's run, the last arriver's too, whose
region closes at once; and where the lanes arrived at different JOIN words of the region's join packet, the merged path goes on after
the last arriver's. The path of an open transaction is noted there, for an abort makes its lanes active again (R162). -/
def State.arrive (s : State) (n : Nat) (b : Bool) (f : Nat) : State :=
  let p := s.path
  let s := s.endRun
  let s := s.updHere fun x =>
    let w := x.warp n
    let fr := w.stack.frame f
    let w := { w with tx := w.tx.map fun (t : Tx) => if t.path = p.uid then { t with left := some p } else t }
    let w := { w.setSlot b none with stack := w.stack.setFrame f { fr with aux := fr.aux ||| p.lanes, jpos := s.cur.wpos }, lastJoin := s.cur.pkt }
    let x := (x.setWarp n w).settleRegions n
    x.setWarp n (x.warp n).fill
  s.rejoinUpdate s.cur.col n

/-- A region that a context, the tinker or a factor core opened for its one lane, closed inside it. -/
def State.closeOwn (s : State) (f : Nat) : State :=
  let k := s.stack
  let fr := k.frame f
  (s.updPath fun p => { p with token := k.tokenAt s.homeToken fr.link, bank := fr.bank, c := fr.c }).setStack (k.setFrame f {})

def execJoin (s : State) :=
  accept .plain s fun s =>
    match s.path.token with
    | none => .next s
    | some t =>
      if t.join ≠ s.cur.pkt then .next s
      else
        match s.bankWait false with
        | some s => .next s
        | none =>
          match s.cur.who with
          | .warp n b => .next (s.arrive n b ((s.stack.region t).getD 0))
          | .lane i =>
            if t = (s.here.ctx i).home then
              .next (s.updHere fun x => x.setCtx i { x.ctx i with leaving := true, path := { (x.ctx i).path with pkt := s.cur.pkt, wpos := s.cur.wpos } })
            else .next (s.closeOwn ((s.stack.region t).getD 0))
          | _ => .next (s.closeOwn ((s.stack.region t).getD 0))

/-! ## Waiting words (R129) -/

/-- The variable-latency writes pending for the issuing agent: registers, and, for a warp, handles (R82). -/
def State.pendingVl (s : State) : Nat :=
  match s.cur.who with
  | .warp _ _ => (s.thread.vpend.filter fun v => !v.regs.isEmpty).length + (s.warp.h.filter fun e => decide (e.2.st = .pending)).length
  | _ => s.thread.vpend.length

/-- Is a memory word one of the issuing agent's warp's or context's? -/
def MemOp.mine (s : State) (m : MemOp) : Bool :=
  match s.cur.who, m.who with
  | .warp n _, .warp k _ => decide (n = k)
  | w, v => decide (w = v)

/-- Is a memory word a load into a register, which R129 counts until its data has landed? -/
def MemKind.loads : MemKind → Bool
  | .load _ => true
  | .scalarLoad => true
  | _ => false

/-- Memory words of the issuing agent not performed yet (R129): loads whose data has not landed, the other words at the L1 or the bay,
and the deferred ones. -/
def State.unperformed (s : State) : Nat :=
  (s.thread.vpend.filter (·.mem)).length + (s.here.mops.filter fun m => m.mine s && !m.kind.loads).length +
    (s.warp.deferred.filter fun d => d.op.mine s).length

/-- The first pending write that met an error (R164, R311). -/
def State.erred (s : State) : Option VPend := s.thread.vpend.find? (·.error.isSome)

/-- Pending writes of other words than loads that met an error: they have not landed (R129, R164). -/
def State.erredCount (s : State) : Nat := (s.thread.vpend.filter fun v => v.error.isSome && !v.mem).length

/-- A wait that ends the run: past the word when its condition holds, at the word until it does. -/
def State.waitFor (s : State) (done : Bool) (w : Wait) : State := if done then s.endRun else s.holdAt w

def execWaitL (a : BitVec 6) (s : State) :=
  accept .plain s fun s =>
    if 32 < a.toNat then .next s.illegal
    else
      let done := decide (s.pendingVl ≤ a.toNat)
      match s.erred with
      | some v => if done then .next (s.waitFor done (.latency a.toNat)) else .next (s.raiseErred v)
      | none => .next (s.waitFor done (.latency a.toNat))
def execWaitM (a : BitVec 6) (s : State) :=
  accept .plain s fun s =>
    let done := decide (s.unperformed + s.erredCount ≤ a.toNat)
    match s.erred with
    | some v => if done then .next (s.waitFor done (.memory a.toNat)) else .next (s.raiseErred v)
    | none => .next (s.waitFor done (.memory a.toNat))
/-- SLEEP: at least s[a] cycles from issue; 0 only ends the run. -/
def execSleep (a : BitVec 6) (s : State) :=
  accept .plain s fun s =>
    let n := ((s.sr a).setWidth 32).toNat
    .next (if n = 0 then s.endRun else (s.updPath fun p => { p with wait := .until (s.clk + n) }).endRun)

/-! ## Warp control and traps (R179, R180) -/

def execNop (s : State) := accept .plain s fun s => .next s
def execYield (s : State) :=
  accept .plain s fun s =>
    match s.cur.who with
    | .warp _ _ => .next (s.updPath fun p => { p with wait := .yield }).endRun
    | _ => .next s

def execBrk (t : BitVec 18) (s : State) :=
  accept .plain s fun s => .next (s.raise .breakpoint { lanes := s.active, info := t.setWidth 32 })
def execTrap (i : BitVec 20) (s : State) :=
  accept .plain s fun s => .next (s.raise .userTrap { lanes := s.active, info := i.setWidth 32 })

end Sys2Proof.Machine
end

