-- ==== Sys2Proof/Machine/MemCore.lean ====
section
/-! DEFINITION. How a memory word is performed (R83, R85, R129, R153 to R156): at the L1 on a hit, at the bay for the
words that bypass it, and after a slice has served its request; the slices' refusals and admissions (R308 to R312), the
HBM rows (R316), last-use (R71, R149) and a word's completion. -/

namespace Sys2Proof.Machine

/-! ## Operations on a memory word's bytes -/

/-- One atomic operation on 32 bits (R154): m's new value from its old one, the operand, and CAS's second operand. -/
def atomOp (op : Nat) (old v w : Word) : Word :=
  match op with
  | 0 => old + v
  | 1 => lImin old v
  | 2 => lImax old v
  | 3 => old &&& v
  | 4 => old ||| v
  | 5 => old ^^^ v
  | 6 => v
  | 7 => if old = v then w else old
  | 8 => lIminu old v
  | 9 => lImaxu old v
  | 10 => if v.ule old then 0#32 else old + 1#32
  | 11 => if old = 0#32 ∨ v.ult old then v else old - 1#32
  | 12 => lFadd .rne old v
  | 13 => lFmin old v
  | _ => lFmax old v

/-- The value an access leaves in memory, from the value it finds (R154, R156); code 15 is ADD64. -/
def Acc.apply (a : Acc) (op old : Nat) : Nat :=
  if op = 15 then (old + a.x) % 2 ^ 64
  else (atomOp op (BitVec.ofNat 32 old) (BitVec.ofNat 32 a.x) (BitVec.ofNat 32 a.y)).toNat

/-- The code in R154's order of a reduction's operator: ADD, MIN, MAX, FADD. -/
def redAtom (op : Nat) : Nat := if op = 3 then 12 else op

/-- A loaded value extended to its register's width (R144). -/
def extendLoad (signed : Bool) (size v : Nat) : Nat :=
  if signed then
    (if size = 1 then ((BitVec.ofNat 8 v).signExtend 32).toNat else ((BitVec.ofNat 16 v).signExtend 32).toNat)
  else v

/-- The accesses of a word in one line, and the others. -/
def MemOp.part (m : MemOp) (line : Nat) : List Acc := m.accs.filter fun a => decide (lineOf a.pa = line)
def MemOp.others (m : MemOp) (line : Nat) : List Acc := m.accs.filter fun a => decide (lineOf a.pa ≠ line)

/-- The distinct lines of some addresses, ascending (R83). -/
def linesOf (pas : List Nat) : List Nat :=
  sortBy (fun a b => decide (a < b)) (pas.foldl (fun acc p => if acc.contains (lineOf p) then acc else acc ++ [lineOf p]) [])

/-- The sectors that some accesses touch in their line. -/
def sectorMask (l : List Acc) : BitVec 4 := l.foldl (fun m a => m ||| sectorsOf (a.pa % 128) a.size) 0#4

/-- Is the sector of an access marked uncorrectable (R164)? -/
def Column.isBad (x : Column) (a : Acc) : Bool := x.badSectors.contains (a.pa / 32)

/-- The bytes that stores write in a line, as a mask. -/
def storeMask (l : List Acc) : BitVec 128 :=
  l.foldl (fun m a => m ||| ((BitVec.ofNat 128 (2 ^ a.size - 1)) <<< (a.pa % 128))) 0#128

/-- Store bytes written at the home, and the marks cleared of the sectors they cover whole (R164). -/
def Column.storeHome (x : Column) (line : Nat) (l : List Acc) : Column :=
  (l.foldl (fun x a => x.putBytes a.pa (bytesOf a.size a.x)) x).clearMarks line (storeMask l)

/-! ## At the L1 -/

/-- The sectors of a line that carry an uncorrectable mark. -/
def Column.badOf (x : Column) (line : Nat) : BitVec 4 :=
  (List.range 4).foldl (fun m i => if x.badSectors.contains (4 * line + i) then m ||| (1#4 <<< i) else m) 0#4

/-- The sectors of a line that a word asks for: those it touches, or all for a prefetch. -/
def MemOp.sectors (m : MemOp) (line : Nat) : BitVec 4 := if m.kind = .prefetch then 15#4 else sectorMask (m.part line)

/-- The lanes whose data lies in a marked sector. -/
def Column.badLanes (x : Column) (l : List Acc) : Lanes := l.foldl (fun b a => if x.isBad a then b ||| (1#32 <<< a.lane) else b) 0#32

/-- The part of a word in a line performed at its L1 (R85): loads read, stores merge; bytes of a sector marked
uncorrectable are never read, though the L1 holds a good copy (log 125, DESIGN CHOICE), and a store to them goes to the bay. A hit sets V to 0, and
a store miss leaves it 2. -/
def Column.performL1 (x : Column) (m : MemOp) (line : Nat) (hit : Bool) : Column × MemOp :=
  let go := m.part line
  let m' := { m with accs := m.others line }
  let k := x.l1Find m.cache line
  let l := match k with | some k => x.l1Line k | none => {}
  let keep (l : CacheLine) : Column :=
    match k with
    | some k => x.setL1 k { l with ep := m.ep, region := m.ctx }
    | none => x
  match m.kind with
  | .load signed =>
    let ok := go.filter fun a => !x.isBad a
    (keep (if hit then { l with v := 0 } else l),
     { m' with got := m.got ++ ok.map fun a => (a.lane, extendLoad signed a.size (natOfBytes (l.bytes (a.pa % 128) a.size)))
               bad := m.bad ||| x.badLanes go })
  | .scalarLoad =>
    (keep (if hit then { l with v := 0 } else l),
     { m' with got := m.got ++ go.map fun a => (a.lane, natOfBytes (l.bytes (a.pa % 128) a.size)), bad := m.bad ||| x.badLanes go })
  | .store =>
    let ok := go.filter fun a => !x.isBad a
    let l := ok.foldl (fun (l : CacheLine) a => l.mergeBytes (a.pa % 128) (bytesOf a.size a.x)) l
    ((keep (if hit then l else { l with v := 2 })).storeHome line (go.filter fun a => x.isBad a), m')
  | _ => (x, m')

/-- A partial begun, or continued, for a reduction in an L1 (R61, R155), and its lanes' operands combined in. R85 gives no V for a line in
U: the model leaves it 0, as after a hit (log 98, DESIGN CHOICE). -/
def Column.performRed (x : Column) (m : MemOp) (op line : Nat) : Column × MemOp :=
  let go := m.part line
  let m' := { m with accs := m.others line }
  let fresh : CacheLine :=
    { line := line, u := some op
      data := (List.range 32).foldl (fun d _ => (d <<< 32) ||| (redStart op).setWidth 1024) 0#1024 }
  let (x, k, l) : Column × Nat × CacheLine :=
    match x.l1Find m.cache line with
    | some k =>
      if (x.l1Line k).u = some op then (x, k, x.l1Line k)
      else (x.evictL1 k, k, fresh)
    | none =>
      let (x, k) := Column.l1Victim 5 x m.cache (l1Set m.cache line)
      (x.evictL1 k, k, fresh)
  let l := go.foldl (fun (l : CacheLine) a =>
    let i := a.pa % 128 / 4
    l.mergeBytes (4 * i) (bytesOf 4 (redCombine op (lineWord l.data i) (BitVec.ofNat 32 a.x)).toNat)) l
  (x.setL1 k { l with ep := m.ep, region := m.ctx }, m')

/-! ## At the bay -/

/-- Does an engine's claim make an access wait: the line, or the backing of a window line, owned in its context (R59,
R220, R242)? -/
def Column.claimed (x : Column) (region line : Nat) : Bool :=
  let lines : List Nat :=
    match x.bay.kindOf region (128 * line) with
    | .aliased n =>
      line :: (x.bay.backingLines n (x.bay.aliasElem n (128 * line)) ++ x.bay.backingLines n (x.bay.aliasElem n (128 * line + 64)))
    | _ => [line]
  lines.any (x.bay.owned region)

/-- The backing lines of a window line (R216). -/
def Column.backOf (x : Column) (n line : Nat) : List Nat :=
  x.bay.backingLines n (x.bay.aliasElem n (128 * line)) ++ x.bay.backingLines n (x.bay.aliasElem n (128 * line + 64))

/-- Does a window read meet an uncorrectable mark: on the scale or a code of an element that it reads (R164, R218)? -/
def Column.aliasBad (x : Column) (n : Nat) (a : Acc) : Bool :=
  (List.range a.size).any fun i =>
    let e := x.bay.aliasElem n (a.pa + i)
    x.badSectors.contains ((x.bay.aliasAddr n + mxScaleOff (x.bay.aliasFmt n) e) / 32) ||
      x.badSectors.contains ((x.bay.aliasAddr n + mxElemOff (x.bay.aliasFmt n) e) / 32)

/-- The part of a word in a line performed at the bay, past the L1: every U copy is recalled and the L1 writes back and drops its copy
first, of the line and, for a window line, of its backing (R54, R61, R153, R156, R218, R219, R220). -/
def Column.performBay (x : Column) (free : Nat) (m : MemOp) (line : Nat) : Column × MemOp :=
  let go := m.part line
  let m' := { m with accs := m.others line }
  let settle (x : Column) (ln : Nat) : Column := (x.recallU free ln).settleLine free m.cache ln
  let x := settle x line
  match x.bay.kindOf m.ctx (128 * line) with
  | .aliased n =>
    let x := (x.backOf n line).foldl settle x
    match m.kind with
    | .load signed =>
      (x, { m' with got := m.got ++ go.map fun a => (a.lane, extendLoad signed a.size (natOfBytes (x.aliasRead free n a.pa a.size)))
                    bad := (go.filter (x.aliasBad n)).foldl (fun b a => b ||| (1#32 <<< a.lane)) m.bad })
    | .scalarLoad =>
      (x, { m' with got := m.got ++ go.map fun a => (a.lane, natOfBytes (x.aliasRead free n a.pa a.size))
                    bad := (go.filter (x.aliasBad n)).foldl (fun b a => b ||| (1#32 <<< a.lane)) m.bad })
    | .store =>
      (x.aliasWrite free n (go.flatMap fun a => (bytesOf a.size a.x).zip (List.range a.size) |>.map fun p => (a.pa + p.2, p.1)), m')
    | _ => (x, m')
  | _ =>
    let one (acc : Column × MemOp) (op : Nat) (ret : Bool) (a : Acc) : Column × MemOp :=
      let (x, m) := acc
      if x.isBad a ∧ ret then (x, { m with bad := m.bad ||| (1#32 <<< a.lane) })
      else
        let old := natOfBytes (x.bytesAt free a.pa a.size)
        let x := x.storeHome line [{ a with x := a.apply op old }]
        (x, if ret then { m with got := m.got ++ [(a.lane, old)] } else m)
    match m.kind with
    | .atom op => go.foldl (fun acc a => one acc op true a) (x, m')
    | .redBay op => go.foldl (fun acc a => one acc (redAtom op) false a) (x, m')
    | .red op => go.foldl (fun acc a => one acc (redAtom op) false a) (x, m')
    | .store => (x.storeHome line go, m')
    | .load signed =>
      (x, { m' with got := m.got ++ go.map fun a => (a.lane, extendLoad signed a.size (natOfBytes (x.bytesAt free a.pa a.size))) })
    | _ => (x, m')

/-! ## Last use (R71, R149) -/

/-- A line dropped by last-use: the L1's copy with its dirty bytes and what it has sent of them, and the bay's without write-back; its
bytes are undefined from then on. Carve-out and the host tier are left alone. -/
def Column.lastUse (x : Column) (cache line : Nat) : Column :=
  if 0x100000000 ≤ 128 * line then x
  else
    let x :=
      match x.l1Find cache line with
      | some k => x.setL1 k {}
      | none => x
    let x := (x.puts cache line).foldl (fun x r => x.updBay (·.removeReq r)) x
    let held := (x.bay.holder line).isSome
    { x with bay := if held then (x.bay.drop line).bump 0 54 1 else x.bay, undefined := Tab.put x.undefined line (BitVec.allOnes 128) }

/-! ## Completion -/

/-- Word i of the values a word has collected, in every lane. -/
def MemOp.result (m : MemOp) (i : Nat) : Vec :=
  vecOf fun l =>
    match m.got.find? fun g => g.1 == l with
    | some g => BitVec.ofNat 32 (g.2 >>> (32 * i))
    | none => 0#32

/-- The writes that a performed word's destination takes: every lane at once (R82). -/
def MemOp.writes (m : MemOp) : List Write :=
  match m.kind with
  | .scalarLoad => m.dest.map fun r => .s m.path r (BitVec.ofNat 64 (((m.got.head?).map Prod.snd).getD 0))
  | _ => (m.dest.zip (List.range m.dest.length)).map fun e => .v e.1 m.lanes (m.result e.2)

/-- The acquire of an agent's L1 at a scope, and of the bay's clean host-tier lines from host scope on (R31, R150). -/
def Column.acquireAt (x : Column) (cache scope : Nat) : Column :=
  let x := if 4 ≤ scope then x.acquireL1 cache else x
  if 8 ≤ scope then
    { x with bay := { x.bay with slices := Tab.mapVals (fun _ (sl : Slice) =>
        { sl with lines := Tab.keep (fun _ t => decide (128 * t.line < 0x300000000) || t.dirty) sl.lines }) x.bay.slices } }
  else x

/-- The scope at which an operation of a warp slot is performed: warp and group scope are promoted to column while a
lane is out (R52); core scope, while a lane of the core's warps is out, since a gleaner's L1 is not the core's (R31; log 99, DEDUCED). -/
def Column.effScope (x : Column) (n scope : Nat) : Nat :=
  if (scope = 1 ∨ scope = 2) ∧ x.lanesOut n ≠ 0#32 then 4
  else if scope = 3 ∧ x.ctxs.any (·.2.live) then 4 else scope

/-- The warp slot of an agent: its own, or the owner of its lane context. -/
def Column.slotOf (x : Column) : Who → Nat
  | .warp n _ => n
  | .lane i => (x.ctx i).slot
  | _ => 64

/-- The holds of an agent. -/
def Column.holds (x : Column) : Who → List Hold
  | .warp n _ => (x.warp n).holds
  | .lane i => (x.ctx i).holds
  | .tinker => x.tinker.holds
  | .factor _ => []
/-- An agent's holds replaced. -/
def Column.setHolds (x : Column) (w : Who) (h : List Hold) : Column :=
  match w with
  | .warp n _ => x.setWarp n { x.warp n with holds := h }
  | .lane i => x.setCtx i { x.ctx i with holds := h }
  | .tinker => { x with tinker := { x.tinker with holds := h } }
  | .factor _ => x

/-- The pointer that the lowest of some lanes of a word formed (R346). -/
def MemOp.pointer (m : MemOp) (lanes : Lanes) : Dword := ((m.ptrs.find? fun p => lanes.getLsbD p.1).map Prod.snd).getD 0#64

/-- The agent that issued a word, without its PC slot. -/
def Who.base : Who → Who
  | .warp n _ => .warp n false
  | w => w

/-- A performed word: its pending write gets its values, or the error that its first reader will meet (R164); the
acquire of LD.ACQ is made (R150); the word leaves the column's list. -/
def State.complete (s : State) (c : Nat) (m : MemOp) : State :=
  let t := s.threadOf c m.who
  let slotB := match m.who with | .warp _ b => b | _ => false
  let t := { t with vpend := t.vpend.map fun v =>
    if m.vid ≠ 0 ∧ v.id = m.vid then
      (if m.bad = 0#32 then { v with value := some m.writes }
       else { v with error := some (.memoryUe, m.bad, m.pkt, m.wpos, slotB), addr := m.pointer m.bad })
    else v }
  let s := if m.vid = 0 then s else s.setThreadOf c m.who t
  s.updCol c fun x =>
    let x := { x with mops := x.mops.filter fun q => decide (q.id ≠ m.id) }
    match m.acquire with
    | some sc =>
      let x := x.acquireAt m.who.cache (x.effScope (x.slotOf m.who) sc)
      x.setHolds m.who ((x.holds m.who).filter fun h => match h with | .acquire id _ => decide (id ≠ m.id) | _ => true)
    | none => x

/-- A memory word after a part of it has been performed: kept with what is left, or complete. -/
def State.afterPart (s : State) (c : Nat) (m : MemOp) : State :=
  if m.accs.isEmpty then s.complete c m
  else s.updCol c fun x => { x with mops := x.mops.map fun q => if q.id = m.id then m else q }

/-! ## Requests to the slices (R308 to R312, R316) -/

/-- The bytes at the home that an access of a context stands for: its own; of the window, the scale and the elements of each block that it
touches (R216, R220). -/
def Column.homeOf (x : Column) (ctx : Nat) (a : Acc) : List (Nat × Nat) :=
  match x.bay.kindOf ctx a.pa with
  | .aliased n =>
    let f := x.bay.aliasFmt n
    ((List.range a.size).map fun i => x.bay.aliasElem n (a.pa + i) / 32 * 32).eraseDups.flatMap fun e =>
      [(x.bay.aliasAddr n + mxScaleOff f e, 1), (x.bay.aliasAddr n + mxElemOff f e, if f = 2 then 16 else 32)]
  | _ => [(a.pa, a.size)]

/-- Do two accesses of one agent meet in a byte (R54)? The lanes of a warp are agents of their own; a scalar word belongs to each (R51). -/
def Column.meets (x : Column) (m q : MemOp) (a b : Acc) : Bool :=
  (m.scalar || q.scalar || decide (a.lane = b.lane)) &&
    (x.homeOf m.ctx a).any fun p => (x.homeOf q.ctx b).any fun r => decide (p.1 < r.1 + r.2) && decide (r.1 < p.1 + p.2)

/-- Is an earlier word of the same agent still to be performed on a byte of a word's part in a line (R54)? Accesses to different bytes may be
performed in any order (R51). -/
def Column.waitsTurn (x : Column) (m : MemOp) (line : Nat) : Bool :=
  x.mops.any fun q => decide (q.id < m.id) && decide (q.who.base = m.who.base) &&
    (m.part line).any fun a => q.accs.any fun b => x.meets m q a b

/-- The memory word of a request. -/
def Column.mopOf (x : Column) (r : Req) : Option MemOp := x.mops.find? fun m => decide (m.id = r.op)

/-- May a request be presented now: it waits for no timer, no earlier word, no earlier write-back of its line and, but for an engine's, no claim
(R242)? -/
def Column.requestReady (x : Column) (clk : Nat) (r : Req) : Bool :=
  !r.held && !r.admitted && !r.atL1 && decide (r.due ≤ clk) && (r.eng.isSome || !x.claimed r.region r.line) &&
    (match x.mopOf r with
     | some m => !x.waitsTurn m r.line
     | none => true) &&
    !(r.put.isSome && (x.puts r.cache r.line).any fun q => decide (q.id < r.id))

/-- The cycles until a line in flight in a slice is expected to land there: a fill or a write-back of the channel, or of the host link. -/
def Bay.landing (b : Bay) (clk sl region line : Nat) : Option Nat :=
  match b.flights.find? fun f => decide (f.slice = sl) && decide (f.line = line) with
  | some f => some (f.lands - clk)
  | none =>
    if b.writeQ.contains (sl, line) then some 28
    else if b.hostOut.any fun h => decide (h.1 = line) && decide (b.sliceOf region (128 * line) = sl) then some (Config.hostCycles line)
    else none

/-- Is a range owned by an engine command (R242)? -/
def Bay.claimedRange (b : Bay) (base size : Nat) : Bool :=
  b.claims.any fun k => k.lines.any fun r => decide (128 * r.1 < base + size) && decide (base < 128 * (r.1 + r.2))

/-- Is an address of a column in a frame under migration (R357)? An engine meets the mark once no claim on the frame stands, which the
migration waits for: the commands that hold the claims, and those that they wait for, go on till then (log 134, DEDUCED). -/
def Bay.underMark (b : Bay) (pa : Nat) (engine : Bool) : Bool :=
  b.migrating.any fun f => decide (f.1 ≤ pa) && decide (pa < f.1 + f.2) && !(engine && b.claimedRange f.1 f.2)

/-- The hint with which a slice refuses a request, if it refuses it (R312). A commit (R62) and a requantization (R220) are each one step of
the model, so nothing meets them half done (log 100, DEDUCED); a write-back to a migrating page belongs to its recall (R357). -/
def Bay.refusal (b : Bay) (clk : Nat) (r : Req) : Option Nat :=
  if r.put.isNone ∧ b.underMark (128 * r.line) r.eng.isSome = true then some 2
  else if b.modeTo.isSome ∨ b.failing.getLsbD (b.sliceFor r / 2) then some 8
  else if r.reserved ∧ ¬ r.slotKept then some 1
  else
    match b.landing clk (b.sliceFor r) r.region r.line with
    | some d => if r.reserved then none else some (min 63 ((d + 7) / 8))
    | none => if ¬ r.reserved ∧ 16 ≤ b.occupied (b.sliceFor r) then some 1 else none

/-- A refusal (R312): counted, its timer set, and, from the eighth in a row on, one of the slice's four reservations
given when one is free. -/
def Bay.refuse (b : Bay) (clk hint : Nat) (r : Req) : Bay :=
  let b := (b.bump r.region 48 1).bump r.region 49 (8 * hint)
  let taken := (b.reqs.filter fun q => q.reserved && decide (b.sliceFor q = b.sliceFor r)).length
  b.setReq { r with refused := r.refused + 1, due := clk + 8 * hint, held := true,
                    reserved := r.reserved || (decide (8 ≤ r.refused + 1) && decide (taken < 4)) }

/-- The credits of a region entry at a slice (R310): its weight until it has spent some. -/
def Bay.creditOf (b : Bay) (sl n : Nat) : Nat := (Tab.find? (b.slice sl).credits n).getD (regField (b.entry n).ctl 3 0)

/-- The requests that a slice could admit in a cycle. -/
def Column.waitingAt (x : Column) (clk sl : Nat) : List Req :=
  x.bay.reqs.filter fun r => decide (x.bay.sliceFor r = sl) && x.requestReady clk r && (x.bay.refusal clk r).isNone

/-- One credit of a region entry taken, among the entries that wait at a slice (R310): the entry with the most credits, the lower number on
a tie; when all are spent they are reloaded. -/
def Bay.takeTurn (b : Bay) (sl : Nat) (es : List Nat) : Option (Nat × Bay) :=
  let b :=
    if es.all fun n => decide (b.creditOf sl n = 0) then
      b.setSlice sl { b.slice sl with credits := es.foldl (fun c n => Tab.put c n (regField (b.entry n).ctl 3 0)) (b.slice sl).credits }
    else b
  match es.foldl (fun best n =>
      match best with
      | none => some n
      | some m => if b.creditOf sl m < b.creditOf sl n then some n else best) none with
  | none => none
  | some n => some (n, b.setSlice sl { b.slice sl with credits := Tab.put (b.slice sl).credits n (b.creditOf sl n - 1) })

/-- The entries that some requests belong to. -/
def Bay.entriesOf (b : Bay) (rs : List Req) : List Nat := (List.range 16).filter fun n => rs.any fun r => decide (b.entryOf r.region = n)

/-- The request that a slice admits, with the bay whose credits it has spent: a reserved one with its slot first (R312), else the oldest
of the region whose turn it is (R310). -/
def Column.admitFrom (x : Column) (clk sl : Nat) : Option (Nat × Bay) :=
  let rs := x.waitingAt clk sl
  match rs.find? (·.slotKept) with
  | some r => some (r.id, x.bay)
  | none =>
    match x.bay.takeTurn sl (x.bay.entriesOf rs) with
    | none => none
    | some (n, b) => (rs.find? fun r => decide (x.bay.entryOf r.region = n)).map fun r => (r.id, b)

/-- The row of an HBM line and its segment (R316). -/
def rowOf (line : Nat) : Nat := line / 8
def segOf (line : Nat) : BitVec 8 := 1#8 <<< (line % 8)

/-- A request to the channel (R316): the cycles an activate or a supplementary activate costs it, each counted, and the
row open with the segments that pending requests and write-backs name; an activate closes the other row of its bank. -/
def Bay.openRow (b : Bay) (line : Nat) : Nat × Bay :=
  let row := rowOf line
  match Tab.find? b.rows row with
  | some m =>
    if m &&& segOf line ≠ 0#8 then (0, b)
    else (10, { b.bump 0 52 1 with rows := Tab.put b.rows row (m ||| segOf line) })
  | none =>
    let named := b.flights.map (·.line) ++ b.writeQ.map Prod.snd
    let pending := (named.filter fun l => decide (rowOf l = row)).foldl (fun m l => m ||| segOf l) (segOf line)
    let same (r : Nat) : Bool := decide (Config.bankOf (1024 * r) = Config.bankOf (1024 * row))
    let pre := if b.rows.any fun r => same r.1 then 14 else 0
    (28 + pre, { b.bump 0 51 1 with rows := Tab.put (Tab.keep (fun r _ => !same r) b.rows) row (if b.ctl.getLsbD 8 then 0xFF#8 else pending) })

/-- Rows that no pending request addresses precharged (R316). -/
def Bay.closeRows (b : Bay) : Bay :=
  { b with rows := Tab.keep (fun row _ => b.flights.any (fun f => decide (rowOf f.line = row)) || b.writeQ.any fun w => decide (rowOf w.2 = row)) b.rows }

/-- The dirty lines that wait for the channel put to it (R316). -/
def Bay.startWrites (b : Bay) (clk : Nat) : Bay :=
  b.writeQ.foldl (fun (b : Bay) w =>
    let (d, b) := b.openRow w.2
    { b with flights := b.flights ++ [{ slice := w.1, line := w.2, lands := clk + d, wb := true }], writeQ := b.writeQ.filter (· ≠ w) }) b

/-- Is the part of a word in a line performed at the bay: a word that bypasses the L1, a window line (R220), or a
reduction outside the HBM share (R155)? -/
def Column.bypasses (x : Column) (m : MemOp) (line : Nat) : Bool :=
  m.bypass ||
    match x.bay.kindOf m.ctx (128 * line) with
    | .hbm => false
    | .aliased _ => true
    | _ => match m.kind with | .red _ => true | _ => false

/-- Does a request write at the bay: a line written back, an engine's write, or the part of a word that bypasses the L1? -/
def Column.writesBay (x : Column) (r : Req) : Bool :=
  r.put.isSome || (r.eng.any fun f => decide (f.type = 2)) ||
    match x.mopOf r with
    | some m => x.bypasses m r.line && (match m.kind with | .load _ => false | .scalarLoad => false | .prefetch => false | _ => true)
    | none => false

/-! ## A store's bytes as one step (R50) -/

/-- The sectors of a line that a word can have in an L1: those it asks for, without the marked ones. -/
def MemOp.wanted (m : MemOp) (x : Column) (line : Nat) : BitVec 4 := m.sectors line &&& ~~~x.badOf line

/-- The lines of a word that go through its L1. -/
def MemOp.cachedLines (m : MemOp) (x : Column) : List Nat := (linesOf (m.accs.map (·.pa))).filter fun l => !x.bypasses m l

/-- The eviction priority that an access leaves with a line: of the window's, none (R149, R220). -/
def Bay.epOf (b : Bay) (ctx line ep : Nat) : Nat :=
  match b.kindOf ctx (128 * line) with
  | .aliased _ => 0
  | _ => ep

/-- The request of a word for sectors of a line, presented from a cycle on. -/
def Column.request (x : Column) (m : MemOp) (line due : Nat) (sectors : BitVec 4) : Req :=
  { id := 0, cache := m.cache, line := line, sectors := sectors, op := m.id, who := m.who, region := m.ctx, ctx := m.ctx
    ep := x.bay.epOf m.ctx line m.ep, rd := m.rd, due := due, missed := true }

/-- Sectors of a line asked of the bay for a word. -/
def Column.askBay (x : Column) (m : MemOp) (line due : Nat) (sectors : BitVec 4) : Column := x.updBay (·.post (x.request m line due sectors))

/-- A line that a word holds in its L1: the last-use of the access follows it. -/
def Column.performHeld (x : Column) (m : MemOp) (line : Nat) (hit : Bool) : Column × MemOp :=
  let r := x.performL1 m line hit
  (if m.lu then r.1.lastUse m.cache line else r.1, r.2)

/-- A store one more of whose lines its L1 has brought or held: once all have come its bytes merge in one step (R50). A line that the L1
has lost meanwhile is brought again there and then, or, where an engine command owns it now, asked for once more (R242). -/
def State.storeLine (s : State) (c : Nat) (m : MemOp) (line : Nat) (hit : Bool) : State :=
  let x := s.col c
  let m := { m with fetched := m.fetched ++ [(line, hit)] }
  if (m.cachedLines x).all fun l => m.fetched.any fun e => e.1 == l then
    let lost := m.fetched.filter fun e => !x.l1Has m.cache e.1 (m.wanted x e.1) && x.claimed m.ctx e.1
    if lost.isEmpty then
      let (x, m) := m.fetched.foldl (fun (acc : Column × MemOp) e =>
        let (x, m) := acc
        let want := m.wanted x e.1
        let x := if x.l1Has m.cache e.1 want then x else (x.recallU s.free e.1).fillL1 s.free m.cache e.1 want 2 m.ep m.ctx
        x.performHeld m e.1 e.2) (x, m)
      (s.setCol c x).afterPart c { m with fetched := [] }
    else
      let x := lost.foldl (fun x e => x.askBay m e.1 s.clk (m.wanted x e.1)) x
      (s.setCol c x).afterPart c { m with fetched := m.fetched.filter fun e => !lost.contains e }
  else s.afterPart c m

/-! ## Issuing a memory word -/

/-- The cycle in which an L1's port takes the next line of a word, and the column after it (R83). -/
def Column.takePort (x : Column) (cache clk : Nat) : Nat × Column :=
  let p := max clk (Tab.get 0 x.l1Port cache)
  (p, { x with l1Port := Tab.put x.l1Port cache (p + 1) })

/-- The sectors of a line that a cache holds, readable. -/
def Column.l1Valid (x : Column) (cache line : Nat) : BitVec 4 :=
  match x.l1Find cache line with
  | some k => if (x.l1Line k).u.isSome then 0#4 else (x.l1Line k).valid
  | none => 0#4

/-- The sectors of a line that are on their way to a cache. -/
def Column.l1Asked (x : Column) (cache line : Nat) : BitVec 4 :=
  (x.bay.reqs.filter fun r => decide (r.cache = cache) && decide (r.line = line) && r.put.isNone && r.eng.isNone && !r.atL1 &&
    (x.mopOf r).any fun m => !x.bypasses m line).foldl (fun a r => a ||| r.sectors) 0#4

/-- Can the part of a word in a line be performed at once: an L1 hit that no earlier word of its agent waits before? -/
def Column.hitsNow (x : Column) (m : MemOp) (line : Nat) : Bool :=
  !x.bypasses m line && x.l1Has m.cache line (m.sectors line) && !x.waitsTurn m line

/-- The part of a word in a line performed at its L1, which has what it needs (R83, R85, R155): a reduction combined into the agent's U copy, a
store's line noted or its bytes merged, and any other access as `performL1` says. -/
def State.useL1 (s : State) (c : Nat) (m : MemOp) (line : Nat) (hit : Bool) : State :=
  let x := s.col c
  match m.kind with
  | .red op =>
    let r := x.performRed m op line
    (s.setCol c (if m.lu then r.1.lastUse m.cache line else r.1)).afterPart c r.2
  | .store => s.storeLine c m line hit
  | _ =>
    let r := x.performHeld m line hit
    (s.setCol c r.1).afterPart c r.2

/-- The sectors of a line that a word has still to see in its L1. `missed` says that it has asked for them before: a sector marked uncorrectable
does not come. -/
def Column.l1Lacks (x : Column) (m : MemOp) (line : Nat) (missed : Bool) : BitVec 4 :=
  match m.kind with
  | .red _ => 0#4
  | _ => (if missed then m.wanted x line else m.sectors line) &&& ~~~x.l1Valid m.cache line

/-- Does a word wait at its L1: for an earlier word of its agent (R54), or for sectors that are all on their way (log 120, DEDUCED)? -/
def Column.l1Waits (x : Column) (m : MemOp) (line : Nat) (missed : Bool) : Bool :=
  x.waitsTurn m line || (decide (x.l1Lacks m line missed ≠ 0#4) && decide (x.l1Lacks m line missed &&& ~~~x.l1Asked m.cache line = 0#4))

/-- The part of a word in a line at its L1: it waits there, or is performed, or asks the bay for the sectors that are missing (R83, R85). -/
def State.atL1 (s : State) (c : Nat) (m : MemOp) (line due : Nat) (missed : Bool) : State :=
  let x := s.col c
  if x.l1Waits m line missed then s.setCol c (x.updBay (·.post { x.request m line due 0#4 with atL1 := true, missed := missed }))
  else if x.l1Lacks m line missed = 0#4 then s.useL1 c m line (!missed)
  else s.setCol c (x.askBay m line due (x.l1Lacks m line missed &&& ~~~x.l1Asked m.cache line))

/-- Does a memory word write memory? -/
def MemKind.writes : MemKind → Bool
  | .store => true
  | .atom _ => true
  | .redBay _ => true
  | .red _ => true
  | _ => false

/-- The lines that an ejected lane writes noted in its context (R196). -/
def Column.noteWrites (x : Column) (m : MemOp) : Column :=
  match m.who with
  | .lane i =>
    if m.kind.writes then
      let k := x.ctx i
      x.setCtx i { k with wrote := k.wrote ++ (linesOf (m.accs.map (·.pa))).filter fun l => !k.wrote.contains l }
    else x
  | _ => x

/-- A memory word begun (R83): line by line in ascending address, one in a cycle at the L1's port; a part that bypasses the L1 is asked of the
bay, and the others go to the L1. -/
def State.startOp (s : State) (c : Nat) (m : MemOp) : State :=
  let s := s.updCol c fun x => { x.noteWrites m with mops := x.mops ++ [m] }
  if m.accs.isEmpty then s.complete c m
  else
    (linesOf (m.accs.map (·.pa))).foldl (fun s line =>
      let (due, x) := (s.col c).takePort m.cache s.clk
      match x.mops.find? fun q => decide (q.id = m.id) with
      | none => s
      | some m => if x.bypasses m line then s.setCol c (x.askBay m line due (m.sectors line)) else (s.setCol c x).atL1 c m line due false) s

end Sys2Proof.Machine
end

