-- ==== Sys2Proof/Machine/Order.lean ====
section
/-! DEFINITION. Releases, acquires and the operations that hold an agent's later words (R31, R52, R85, R150, R151), and
the deferred queue of a deterministic launch (R158, R341, R342). -/

namespace Sys2Proof.Machine

/-! ## The commit token and the deferred queue -/

/-- Is the issuing launch deterministic (R340)? -/
def State.isDet (s : State) : Bool := s.launch.det

/-- Does a warp slot hold its column's commit token (R341)? -/
def State.holdsToken (s : State) (c n : Nat) : Bool :=
  let w := (s.col c).warp n
  let g := (s.col c).group w.entry
  w.live && decide (Tab.find? (s.node g.launch).launch.tokens c = some (g.gid, w.index))

/-- The deferred words at the head of a warp slot's queue begun, each after the one before it has been performed (R342); at most as many as the
number says. -/
def State.runDeferred : Nat → State → Nat → Nat → State
  | 0, s, _, _ => s
  | fuel + 1, s, c, n =>
    let w := (s.col c).warp n
    match w.deferred with
    | [] => s
    | d :: ds =>
      let s := if d.begun then s else (s.setCol c ((s.col c).setWarp n { w with deferred := { d with begun := true } :: ds })).startOp c d.op
      if (s.col c).mops.any fun m => decide (m.id = d.op.id) then s
      else State.runDeferred fuel (s.updCol c fun x => x.setWarp n { x.warp n with deferred := (x.warp n).deferred.tail }) c n

/-- The deferred words of a warp slot performed in program order, while it holds the token (R342), or once its launch is deterministic no
more (R324). -/
def State.performDeferred (s : State) (c n : Nat) : State :=
  let w := (s.col c).warp n
  if w.deferred.isEmpty then s
  else if s.holdsToken c n ∨ ¬ (s.node ((s.col c).group w.entry).launch).launch.det then s.runDeferred w.deferred.length c n
  else s

/-- The next holder after a warp, in the order of group id and then warp index, wrapping; only groups placed on the
column, without the warps that have ended (R341). -/
def Launch.nextHolder (l : Launch) (c gid warp : Nat) : Option (Nat × Nat) :=
  let mine := l.groups.filter fun e => (l.map.getD e.2.gcol 0) == c
  let all := mine.flatMap fun e =>
    (if e.2.place = .ended then [] else (List.range l.task.warps).filter fun i => !e.2.endedWarps.contains i).map fun i => (e.1, i)
  match all.find? fun p => decide (gid < p.1) || (decide (p.1 = gid) && decide (warp < p.2)) with
  | some p => some p
  | none => all.head?

/-- The slot of a launch's warp on a column, if its group is resident there. -/
def Column.slotNamed (x : Column) (launch gid warp : Nat) : Option Nat :=
  (List.range 64).find? fun n =>
    let w := x.warp n
    w.live && decide (w.index = warp) && decide ((x.group w.entry).launch = launch) && decide ((x.group w.entry).gid = gid)

/-- The token of a column moved on from a warp that holds it, once every word of its deferred queue has been performed (R341); the next
holder's deferred words are performed if it is resident (R342). -/
def State.passToken (s : State) (c n : Nat) : State :=
  let s := s.performDeferred c n
  if s.holdsToken c n ∧ ((s.col c).warp n).deferred.isEmpty then
    let w := (s.col c).warp n
    let g := (s.col c).group w.entry
    let nd := s.node g.launch
    match nd.launch.nextHolder c g.gid w.index with
    | some p =>
      let s := s.setNode g.launch { nd with launch := { nd.launch with tokens := Tab.put nd.launch.tokens c p } }
      match (s.col c).slotNamed g.launch p.1 p.2 with
      | some k => s.performDeferred c k
      | none => s
    | none => s.setNode g.launch { nd with launch := { nd.launch with tokens := Tab.erase nd.launch.tokens c } }
  else s

/-! ## Release and acquire (R31) -/

/-- Dirty host-tier lines handed to the host link (R31, R311). -/
def Bay.postWriteBacks (b : Bay) : Bay :=
  let dirty := (List.range 16).flatMap fun sl =>
    ((b.slice sl).lines.filter fun e => hostLine e.2.line && e.2.dirty).map fun e => (e.2.line, true, e.2.region)
  { b with
    hostOut := b.hostOut ++ dirty
    slices := Tab.mapVals (fun _ (sl : Slice) =>
      { sl with lines := Tab.mapVals (fun _ t => if hostLine t.line then { t with dirty := false } else t) sl.lines }) b.slices }

/-- Has every earlier memory word of the issuing agent been performed, the deferred ones among them? -/
def State.quiet (s : State) : Bool :=
  !(s.here.mops.any (·.mine s)) && !(s.warp.deferred.any fun d => d.op.mine s)

/-- Is a copy, gather or MSTR command of a warp slot still to complete (R31, R151)? A cancelled command of a group that has left names
slot 64, which no warp has. -/
def Column.crossing (x : Column) (n : Nat) : Bool :=
  decide (n < 64) && x.cmds.any fun k => decide (k.slot = n) && decide (k.st ≠ .completed) &&
    (decide (k.kind = .copy) || decide (k.kind = .gath) || decide (k.kind = .scat) || decide (k.kind = .mstr))

/-- The columns whose bays an agent's writes may stand in: its own, and those that its launch's engine commands reach (R31, R361). -/
def State.bays (s : State) : List Nat := (s.cur.col :: (s.launch.map ++ s.launch.lostCols.map Prod.snd)).eraseDups

/-- Are write-backs of those bays with their host links? -/
def State.hostBusy (s : State) : Bool := s.bays.any fun c => (s.col c).bay.hostOut.any fun h => h.2.1

/-- The last part of a release at host scope and wider (R31): the dirty host-tier lines of every bay that the agent's writes may stand in
handed to the host links, which are to acknowledge them. -/
def State.releaseHost (s : State) : Option Wait × State :=
  let s := s.bays.foldl (fun (s : State) c => s.updCol c fun x => x.updBay Bay.postWriteBacks) s
  if s.hostBusy then (some .hosted, s) else (none, s)

/-- A release by the issuing agent at a scope, begun, or gone on with from the wait that it stands in: what it waits for next, nothing
when it is complete, and the state it leaves (R31, R85, R151). It waits for the agent's earlier words, and from gang scope for the warp's
exchange and crossings; then, from column scope, for the L1's dirty bytes and partials to reach the bay, and from host scope for the
acknowledgement of the host-tier lines. -/
def State.releaseFrom (s : State) (at_ : Wait) (scope : Nat) : Option Wait × State :=
  let sc := s.here.effScope s.slot scope
  let begun : Option Nat := match at_ with | .release n => some n | _ => none
  if sc = 0 then (none, s)
  else if at_ = .hosted then (if s.hostBusy then some .hosted else none, s)
  else
    let s :=
      match s.cur.who with
      | .warp n _ => s.performDeferred s.cur.col n
      | .lane _ => s.performDeferred s.cur.col s.slot
      | _ => s
    if begun.isNone ∧ (¬ s.quiet ∨ (5 ≤ sc ∧ (s.warp.xch.isSome ∨ s.here.crossing s.slot))) then (some .earlier, s)
    else if sc < 4 then (none, s)
    else
      match s.here.drain s.cur.who.cache begun with
      | (false, n, x) => (some (.release (n.getD 0)), s.setCol s.cur.col x)
      | (true, _, x) =>
        let s := s.setCol s.cur.col x
        if sc < 8 then (none, s) else s.releaseHost

/-- An acquire by the issuing agent at a scope. -/
def State.acquire (s : State) (scope : Nat) : State :=
  s.updHere fun x => x.acquireAt s.cur.who.cache (x.effScope s.slot scope)

/-- A word that performs a release first: it blocks at the word until the release is complete (R39). -/
def State.afterRelease (s : State) (scope : Nat) (run : State → Host.Outcome State Fault Refusal) :
    Host.Outcome State Fault Refusal :=
  match s.releaseFrom s.cur.wait scope with
  | (none, s) => run s
  | (some w, s) => .next (s.blockAt w)

/-! ## Holds -/

/-- A hold of the issuing agent replaced, or ended. -/
def State.putHold (s : State) (h : Hold) (next : Option Hold) : State :=
  s.updHere fun x => x.setHolds s.cur.who ((x.holds s.cur.who).flatMap fun g => if g = h then next.toList else [g])

/-- An error that a FENCE of a scope would wait for (R164, R304): a load's, and from gang scope an exchange word's. -/
def State.fenceErred (s : State) (scope : Nat) : Option VPend :=
  if scope = 0 then none else s.thread.vpend.find? fun v => v.error.isSome && (!v.ofExchange || decide (5 ≤ scope))

/-- One hold of the issuing agent tried: a FENCE's is gone when its release is complete, and its acquire made; an error that it would wait
for traps at the FENCE (R164). -/
def State.settleHold (s : State) (h : Hold) : State :=
  match h with
  | .fence sc pkt wpos done =>
    match s.fenceErred sc with
    | some v => s.raiseErred v (some (pkt, wpos))
    | none =>
      match s.releaseFrom done sc with
      | (none, s) => (s.acquire sc).putHold h none
      | (some w, s) => s.putHold h (some (.fence sc pkt wpos w))
  | _ => s

/-- The holds of the issuing agent settled as far as they can be. -/
def State.settleHolds (s : State) : State := (s.here.holds s.cur.who).foldl (fun s h => s.settleHold h) s

/-- Do earlier operations still hold the issuing agent's M- and E-pipe words? -/
def State.heldBack (s : State) : Bool := !(s.here.holds s.cur.who).isEmpty

/-- A hold added to the issuing agent. -/
def State.addHold (s : State) (h : Hold) : State :=
  s.updHere fun x => x.setHolds s.cur.who (x.holds s.cur.who ++ [h])

/-! ## What an EXIT waits for (R164, R179, R342) -/

/-- Is an agent a warp slot's path or one of its ejected lanes? -/
def Column.ofSlot (x : Column) (n : Nat) (w : Who) : Bool :=
  match w with
  | .warp k _ => decide (k = n)
  | .lane i => (x.ctx i).live && decide ((x.ctx i).slot = n)
  | _ => false

/-- Has everything that a warp has issued been performed or completed (R179)? -/
def Column.slotQuiet (x : Column) (n : Nat) : Bool :=
  let w := x.warp n
  !(x.mops.any fun m => x.ofSlot n m.who) && w.deferred.isEmpty && w.th.vpend.isEmpty && w.xch.isNone && !(w.h.any fun e => decide (e.2.st = .pending)) &&
    !(x.cmds.any fun k => decide (k.slot = n))

/-- Do the issuing path's lanes exit as the last of their warp? -/
def State.lastExit (s : State) : Bool := decide ((s.warp.exited ||| s.active) = 0xFFFFFFFF#32)

/-- Has an EXIT nothing left to wait for? The deferred queue is to be empty (R342); the last lane's waits for all that its warp has issued,
and an ejected lane's for its own words. -/
def State.exitFree (s : State) : Bool :=
  match s.cur.who with
  | .warp n _ => s.warp.deferred.isEmpty && (!s.lastExit || s.here.slotQuiet n)
  | .lane _ => s.quiet && s.thread.vpend.isEmpty && (!s.lastExit || s.here.slotQuiet s.slot)
  | _ => true

/-- The pending write, with the agent that it is pending for, whose error an EXIT meets (R164): among those that it waits for. -/
def State.exitErred (s : State) : Option (Who × VPend) :=
  let owner : Option (Who × VPend) :=
    if s.lastExit then (s.warp.th.vpend.find? (·.error.isSome)).map fun v => (.warp s.slot false, v) else none
  match s.cur.who with
  | .warp _ _ => owner
  | .lane _ => (s.erred.map fun v => (s.cur.who, v)).or owner
  | _ => none

end Sys2Proof.Machine
end

