-- ==== Sys2Proof/Machine/Memory.lean ====
section
/-! DEFINITION. The memory words of OP 0x58 to 0x5E, 0x66, 0x0D and 0x0E (R142 to R152): loads and stores to column
memory and local store, scalar loads and stores, prefetch, acquire, release, fences and cache words. -/

namespace Sys2Proof.Machine

/-! ## Addresses and their faults -/

/-- The address of each participating lane: base plus zero-extended index (R25). -/
def State.laneAddrs (s : State) (a b : BitVec 6) : List (Nat × Dword) :=
  (lanesIn s.part).map fun l => (l, s.sr a + (lane (s.vr b) l).setWidth 64)

/-- Does a physical address lie in the alias or the host-tier window (R160)? -/
def inWindow (pa : Nat) : Bool := decide (pa / 2 ^ 32 = 1) || decide (pa / 2 ^ 32 = 3)

/-- The abort that one lane's outcome causes inside a transaction, with its place in R163's order (R160). -/
def Checked.abort : Checked → Option (Nat × Abort)
  | .ok pa _ => if inWindow pa then some (25, .tier) else none
  | .bad c pa =>
    if c = .cross then some (16, .cross)
    else if inWindow pa then some (25, .tier)
    else some (2 * c.rank, .fault)

/-- The first abort in R163's order among the lanes' outcomes, with the address that caused it. -/
def txWorst (l : List (Nat × Dword × Checked)) : Option (Nat × Abort × Dword) :=
  l.foldl (fun acc e =>
    match e.2.2.abort, acc with
    | none, _ => acc
    | some (k, a), none => some (k, a, e.2.1)
    | some (k, a), some (j, _, _) => if k < j then some (k, a, e.2.1) else acc) none

/-- TSTAT's address: of TX_CROSS and TX_FAULT alone (R162). -/
def abortAddr (a : Abort) (x : Dword) : Dword := if a = .cross ∨ a = .fault then x else 0#64

/-- A memory word's checks (R142): the trap of the highest priority, or the abort inside a transaction; else the word
goes on with its lanes' physical addresses. -/
def State.checked (s : State) (n : Need) (addrs : List (Nat × Dword))
    (run : List (Nat × Nat) → Bool → State → Host.Outcome State Fault Refusal) : Host.Outcome State Fault Refusal :=
  match s.cur.who with
  | .factor _ => .refused .factorMemory
  | _ =>
    let r := s.checkLanes n addrs
    match (if s.ownTx.isSome then txWorst r.1 else none) with
    | some (_, a, x) => .next (r.2.abortTx a 0 (abortAddr a x))
    | none =>
      match worst r.1 with
      | some (c, m, a) => .next (r.2.raise c { lanes := m, detail := a })
      | none => run (passed r.1) (anyShg r.1) r.2

/-! ## Building a memory word -/

/-- A memory word of the issuing agent with a fresh identifier, its lanes' pointers, its prefix's hints and its context. -/
def State.newOp (s : State) (kind : MemKind) (accs : List Acc) (ptrs : List (Nat × Dword)) : MemOp × State :=
  ({ id := s.nextId, who := s.cur.who, cache := s.cur.who.cache, kind := kind, accs := accs, ptrs := ptrs, rd := s.pfx.rd.toNat,
     ep := s.pfx.ep.toNat, lu := s.pfx.lu, region := s.launchId, ctx := s.ctxNum, path := s.path.uid, pkt := s.cur.pkt,
     wpos := s.cur.wpos, unitEnd := s.cur.unitEnd },
   { s with nextId := s.nextId + 1 })

/-- The lanes that a per-lane destination writes: P, or every active lane under Z (R42, R87). -/
def State.writeLanes (s : State) : Lanes := if s.pfx.z then s.active else s.part

/-- A pending variable-latency write (R38, R82); of a load, whose landing WAIT.M waits for (R129), or of another word. -/
def State.pendVl (s : State) (regs : List Reg) (value : Option (List Write)) (mem : Bool := false) : Nat × State :=
  (s.nextId, { s.updThread fun t => { t with vpend := t.vpend ++ [{ id := s.nextId, regs := regs, value := value, mem := mem }] } with
    nextId := s.nextId + 1 })

/-- A variable-latency result whose value is known at issue. -/
def State.vlResult (s : State) (regs : List Reg) (w : List Write) (mem : Bool := false) : State := (s.pendVl regs (some w) mem).2

/-- A variable-latency scalar result; DIVERGENT_SCALAR for s0-s47 inside a divergent region (R90). -/
def State.vlScalar (s : State) (d : BitVec 6) (x : Dword) : Host.Outcome State Fault Refusal :=
  if s.mayWriteS d.toNat then .next (s.vlResult [.s s.path.uid d.toNat] [.s s.path.uid d.toNat x])
  else .next (s.trap .divergentScalar)

/-- Does a word of a deterministic launch address a line that a deferred entry of its warp addresses (R342)? -/
def State.lineDeferred (s : State) (pas : List (Nat × Nat)) : Bool :=
  s.warp.deferred.any fun d => d.op.accs.any fun a => pas.any fun p => decide (lineOf p.2 = lineOf a.pa)

/-- A memory word begun, or, where R158 defers it, entered into the deferred queue and performed if the warp holds the
token; a full queue blocks (R342). -/
def State.beginOp (s : State) (defers : Bool) (m : MemOp) (s0 : State) : Host.Outcome State Fault Refusal :=
  if defers ∧ s.isDet then
    if 8 ≤ s.warp.deferred.length then .next (s0.blockAt .earlier)
    else .next ((s.updWarp fun w => { w with deferred := w.deferred ++ [{ op := m }] }).performDeferred s.cur.col s.slot)
  else .next (s.startOp s.cur.col m)

/-- The data registers of an access of a size: one, or as many as it has words (R143). -/
def dataRegs (size d : Nat) : List Nat := (List.range (max 1 (size / 4))).map (d + ·)

/-- The data a lane stores: the low bytes of its registers, the first register lowest (R145). -/
def State.laneData (s : State) (size d l : Nat) : Nat :=
  (dataRegs size d).foldr (fun r acc => acc * 2 ^ 32 + (lane (s.readV r) l).toNat) 0 % 2 ^ (8 * size)

/-! ## Inside a transaction (R160, R63) -/

/-- The byte that a lane's transactional read returns: its own earlier write, the value already read, or the bay's. -/
def Tx.byte (t : Tx) (x : Column) (free l pa : Nat) : Byte :=
  match t.writes.reverse.find? fun w => w.1 == l && w.2.1 == pa with
  | some w => w.2.2
  | none =>
    match t.reads.find? fun r => r.1 == pa with
    | some r => r.2
    | none => x.byteAt free pa

/-- Lines added to a set of lines. -/
def addLines (l : List Nat) (pas : List (Nat × Nat)) : List Nat :=
  pas.foldl (fun acc p => if acc.contains (lineOf p.2) then acc else acc ++ [lineOf p.2]) l

/-- The hints of a transactional word, which take effect at the commit (R149). -/
def State.txHints (s : State) (pas : List (Nat × Nat)) (writes : Bool) : List (Nat × Nat × Bool × Bool) :=
  (addLines [] pas).map fun ln => (ln, s.pfx.ep.toNat, s.pfx.lu, writes)

/-- A transactional load: it reads at the bay, after its agent's earlier words on its lines have been performed (R54) and the core's own dirty
bytes of its lines and every U copy have gone there, and its lines join the read set. A sector marked uncorrectable aborts it even where the
lane's own buffered writes give every byte (log 124, DESIGN CHOICE), and it is one step at the bay (log 137, DESIGN CHOICE). -/
def State.txLoad (s : State) (t : Tx) (size : Nat) (signed : Bool) (dest : List Nat) (addrs : List (Nat × Dword))
    (pas : List (Nat × Nat)) :
    Host.Outcome State Fault Refusal :=
  let lines := addLines t.lines pas
  let x := s.here
  if 64 < lines.length then .next (s.abortTx .capacityRead 0 0#64)
  else if s.lineDeferred pas || (pas.any fun p => s.here.mops.any fun m => m.mine s && m.accs.any fun a => decide (lineOf a.pa = lineOf p.2)) then
    .next (s.blockAt .earlier)
  else if pas.any fun p => x.claimed s.ctxNum (lineOf p.2) then .next (s.blockAt .earlier)
  else
    match pas.find? fun p => x.badSectors.contains (p.2 / 32) with
    | some p =>
      .next (s.abortTx .fault 0 (((addrs.find? fun a => a.1 == p.1).map Prod.snd).getD 0#64))
    | none =>
      let x := (addLines [] pas).foldl (fun x ln => (x.recallU s.free ln).settleLine s.free s.cur.who.cache ln) x
      let val (p : Nat × Nat) : Nat := natOfBytes ((List.range size).map fun i => t.byte x s.free p.1 (p.2 + i))
      let seen := pas.flatMap fun p => (List.range size).filterMap fun i =>
        if (t.writes.any fun w => w.1 == p.1 && w.2.1 == p.2 + i) || (t.reads.any fun r => r.1 == p.2 + i) then none
        else some (p.2 + i, x.byteAt s.free (p.2 + i))
      let t := { t with lines := lines, reads := t.reads ++ seen, hints := t.hints ++ s.txHints pas false }
      let s := (s.setCol s.cur.col x).updWarp fun w => { w with tx := some t }
      let m := s.writeLanes
      let got := pas.map fun p => (p.1, extendLoad signed size (val p))
      let res (i : Nat) : Vec := ({ id := 0, who := s.cur.who, cache := 0, kind := .prefetch, accs := [], got := got } : MemOp).result i
      .next (s.vlResult (dest.map fun r => .v r m) ((dest.zip (List.range dest.length)).map fun e => .v e.1 m (res e.2)) true)

/-- A transactional store: held outside the L1 in the write set (R62). -/
def State.txStore (s : State) (t : Tx) (size d : Nat) (pas : List (Nat × Nat)) (shg : Bool) : Host.Outcome State Fault Refusal :=
  let lines := addLines (addLines [] (t.writes.map fun w => (w.1, w.2.1))) pas
  if 32 < lines.length then .next (s.abortTx .capacityWrite 0 0#64)
  else
    let new := pas.flatMap fun p => (List.range size).map fun i =>
      (p.1, p.2 + i, BitVec.ofNat 8 (s.laneData size d p.1 >>> (8 * i)))
    .next (s.updWarp fun w => { w with tx := some { t with writes := t.writes ++ new, hints := t.hints ++ s.txHints pas true, shared := t.shared || shg } })

/-! ## Loads (R144, R150) -/

/-- A load of the given size into registers, with the acquire that follows an LD.ACQ. -/
def State.loadWord (s : State) (size : Nat) (signed : Bool) (d : Nat) (a b : BitVec 6) (acq : Option Nat) :
    Host.Outcome State Fault Refusal :=
  s.checked { size := size, r := true } (s.laneAddrs a b) fun pas _ s =>
    let dest := dataRegs size d
    match s.ownTx with
    | some t => s.txLoad t size signed dest (s.laneAddrs a b) pas
    | none =>
      if s.lineDeferred pas then .next (s.blockAt .earlier)
      else
        let m := s.writeLanes
        let v := s.pendVl (dest.map fun r => .v r m) none true
        let o := v.2.newOp (.load signed) (pas.map fun p => { lane := p.1, pa := p.2, size := size }) (s.laneAddrs a b)
        let op := { o.1 with dest := dest, lanes := m, vid := v.1, acquire := acq }
        let s := match acq with | some sc => o.2.addHold (.acquire op.id sc) | none => o.2
        .next (s.startOp s.cur.col op)

def execLd (d a b : BitVec 6) (z : BitVec 2) (s : State) :=
  accept .load s fun s => s.loadWord (2 ^ z.toNat) false d.toNat a b none
def execLdsB (d a b : BitVec 6) (s : State) := accept .load s fun s => s.loadWord 1 true d.toNat a b none
def execLdsH (d a b : BitVec 6) (s : State) := accept .load s fun s => s.loadWord 2 true d.toNat a b none
def execLdQ (d : BitVec 4) (a b : BitVec 6) (s : State) := accept .load s fun s => s.loadWord 16 false (4 * d.toNat) a b none

/-- The scope that a prefix names, or the word's default (R42). -/
def State.scopeOr (s : State) (dflt : Nat) : Nat :=
  match s.cur.pfx with
  | some p => p.scope
  | none => dflt

def execLdAcqW (d a b : BitVec 6) (s : State) :=
  accept .loadAcquire s fun s => outsideTx s fun s => s.loadWord 4 false d.toNat a b (some (s.scopeOr 2))
def execLdAcqD (d : BitVec 5) (a b : BitVec 6) (s : State) :=
  accept .loadAcquire s fun s => outsideTx s fun s => s.loadWord 8 false (2 * d.toNat) a b (some (s.scopeOr 2))

/-! ## Stores (R145, R150) -/

/-- A store of the given size from registers. -/
def State.storeWord (s : State) (size d : Nat) (a b : BitVec 6) : Host.Outcome State Fault Refusal :=
  s.checked { size := size, w := true } (s.laneAddrs a b) fun pas shg s =>
    match s.ownTx with
    | some t => if s.lineDeferred pas then .next (s.blockAt .earlier) else s.txStore t size d pas shg
    | none =>
      if s.lineDeferred pas then .next (s.blockAt .earlier)
      else
        let o := s.newOp .store (pas.map fun p => { lane := p.1, pa := p.2, size := size, x := s.laneData size d p.1 }) (s.laneAddrs a b)
        o.2.beginOp shg o.1 s

def execSt (d a b : BitVec 6) (z : BitVec 2) (s : State) := accept .store s fun s => s.storeWord (2 ^ z.toNat) d.toNat a b
def execStQ (d : BitVec 4) (a b : BitVec 6) (s : State) := accept .store s fun s => s.storeWord 16 (4 * d.toNat) a b
def execStRelW (d a b : BitVec 6) (s : State) :=
  accept .storeRelease s fun s => outsideTx s fun s => s.afterRelease (s.scopeOr 2) fun s => s.storeWord 4 d.toNat a b
def execStRelD (d : BitVec 5) (a b : BitVec 6) (s : State) :=
  accept .storeRelease s fun s => outsideTx s fun s => s.afterRelease (s.scopeOr 2) fun s => s.storeWord 8 (2 * d.toNat) a b

/-! ## Scalar loads and stores (R148) -/

/-- The scaled offset: imm8, or X : imm8 with E, times 8. -/
def State.scalarOffset (s : State) (i : BitVec 8) : Dword :=
  if s.pfx.e then (s.pfx.x ++ i).setWidth 64 * 8#64 else i.setWidth 64 * 8#64

/-- SLD. -/
def execSld (d a : BitVec 6) (i : BitVec 8) (s : State) :=
  accept .scalarLoad s fun s => outsideTx s fun s =>
    if s.mayWriteS d.toNat then
      s.checked { size := 8, r := true } [(lowLane s.active, s.sr a + s.scalarOffset i)] fun pas _ s =>
        if s.lineDeferred pas then .next (s.blockAt .earlier)
        else
          let v := s.pendVl [.s s.path.uid d.toNat] none true
          let o := v.2.newOp .scalarLoad (pas.map fun p => { lane := p.1, pa := p.2, size := 8 })
            [(lowLane s.active, s.sr a + s.scalarOffset i)]
          .next (o.2.startOp s.cur.col { o.1 with dest := [d.toNat], vid := v.1, scalar := true })
    else .next (s.trap .divergentScalar)

/-- SST. -/
def execSst (d a : BitVec 6) (i : BitVec 8) (s : State) :=
  accept .scalarStore s fun s => outsideTx s fun s =>
    s.checked { size := 8, w := true } [(lowLane s.active, s.sr a + s.scalarOffset i)] fun pas shg s =>
      if s.lineDeferred pas then .next (s.blockAt .earlier)
      else
        let o := s.newOp .store (pas.map fun p => { lane := p.1, pa := p.2, size := 8, x := (s.sr d).toNat })
          [(lowLane s.active, s.sr a + s.scalarOffset i)]
        o.2.beginOp shg { o.1 with scalar := true } s

/-! ## Local store (R147) -/

/-- The local-store offset of each participating lane, or the cause it fails with. -/
def State.localChecks (s : State) (size : Nat) (a b : BitVec 6) : List (Nat × Dword × Checked) :=
  (s.laneAddrs a b).map fun p =>
    (p.1, p.2,
     if p.2.toNat % size ≠ 0 then .bad .align 0
     else if s.group.size < p.2.toNat + size then .bad .localRange 0
     else .ok p.2.toNat false)

/-- A local-store word's checks; inside a transaction it is performed at once, and its faults abort (R160, R163). -/
def State.localChecked (s : State) (size : Nat) (a b : BitVec 6)
    (run : List (Nat × Nat) → State → Host.Outcome State Fault Refusal) : Host.Outcome State Fault Refusal :=
  match (match s.cur.who with | .factor _ => true | _ => false), worst (s.localChecks size a b) with
  | true, _ => .refused .factorMemory
  | _, some (c, m, x) =>
    if s.ownTx.isSome then .next (s.abortTx .fault 0 x) else .next (s.raise c { lanes := m, detail := x })
  | _, none => run (passed (s.localChecks size a b)) s

/-- The state with the issuing agent's group's local store changed. -/
def State.updStore (s : State) (f : List Host.Cell → List Host.Cell) : State :=
  s.updHere fun x => x.setGroup s.entry { x.group s.entry with store := f (x.group s.entry).store }

/-- LDL: zero-extended. -/
def execLdl (d a b : BitVec 6) (z : BitVec 2) (s : State) :=
  accept .localMem s fun s =>
    let size := 2 ^ z.toNat
    s.localChecked size a b fun offs s =>
      let got := offs.map fun p => (p.1, natOfBytes (Memory.readBytes s.group.store p.2 size))
      let res (i : Nat) : Vec := vecOf fun l => BitVec.ofNat 32 ((((got.find? fun g => g.1 == l).map Prod.snd).getD 0) >>> (32 * i))
      let dest := dataRegs size d.toNat
      .next (s.vlResult (dest.map fun r => .v r s.part) ((dest.zip (List.range dest.length)).map fun e => .v e.1 s.part (res e.2)) true)

/-- STL: lanes in ascending order, so the highest lane's byte stands (R50). -/
def execStl (d a b : BitVec 6) (z : BitVec 2) (s : State) :=
  accept .localMem s fun s =>
    let size := 2 ^ z.toNat
    s.localChecked size a b fun offs s =>
      .next (s.updStore fun m => offs.foldl (fun m p => Memory.writeBytes m p.2 (bytesOf size (s.laneData size d.toNat p.1))) m)

/-! ## Prefetch, fences and cache words (R146, R151, R152) -/

/-- The lanes' lines of a prefetch or cache word: CROSS alone faults, and a lane that fails otherwise is dropped. -/
def State.looseLines (s : State) (n : Need) (a b : BitVec 6) (run : List (Nat × Nat) → State → Host.Outcome State Fault Refusal) :
    Host.Outcome State Fault Refusal :=
  match s.cur.who with
  | .factor _ => .refused .factorMemory
  | _ =>
    let r := s.checkLanes n (s.laneAddrs a b)
    match worst (r.1.filter fun e => match e.2.2 with | .bad c _ => decide (c = .cross) | .ok _ _ => false) with
    | some (c, m, x) => .next (r.2.raise c { lanes := m, detail := x })
    | none => run ((passed r.1).filter fun p => !decide (p.2 / 2 ^ 32 = 1)) r.2

/-- PF: nothing inside a transaction (R160). -/
def execPf (a b : BitVec 6) (s : State) :=
  accept .load s fun s =>
    if s.ownTx.isSome then .next s
    else s.looseLines { size := 1, r := true } a b fun pas s =>
      if s.lineDeferred pas then .next (s.blockAt .earlier)
      else
        let o := s.newOp .prefetch (pas.map fun p => { lane := p.1, pa := p.2, size := 1 }) (s.laneAddrs a b)
        .next (o.2.startOp s.cur.col o.1)

/-- FENCE: a release, then an acquire; until both are done it holds the later M- and E-pipe words. A load that met an
error traps here if the fence would wait for it (R164). -/
def execFence (s : State) :=
  accept .fence s fun s => outsideTx s fun s =>
    let sc := s.scopeOr 2
    let h := Hold.fence sc s.cur.pkt s.cur.wpos .none
    match s.fenceErred sc with
    | some v => .next (s.raiseErred v)
    | none => .next (if sc = 0 then s else (s.addHold h).settleHold h)

/-- A line cleaned for CCLEAN, or cleaned and dropped for CINV, in the issuing agent's L1: its dirty bytes are sent to the bay. -/
def Column.cleanLine (x : Column) (drop : Bool) (cache line : Nat) : Column :=
  match x.l1Find cache line with
  | some k =>
    let l := x.l1Line k
    let x := x.sendLine cache l
    if drop ∨ l.u.isSome ∨ l.valid = 0#4 then x.setL1 k {} else x.setL1 k { l with dirty := 0#128 }
  | none => x

/-- A host-tier line written back from the bay for a cache word at host scope, and dropped there by CINV. -/
def Bay.cleanHost (b : Bay) (drop : Bool) (line : Nat) : Bay :=
  match b.holder line with
  | some (n, k) =>
    let t := Tab.get {} (b.slice n).lines k
    let b := if t.dirty then { b with hostOut := b.hostOut ++ [(line, true, t.region)] } else b
    if drop then b.drop line else b.setSlice n ((b.slice n).put k { t with dirty := false })
  | none => b

/-- The cache words' common course. At host scope and wider a host-tier line goes on to host memory once what the L1 has sent of it stands
in the bay, and the word blocks until the host link has acknowledged it (log 102, DEDUCED). -/
def State.cacheWord (s : State) (drop : Bool) (a b : BitVec 6) : Host.Outcome State Fault Refusal :=
  s.looseLines { size := 1 } a b fun pas s =>
    let lines := linesOf (pas.map Prod.snd)
    let cache := s.cur.who.cache
    let mine := lines.any fun ln => s.here.mops.any fun m => m.mine s && m.accs.any fun c => decide (lineOf c.pa = ln)
    let far := if 8 ≤ s.scopeOr 4 then lines.filter hostLine else []
    if s.cur.wait = .hosted then
      (if far.any fun ln => s.here.bay.hostOut.any fun h => h.2.1 && decide (h.1 = ln) then .next (s.blockAt .hosted) else .next s)
    else if mine || s.lineDeferred pas || lines.any (fun ln => s.here.claimed s.ctxNum ln) then .next (s.blockAt .earlier)
    else
      let s := s.updHere fun x => lines.foldl (fun x ln => x.cleanLine drop cache ln) x
      if far.isEmpty then .next s
      else if far.any fun ln => !(s.here.puts cache ln).isEmpty then .next (s.blockAt (.release s.here.bay.nextReq))
      else
        let s := s.updHere fun x => x.updBay fun b => far.foldl (fun b ln => b.cleanHost drop ln) b
        if far.any fun ln => s.here.bay.hostOut.any fun h => h.2.1 && decide (h.1 = ln) then .next (s.blockAt .hosted) else .next s

def execCclean (a b : BitVec 6) (s : State) := accept .cacheOp s fun s => outsideTx s fun s => s.cacheWord false a b
def execCinv (a b : BitVec 6) (s : State) := accept .cacheOp s fun s => outsideTx s fun s => s.cacheWord true a b

end Sys2Proof.Machine
end

