-- ==== Sys2Proof/Machine/Atomics.lean ====
section
/-! DEFINITION. Atomics at the slice and on local store, and the reductions (R153 to R158): OP 0x5F to 0x65. -/

namespace Sys2Proof.Machine

/-! ## Atomics at the slice (R153, R154) -/

/-- An ATOM word: every lane's operation at the slice in ascending lane order, and the old values returned; ADD64 is 64
bits wide, and CAS compares with its first register and stores its second. -/
def State.atomWord (s : State) (op d : Nat) (a b : BitVec 6) : Host.Outcome State Fault Refusal :=
  outsideTx s fun s =>
    let size := if op = 15 then 8 else 4
    s.checked { size := size, r := true, w := true, atom := true } (s.laneAddrs a b) fun pas shg s =>
      if s.lineDeferred pas ∨ (shg ∧ s.isDet ∧ 8 ≤ s.warp.deferred.length) then .next (s.blockAt .earlier)
      else
        let dest := dataRegs size d
        let m := s.writeLanes
        let v := s.pendVl (dest.map fun r => .v r m) none
        let o := v.2.newOp (.atom op) (pas.map fun p =>
          { lane := p.1, pa := p.2, size := size, x := s.laneData size d p.1, y := (lane (s.readV (d + 1)) p.1).toNat }) (s.laneAddrs a b)
        o.2.beginOp shg { o.1 with dest := dest, lanes := m, vid := v.1, bypass := true } s

def execAtomAdd (d : BitVec 6) (a b : BitVec 6) (s : State) := accept .store s fun s => s.atomWord 0 d.toNat a b
def execAtomMin (d : BitVec 6) (a b : BitVec 6) (s : State) := accept .store s fun s => s.atomWord 1 d.toNat a b
def execAtomMax (d : BitVec 6) (a b : BitVec 6) (s : State) := accept .store s fun s => s.atomWord 2 d.toNat a b
def execAtomAnd (d : BitVec 6) (a b : BitVec 6) (s : State) := accept .store s fun s => s.atomWord 3 d.toNat a b
def execAtomOr (d : BitVec 6) (a b : BitVec 6) (s : State) := accept .store s fun s => s.atomWord 4 d.toNat a b
def execAtomXor (d : BitVec 6) (a b : BitVec 6) (s : State) := accept .store s fun s => s.atomWord 5 d.toNat a b
def execAtomXchg (d : BitVec 6) (a b : BitVec 6) (s : State) := accept .store s fun s => s.atomWord 6 d.toNat a b
def execAtomCas (d : BitVec 5) (a b : BitVec 6) (s : State) := accept .store s fun s => s.atomWord 7 (2 * d.toNat) a b
def execAtomMinu (d : BitVec 6) (a b : BitVec 6) (s : State) := accept .store s fun s => s.atomWord 8 d.toNat a b
def execAtomMaxu (d : BitVec 6) (a b : BitVec 6) (s : State) := accept .store s fun s => s.atomWord 9 d.toNat a b
def execAtomInc (d : BitVec 6) (a b : BitVec 6) (s : State) := accept .store s fun s => s.atomWord 10 d.toNat a b
def execAtomDec (d : BitVec 6) (a b : BitVec 6) (s : State) := accept .store s fun s => s.atomWord 11 d.toNat a b
def execAtomFadd (d : BitVec 6) (a b : BitVec 6) (s : State) := accept .store s fun s => s.atomWord 12 d.toNat a b
def execAtomFmin (d : BitVec 6) (a b : BitVec 6) (s : State) := accept .store s fun s => s.atomWord 13 d.toNat a b
def execAtomFmax (d : BitVec 6) (a b : BitVec 6) (s : State) := accept .store s fun s => s.atomWord 14 d.toNat a b
def execAtomAdd64 (d : BitVec 5) (a b : BitVec 6) (s : State) := accept .store s fun s => s.atomWord 15 (2 * d.toNat) a b

/-! ## Atomics on local store (R158) -/

/-- An ATOML word: as ATOM's operation, at once, in ascending lane order. -/
def State.atomLocal (s : State) (op d : Nat) (a b : BitVec 6) : Host.Outcome State Fault Refusal :=
  s.localChecked 4 a b fun offs s =>
    let r := offs.foldl (fun (acc : List Host.Cell × List (Nat × Nat)) p =>
      let old := natOfBytes (Memory.readBytes acc.1 p.2 4)
      let a : Acc := { lane := p.1, pa := p.2, size := 4, x := (lane (s.readV d) p.1).toNat, y := (lane (s.readV (d + 1)) p.1).toNat }
      (Memory.writeBytes acc.1 p.2 (bytesOf 4 (a.apply op old)), acc.2 ++ [(p.1, old)])) (s.group.store, [])
    let res : Vec := vecOf fun l => BitVec.ofNat 32 (((r.2.find? fun g => g.1 == l).map Prod.snd).getD 0)
    .next ((s.updStore fun _ => r.1).vlResult [.v d s.part] [.v d s.part res] true)

def execAtomlAdd (d : BitVec 6) (a b : BitVec 6) (s : State) := accept .localMem s fun s => s.atomLocal 0 d.toNat a b
def execAtomlMin (d : BitVec 6) (a b : BitVec 6) (s : State) := accept .localMem s fun s => s.atomLocal 1 d.toNat a b
def execAtomlMax (d : BitVec 6) (a b : BitVec 6) (s : State) := accept .localMem s fun s => s.atomLocal 2 d.toNat a b
def execAtomlCas (d : BitVec 5) (a b : BitVec 6) (s : State) := accept .localMem s fun s => s.atomLocal 7 (2 * d.toNat) a b

/-! ## Reductions (R155, R156) -/

/-- The lanes' operands of a reduction. -/
def State.redAccs (s : State) (d : Nat) (pas : List (Nat × Nat)) : List Acc :=
  pas.map fun p => { lane := p.1, pa := p.2, size := 4, x := (lane (s.readV d) p.1).toNat }

/-- A RED word: into the agent's U copy of each line of the HBM share, after its agent's earlier words on its bytes (R54), and at the slice
elsewhere. A float reduction to a shared page is deferred (R158). -/
def State.redWord (s : State) (op d : Nat) (a b : BitVec 6) : Host.Outcome State Fault Refusal :=
  outsideTx s fun s =>
    s.checked { size := 4, r := true, w := true, atom := true } (s.laneAddrs a b) fun pas shg s =>
      if s.lineDeferred pas then .next (s.blockAt .earlier)
      else
        let o := s.newOp (.red op) (s.redAccs d pas) (s.laneAddrs a b)
        o.2.beginOp (shg && decide (op = 3)) o.1 s

def execRedAdd (d a b : BitVec 6) (s : State) := accept .store s fun s => s.redWord 0 d.toNat a b
def execRedMin (d a b : BitVec 6) (s : State) := accept .store s fun s => s.redWord 1 d.toNat a b
def execRedMax (d a b : BitVec 6) (s : State) := accept .store s fun s => s.redWord 2 d.toNat a b
def execRedFadd (d a b : BitVec 6) (s : State) := accept .store s fun s => s.redWord 3 d.toNat a b

/-- A RED.BAY word. -/
def State.redBayWord (s : State) (op d : Nat) (a b : BitVec 6) : Host.Outcome State Fault Refusal :=
  outsideTx s fun s =>
    s.checked { size := 4, r := true, w := true, atom := true } (s.laneAddrs a b) fun pas shg s =>
      if s.lineDeferred pas then .next (s.blockAt .earlier)
      else
        let o := s.newOp (.redBay op) (s.redAccs d pas) (s.laneAddrs a b)
        o.2.beginOp (shg && decide (op = 3)) { o.1 with bypass := true } s

def execRedBayAdd (d a b : BitVec 6) (s : State) := accept .store s fun s => s.redBayWord 0 d.toNat a b
def execRedBayMin (d a b : BitVec 6) (s : State) := accept .store s fun s => s.redBayWord 1 d.toNat a b
def execRedBayMax (d a b : BitVec 6) (s : State) := accept .store s fun s => s.redBayWord 2 d.toNat a b
def execRedBayFadd (d a b : BitVec 6) (s : State) := accept .store s fun s => s.redBayWord 3 d.toNat a b

end Sys2Proof.Machine
end

