-- ==== Sys2Proof/Machine/Sync.lean ====
section
/-! DEFINITION. Barriers (R166 to R173), futures (R174 to R177) and the commit-token words (R178). -/

namespace Sys2Proof.Machine

/-! ## Barrier entries (R166 to R168) -/

/-- The sync word of an entry as a 128-bit number (R167). -/
def Barrier.syncWord (b : Barrier) : Nat :=
  b.g.toNat * 2 ^ 104 + b.atgt * 2 ^ 88 + b.arr % 2 ^ 16 * 2 ^ 72 + b.btgt % 2 ^ 36 * 2 ^ 36 + b.bytes % 2 ^ 36

/-- A barrier entry replaced, and its sync word written into its group's local store (R167). -/
def Column.setBarrier (x : Column) (i : Nat) (b : Barrier) : Column :=
  let g := x.group b.entry
  { x with
    barriers := Tab.put x.barriers i b
    groups := if b.st = .free then x.groups
      else Tab.put x.groups b.entry { g with store := Memory.writeBytes g.store b.offset (bytesOf 16 b.syncWord) } }

/-- Overshot (R168). -/
def Barrier.overshot (b : Barrier) : Bool :=
  decide (b.atgt < b.arr) || (b.p && decide (b.btgt < b.bytes)) || decide (2 ^ 36 ≤ b.bytes) || decide (2 ^ 36 ≤ b.btgt)

/-- Matched (R168). -/
def Barrier.matched (b : Barrier) : Bool := decide (b.arr = b.atgt) && b.p && decide (b.bytes = b.btgt)

/-- The entry at the start of a phase. -/
def Barrier.nextPhase (b : Barrier) : Barrier := { b with g := b.g + 1#24, arr := 0, btgt := 0, bytes := 0, p := !b.xb }

/-- What an entry means to a path that waits on it (R173): the wait ends when the phase has come, or with the cause it
traps. -/
def Barrier.judge (b : Barrier) (i : Nat) (w : Wait) : Wait :=
  match w with
  | .barrier e gen target =>
    if e ≠ i then w
    else
      match b.st with
      | .free => .failed .barStale
      | .broken => .failed .barOvershoot
      | .opened =>
        if target then (if (b.g - BitVec.ofNat 24 gen).toNat < 2 ^ 22 then .passed else w)
        else if b.g ≠ BitVec.ofNat 24 gen then .passed else w
  | _ => w

/-- The waits of every path of the column changed. -/
def Column.mapWaits (x : Column) (f : Wait → Wait) : Column :=
  { x with
    warps := Tab.mapVals (fun _ (w : Warp) =>
      { w with
        a := w.a.map fun p => { p with wait := f p.wait }
        b := w.b.map fun p => { p with wait := f p.wait }
        stack := { w.stack with frames := Tab.mapVals (fun _ (k : Frame) => { k with wait := f k.wait }) w.stack.frames } }) x.warps
    ctxs := Tab.mapVals (fun _ (c : LaneCtx) => { c with path := { c.path with wait := f c.path.wait } }) x.ctxs
    tinker := { x.tinker with path := { x.tinker.path with wait := f x.tinker.path.wait } } }

/-- The test of an entry (R168): an overshot one breaks, and a matched one begins its next phase, which is counted (R181
counter 6); the waiters of the entry see the outcome. -/
def Column.testBarrier (x : Column) (i : Nat) : Column :=
  let b := x.barrier i
  if b.st ≠ .opened then x
  else if b.overshot then
    (x.setBarrier i { b with st := .broken }).mapWaits (({ b with st := .broken } : Barrier).judge i)
  else if b.matched then
    ((x.setBarrier i b.nextPhase).mapWaits (b.nextPhase.judge i)).count (x.group b.entry).launch 6
  else x

/-- An arrival (R168, R172). -/
def Column.arriveBarrier (x : Column) (i : Nat) : Column :=
  let b := x.barrier i
  if b.st = .opened then (x.setBarrier i { b with arr := b.arr + 1 }).testBarrier i else x

/-- Bytes delivered to an entry (R168): discarded by a BROKEN one, untested while P = 0. -/
def Column.deliver (x : Column) (i n : Nat) : Column :=
  let b := x.barrier i
  if b.st = .opened then
    let x := x.setBarrier i { b with bytes := b.bytes + n }
    if b.p then x.testBarrier i else x
  else x

/-- An entry freed (R168). -/
def Column.freeBarrier (x : Column) (i : Nat) : Column :=
  let b := { x.barrier i with st := .free }
  (x.setBarrier i b).mapWaits (b.judge i)

/-- The lowest FREE entry allocated to a group (R168, R169), with the handle that names it. -/
def Column.newBarrier (x : Column) (entry offset atgt : Nat) (xb : Bool) : Option (Dword × Column) :=
  match firstBelow 256 fun i => decide ((x.barrier i).st = .free) with
  | none => none
  | some i =>
    let g := (x.barrier i).g + 0x800000#24
    some ((g ++ BitVec.ofNat 8 i).setWidth 64,
      x.setBarrier i { st := .opened, g := g, entry := entry, offset := offset, xb := xb, p := !xb, atgt := atgt })

/-- The entry that a handle names. -/
def barIndex (h : Dword) : Nat := (h.extractLsb' 0 8).toNat

/-- Is a handle current for a group entry (R166)? -/
def Column.barCurrent (x : Column) (entry : Nat) (h : Dword) : Bool :=
  let b := x.barrier (barIndex h)
  decide (h.extractLsb' 33 31 = 0#31) && decide (b.st ≠ .free) && decide (b.entry = entry) &&
    decide ((b.g - h.extractLsb' 8 24).toNat < 2 ^ 22)

/-- A barrier cause with the entry's index as INFO (R346). -/
def State.barTrap (s : State) (c : Cause) (h : Dword) : State :=
  s.raise c { lanes := s.active, info := (h.extractLsb' 0 8).setWidth 32 }

/-- A barrier word over a current handle: BAR_STALE, and BAR_OVERSHOOT on a BROKEN entry (R166, R168). -/
def State.withBarrier (s : State) (h : Dword) (run : Host.Outcome State Fault Refusal) : Host.Outcome State Fault Refusal :=
  if !s.here.barCurrent s.entry h then .next (s.barTrap .barStale h)
  else if (s.here.barrier (barIndex h)).st = .broken then .next (s.barTrap .barOvershoot h)
  else run

/-- A word that only a warp on its core executes: an ejected lane, and with it the tinker, raises EJECT_COLLECTIVE (R197,
R345). -/
def State.onCore (s : State) (run : Host.Outcome State Fault Refusal) : Host.Outcome State Fault Refusal :=
  match s.cur.who with
  | .warp _ _ => run
  | _ => .next (s.trap .ejectCollective)

/-! ## Barrier words (R169 to R173) -/

/-- BNEW: the causes in R169's order. -/
def execBnew (d a b : BitVec 6) (s : State) :=
  accept .plain s fun s => outsideTx s fun s =>
    let off := (s.sr a).toNat
    let cfg := s.sr b
    let taken := (List.range 256).any fun i =>
      decide ((s.here.barrier i).st ≠ .free) && decide ((s.here.barrier i).entry = s.entry) && decide ((s.here.barrier i).offset = off)
    let one : TrapInfo := { lanes := 1#32 <<< lowLane s.active, detail := s.sr a }
    if !s.mayWriteS d.toNat then .next (s.trap .divergentScalar)
    else if s.group.size < off + 16 then .next (s.raise .localRange one)
    else if off % 16 ≠ 0 then .next (s.raise .align one)
    else if cfg.extractLsb' 0 16 = 0#16 ∨ cfg.extractLsb' 17 47 ≠ 0#47 ∨ taken = true then .next (s.trap .barConfig)
    else
      match s.here.newBarrier s.entry off (cfg.extractLsb' 0 16).toNat (cfg.getLsbD 16) with
      | none => .next (s.trap .barFull)
      | some (h, x) => (s.setCol s.cur.col x).vlScalar d h

/-- Does an engine command of a group entry name a barrier: by a handle that is current (R170)? -/
def Column.barNamed (x : Column) (entry i : Nat) : Bool :=
  x.cmds.any fun k => decide (k.entry = entry) && k.bar.any fun b => decide (barIndex b = i) && x.barCurrent entry b

/-- BFREE: it blocks while an engine command that names the barrier has neither completed nor been cancelled. -/
def execBfree (a : BitVec 6) (s : State) :=
  accept .plain s fun s => outsideTx s fun s =>
    let h := s.sr a
    if !s.here.barCurrent s.entry h then .next (s.barTrap .barStale h)
    else if s.here.barNamed s.entry (barIndex h) then
      .next (s.blockAt (.barrierIdle (barIndex h)))
    else .next (s.updHere fun x => x.freeBarrier (barIndex h))

/-- BEXP. -/
def execBexp (a b : BitVec 6) (s : State) :=
  accept .plain s fun s => outsideTx s fun s =>
    let h := s.sr a
    s.withBarrier h <|
      let e := s.here.barrier (barIndex h)
      if !e.xb ∨ (s.sr b).extractLsb' 36 28 ≠ 0#28 then .next (s.barTrap .barConfig h)
      else .next (s.updHere fun x =>
        (x.setBarrier (barIndex h) { e with btgt := e.btgt + (s.sr b).toNat, p := true }).testBarrier (barIndex h))

/-- BARR: the ticket names the phase that it arrived in. -/
def execBarr (d a : BitVec 6) (s : State) :=
  accept .plain s fun s => outsideTx s fun s =>
    s.onCore <|
      if !s.mayWriteS d.toNat then .next (s.trap .divergentScalar)
      else
        let h := s.sr a
        s.withBarrier h <| s.afterRelease 2 fun s =>
          let e := s.here.barrier (barIndex h)
          let last := decide (e.arr + 1 = e.atgt)
          (s.updHere fun x => x.arriveBarrier (barIndex h)).vlScalar d
            ((BitVec.ofBool last ++ e.g ++ BitVec.ofNat 8 (barIndex h)).setWidth 64)

/-- The waiting words' common course (R173): the commit token passes at issue, for which the word blocks until its warp's deferred queue has been
drained (R341), the run ends, and the acquire follows when the wait is over. -/
def State.waitBarrier (s : State) (h : Dword) (gen : BitVec 24) (target : Bool) : Host.Outcome State Fault Refusal :=
  match s.cur.wait with
  | .passed => .next (s.acquire 2).endRun
  | .failed c => .next (s.barTrap c h)
  | _ =>
    s.withBarrier h <|
      let n := s.here.slotOf s.cur.who
      let s := if n < 64 then s.passToken s.cur.col n else s
      if n < 64 ∧ s.holdsToken s.cur.col n = true ∧ ¬ s.warp.deferred.isEmpty then .next (s.blockAt .earlier) else
      let w := Wait.barrier (barIndex h) gen.toNat target
      match (s.here.barrier (barIndex h)).judge (barIndex h) w with
      | .passed => .next (s.acquire 2).endRun
      | _ => .next (s.holdAt w)

def execBwait (a : BitVec 6) (s : State) :=
  accept .plain s fun s => outsideTx s fun s => s.waitBarrier (s.sr a) ((s.sr a).extractLsb' 8 24) false
def execBwaitg (a b : BitVec 6) (s : State) :=
  accept .plain s fun s => outsideTx s fun s => s.waitBarrier (s.sr a) ((s.sr b).extractLsb' 0 24) true

/-- BTEST's status word (R173). -/
def Column.barStatus (x : Column) (entry : Nat) (h : Dword) : Dword :=
  let b := x.barrier (barIndex h)
  if !x.barCurrent entry h then 0x800000000#64
  else
    (BitVec.ofBool (decide (b.st = .broken)) ++ BitVec.ofBool b.p ++ BitVec.ofBool (decide (b.g ≠ h.extractLsb' 8 24)) ++ b.g ++
      BitVec.ofNat 8 (barIndex h)).setWidth 64

def execBtest (d a : BitVec 6) (s : State) :=
  accept .plain s fun s => outsideTx s fun s => s.vlScalar d (s.here.barStatus s.entry (s.sr a))

/-! ## Commands behind futures -/

/-- Is a command at a point where it can be stopped (R176, R258, R284)? A copy or gather command stands between
transfers, an MLOOP between K-steps; the other thresher commands run to their end once they have started. -/
def Command.atStop (k : Command) : Bool :=
  match k.st with
  | .moving =>
    match k.kind with
    | .mloop => !k.finished
    | .mldw => false
    | .mstr => false
    | _ => k.waiting.isEmpty && k.fetched.isEmpty && k.peerGot.isEmpty && k.toSend.isEmpty && decide (k.unacked = 0) && decide (k.asked = 0) &&
      k.cribOut.isEmpty && k.broken.isNone && !k.written
  | _ => true

/-- A command of a column. -/
def Column.cmd (x : Column) (id : Nat) : Option Command := x.cmds.find? fun k => decide (k.id = id)
/-- The column with one command replaced. -/
def Column.setCmd (x : Column) (k : Command) : Column :=
  { x with cmds := x.cmds.map fun j => if j.id = k.id then k else j }

/-- Every future of a column, in handles and in tokens of HGET, changed. -/
def Column.mapHandles (x : Column) (f : Handle → Handle) : Column :=
  { x with
    warps := Tab.mapVals (fun _ (w : Warp) => { w with h := Tab.mapVals (fun _ h => f h) w.h }) x.warps
    groups := Tab.mapVals (fun _ (g : Group) => { g with tickets := Tab.mapVals (fun _ h => f h) g.tickets }) x.groups }

/-- The same in a saved group. -/
def Saved.mapHandles (v : Saved) (f : Handle → Handle) : Saved :=
  { v with
    group := { v.group with tickets := Tab.mapVals (fun _ h => f h) v.group.tickets }
    warps := v.warps.map fun (w : Warp) => { w with h := Tab.mapVals (fun _ h => f h) w.h } }

/-- Every saved group of a launch changed. -/
def Launch.mapSaved (l : Launch) (f : Saved → Saved) : Launch :=
  let one (g : GroupState) : GroupState := { g with saved := g.saved.map f }
  { l with groups := Tab.mapVals (fun _ g => one g) l.groups }

/-- Every saved group changed. -/
def State.mapSaved (s : State) (f : Saved → Saved) : State :=
  let one (nd : Node) : Node := { nd with launch := nd.launch.mapSaved f }
  { s with dist := { s.dist with nodes := Tab.mapVals (fun _ nd => one nd) s.dist.nodes } }

/-- The futures that name a command changed, wherever they stand (R174). -/
def State.setFuture (s : State) (c id : Nat) (f : Handle → Handle) : State :=
  let g (h : Handle) : Handle := if h.cmd = id then f h else h
  (s.updCol c fun x => x.mapHandles g).mapSaved fun v => v.mapHandles g

/-- A command's claims released in every column (R242). -/
def State.dropClaims (s : State) (id : Nat) : State :=
  { s with cols := Tab.mapVals (fun _ (x : Column) =>
      x.updBay fun b => { b with claims := b.claims.filter fun c => decide (c.cmd ≠ id) }) s.cols }

/-- The copy queues of a column that hold no command unbound (R237). -/
def Column.unbindQueues (x : Column) : Column :=
  { x with hwq := Tab.keep (fun _ q => x.cmds.any fun k => decide (k.kind = .copy) && decide (k.entry = q.1) && decide (k.queue = q.2)) x.hwq }

/-- A hold of an agent's later words ended by its command (R241). -/
def Column.dropClaimHold (x : Column) (id : Nat) : Column :=
  let f (l : List Hold) : List Hold := l.filter (· ≠ .claim id)
  { x with
    warps := Tab.mapVals (fun _ (w : Warp) => { w with holds := f w.holds }) x.warps
    ctxs := Tab.mapVals (fun _ (c : LaneCtx) => { c with holds := f c.holds }) x.ctxs
    tinker := { x.tinker with holds := f x.tinker.holds } }

/-- A command taken out of its queue with its claims, and its future given a state (R176, R237, R241). -/
def State.dropCommand (s : State) (c id : Nat) (f : Handle → Handle) : State :=
  ((s.dropClaims id).updCol c fun x =>
    (({ x with cmds := x.cmds.filter fun k => decide (k.id ≠ id) }).unbindQueues).dropClaimHold id).setFuture c id f

/-- A command cancelled (R176): at once at a stopping point, else at its next one. -/
def State.cancelCommand (s : State) (c id : Nat) : State :=
  match (s.col c).cmd id with
  | none => s.setFuture c id fun _ => {}
  | some k => if k.atStop then s.dropCommand c id fun _ => {} else s.updCol c fun x => x.setCmd { k with cancel := true }

/-! ## Futures (R174 to R177) -/

/-- A handle of the issuing agent's warp written. -/
def State.setHandle (s : State) (i : Nat) (h : Handle) : State :=
  s.updWarp fun w => { w with h := Tab.store ({} : Handle) w.h i h }

/-- A word that writes a handle blocks while the handle is PENDING (R174). -/
def State.unlessPending (s : State) (i : Nat) (run : State → Host.Outcome State Fault Refusal) : Host.Outcome State Fault Refusal :=
  if (s.handle i).st = .pending then .next (s.blockAt (.handle i)) else run s

/-- A handle about to be written: FAULTED first cancels its command (R174). -/
def State.takeHandle (s : State) (i : Nat) : State :=
  if (s.handle i).st = .faulted ∧ (s.handle i).unit ≠ 3 then s.cancelCommand s.cur.col (s.handle i).cmd else s

/-- What HTEST reports (R176). -/
def Handle.status (h : Handle) : Dword :=
  let st : Nat := match h.st with | .free => 0 | .pending => 1 | .done => 2 | .faulted => 3
  BitVec.ofNat 64 ((if h.st = .faulted then h.code * 256 else 0) + h.unit * 16 + st)

/-- DETAIL of FUTURE_FAULT and ENGINE_FAULT (R346). -/
def Handle.detail (h : Handle) (i : Nat) : BitVec 64 :=
  BitVec.ofNat 64 (i + h.unit * 2 ^ 8 + h.code * 2 ^ 16 + h.record % 2 ^ 16 * 2 ^ 32)

/-- HWAIT: the run ends; DONE acquires at column scope, or at device scope for a LAUNCH, and frees the handle (R175). -/
def execHwait (a : BitVec 4) (s : State) :=
  accept .plain s fun s => outsideTx s fun s =>
    let h := s.handle a.toNat
    match h.st with
    | .pending => .next (s.holdAt (.handle a.toNat))
    | .done => .next ((s.acquire (if h.unit = 3 then 7 else 4)).setHandle a.toNat {}).endRun
    | .faulted => .next (s.raise .futureFault { lanes := s.active, detail := h.detail a.toNat })
    | .free => .next s.endRun

def execHtest (d : BitVec 6) (a : BitVec 4) (s : State) :=
  accept .plain s fun s => outsideTx s fun s => s.vlScalar d (s.handle a.toNat).status

/-- HCANCEL (R176): a LAUNCH's future is freed at once; an engine command's blocks until the engine has stopped. -/
def execHcancel (a : BitVec 4) (s : State) :=
  accept .plain s fun s => outsideTx s fun s =>
    let h := s.handle a.toNat
    let again := match s.cur.wait with | .command id => decide (h.cmd ≠ id) | _ => false
    if again then .next s
    else if h.st = .free ∨ h.st = .done ∨ h.unit = 3 then .next (s.setHandle a.toNat {})
    else
      let t := s.cancelCommand s.cur.col h.cmd
      if (t.here.cmd h.cmd).isSome then .next (t.blockAt (.command h.cmd)) else .next (t.setHandle a.toNat {})

/-- HGET: a token for the handle's command, with the lowest ticket number that the group has free; the handle becomes free (R177). With
all 65,536 in use it blocks until an HPUT spends one (log 17, DESIGN CHOICE). -/
def execHget (d : BitVec 6) (a : BitVec 4) (s : State) :=
  accept .plain s fun s => outsideTx s fun s =>
    let h := s.handle a.toNat
    if !s.mayWriteS d.toNat then .next (s.trap .divergentScalar)
    else if h.st = .free then s.vlScalar d 0#64
    else
      match firstBelow 65536 fun n => (Tab.find? s.group.tickets n).isNone with
      | none => .next (s.blockAt .ticket)
      | some n =>
        let t := (s.setHandle a.toNat {}).updHere fun x =>
          let g := x.group s.entry
          x.setGroup s.entry { g with tickets := Tab.put g.tickets n h }
        t.vlScalar d (BitVec.ofNat 64 (2 ^ 63 + n))

/-- HPUT: a token installed and spent, and its command known by this handle from then on (R346); 0 frees the handle; anything else is
FUTURE_STALE (R177). -/
def execHput (d : BitVec 4) (a : BitVec 6) (s : State) :=
  accept .plain s fun s => outsideTx s fun s =>
    let v := s.sr a
    let n := (v.extractLsb' 0 16).toNat
    s.unlessPending d.toNat fun s =>
      if v = 0#64 then .next ((s.takeHandle d.toNat).setHandle d.toNat {})
      else
        match (if v.extractLsb' 16 48 = 0x800000000000#48 then Tab.find? s.group.tickets n else none) with
        | none => .next (s.trap .futureStale)
        | some h =>
          .next (((s.takeHandle d.toNat).setHandle d.toNat h).updHere fun x =>
            let x := x.setGroup s.entry { x.group s.entry with tickets := Tab.erase (x.group s.entry).tickets n }
            { x with cmds := x.cmds.map fun (k : Command) =>
                if k.id = h.cmd ∧ h.unit ≠ 3 then { k with slot := s.slot, handle := d.toNat } else k })

/-! ## The commit token (R178) -/

/-- TOKWAIT: no effect outside a deterministic launch; holding is an acquire at column scope. -/
def execTokwait (s : State) :=
  accept .plain s fun s => outsideTx s fun s =>
    if !s.isDet then .next s
    else if s.holdsToken s.cur.col s.slot then .next (s.acquire 4).endRun
    else .next (s.holdAt .token)

/-- TOKPASS: a release at column scope by the holder, then the token moves on; no effect by another warp. -/
def execTokpass (s : State) :=
  accept .plain s fun s => outsideTx s fun s =>
    if !s.isDet || !s.holdsToken s.cur.col s.slot then .next s
    else s.afterRelease 4 fun s => .next (s.passToken s.cur.col s.slot)

end Sys2Proof.Machine
end

