-- ==== Sys2Proof/Machine/HostOps.lean ====
section
/-! DEFINITION. What every agent that speaks to the host shares: host memory by function, MSI-X vectors, messages of the
PF0 mailbox (R364), and fault reports (R337, R363). -/

namespace Sys2Proof.Machine

/-- A function's rings and table. -/
def HostSide.fn (h : HostSide) (n : Nat) : Fn := Tab.get {} h.fns n
/-- The host side with one function replaced. -/
def HostSide.setFn (h : HostSide) (n : Nat) (f : Fn) : HostSide := { h with fns := Tab.put h.fns n f }

/-- A vector sent, if the function's table has it (R182). -/
def HostSide.sendVector (h : HostSide) (fn v : Nat) : HostSide :=
  if v < (h.fn fn).msix then { h with msix := h.msix ++ [(fn, v)] } else h

/-! ## The mailbox (R364) -/

/-- A message: its 32-byte header and its payload. -/
def message (op flags tag status : Nat) (payload : List Byte) : List Byte :=
  bytesOf 2 op ++ bytesOf 2 flags ++ bytesOf 4 payload.length ++ bytesOf 8 tag ++ bytesOf 4 status ++ bytesOf 12 0 ++ payload

/-- A mailbox count after one more message: it wraps modulo 2^32 (R363). -/
def nextCount (v : BitVec 64) : BitVec 64 := BitVec.ofNat 64 ((v.toNat + 1) % 2 ^ 32)

/-- Messages written into the device-to-host ring as far as it has slots, each with vector 0 of PF0. -/
def HostSide.flush : Nat → HostSide → HostSide
  | 0, h => h
  | n + 1, h =>
    match h.outbox with
    | [] => h
    | m :: rest =>
      if 64 ≤ (h.d2hTail.toNat + 2 ^ 32 - h.d2hHead.toNat) % 2 ^ 32 then h
      else
        let h := { h with outbox := rest }
        let h := h.write 0 (h.d2hBase.toNat + 4096 * (h.d2hTail.toNat % 64)) m
        HostSide.flush n (({ h with d2hTail := nextCount h.d2hTail } : HostSide).sendVector 0 0)

/-- A message sent to the host; one that finds the ring full waits for a slot (log 18, DESIGN CHOICE). -/
def HostSide.send (h : HostSide) (m : List Byte) : HostSide :=
  let h := { h with outbox := h.outbox ++ [m] }
  h.flush h.outbox.length

/-- The kinds of EVENT message, numbered in R364's order (log 19, DESIGN CHOICE). -/
inductive HostEvent where
  | thermalTrip | strandRetired | linkRetired | bootFailed | undelivered
  deriving DecidableEq, Repr

/-- The code of an event kind. -/
def HostEvent.code : HostEvent → Nat
  | .thermalTrip => 0 | .strandRetired => 1 | .linkRetired => 2 | .bootFailed => 3 | .undelivered => 4

/-- An EVENT message to PF0. -/
def State.event (s : State) (e : HostEvent) (column count : Nat) : State :=
  let m := message 0x0B 0 s.host.nextTag 0 (bytesOf 2 e.code ++ bytesOf 2 column ++ bytesOf 8 s.time ++ bytesOf 4 count)
  { s with host := ({ s.host with nextTag := s.host.nextTag + 1 } : HostSide).send m }

/-! ## Fault reports (R337, R363) -/

/-- A report to a fault domain. -/
structure Report where
  kind : Nat
  code : Nat := 0
  scope : Nat := 0
  node : Nat := 0
  group : Nat := 0xFFFFFFFF
  column : Nat := 0xFFFF
  gcol : Nat := 0xFF
  runtime : Nat := 0
  ended : Nat := 0
  addr : Nat := 0
  deriving DecidableEq, Repr

/-- The 64 bytes of a report. -/
def Report.record (r : Report) (time : Nat) : List Byte :=
  bytesOf 1 r.kind ++ bytesOf 1 r.code ++ bytesOf 1 r.scope ++ bytesOf 1 0 ++ bytesOf 4 r.node ++ bytesOf 4 r.group ++
  bytesOf 2 r.column ++ bytesOf 1 r.gcol ++ bytesOf 1 0 ++ bytesOf 8 time ++ bytesOf 8 r.runtime ++ bytesOf 4 r.ended ++
  bytesOf 4 r.addr ++ bytesOf 24 0

/-- Entries of a function's fault-report ring. -/
def Fn.fringSize (f : Fn) : Nat := 2 ^ regField f.fringCfg 4 0

/-- Is a function's fault-report ring full? -/
def Fn.fringFull (f : Fn) : Bool := decide (f.fringSize ≤ (f.fringTail + 2 ^ 32 - f.fringHead) % 2 ^ 32)

/-- A report written at the ring's tail, with vector 1 when the ring held no unread report. -/
def HostSide.putReport (h : HostSide) (fn : Nat) (b : List Byte) : HostSide :=
  let f := h.fn fn
  let first := decide (f.fringTail = f.fringHead)
  let h := h.write fn (f.fringBase.toNat + 64 * (f.fringTail % f.fringSize)) b
  let h := h.setFn fn { f with fringTail := (f.fringTail + 1) % 2 ^ 32 }
  if first then h.sendVector fn 1 else h

/-- A report's bytes handed to a function: written, kept while the ring is full or older reports are kept, or counted as undelivered, of which
PF0 is told. -/
def State.giveReport (s : State) (fn : Nat) (b : List Byte) : State :=
  let f := s.host.fn fn
  if f.fringCfg.getLsbD 63 ∧ ¬ f.fringFull ∧ f.kept.isEmpty then { s with host := s.host.putReport fn b }
  else if f.fringCfg.getLsbD 63 ∧ f.kept.length < 64 then { s with host := s.host.setFn fn { f with kept := f.kept ++ [b] } }
  else
    let n := s.host.undelivered + 1
    ({ s with host := { s.host with undelivered := n } } : State).event .undelivered 0xFFFF n

/-- Completed entries of a launch ring counted in ring order (R363). -/
def Fn.advance : Nat → Fn → Fn
  | 0, f => f
  | n + 1, f =>
    if f.finished.contains f.ringHead then
      Fn.advance n { f with ringHead := (f.ringHead + 1) % 2 ^ 32, finished := f.finished.filter (· ≠ f.ringHead) }
    else f

/-- A ring entry's completion (R339, R363): its status, then its vector; nothing for a function whose region has been unbound (R362). -/
def HostSide.ringDone (h : HostSide) (fn idx vector status : Nat) : HostSide :=
  let f := h.fn fn
  if f.region.isNone then h
  else
    let h := h.write fn (f.ringBase.toNat + 64 * (idx % 2 ^ regField f.ringCfg 4 0) + 0x18) (bytesOf 8 (2 ^ 63 + status))
    let f := { f with finished := idx :: f.finished }
    let h := h.setFn fn (f.advance f.finished.length)
    if vector = 0xFFFF then h else h.sendVector fn vector

/-- A report or a ring entry's completion given to its function. -/
def State.deliver (s : State) (p : Posted) : State :=
  match p.ring with
  | some (idx, vec, st) => { s with host := s.host.ringDone p.fn idx vec st }
  | none => s.giveReport p.fn p.report

/-- A release at host scope by the factor complex or the distributor, and what follows it (R31, R337, R339): the dirty host-tier lines of
some columns are handed to their host links, and the report or completion waits for their acknowledgement. -/
def State.post (s : State) (cols : List Nat) (p : Posted) : State :=
  let s := cols.foldl (fun (s : State) c => s.updCol c fun x => x.updBay Bay.postWriteBacks) s
  let waits := cols.flatMap fun c => ((s.col c).bay.hostOut.filter (·.2.1)).map fun h => (c, h.1)
  if waits.isEmpty then s.deliver p else { s with host := { s.host with posted := s.host.posted ++ [{ p with awaits := waits }] } }

/-- A write-back of a column acknowledged: what waited for no other is given to its function, oldest first. -/
def State.acknowledged (s : State) (c line : Nat) : State :=
  let l := s.host.posted.map fun p => { p with awaits := p.awaits.erase (c, line) }
  let done := l.filter (·.awaits.isEmpty)
  done.foldl (fun s p => s.deliver p) { s with host := { s.host with posted := l.filter (!·.awaits.isEmpty) } }

/-- A report made to a function, with a release at host scope. -/
def State.report (s : State) (fn : Nat) (r : Report) : State := s.post (Tab.keys s.cols) { fn := fn, report := r.record s.time }

/-- Reports kept while the ring was full, written as space appears (R363). -/
def HostSide.drainKept : Nat → HostSide → Nat → HostSide
  | 0, h, _ => h
  | n + 1, h, fn =>
    let f := h.fn fn
    match f.kept with
    | [] => h
    | b :: rest =>
      if f.fringFull ∨ ¬ f.fringCfg.getLsbD 63 then h else HostSide.drainKept n ((h.setFn fn { f with kept := rest }).putReport fn b) fn

end Sys2Proof.Machine
end

