-- ==== Sys2Proof/Machine/Groups.lean ====
section
/-! DEFINITION. The end of warps, groups and launches (R179, R262, R335, R336): freeing slots, contexts, barrier entries
and shares, and finishing a launch's future, node and ring entry (R322, R339). -/

namespace Sys2Proof.Machine

/-! ## Role weights and credits (R78, R81) -/

/-- The number of a role's class: copy, matrix, vector, unified. -/
def Role.index : Role → Nat
  | .copy => 0 | .matrix => 1 | .vector => 2 | .unified => 3

/-- The weight that a task record gives a role class. -/
def Task.weightOf (t : Task) (r : Nat) : Nat := if r = 3 then 1 else t.rwt / 16 ^ r % 16

/-- The weight of a role class on a quarter: the largest that a launch with a resident warp of the role there gives it;
none where no such warp is resident. -/
def State.weightOf (s : State) (c q r : Nat) : Option Nat :=
  let x := s.col c
  (List.range 16).foldl (fun best j =>
    let w := x.warp (16 * q + j)
    if w.live ∧ w.role.index = r then
      some (max (best.getD 0) ((s.node (x.group w.entry).launch).launch.task.weightOf r))
    else best) none

/-- Credits lowered to the weights that are left when a warp has gone (R81). -/
def State.trimCredits (s : State) (c : Nat) : State :=
  (List.range 4).foldl (fun s q =>
    let f (r : Nat) : Nat :=
      let old := ((s.col c).quarter q).credits.getD r 0
      match s.weightOf c q r with
      | some w => min old w
      | none => old
    s.updCol c fun x => x.setQuarter q { x.quarter q with credits := (List.range 4).map f }) s

/-- Does a quarter hold a resident warp? -/
def Column.occupied (x : Column) (q : Nat) : Bool := (List.range 16).any fun j => (x.warp (16 * q + j)).live

/-- Credits set to the weights on the quarters that held no resident warp before and hold one now (R81). -/
def State.loadCredits (s : State) (c : Nat) (before : Column) : State :=
  (List.range 4).foldl (fun s q =>
    let f (r : Nat) : Nat := (s.weightOf c q r).getD (((s.col c).quarter q).credits.getD r 0)
    if !before.occupied q && (s.col c).occupied q then
      s.updCol c fun x => x.setQuarter q { x.quarter q with credits := (List.range 4).map f }
    else s) s

/-! ## Freeing a core's parts -/

/-- A warp slot freed with its lane contexts, its memory words and their requests, its events and its reassembly
entries. Memory words not performed yet are dropped (log 20, DESIGN CHOICE). -/
def Column.clearSlot (x : Column) (n : Nat) : Column :=
  let gone := (x.mops.filter fun m => x.ofSlot n m.who).map (·.id)
  let reqs := x.bay.reqs.filter fun r => r.put.isNone && gone.contains r.op
  let ctxs := (x.ctxs.filter fun e => e.2.live && decide (e.2.slot = n)).map Prod.fst
  let x := x.endRun n
  let x := x.updBay fun b => reqs.foldl (fun b r => b.removeReq r) b
  { x with
    mops := x.mops.filter fun m => !gone.contains m.id
    port := x.port.filter fun j => !ctxs.contains j.ctx
    ctxs := Tab.keep (fun i _ => !ctxs.contains i) x.ctxs
    warps := Tab.erase x.warps n
    tinker := { x.tinker with queue := x.tinker.queue.filter fun e => !(decide (e.tier ≤ 1) && decide (e.slot.toNat = n)) }
    nifCore := { x.nifCore with entries := Tab.keep (fun _ e => decide (e.2 ≠ n)) x.nifCore.entries } }

/-- The slots of a group entry's warps, ascending. -/
def Column.slotsOf (x : Column) (entry : Nat) : List Nat :=
  (List.range 64).filter fun n => (x.warp n).live && decide ((x.warp n).entry = entry)

/-- The launches resident on a column. -/
def Column.holdsLaunch (x : Column) (launch : Nat) : Bool :=
  x.groups.any fun e => e.2.live && decide (e.2.launch = launch)

/-- The launches with a share of a core's thresher and crib. -/
def Column.shares (x : Column) : List Nat := (x.cribs.filter (·.2.live)).map Prod.fst

/-- Bytes of a launch's save of R284: its crib reservation, its accumulator tiles, both planes and the grant table. -/
def Launch.shareBytes (l : Launch) : Nat := l.task.crib * 1024 + l.task.accum * 65536 + 2 * 67584 + 1024

/-- A launch's share of a core given up when its last group there has left and no thresher command of it runs on: saved
with the launch for its next residency (R262, R284). -/
def State.releaseShare (s : State) (c launch : Nat) : State :=
  let x := s.col c
  if x.holdsLaunch launch || x.cmds.any (fun k => decide (k.launch = launch) && decide (k.queue = 5)) then s
  else
    let nd := s.node launch
    let grants := (x.grants.filter fun e => e.2.live && decide (e.2.launch = launch)).map fun e => (c, e.1, e.2)
    let again := nd.launch.groups.any fun e => decide (e.2.place ≠ .ended) && decide (nd.launch.map.getD e.2.gcol 0 = c)
    let keep := decide (nd.kind = .launch) && again
    let saved :=
      match (if keep then Tab.find? x.cribs launch else none) with
      | some sh => Tab.put nd.launch.savedCrib c sh
      | none => nd.launch.savedCrib
    let s := if keep then s.setNode launch { nd with launch := { nd.launch with
        savedCrib := saved, savedGrants := nd.launch.savedGrants.filter (fun g => decide (g.1 ≠ c)) ++ grants } } else s
    s.updCol c fun x =>
      { x with
        sysUsed := x.sysUsed + (if keep ∧ (Tab.find? x.cribs launch).isSome then nd.launch.shareBytes else 0)
        cribs := Tab.erase x.cribs launch
        grants := Tab.mapVals (fun _ (g : Grant) => if g.live ∧ g.launch = launch then { g with live := false } else g) x.grants }

/-- A group entry freed with its warps and barrier entries (R179). Its commands are cancelled at their stopping points
(R335). -/
def State.leaveCore (s : State) (c entry : Nat) : State :=
  let x := s.col c
  let launch := (x.group entry).launch
  let s := (x.cmds.filter fun k => decide (k.entry = entry)).foldl (fun s k =>
    if k.atStop then s.dropCommand c k.id fun h => h
    else s.updCol c fun x => x.setCmd { k with cancel := true, entry := 64, slot := 64 }) s
  let s := s.updCol c fun x =>
    let x := (x.slotsOf entry).foldl (fun x n => x.clearSlot n) x
    let x := (List.range 256).foldl (fun x i =>
      if (x.barrier i).st ≠ .free ∧ (x.barrier i).entry = entry then x.freeBarrier i else x) x
    { x with groups := Tab.erase x.groups entry, sysUsed := x.sysUsed - (x.group entry).reserved }
  (s.trimCredits c).releaseShare c launch

/-! ## Groups and launches -/

/-- The columns whose memory engine descriptors reach by gcol: a lost column behind its proxy (R361). -/
def Launch.memMap (l : Launch) : List Nat :=
  (l.map.zip (List.range l.map.length)).map fun e => (Tab.find? l.lostCols e.2).getD e.1

/-- A group of a launch replaced. -/
def State.setGroupState (s : State) (node gid : Nat) (g : GroupState) : State :=
  let nd := s.node node
  s.setNode node { nd with launch := { nd.launch with groups := Tab.put nd.launch.groups gid g } }

/-- A group of a launch. -/
def Launch.groupOf (l : Launch) (gid : Nat) : GroupState := Tab.get {} l.groups gid
/-- The physical column of a group (R27). -/
def Launch.columnOf (l : Launch) (gid : Nat) : Nat := l.map.getD (l.groupOf gid).gcol 0

/-- The commit token of a column moved past holders that have ended (R341). -/
def State.fixToken (s : State) (node c : Nat) : State :=
  let nd := s.node node
  match Tab.find? nd.launch.tokens c with
  | none => s
  | some (gid, w) =>
    let g := nd.launch.groupOf gid
    if g.place ≠ .ended ∧ ¬ g.endedWarps.contains w then s
    else
      let toks := match nd.launch.nextHolder c gid w with
        | some p => Tab.put nd.launch.tokens c p
        | none => Tab.erase nd.launch.tokens c
      let s := s.setNode node { nd with launch := { nd.launch with tokens := toks } }
      match (nd.launch.nextHolder c gid w).bind fun p => (s.col c).slotNamed node p.1 p.2 with
      | some k => s.performDeferred c k
      | none => s

/-- A saved group dropped: its commands' claims and its save area. -/
def State.dropSaved (s : State) (c : Nat) (v : Saved) : State :=
  (v.cmds.foldl (fun s k => s.dropClaims k.id) s).updCol c fun x => { x with sysUsed := x.sysUsed - v.bytes }

/-- The first commit-token holder of a column of a launch (R341). -/
def State.startToken (s : State) (node c : Nat) : State :=
  let nd := s.node node
  if nd.launch.det ∧ (Tab.find? nd.launch.tokens c).isNone then
    match (nd.launch.groups.filter fun e => decide (nd.launch.map.getD e.2.gcol 0 = c) && decide (e.2.place ≠ .ended)).head? with
    | some (g, gs) =>
      let w := (firstBelow nd.launch.task.warps fun i => !gs.endedWarps.contains i).getD 0
      s.setNode node { nd with launch := { nd.launch with tokens := Tab.put nd.launch.tokens c (g, w) } }
    | none => s
  else s

/-- A group ended wherever it stands (R185, R335). -/
def State.endGroup (s : State) (node gid : Nat) : State :=
  let l := (s.node node).launch
  let g := l.groupOf gid
  let c := l.columnOf gid
  let s :=
    match g.place with
    | .resident e => s.leaveCore c e
    | _ => match g.saved with | some v => s.dropSaved c v | none => s
  let g := (s.node node).launch.groupOf gid
  (s.setGroupState node gid { g with place := .ended, saved := none }).fixToken node c

/-- Every group of a launch has ended (R336). -/
def Launch.over (l : Launch) : Bool := l.groups.all fun e => decide (e.2.place = .ended)

/-- Does a command of a launch still run on some column? -/
def State.running (s : State) (node : Nat) : Bool := s.cols.any fun x => x.2.cmds.any fun k => decide (k.launch = node)

/-- Bytes of the mailbox areas of a launch on the column of a gcol (R297). -/
def Launch.mailBytes (l : Launch) (g : Nat) : Nat :=
  (l.groups.filter fun e => e.2.gcol == g && decide (e.2.localGroup < 16)).length * l.task.warps * 256 * l.map.length

/-- A launch finished (R322, R331, R336, R339): its future DONE, or FAULTED with a code; its ring entry completed; its
mailboxes and its node freed. -/
def State.finishLaunch (s : State) (node : Nat) : State :=
  let l := (s.node node).launch
  let s := if l.future = 0 then s else s.setFuture l.col l.future fun h =>
    match l.ending with
    | some code => { h with st := .faulted, code := code }
    | none => { h with st := .done }
  let s :=
    match l.ring with
    | some (fn, idx, vec) =>
      let status := match l.ending with | some code => code * 256 + 0x33 | none => 0x32
      s.post l.map { fn := fn, ring := some (idx, vec, status) }
    | none => s
  let s := (l.map.zip (List.range l.map.length)).foldl (fun s e =>
    s.updCol e.1 fun x =>
      { x with
        sysUsed := x.sysUsed - l.mailBytes e.2
        cribs := Tab.erase x.cribs node
        mail := Tab.keep (fun k _ => decide (k / 2 ^ 18 ≠ l.gang)) x.mail
        xbar := x.xbar.filter fun a => decide (a.1 / 2 ^ 10 ≠ l.gang) }) s
  let s := l.savedCrib.foldl (fun s e => s.updCol e.1 fun x => { x with sysUsed := x.sysUsed - l.shareBytes }) s
  { s with dist := { s.dist with nodes := Tab.erase s.dist.nodes node } }

/-- A launch finished as soon as its groups have ended and its commands have stopped. -/
def State.tryFinish (s : State) (node : Nat) : State :=
  let nd := s.node node
  if nd.kind = .launch ∧ nd.launch.over ∧ ¬ s.running node then s.finishLaunch node else s

/-- Every group of a launch ended with a code (R335, R336). -/
def State.endLaunch (s : State) (node code : Nat) : State :=
  let nd := s.node node
  let s := s.setNode node { nd with launch := { nd.launch with ending := some code } }
  ((Tab.keys nd.launch.groups).foldl (fun s g => s.endGroup node g) s).tryFinish node

/-- The groups of a launch that have not ended. -/
def Launch.living (l : Launch) : Nat := (l.groups.filter fun e => decide (e.2.place ≠ .ended)).length

/-- A group ended by the tinker (R185 action 2), and the launch finished if it was the last. -/
def State.killGroup (s : State) (node gid : Nat) : State := (s.endGroup node gid).tryFinish node

/-- A launch ended by the tinker (R185 action 3), with a report to its fault domain (R337). -/
def State.killLaunch (s : State) (node : Nat) : State :=
  let nd := s.node node
  let r : Report := { kind := 4, code := 18, scope := 1, node := node, runtime := nd.runtime, ended := nd.launch.living }
  (s.report nd.eff.fdom r).endLaunch node 18

/-! ## A warp's end (R179) -/

/-- Has a warp whose lanes have all exited nothing left that it issued, with no lane out and no trap to be served? -/
def Column.warpQuiet (x : Column) (n : Nat) : Bool := x.slotQuiet n && decide (x.lanesOut n = 0#32) && (x.warp n).stop.isNone

/-- A warp whose last lane has exited ends: a release at column scope, and its slot is freed; the group ends with its
last warp. -/
def State.reap (s : State) (c n : Nat) : State :=
  let w := (s.col c).warp n
  if ¬ w.live ∨ w.exited ≠ 0xFFFFFFFF#32 then s
  else
    let s := (s.performDeferred c n).passToken c n
    if !(s.col c).warpQuiet n then s
    else
      match (s.col c).drain 0 w.drain with
      | (false, upTo, x) => s.setCol c (x.setWarp n { x.warp n with drain := upTo })
      | (true, _, x) =>
      let g := x.group w.entry
      let s := (s.setCol c (x.clearSlot n)).trimCredits c
      let gs := (s.node g.launch).launch.groupOf g.gid
      let s := (s.setGroupState g.launch g.gid { gs with endedWarps := gs.endedWarps ++ [w.index] }).fixToken g.launch c
      if ((s.col c).slotsOf w.entry).isEmpty then
        let s := s.leaveCore c w.entry
        let gs := (s.node g.launch).launch.groupOf g.gid
        (s.setGroupState g.launch g.gid { gs with place := .ended }).fixToken g.launch c
      else s

end Sys2Proof.Machine
end

