-- ==== Sys2Proof/Machine/Launch.lean ====
section
/-! DEFINITION. Launches: region control blocks and effective values (R323, R324), task records and their checks (R325,
R326), column maps and placement (R327 to R329), launch rings (R339), and the word LAUNCH (R183). -/

namespace Sys2Proof.Machine

/-! ## Reading for the distributor -/

/-- Bytes of one line read at a column's bay for a context, every U copy recalled first, of the line and of a window's backing (R30, R61,
R220). -/
def State.bayBytes (s : State) (c ctx pa n : Nat) : List Byte × State :=
  let x := (s.col c).recallU s.free (lineOf pa)
  let x := match x.bay.kindOf ctx pa with | .aliased k => (x.backOf k (lineOf pa)).foldl (fun x ln => x.recallU s.free ln) x | _ => x
  (s.setCol c x).homeBytes c ctx pa n

/-- Readable bytes at an offset of a context in a column, eight at a time; none where a page does not allow it, or nothing is mapped (R30). -/
def State.ctxBytes (s : State) (c ctx : Nat) : Nat → Nat → Option (List Byte) × State
  | 0, _ => (some [], s)
  | n + 1, off =>
    match s.translate c ctx off false with
    | (none, s) => (none, s)
    | (some e, s) =>
      if e.kind ≠ 0 ∨ ¬ e.r ∨ (s.col c).bay.openKind ctx (e.at_ off) = .hole then (none, s)
      else
        let (b, s) := s.bayBytes c ctx (e.at_ off) 8
        match s.ctxBytes c ctx n (off + 8) with
        | (none, s) => (none, s)
        | (some rest, s) => (some (b ++ rest), s)

/-- A field of a record: size bytes at an offset. -/
def fieldOf (b : List Byte) (off size : Nat) : Nat := natOfBytes ((b.drop off).take size)

/-- Are the bytes of a record from lo up to hi zero? -/
def zeroBytes (b : List Byte) (lo hi : Nat) : Bool := ((b.drop lo).take (hi - lo)).all (· == 0#8)

/-! ## Region control blocks (R323) -/

/-- Is an RCB valid? -/
def rcbValid (b : List Byte) : Bool :=
  let f := fieldOf b
  decide (b.length = 128) && decide (f 0 4 < 2 ^ 15) && decide (f 4 1 ≤ 2) && decide (f 5 1 ≤ 15) && decide (f 6 1 < 16) &&
  decide (f 6 1 / 4 ≤ 2) && decide (f 7 1 ≤ 3) && decide (1 ≤ f 8 2) && decide (f 10 2 < 64) && decide (1 ≤ f 12 2) &&
  decide (f 12 2 ≤ 64) && decide (f 14 2 ≤ 1024) && decide (1 ≤ f 0x1C 1) && decide (f 0x1C 1 ≤ 15) && zeroBytes b 0x1D 0x20 &&
  ((List.range 8).all fun i =>
    let q := f (0x60 + 2 * i) 2
    decide (q % 2048 ≤ 1024) && (decide (q / 2048 = 0) || (decide (i = 6) && decide (q / 2048 = 16)))) &&
  zeroBytes b 0x70 0x80

/-- The smaller of two numbers that mean no limit when 0. -/
def minLimit (a b : Nat) : Nat := if a = 0 then b else if b = 0 then a else min a b

/-- The unspent budget of a node (R324): none when it is spent, 0 for no limit. -/
def Node.unspent (n : Node) : Option Nat :=
  if n.eff.budget = 0 then some 0 else if n.eff.budget ≤ n.runtime then none else some (n.eff.budget - n.runtime)

/-- A node's effective values from its RCB and its parent's, with the budget that the parent leaves it (R324). -/
def effective (b : List Byte) (p : Eff) (left : Nat) : Eff :=
  let f := fieldOf b
  let bit (i : Nat) : Bool := bitOf (f 0 4) i
  { prio := if bit 0 then min (f 5 1) p.prio else p.prio
    det := if bit 1 then bitOf (f 6 1) 0 || p.det else p.det
    retire := if bit 2 then bitOf (f 6 1) 1 else p.retire
    mode := if bit 3 then f 6 1 / 4 else p.mode
    part := if bit 4 then f 7 1 else p.part
    quantum := if bit 5 then f 8 2 else p.quantum
    fdom := if bit 6 then f 10 2 else p.fdom
    slots := if bit 7 then min (f 12 2) p.slots else p.slots
    crib := if bit 8 then min (f 14 2) p.crib else p.crib
    budget := if bit 9 then minLimit (f 16 8) left else left
    bonus := p.bonus
    bweight := if bit 11 then f 0x1C 1 else p.bweight
    cmask := if bit 12 then BitVec.ofNat 256 (f 0x20 32) &&& p.cmask else p.cmask
    ways := (List.range 16).map fun i =>
      let w := p.ways.getD i 0xFFFF#16
      if bit 13 then BitVec.ofNat 16 (f (0x40 + 2 * i) 2) &&& w else w
    quota := (List.range 8).map fun i =>
      let q := p.quota.getD i 0#16
      let own := f (0x60 + 2 * i) 2
      if bit 14 then BitVec.ofNat 16 (minLimit (own % 2048) (q.toNat % 2048) + own / 2048 * 2048) else q }

/-- Does an RCB serve as a launch's: its kind, and no override of bits 3, 4, 10 and 11 (R324)? -/
def rcbForLaunch (b : List Byte) : Bool :=
  rcbValid b && decide (fieldOf b 4 1 = 2) && !bitOf (fieldOf b 0 4) 3 && !bitOf (fieldOf b 0 4) 4 && !bitOf (fieldOf b 0 4) 10 &&
    !bitOf (fieldOf b 0 4) 11

/-! ## Task records (R325, R326) -/

/-- The fields of a task record. -/
def taskOf (b : List Byte) : Task :=
  let f := fieldOf b
  { code := f 0 8, codelen := f 8 4, ngroups := f 0xC 4, dtab := f 0x10 8, limg := f 0x18 8, limglen := f 0x20 4, locals := f 0x24 4
    ngcol := f 0x28 2, warps := f 0x2A 1, ejt := f 0x2B 1, roles := [f 0x2C 1, f 0x2D 1, f 0x2E 1], rwt := f 0x30 2
    tflags := f 0x32 2, rjlim := f 0x34 2, crib := f 0x36 2, accum := f 0x38 1, cwin := f 0x40 8, start := f 0x48 8 }

/-- Is a number a near pointer (R24)? -/
def isNear (p : Nat) : Bool := decide (p < 2 ^ 48)

/-- The warps that a record's roles count. -/
def Task.roleSum (t : Task) : Nat := t.roles.foldl (· + ·) 0

/-- Are a record's fields in range, and its reserved bytes zero? -/
def taskValid (b : List Byte) : Bool :=
  let t := taskOf b
  decide (b.length = 128) && isNear t.code && decide (t.code % 128 = 0) && decide (1 ≤ t.codelen) && decide (1 ≤ t.ngroups) &&
  decide (t.ngroups ≤ 1048576) && decide (t.dtab % 8 = 0) && decide (t.limg % 16 = 0) && decide (t.limglen % 16 = 0) &&
  decide (t.limglen ≤ t.locals) && decide (t.locals % 16 = 0) && decide (1 ≤ t.ngcol) && decide (t.ngcol ≤ 256) &&
  decide (1 ≤ t.warps) && decide (t.warps ≤ 16) && decide (t.ejt ≤ 8) && (decide (t.roleSum = 0) || decide (t.roleSum = t.warps)) &&
  zeroBytes b 0x2F 0x30 && decide (t.rwt < 4096) && decide (1 ≤ t.rwt % 16) && decide (1 ≤ t.rwt / 16 % 16) && decide (1 ≤ t.rwt / 256) &&
  decide (t.tflags < 64) && decide (t.crib ≤ 1024) && decide (t.accum ≤ 4) && zeroBytes b 0x39 0x40 && isNear t.cwin &&
  decide (t.cwin % 1048576 = 0) && (decide (t.crib ≠ 0) || decide (t.cwin = 0)) && (bitOf t.tflags 4 || decide (t.start = 0)) &&
  zeroBytes b 0x50 0x80

/-- The gcol of a data address, if it is well formed and inside the gang (R24, R328). -/
def dataGcol (ngcol p : Nat) : Option Nat :=
  if p < 2 ^ 48 then some 0
  else if bitOf p 63 ∧ bitsOf p 54 48 = 0 ∧ bitsOf p 62 55 < ngcol then some (bitsOf p 62 55)
  else none

/-- The columns of a launch (R327): the issuer's map, or the lowest columns of the mask that are not offline. -/
def State.columnMap (s : State) (same : Bool) (issuer : Nat) (eff : Eff) (n : Nat) : Option (List Nat) :=
  let m := (s.node issuer).launch.map
  let l :=
    if same then m
    else (List.range 256).filter fun c => eff.cmask.getLsbD c && !(s.col c).coreOffline && !(s.col c).memOffline
  if l.length < n then none else some (l.take n)

/-- The groups of a launch from their gcols, numbered within each gcol (R328). -/
def numberGroups (place : GroupPlace) (gcols : List Nat) : Tab GroupState :=
  (gcols.zip (List.range gcols.length)).map fun e =>
    (e.2, { gcol := e.1, localGroup := ((gcols.take e.2).filter (· == e.1)).length, place := place })

/-- The lowest region node that is free (R322). -/
def State.freeNode (s : State) : Option Nat := firstBelow 4096 fun n => decide (n ≠ 0) && decide ((s.node n).kind = .free)

/-- The lowest gang number that no launch has (log 21, DESIGN CHOICE). -/
def State.freeGang (s : State) : Nat :=
  (firstBelow 1024 fun g => !s.dist.nodes.any fun e => decide (e.2.kind = .launch) && decide (e.2.launch.gang = g)).getD 0

/-- The data addresses as the table lists them (R328). -/
def dataList (b : List Byte) : Nat → List Nat
  | 0 => []
  | n + 1 => natOfBytes (b.take 8) :: dataList (b.drop 8) n

/-- Bytes of the system area that a column still has free (R331). -/
def State.sysFree (s : State) (c : Nat) : Nat := s.dist.sysMib * 1048576 - (s.col c).sysUsed

/-- A launch taken and refused: its future FAULTED with the code, or its ring entry's status (R326, R339). -/
def State.refuseLaunch (s : State) (u : Submit) (code : Nat) : State :=
  let s := if u.future = 0 then s else s.setFuture u.col u.future fun h => { h with st := .faulted, code := code }
  match u.ring with
  | some (fn, idx, vec) => s.post (Tab.keys s.cols) { fn := fn, ring := some (idx, vec, code * 256 + 0x33) }
  | none => s

/-- What the checks of a LAUNCH have found: the code of the refusal, or the launch's parts. -/
structure Accepted where
  task : Task
  eff : Eff
  rcb : List Byte
  map : List Nat
  gcols : List Nat
  node : Nat

/-- The checks of R326, the lowest code first. -/
def State.checkLaunch (s : State) (u : Submit) : Except Nat Accepted × State :=
  let ctx := u.parent
  let parent := s.node u.parent
  match (if u.task % 64 = 0 then s.ctxBytes u.col ctx 16 u.task else (none, s)) with
  | (none, s) => (.error 1, s)
  | (some tb, s) =>
    let t := taskOf tb
    let (rb, s) := match u.rcb with
      | none => (some [], s)
      | some r => if r % 64 ≠ 0 then (none, s) else s.ctxBytes u.rcbCol ctx 16 r
    let rcb := rb.getD []
    if !taskValid tb then (.error 1, s)
    else if rb.isNone ∨ (u.rcb.isSome ∧ ¬ rcbForLaunch rcb) then (.error 2, s)
    else
      let left := parent.unspent
      let eff := if u.rcb.isNone then { parent.eff with budget := left.getD 0 } else effective rcb parent.eff (left.getD 0)
      if left.isNone ∨ eff.slots < t.warps ∨ eff.crib < t.crib then (.error 3, s)
      else
        let same := bitOf t.tflags 5 && u.ring.isNone
        match s.columnMap same u.issuerNode eff t.ngcol with
        | none => (.error 4, s)
        | some map =>
          if 524288 < t.locals + 1024 * t.warps + 256 then (.error 5, s)
          else
            match (if isNear t.dtab ∧ isNear t.limg then s.ctxBytes u.col ctx t.ngroups t.dtab else (none, s)) with
            | (none, s) => (.error 6, s)
            | (some db, s) =>
              let gs := (dataList db t.ngroups).map (dataGcol t.ngcol)
              if gs.any Option.isNone then (.error 6, s)
              else if bitOf t.tflags 4 ∧ s.time + 2 ^ 36 < t.start then (.error 7, s)
              else
                match s.freeNode with
                | none => (.error 8, s)
                | some node =>
                  let gcols := gs.map (·.getD 0)
                  let l : Launch := { task := t, map := map, groups := numberGroups .held gcols }
                  if (map.zip (List.range map.length)).any fun e => decide (s.sysFree e.1 < l.mailBytes e.2) then (.error 9, s)
                  else (.ok { task := t, eff := eff, rcb := rcb, map := map, gcols := gcols, node := node }, s)

/-- A launch created (R322, R325 to R329, R341). -/
def State.createLaunch (s : State) (u : Submit) (a : Accepted) : State :=
  let place : GroupPlace := if bitOf a.task.tflags 4 then .held else .waiting s.clk
  let groups := numberGroups place a.gcols
  let det := bitOf a.task.tflags 0 || a.eff.det
  let tokens : Tab (Nat × Nat) :=
    if det then
      groups.foldl (fun (t : Tab (Nat × Nat)) g =>
        let c := a.map.getD g.2.gcol 0
        if (Tab.find? t c).isSome then t else Tab.put t c (g.1, 0)) []
    else []
  let l : Launch :=
    { task := a.task, future := u.future, ring := u.ring, col := u.col, map := a.map, groups := groups, tokens := tokens
      gang := s.freeGang, order := s.dist.nextOrder, det := det }
  let s := { s with dist := { s.dist with nextOrder := s.dist.nextOrder + 1 } }
  let p := s.node u.parent
  let mapped := a.map.foldl (fun (m : BitVec 256) c => m ||| (1#256 <<< c)) 0#256
  let s := if p.stale &&& mapped = 0#256 then s else s.setNode u.parent { p with due := p.due ||| (p.stale &&& mapped) }
  let s := s.setNode a.node { kind := .launch, parent := u.parent, eff := a.eff, rcb := a.rcb, base := (s.node u.parent).runtime, fn := (s.node u.parent).fn, launch := l }
  (a.map.zip (List.range a.map.length)).foldl (fun s e =>
    s.updCol e.1 fun x =>
      { x with sysUsed := x.sysUsed + l.mailBytes e.2, perf := Tab.keep (fun k _ => decide (k / 16 ≠ a.node)) x.perf }) s

/-- TASK_RECORD_CHECK: the next LAUNCH that the distributor takes. -/
def execTaskRecordCheck (s : State) : Host.Outcome State Fault Refusal :=
  match s.dist.submits with
  | [] => .next s
  | u :: rest =>
    let s := { s with dist := { s.dist with submits := rest } }
    match s.checkLaunch u with
    | (.error code, s) => .next (s.refuseLaunch u code)
    | (.ok a, s) => .next (s.createLaunch u a)

/-- LAUNCH_RING_ENTRY: in hardware mode the next entry of a function's ring is read and handed on (R339, R363). -/
def execLaunchRingEntry (fn : Nat) (s : State) : Host.Outcome State Fault Refusal :=
  let f := s.host.fn fn
  match f.region with
  | none => .next s
  | some r =>
    if f.ringCfg.getLsbD 63 ∧ (s.node r).steward ∧
        (f.ringTaken + 2 ^ 32 - f.ringHead) % 2 ^ 32 < (f.ringTail + 2 ^ 32 - f.ringHead) % 2 ^ 32 then
      let b := s.host.read fn (f.ringBase.toNat + 64 * (f.ringTaken % 2 ^ regField f.ringCfg 4 0)) 64
      let task := fieldOf b 0 8
      let rcb := fieldOf b 8 8
      let u : Submit :=
        { col := bitsOf task 63 56, parent := r, issuerNode := 0, task := bitsOf task 47 0, rcbCol := bitsOf rcb 63 56
          rcb := if rcb = 0 then none else some (bitsOf rcb 47 0), ring := some (fn, f.ringTaken, fieldOf b 0x10 2) }
      .next { s with host := s.host.setFn fn { f with ringTaken := (f.ringTaken + 1) % 2 ^ 32 }
                     dist := { s.dist with submits := s.dist.submits ++ [u] } }
    else .next s

/-- LAUNCH_COMPLETE: a launch whose groups have ended is finished (R336). -/
def execLaunchComplete (node : Nat) (s : State) : Host.Outcome State Fault Refusal := .next (s.tryFinish node)

/-- START_TIME_REACHED: the held groups of a launch begin to wait (R329). -/
def execStartTimeReached (node : Nat) (s : State) : Host.Outcome State Fault Refusal :=
  let nd := s.node node
  if nd.kind = .launch ∧ nd.launch.task.start ≤ s.time then
    let open_ (g : GroupState) : GroupState := if g.place = .held then { g with place := .waiting s.clk } else g
    .next (s.setNode node { nd with launch := { nd.launch with groups := Tab.mapVals (fun _ g => open_ g) nd.launch.groups } })
  else .next s

/-! ## LAUNCH (R183) -/

/-- The service region under which the issuing agent launches. -/
def State.serviceOf (s : State) : Nat := s.ctxNum

/-- LAUNCH: a release at device scope, the pointers checked under R25, and the record handed to the distributor; inside a transaction too, which it
does not abort (log 123, DESIGN CHOICE). -/
def execLaunch (a b : BitVec 6) (h : BitVec 4) (s : State) :=
  accept .plain s fun s =>
    s.unlessPending h.toNat fun s =>
      let bad (p : Dword) : TrapInfo := { lanes := 1#32 <<< lowLane s.active, detail := p }
      match offsetIn s.gcol (s.sr a), offsetIn s.gcol (s.sr b) with
      | none, _ => .next (s.raise .cross (bad (s.sr a)))
      | _, none => .next (s.raise .cross (bad (s.sr b)))
      | some task, some rcb =>
        s.afterRelease 7 fun s =>
          let s := s.takeHandle h.toNat
          let id := s.nextId
          let u : Submit :=
            { col := s.cur.col, future := id, parent := s.serviceOf, issuerNode := s.launchId, task := task, rcbCol := s.cur.col, rcb := if s.sr b = 0#64 then none else some rcb }
          .next (({ s with nextId := id + 1, dist := { s.dist with submits := s.dist.submits ++ [u] } } : State).setHandle h.toNat
            { st := .pending, unit := 3, cmd := id })

end Sys2Proof.Machine
end

