-- ==== Sys2Proof/Machine/Resident.lean ====
section
/-! DEFINITION. Residency (R75, R76, R330, R332 to R334), pre-emption and the saved context (R202, R205, R351, R352),
quanta, and the watchdog (R335). -/

namespace Sys2Proof.Machine

/-! ## The waiting queue (R332, R334) -/

/-- A launch's quantum in cycles. -/
def Eff.cycles (e : Eff) : Nat := e.quantum * 1024

/-- A waiting group's effective priority. -/
def Node.effPrio (n : Node) (g : GroupState) : Nat := min 15 (n.eff.prio + g.rises)

/-- The groups that wait for a column, as node and group id. -/
def State.waiters (s : State) (c : Nat) : List (Nat × Nat) :=
  s.dist.nodes.flatMap fun e =>
    if e.2.kind = .launch then
      (e.2.launch.groups.filter fun g =>
        (match g.2.place with | .waiting _ => true | _ => false) && decide (e.2.launch.map.getD g.2.gcol 0 = c)).map fun g => (e.1, g.1)
    else []

/-- The node and group of a waiter. -/
def State.waiter (s : State) (w : Nat × Nat) : Node × GroupState := (s.node w.1, (s.node w.1).launch.groupOf w.2)

/-- The cycle from which a group waits. -/
def GroupState.since (g : GroupState) : Nat := match g.place with | .waiting t => t | _ => 0

/-- Is a waiter the next holder of its column's commit token (R343)? -/
def State.tokenNext (s : State) (c : Nat) (w : Nat × Nat) : Bool :=
  match Tab.find? (s.node w.1).launch.tokens c with
  | some t => decide (t.1 = w.2)
  | none => false

/-- Does one waiter precede another: the token's next holder, promoted groups in the order of promotion, then R332's
keys? -/
def State.precedes (s : State) (c : Nat) (a b : Nat × Nat) : Bool :=
  let (na, ga) := s.waiter a
  let (nb, gb) := s.waiter b
  let key (n : Node) (g : GroupState) (w : Nat × Nat) : List Nat :=
    [if s.tokenNext c w then 0 else 1, if g.promoted = 0 then 1 else 0, g.promoted, 15 - n.effPrio g, g.since, n.launch.order, w.2]
  decide (key na ga a < key nb gb b)

/-- Waiting groups whose effective priority has reached 15 promoted, in queue order (R334). -/
def State.promoteAll (s : State) (c : Nat) : State :=
  (sortBy (s.precedes c) (s.waiters c)).foldl (fun s w =>
    let (n, g) := s.waiter w
    if g.promoted = 0 ∧ 15 ≤ n.effPrio g then
      let s := s.setGroupState w.1 w.2 { g with promoted := s.dist.nextOrder }
      { s with dist := { s.dist with nextOrder := s.dist.nextOrder + 1 } }
    else s) s

/-- The rank of a waiter and of a resident group, for R333's comparisons: promoted above all (R334). -/
def State.waiterRank (s : State) (w : Nat × Nat) : Nat :=
  let (n, g) := s.waiter w
  if g.promoted = 0 then n.effPrio g else 16
def State.residentRank (s : State) (g : Group) : Nat := if g.promoted then 16 else (s.node g.launch).eff.prio

/-! ## Fitting (R75, R76, R202, R262, R323) -/

/-- The warp indices of a group that still run: all of them before its first residency. -/
def State.liveIndices (s : State) (w : Nat × Nat) : List Nat :=
  let (n, g) := s.waiter w
  match g.saved with
  | some v => v.warps.map (·.index)
  | none => List.range n.launch.task.warps

/-- Bytes of local store that a group takes (R75). -/
def Task.storeBytes (t : Task) : Nat := t.locals + 1024 * t.warps + 256

/-- The resident group entries of a column, some excepted. -/
def Column.staying (x : Column) (gone : List Nat) : List (Nat × Group) :=
  x.groups.filter fun e => e.2.live && !gone.contains e.1

/-- The slots of a quarter that are free when some entries have left. -/
def Column.freeSlots (x : Column) (gone : List Nat) (q : Nat) : List Nat :=
  ((List.range 16).map (16 * q + ·)).filter fun n => !(x.warp n).live || gone.contains (x.warp n).entry

/-- The slot that each warp of a group takes (R76), for the lowest q0 for which all fit. -/
def Column.layout (x : Column) (gone : List Nat) (idx : List Nat) : Option (List (Nat × Nat)) :=
  (List.range 4).findSome? fun q0 =>
    let l := idx.map fun i =>
      let q := (q0 + i) % 4
      let before := (idx.filter fun j => decide (j < i) && decide ((q0 + j) % 4 = q)).length
      (i, (x.freeSlots gone q)[before]?)
    if l.all fun e => e.2.isSome then some (l.map fun e => (e.1, e.2.getD 0)) else none

/-- Resident warps of a column's groups that satisfy a test on their launch. -/
def State.warpsOf (s : State) (c : Nat) (gone : List Nat) (f : Nat → Bool) : Nat :=
  let x := s.col c
  ((x.staying gone).map fun e => if f e.2.launch then (x.slotsOf e.1).length else 0).foldl (· + ·) 0

/-- The copy queues of a group entry's commands, each once. -/
def copyQueues (ks : List Command) : List (Nat × Nat) := ((ks.filter fun k => decide (k.kind = .copy)).map fun k => (k.entry, k.queue)).eraseDups

/-- The launches whose share of a core stands when some entries have left: a resident group's, and one whose thresher command still runs
for a group that is gone (R262). -/
def Column.sharesLeft (x : Column) (gone : List Nat) : List Nat :=
  ((x.staying gone).map (·.2.launch) ++ (x.cmds.filter fun k => decide (k.queue = 5) && decide (k.entry = 64)).map (·.launch)).eraseDups

/-- Does a waiting group fit on its column once some entries have left? A saved group also needs its lanes' contexts,
its reassembly, barrier and grant indices, and hardware queues for its copies (R202, R237, R284, R296, log 22, DEDUCED). -/
def State.fits (s : State) (c : Nat) (w : Nat × Nat) (gone : List Nat) : Bool :=
  let x := s.col c
  let (n, g) := s.waiter w
  let t := n.launch.task
  let stay := x.staying gone
  let launches := x.sharesLeft gone
  let idx := s.liveIndices w
  let used := (stay.map fun e => (s.node e.2.launch).launch.task.storeBytes).foldl (· + ·) 0
  let crib := (launches.map fun l => (s.node l).launch.task.crib).foldl (· + ·) 0
  let tiles := (launches.map fun l => (s.node l).launch.task.accum).foldl (· + ·) 0
  let here := launches.contains w.1
  let region := n.parent
  let lanes := match g.saved with | some v => v.ctxs.length | none => 0
  let kept := (x.ctxs.filter fun e => e.2.live && !gone.contains (x.warp e.2.slot).entry).length
  let bars := match g.saved with
    | some v => v.barriers.all fun b => decide ((x.barrier b.1).st = .free) || gone.contains (x.barrier b.1).entry
    | none => (List.range 256).any fun i => decide ((x.barrier i).st = .free) || gone.contains (x.barrier i).entry
  let mids := match g.saved with
    | some v => v.entries.all fun e => (Tab.find? x.nifCore.entries e.1).all fun o => gone.contains o.1
    | none => true
  let hwq := match g.saved with
    | some v => decide ((copyQueues (x.cmds.filter fun k => !gone.contains k.entry)).length + (copyQueues v.cmds).length ≤ 16)
    | none => true
  let grants := here || n.launch.savedGrants.all fun e =>
    decide (e.1 ≠ c) || !(Tab.get {} x.grants e.2.1).live || !launches.contains (Tab.get {} x.grants e.2.1).launch
  decide (stay.length < 16) && decide (used + t.storeBytes ≤ 524288) && (x.layout gone idx).isSome &&
    (here || (decide (crib + t.crib ≤ 1024) && decide (tiles + t.accum ≤ 4))) && decide (kept + lanes ≤ 32) && bars && mids && hwq && grants &&
    decide (s.warpsOf c gone (· == w.1) + idx.length ≤ n.eff.slots) &&
    decide (s.warpsOf c gone (fun l => (s.node l).parent == region) + idx.length ≤ (s.node region).eff.slots)

/-- The entries that are leaving or have a pre-emption under way. -/
def Column.leavingEntries (x : Column) : List Nat := (x.groups.filter fun e => e.2.live && e.2.leaving).map Prod.fst

/-- Is the tinker serving an agent of a group entry (R348)? -/
def Column.served (x : Column) (entry : Nat) : Bool :=
  match x.tinker.serving with
  | some e => decide (e.tier ≤ 1) && (x.warp e.slot.toNat).live && decide ((x.warp e.slot.toNat).entry = entry)
  | none => false

/-- Is a group idle (R199): every warp parked, waiting at JOIN with lanes out, or ended? A group whose warps have all exited is
ending, not idle. -/
def Column.idle (x : Column) (entry : Nat) : Bool :=
  ((x.slotsOf entry).any fun n => decide ((x.warp n).exited ≠ 0xFFFFFFFF#32)) && (x.slotsOf entry).all fun n =>
    let w := x.warp n
    decide (w.rejoin = .parked) || decide (w.exited = 0xFFFFFFFF#32) || (!w.hasPath && decide (x.lanesOut n ≠ 0#32))

/-- The resident groups whose pre-emption would let a waiter in: lowest rank first, then most recently made resident, as many as are
needed (R333). -/
def State.victimsFor (s : State) (c : Nat) (h : Nat × Nat) : List Nat :=
  let x := s.col c
  let gone := x.leavingEntries
  if s.fits c h gone then []
  else
    let cands := x.groups.filter fun e => e.2.live && !e.2.leaving && decide (s.residentRank e.2 < s.waiterRank h)
    let order := sortBy (fun (a b : Nat × Group) =>
      decide (s.residentRank a.2 < s.residentRank b.2) ||
        (decide (s.residentRank a.2 = s.residentRank b.2) && decide (b.2.order < a.2.order))) cands
    let pick := (List.range (order.length + 1)).find? fun k => s.fits c h (gone ++ (order.take k).map Prod.fst)
    match pick with
    | some k => (order.take k).map Prod.fst
    | none => []

/-- The head of a column's queue; while room is being made for a waiter, that one (R333, log 33, DEDUCED). -/
def State.headWaiter (s : State) (c : Nat) : Option (Nat × Nat) :=
  let head := (sortBy (s.precedes c) (s.waiters c)).head?
  match (s.col c).roomFor with
  | some w =>
    if (s.waiters c).contains w && (!(s.col c).leavingEntries.isEmpty || s.fits c w [] || !(s.victimsFor c w).isEmpty) then some w else head
  | none => head

/-- The resident groups that are pre-empted to let the head waiter in. -/
def State.victims (s : State) (c : Nat) : List Nat :=
  match s.headWaiter c with
  | none => []
  | some h => s.victimsFor c h

/-- Does R333 call for a group's pre-emption now: for the head waiter, or because it is idle and a waiter would fit once
it leaves? -/
def State.mustLeave (s : State) (c entry : Nat) : Bool :=
  let x := s.col c
  (s.victims c).contains entry ||
    (x.idle entry && (s.waiters c).any fun w =>
      decide ((s.node (x.group entry).launch).eff.prio ≤ s.waiterRank w) && s.fits c w (entry :: x.leavingEntries))

/-- Does a leaving group's command go on, because a memory word waits at a line that it owns? Otherwise it stops at its
stopping point (R258, log 23, DEDUCED). -/
def Column.neededBy (x : Column) (k : Command) : Bool :=
  x.bay.claims.any fun c => decide (c.cmd = k.id) && !c.source &&
    x.bay.reqs.any fun r => c.owns r.line

/-- May a command begin another transfer, row or step: its group is not leaving, or is needed? -/
def Column.mayGoOn (x : Column) (k : Command) : Bool := !(x.group k.entry).leaving || x.neededBy k

/-- An agent taken as the issuing one, at its own position. -/
def State.asAgent (s : State) (c : Nat) (who : Who) : State :=
  let p := s.pathOf c who
  { s with cur := { col := c, who := who, pkt := p.pkt, wpos := p.wpos, unitEnd := p.wpos + 1 } }

/-- The errors that pending writes of a warp and its lanes have met, trapped at its pre-emption (R164, R304); an agent that is stopped
already keeps its own. -/
def State.trapErrors (s : State) (c n : Nat) : State :=
  let back := s.cur
  let x := s.col c
  let slotB := (x.warp n).a.isNone && (x.warp n).b.isSome
  let agents := (if (x.warp n).stop.isSome then [] else [Who.warp n slotB]) ++
    (x.ctxs.filter fun e => e.2.live && decide (e.2.slot = n) && e.2.stop.isNone).map fun e => Who.lane e.1
  let s := agents.foldl (fun s w =>
    let s := s.asAgent c w
    match s.erred with
    | some v => s.raiseErred v
    | none => s) s
  { s with cur := back }

/-- Can a group be saved, the releases of its lanes aside: no run, transfer on the port, pending write or memory word is left (R352)? The
exchange word that has not completed stays pending with its warp, and an error that no stopped agent may take yet with its agent. -/
def State.settled (s : State) (c entry : Nat) : Bool :=
  let x := s.col c
  let slots := x.slotsOf entry
  let quietThread (t : Thread) (stopped : Bool) (xv : Nat) : Bool :=
    t.pend.isEmpty && t.vpend.all fun v => decide (v.id = xv) || (stopped && v.error.isSome)
  slots.all (fun n =>
    let w := x.warp n
    (match (x.quarter (n / 16)).run with | some r => decide (r.slot ≠ n) | none => true) &&
      quietThread w.th w.stop.isSome (match w.xch with | some e => e.vid | none => 0) && w.tx.isNone &&
      !(x.mops.any fun m => x.ofSlot n m.who)) &&
    x.ctxs.all (fun e => !e.2.live || !slots.contains e.2.slot ||
      (!(x.port.any fun j => decide (j.ctx = e.1)) && quietThread e.2.th e.2.stop.isSome 0)) &&
    x.cmds.all fun k => decide (k.entry ≠ entry) || k.atStop

/-- The releases at column scope of a leaving group's lane contexts, begun and gone on with (R202 step 3): are they complete, and the column. -/
def Column.drainLanes (x : Column) (entry : Nat) : Bool × Column :=
  (x.ctxs.filter fun e => e.2.live && (x.slotsOf entry).contains e.2.slot).foldl (fun (acc : Bool × Column) e =>
    let (ok, x) := acc
    match x.drain (e.1 / 4 + 1) (x.ctx e.1).drain with
    | (true, _, x) => (ok, x)
    | (false, upTo, x) => (false, x.setCtx e.1 { x.ctx e.1 with drain := upTo })) (true, x)

/-- The bytes of a group's save (R351) with its reassembly region (R296). -/
def State.saveBytes (s : State) (c entry : Nat) : Nat :=
  let x := s.col c
  let up (n : Nat) : Nat := (n + 1023) / 1024 * 1024
  let slots := x.slotsOf entry
  let lanes := (x.ctxs.filter fun e => e.2.live && slots.contains e.2.slot).length
  let bars := ((List.range 256).filter fun i => decide ((x.barrier i).st ≠ .free) && decide ((x.barrier i).entry = entry)).length
  let cmds := (x.cmds.filter fun k => decide (k.entry = entry)).length
  1024 + 10240 * slots.length + up (2048 * lanes) + up (32 * bars) + up (64 * cmds) +
    up (s.node (x.group entry).launch).launch.task.storeBytes + 16384

/-- The bytes that a group's pre-emption reserves in the system area (R331): its save, and its launch's (R284) where every other group of the
launch on the core is leaving too. -/
def State.saveNeed (s : State) (c entry : Nat) : Nat :=
  let x := s.col c
  let l := (x.group entry).launch
  let stays := x.groups.any fun e => e.2.live && decide (e.1 ≠ entry) && decide (e.2.launch = l) && !e.2.leaving
  s.saveBytes c entry + (if stays then 0 else (s.node l).launch.shareBytes)

/-- A group's state as it is saved. Its lanes stand in the order in which they take contexts and the port again (R205): of several warps, the
lower old slot's first (log 127, DESIGN CHOICE). -/
def State.savedOf (s : State) (c entry : Nat) : Saved :=
  let x := s.col c
  let g := x.group entry
  let slots := x.slotsOf entry
  let lanes := sortBy (fun (a b : Nat × LaneCtx) => decide ([a.2.slot, a.2.lane] < [b.2.slot, b.2.lane])) (x.ctxs.filter fun e => e.2.live && slots.contains e.2.slot)
  let index (n : Nat) : Nat := (x.warp n).index
  let place (i : Nat) : Nat := (lanes.findIdx? fun k => k.1 == i).getD 0
  let kept (d : Deferred) : Deferred := match d.op.who with | .lane i => { op := { d.op with who := .lane (place i) } } | _ => d
  let left (n : Nat) : List Deferred := (x.warp n).deferred.filter fun d => !d.begun
  { group := g
    warps := slots.map fun n => { x.warp n with timerFrom := (s.clk : Int) - (x.warp n).timerFrom, deferred := (left n).map kept }
    ctxs := lanes.map fun e => { e.2 with slot := index e.2.slot }
    barriers := ((List.range 256).filter fun i => decide ((x.barrier i).st ≠ .free) && decide ((x.barrier i).entry = entry)).map
      fun i => (i, x.barrier i)
    cmds := (x.cmds.filter fun k => decide (k.entry = entry)).map fun k => { k with slot := index k.slot }
    events := (x.tinker.queue.filter fun e => decide (e.tier ≤ 1) && slots.contains e.slot.toNat).map fun e =>
      (if e.tier = 1 then place e.ctx.toNat else index e.slot.toNat, e)
    entries := (x.nifCore.entries.filter fun e => decide (e.2.1 = entry)).map fun e => (e.1, index e.2.2)
    bytes := s.saveBytes c entry
    quantum := (s.node g.launch).eff.cycles - (s.clk - g.since) }

/-- A leaving group saved and taken off its core (R352 step 5). What its reservation in the system area held besides its own save passes to
another group of its launch on the core, for the launch's save. -/
def State.saveGroup (s : State) (c entry : Nat) : State :=
  let v := s.savedOf c entry
  let node := v.group.launch
  let gs := (s.node node).launch.groupOf v.group.gid
  let s := s.updCol c fun x =>
    let x := (x.slotsOf entry).foldl (fun x n => x.clearSlot n) x
    let spare := v.group.reserved - v.bytes
    let x : Column := { x with
      groups := Tab.erase x.groups entry
      barriers := Tab.mapVals (fun _ (b : Barrier) => if b.entry = entry ∧ b.st ≠ .free then { b with st := .free } else b) x.barriers
      cmds := x.cmds.filter fun k => decide (k.entry ≠ entry)
      hwq := Tab.keep (fun _ q => decide (q.1 ≠ entry)) x.hwq }
    match x.groups.find? fun e => e.2.live && decide (e.2.launch = node) with
    | some e => { x.setGroup e.1 { e.2 with reserved := e.2.reserved + spare } with sysUsed := x.sysUsed - v.group.reserved + v.bytes + spare }
    | none => { x with sysUsed := x.sysUsed - v.group.reserved + v.bytes }
  (s.setGroupState node v.group.gid { gs with place := .waiting v.group.leftAt, saved := some v, promoted := 0, rises := 0 }).trimCredits c |>.releaseShare c node

/-- A group that leaves: no new run starts, its save is reserved, open transactions abort, errors trap (R352), and warps that have nothing
left end (R179). -/
def State.beginLeave (s : State) (c entry : Nat) : State :=
  let need := s.saveNeed c entry
  let s := s.updCol c fun x =>
    let g := x.group entry
    let x : Column := if g.leaving then x
      else { x.setGroup entry { g with leaving := true, leftAt := s.clk, reserved := need, deferred := none } with sysUsed := x.sysUsed + need }
    (x.slotsOf entry).foldl (fun x n => x.abortTx n .preempt 0 0#64) x
  let s := ((s.col c).slotsOf entry).foldl (fun s n => s.trapErrors c n) s
  ((s.col c).slotsOf entry).foldl (fun s n => s.reap c n) s

/-- A group's pre-emption begun, if its save fits in the system area (R331), or carried on: no new run starts, open transactions abort, errors
trap, and when nothing is left under way and its lanes have released, the group is saved (R352). Warps that have nothing left end first (R179). -/
def State.preempt (s : State) (c entry : Nat) : State :=
  let x := s.col c
  let g := x.group entry
  if !g.live || x.served entry then s
  else if !g.leaving && decide (s.sysFree c < s.saveNeed c entry) then
    let head := some ((s.headWaiter c).getD (0, 0))
    if g.deferred = head then s
    else
      let s := { s with dist := { s.dist with deferrals := s.dist.deferrals + 1 } }
      s.setCol c (x.setGroup entry { g with deferred := head })
  else
    let s := s.beginLeave c entry
    if ((s.col c).group entry).live && s.settled c entry then
      match (s.col c).drainLanes entry with
      | (true, x) => (s.setCol c x).saveGroup c entry
      | (false, x) => s.setCol c x
    else s

/-- PREEMPT_GROUP. A deferral stands for its event: it ends with the event, and the next one is counted anew (R331; log 72, DEDUCED). -/
def execPreemptGroup (c entry : Nat) (s : State) : Host.Outcome State Fault Refusal :=
  let s := s.promoteAll c
  if ((s.col c).group entry).leaving then .next (s.preempt c entry)
  else if !s.mustLeave c entry then
    .next (s.updCol c fun x => if (x.group entry).deferred.isSome then x.setGroup entry { x.group entry with deferred := none } else x)
  else
    let head := if (s.victims c).contains entry then s.headWaiter c else (s.col c).roomFor
    let t := s.preempt c entry
    .next (if ((t.col c).group entry).deferred.isSome then t else t.updCol c fun x => { x with roomFor := head })

/-! ## Becoming resident (R330, R352) -/

/-- The role of a warp index (R77). -/
def Task.roleOf (t : Task) (i : Nat) : Role :=
  let c := t.roles.getD 0 0
  let m := t.roles.getD 1 0
  if t.roleSum = 0 then .unified else if i < c then .copy else if i < c + m then .matrix else .vector

/-- A launch's share of a core taken at its first residency there, or restored (R262, R268, R269, R284); one that a command of a group that is
gone still holds stands as it is. -/
def State.takeShare (s : State) (c node : Nat) : State :=
  if (s.col c).holdsLaunch node ∨ (s.col c).shares.contains node then s
  else
    let nd := s.node node
    let t := nd.launch.task
    let fresh : CribShare := { live := true, kib := t.crib, tiles := t.accum, window := t.cwin }
    let old := Tab.find? nd.launch.savedCrib c
    let s := s.updCol c fun x =>
      { x with
        cribs := Tab.put x.cribs node (old.getD fresh)
        sysUsed := x.sysUsed - (if old.isSome then nd.launch.shareBytes else 0)
        grants := (nd.launch.savedGrants.filter fun e => decide (e.1 = c)).foldl (fun g e => Tab.put g e.2.1 e.2.2) x.grants }
    s.setNode node { nd with launch := { nd.launch with
      savedCrib := Tab.erase nd.launch.savedCrib c, savedGrants := nd.launch.savedGrants.filter fun e => decide (e.1 ≠ c) } }

/-- The lowest free group entry. -/
def Column.freeEntry (x : Column) : Nat := (firstBelow 16 fun e => !(x.group e).live).getD 0

/-- One warp as a group begins (R9, R330). -/
def Task.newWarp (t : Task) (entry i uid : Nat) (s0 s1 : Dword) : Warp :=
  { live := true, entry := entry, index := i, role := t.roleOf i
    th := { s := (Tab.store 0#64 [] 0 s0) ++ (Tab.store 0#64 [] 1 s1) }
    a := some { uid := uid, lanes := 0xFFFFFFFF#32 }
    ejt := BitVec.ofNat 4 t.ejt, limit := BitVec.ofNat 16 t.rjlim, rt := bitOf t.tflags 3, check := bitOf t.tflags 2 }

/-- A group's first residency: its local store with the image, its own barrier, and its warps at packet 0 (R9, R330). -/
def State.firstResidency (s : State) (c : Nat) (w : Nat × Nat) (lay : List (Nat × Nat)) (data : Nat) (image : List Byte) : State :=
  let (n, g) := s.waiter w
  let t := n.launch.task
  let s := s.takeShare c w.1
  let entry := (s.col c).freeEntry
  let id := s.nextId
  let s := { s with nextId := id + 16 }
  s.updCol c fun x =>
    let x := x.setGroup entry
      { live := true, launch := w.1, gid := w.2, localGroup := g.localGroup, warps := t.warps, size := t.locals
        store := Memory.writeBytes [] 0 image, since := s.clk, order := s.dist.nextOrder, promoted := decide (g.promoted ≠ 0) }
    let (h, x) := (x.newBarrier entry (t.locals + 1024 * t.warps) t.warps false).getD (0#64, x)
    lay.foldl (fun x e => x.setWarp e.2 (t.newWarp entry e.1 (id + e.1) (BitVec.ofNat 64 data) h)) x

/-- A lane context restored under the placement rule of R194, through the gleaner port at 6 cycles; its start is an acquire at column scope
(R205). Its warp has nothing to release for it. -/
def Column.restoreCtx (x : Column) (clk slot : Nat) (k : LaneCtx) : Nat × Column :=
  let i := x.pickCtx.getD 0
  (i, { x.setCtx i { k with slot := slot, starting := true, drain := some 0 } with
        port := x.port ++ [{ ctx := i, back := false, done := x.portFree clk + 6 }] })

/-- A command's copy queue bound to a hardware queue (R237). -/
def Column.bindQueue (x : Column) (entry queue : Nat) : Column :=
  if 4 ≤ queue ∨ x.hwq.any (fun e => e.2 == (entry, queue)) then x
  else
    match firstBelow 16 fun n => (Tab.find? x.hwq n).isNone with
    | some n => { x with hwq := Tab.put x.hwq n (entry, queue) }
    | none => x

/-- A saved group restored (R352): reservations, local store, barriers with their test, reassembly entries, contexts in ascending lane order,
commands with their queues, and its events at the queue's tail. -/
def State.restoreGroup (s : State) (c : Nat) (w : Nat × Nat) (lay : List (Nat × Nat)) (v : Saved) : State :=
  let (_, g) := s.waiter w
  let s := s.takeShare c w.1
  let entry := (s.col c).freeEntry
  let slot (i : Nat) : Nat := ((lay.find? fun e => e.1 == i).map Prod.snd).getD 0
  let s := s.updCol c fun x =>
    let x := x.setGroup entry
      { v.group with since := s.clk, order := s.dist.nextOrder, promoted := decide (g.promoted ≠ 0), leaving := false, reserved := 0 }
    let x := v.warps.foldl (fun x k =>
      x.setWarp (slot k.index) { k with entry := entry, timerFrom := (s.clk : Int) - k.timerFrom }) x
    let x := v.barriers.foldl (fun x b => x.setBarrier b.1 { b.2 with entry := entry }) x
    let x := v.barriers.foldl (fun x b => (x.testBarrier b.1).mapWaits ((x.testBarrier b.1).barrier b.1 |>.judge b.1)) x
    let x := { x with nifCore := { x.nifCore with entries := v.entries.foldl (fun t e => Tab.put t e.1 (entry, slot e.2)) x.nifCore.entries }
                      ejected := x.ejected ++ v.flits
                      sysUsed := x.sysUsed - v.bytes }
    let (ids, x) := v.ctxs.foldl (fun (acc : List Nat × Column) k =>
      let r := acc.2.restoreCtx s.clk (slot k.slot) k
      (acc.1 ++ [r.1], r.2)) ([], x)
    let meant (n : Nat) (d : Deferred) : Deferred :=
      match d.op.who with
      | .lane j => { op := { d.op with who := .lane (ids.getD j 0), cache := ids.getD j 0 / 4 + 1 } }
      | .warp _ b => { op := { d.op with who := .warp n b } }
      | _ => d
    let x := v.warps.foldl (fun x k =>
      let n := slot k.index
      x.setWarp n { x.warp n with deferred := (x.warp n).deferred.map (meant n) }) x
    let cmds := v.cmds.map fun (k : Command) => { k with entry := entry, slot := slot k.slot }
    let events := v.events.map fun e =>
      if e.2.tier = 1 then
        { e.2 with ctx := BitVec.ofNat 5 (ids.getD e.1 0), slot := BitVec.ofNat 6 (x.ctx (ids.getD e.1 0)).slot }
      else { e.2 with slot := BitVec.ofNat 6 (slot e.1) }
    let x := cmds.foldl (fun x k => x.bindQueue entry k.queue) x
    { x with cmds := x.cmds ++ cmds, tinker := { x.tinker with queue := x.tinker.queue ++ events } }
  v.warps.foldl (fun s k => if (s.node w.1).launch.det then s else s.performDeferred c (slot k.index)) s

/-- MAKE_RESIDENT: the head waiter of a column that fits becomes resident; on its first residency once its data address
and its image can be read (R328, log 24, DESIGN CHOICE). -/
def execMakeResident (c : Nat) (s : State) : Host.Outcome State Fault Refusal :=
  let s := s.promoteAll c
  match s.headWaiter c with
  | none => .next s
  | some w =>
    let (n, g) := s.waiter w
    if (s.col c).coreOffline || !s.fits c w [] then .next s
    else
      match (s.col c).layout [] (s.liveIndices w) with
      | none => .next s
      | some lay =>
        let before := s.col c
        let done (s : State) : State :=
          let s := s.loadCredits c before
          let entry := (s.col c).groups.find? fun e => decide (e.2.launch = w.1) && decide (e.2.gid = w.2)
          let gs := (s.node w.1).launch.groupOf w.2
          let s := s.updCol c fun x => { x with roomFor := none }
          let s := s.setGroupState w.1 w.2
            { gs with place := .resident ((entry.map Prod.fst).getD 0), saved := none, promoted := 0, rises := 0 }
          let s := { s with dist := { s.dist with nextOrder := s.dist.nextOrder + 1 } }
          match Tab.find? (s.node w.1).launch.tokens c with
          | some t =>
            if t.1 = w.2 then
              (match (s.col c).slotNamed w.1 t.1 t.2 with | some k => s.performDeferred c k | none => s)
            else s
          | none => s
        match g.saved with
        | some v => .next (done (s.restoreGroup c w lay v))
        | none =>
          let t := n.launch.task
          match s.ctxBytes n.launch.col n.parent 1 (t.dtab + 8 * w.2) with
          | (none, s) => .next s
          | (some d, s) =>
            let len := if t.limg = 0 then 0 else t.limglen
            match s.ctxBytes n.launch.col n.parent (len / 8) t.limg with
            | (none, s) => .next s
            | (some image, s) => .next (done (s.firstResidency c w lay (bitsOf (natOfBytes d) 47 0) image))

/-! ## Quanta (R324, R332, R333) -/

/-- A parent's budget less its counter at a launch's creation, as it stands now; spent, it leaves the least budget there is (log 25, DEDUCED). -/
def Node.budgetAt (p : Node) (base : Nat) : Nat := if p.eff.budget = 0 then 0 else max 1 (p.eff.budget - base)

/-- A launch made deterministic, or no longer so (R324 bit 1): its commit tokens start, or its deferred words are performed and its tokens are
gone. -/
def State.setDet (s : State) (node : Nat) (det : Bool) : State :=
  let nd := s.node node
  if nd.launch.det = det then s
  else if det then nd.launch.map.eraseDups.foldl (fun s c => s.startToken node c) (s.setNode node { nd with launch := { nd.launch with det := true } })
  else
    let s := s.setNode node { nd with launch := { nd.launch with det := false, tokens := [] } }
    nd.launch.map.eraseDups.foldl (fun s c =>
      (((s.col c).groups.filter fun e => e.2.live && decide (e.2.launch = node)).flatMap fun e => (s.col c).slotsOf e.1).foldl
        (fun s n => s.performDeferred c n) s) s

/-- A launch's effective values taken again from its region's, which the factor complex may have rewritten; the bay mode,
the partition and the mask of columns stay (R324, log 25, DEDUCED). -/
def State.refreshEff (s : State) (node : Nat) : State :=
  let nd := s.node node
  let p := s.node nd.parent
  let left := p.budgetAt nd.base
  let e := if nd.rcb.isEmpty then { p.eff with budget := left } else effective nd.rcb p.eff left
  (s.setNode node { nd with eff := { e with mode := nd.eff.mode, part := nd.eff.part, cmask := nd.eff.cmask } }).setDet node
    (bitOf nd.launch.task.tflags 0 || e.det)

/-- The columns of a region whose bays are to take its rewritten weight and masks, if they have not (R324). -/
def State.allotDue (s : State) (region : Nat) (cols : BitVec 256) : State :=
  let nd := s.node region
  if nd.stale &&& cols = 0#256 then s else s.setNode region { nd with due := nd.due ||| (nd.stale &&& cols) }

/-- QUANTUM_EXPIRE: a resident group whose quantum has passed is pre-empted for a waiter of equal or higher effective
priority; else, or where R331 defers that, its quantum restarts (R333). -/
def execQuantumExpire (c entry : Nat) (s : State) : Host.Outcome State Fault Refusal :=
  let g := (s.col c).group entry
  let nd := s.node g.launch
  if g.live ∧ ¬ g.leaving ∧ g.since + nd.eff.cycles ≤ s.clk then
    let s := s.promoteAll c
    let s := s.updCol c fun x => x.setGroup entry { x.group entry with promoted := false }
    let s := (s.refreshEff g.launch).allotDue nd.parent (1#256 <<< c)
    if (s.waiters c).any fun w => decide ((s.node g.launch).eff.prio ≤ s.waiterRank w) then
      let t := (s.updCol c fun x => x.setGroup entry { x.group entry with deferred := none }).preempt c entry
      .next (if ((t.col c).group entry).deferred.isSome then t.updCol c fun x => x.setGroup entry { x.group entry with since := s.clk, deferred := none } else t)
    else .next (s.updCol c fun x => x.setGroup entry { x.group entry with since := s.clk })
  else .next s

/-- WAIT_PRIORITY_RISE: a waiting group has waited one more full quantum of its own region (R332). -/
def execWaitPriorityRise (node group : Nat) (s : State) : Host.Outcome State Fault Refusal :=
  let nd := s.node node
  let g := nd.launch.groupOf group
  match g.place with
  | .waiting t =>
    if t + (g.rises + 1) * nd.eff.cycles ≤ s.clk ∧ nd.effPrio g < 15 then
      .next ((s.setGroupState node group { g with rises := g.rises + 1 }).promoteAll (nd.launch.columnOf group))
    else .next s
  | _ => .next s

/-! ## The watchdog (R335) -/

/-- Has a node's runtime counter reached its budget? -/
def Node.spent (n : Node) : Bool := decide (n.eff.budget ≠ 0) && decide (n.eff.budget ≤ n.runtime)

/-- The launches under a service region. -/
def State.launchesOf (s : State) (region : Nat) : List Nat :=
  (s.dist.nodes.filter fun e => decide (e.2.kind = .launch) && decide (e.2.parent = region)).map Prod.fst

/-- WATCHDOG: a launch, or every launch of a service region, is ended and one report made; a region whose counter has
reached its budget acts alone. A launch whose groups have all ended is left alone. -/
def execWatchdog (node : Nat) (s : State) : Host.Outcome State Fault Refusal :=
  let nd := s.node node
  if !nd.spent then .next s
  else
    match nd.kind with
    | .launch =>
      if (s.node nd.parent).spent || nd.launch.over then .next s
      else
        let r : Report := { kind := 1, code := 16, scope := 1, node := node, runtime := nd.runtime, ended := nd.launch.living }
        .next ((s.report nd.eff.fdom r).endLaunch node 16)
    | .service =>
      let ls := (s.launchesOf node).filter fun l => !(s.node l).launch.over
      if ls.isEmpty then .next s
      else
        let n := (ls.map fun l => (s.node l).launch.living).foldl (· + ·) 0
        let r : Report := { kind := 1, code := 16, scope := 2, node := node, runtime := nd.runtime, ended := n }
        .next (ls.foldl (fun s l => s.endLaunch l 16) (s.report nd.eff.fdom r))
    | _ => .next s

end Sys2Proof.Machine
end

