-- ==== Sys2Proof/Machine/Tensor.lean ====
section
/-! DEFINITION. Tensor descriptors and their elements (R208 to R215, R223 to R227, R32), conversion (R244), loop entries
(R231), and what the engines write at a bay. -/

namespace Sys2Proof.Machine

/-! ## Formats (R208) -/

/-- The bytes of an element; an MXFP4 element takes half of one. -/
def fmtBytes (f : Nat) : Nat := if f = 2 ∨ f = 3 then 4 else if f = 4 ∨ f = 5 then 2 else if f = 9 then 8 else 1

/-- Is a format one of the MX codes? -/
def isMx (f : Nat) : Bool := decide (0x10 ≤ f) && decide (f ≤ 0x13)

/-- Is a number a format code? -/
def fmtKnown (f : Nat) : Bool := decide (f ≤ 9) || isMx f

/-- A two's-complement number of w bits. -/
def signedOf (w x : Nat) : Int := if x % 2 ^ w < 2 ^ (w - 1) then ((x % 2 ^ w : Nat) : Int) else ((x % 2 ^ w : Nat) : Int) - (2 ^ w : Nat)

/-- The exact value of an element's code, with its scale byte for an MX code (R244). -/
def codeVal (f code scale : Nat) : FVal :=
  match f with
  | 1 => .ofInt (signedOf 8 code)
  | 2 => .ofInt (signedOf 32 code)
  | 3 => fp32.decode code
  | 4 => fp16.decode code
  | 5 => bf16.decode code
  | 6 => e4m3.decode code
  | 7 => e5m2.decode code
  | _ => if isMx f then mxVal (f - 0x10) scale code else .nan

/-- The value that an element write carries. -/
def EltSrc.val (e : EltSrc) : FVal := (codeVal e.fmt e.code e.scale).scale e.exp

/-- A value rounded to an integer of w bits (R244's INT rows). -/
def toIntCode (w : Nat) (sat : Bool) (x : FVal) : Nat :=
  let least := 2 ^ (w - 1)
  match x with
  | .nan => if sat then 0 else least
  | .inf neg => if sat then (if neg then least else least - 1) else least
  | .fin neg m e =>
    let n := roundInt .rne neg m e
    if neg then (if n ≤ least then (2 ^ w - n) % 2 ^ w else least)
    else if n < least then n
    else if sat then least - 1 else least

/-- A value's code in an unscaled destination format (R244). -/
def convCode (f : Nat) (sat : Bool) (x : FVal) : Nat :=
  let fp (g : FpFmt) : Nat := g.encode (if sat then g.sat (g.round .rne x) else g.round .rne x)
  match f with
  | 1 => toIntCode 8 sat x
  | 2 => toIntCode 32 sat x
  | 3 => fp fp32
  | 4 => fp fp16
  | 5 => fp bf16
  | 6 => packE4m3 .rne x
  | _ => packE5m2 .rne sat x

/-- May a copy convert one format to another (R244)? -/
def convertible (src dst : Nat) : Bool :=
  let raw (f : Nat) : Bool := decide (f = 0) || decide (f = 8) || decide (f = 9)
  decide (src = dst) || (!raw src && !raw dst)

/-! ## Tensor descriptors (R223, R224) -/

/-- A descriptor from its 96 bytes. -/
def tdOf (b : List Byte) : TD :=
  let f := fieldOf b
  { bytes := b.take 96, format := f 0 1, rank := f 1 1, layout := f 2 1, dist := f 3 1, oob := f 4 2, base := BitVec.ofNat 64 (f 8 8)
    size := (List.range 7).map fun d => f (0x10 + 4 * d) 4, fill := BitVec.ofNat 64 (f 0x2C 4)
    stride := (List.range 7).map fun d => f (0x30 + 4 * d) 4, tile0 := f 0x4C 1, tile1 := f 0x4D 1, super0 := f 0x4E 1
    super1 := f 0x4F 1, block := f 0x50 4 }

/-- Size, stride and mode of a dimension. -/
def TD.sizeOf (t : TD) (d : Nat) : Nat := t.size.getD d 0
def TD.strideOf (t : TD) (d : Nat) : Nat := t.stride.getD d 0
def TD.mode (t : TD) (d : Nat) : Nat := bitsOf t.oob (2 * d + 1) (2 * d)

/-- The base pointer's offset. -/
def TD.off (t : TD) : Nat := bitsOf t.base.toNat 47 0

/-- The bits of fill that a format leaves zero (R226). -/
def fillOk (f fill : Nat) : Bool :=
  if f = 0x12 then decide (fill / 65536 = 0) && decide (bitsOf fill 7 4 = 0)
  else if isMx f then decide (fill / 65536 = 0)
  else if f = 9 then true else decide (fill < 2 ^ (8 * fmtBytes f))

/-- The layout rules of R209, R214 and R215. -/
def TD.layoutOk (t : TD) : Bool :=
  let mx := isMx t.format
  let z := t.tile0 * t.tile1 * t.super0 * t.super1
  let t0 := t.tile0 * t.super0
  (if mx then decide (t.off % 128 = 0) && decide (t.strideOf 0 = 1) else decide (t.off % fmtBytes t.format = 0)) &&
  (if t.layout = 0 then
    decide (t.tile0 = 0) && decide (t.tile1 = 0) && decide (t.super0 = 0) && decide (t.super1 = 0) &&
      (!mx || (List.range 7).all fun d => decide (d = 0) || decide (t.strideOf d % 32 = 0))
  else
    decide (t.rank ≠ 1) && decide (z ≠ 0) && decide (t.strideOf 0 = 1) && decide (t.strideOf 1 % z = 0) &&
      decide ((t.sizeOf 0 + t0 - 1) / t0 * z ≤ t.strideOf 1) && (!mx || decide (t.tile0 % 32 = 0)))

/-- Is a descriptor valid? -/
def TD.valid (t : TD) : Bool :=
  fmtKnown t.format && decide (1 ≤ t.rank) && decide (t.rank ≤ 7) && decide (t.layout ≤ 1) && decide (t.dist ≤ 2) &&
  decide (t.oob < 2 ^ 14) && zeroBytes t.bytes 6 8 && zeroBytes t.bytes 0x54 0x60 && fillOk t.format t.fill.toNat &&
  ((List.range 7).all fun d =>
    if d < t.rank then decide (1 ≤ t.sizeOf d) && decide (t.sizeOf d < 2 ^ 31) && decide (t.mode d ≠ 3)
    else decide (t.sizeOf d = 0) && decide (t.strideOf d = 0) && decide (t.mode d = 0)) &&
  (decide (t.dist ≠ 0) == decide (t.block ≠ 0)) && t.layoutOk

/-- Does a base pointer pass R26: near, or far with a gcol of the gang; nothing else set? -/
def TD.baseOk (t : TD) (n : Nat) : Bool :=
  let p := t.base.toNat
  decide (p < 2 ^ 48) || (bitOf p 63 && decide (bitsOf p 54 48 = 0) && decide (bitsOf p 62 55 < n))

/-- The gcol that a base pointer names (R26). -/
def TD.baseGcol (t : TD) (own : Nat) : Nat := if t.base.getLsbD 63 then bitsOf t.base.toNat 62 55 else own

/-- The element offset of local coordinates (R214, R215). -/
def TD.element (t : TD) (i : List Nat) : Nat :=
  let c (d : Nat) : Nat := i.getD d 0
  let lin (l : List Nat) : Nat := (l.map fun d => c d * t.strideOf d).foldl (· + ·) 0
  if t.layout = 0 then lin (List.range t.rank)
  else
    let a0 := c 0 / t.tile0
    let a1 := c 1 / t.tile1
    let tilepos := a1 % t.super1 * t.super0 + a0 % t.super0
    a1 / t.super1 * t.strideOf 1 + a0 / t.super0 * (t.tile0 * t.tile1 * t.super0 * t.super1) + tilepos * (t.tile0 * t.tile1)
      + c 1 % t.tile1 * t.tile0 + c 0 % t.tile0 + lin ((List.range t.rank).filter fun d => decide (2 ≤ d))

/-- Where an element lies: its gcol, the offset of its byte and of its scale byte, and its element offset. -/
structure Loc where
  g : Nat
  off : Nat
  scale : Nat
  e : Nat
  deriving DecidableEq, Repr

/-- The owner and local coordinates of coordinates in bounds (R32, R225). -/
def TD.locate (t : TD) (own n : Nat) (i : List Nat) : Loc :=
  let last := i.getD (t.rank - 1) 0
  let (g, l) : Nat × Nat :=
    if t.dist = 0 then (t.baseGcol own, last)
    else if t.dist = 1 then (last / t.block, last % t.block)
    else (last / t.block % n, last / (t.block * n) * t.block + last % t.block)
  let e := t.element (i.set (t.rank - 1) l)
  if isMx t.format then
    let f := t.format - 0x10
    { g := g, off := t.off + mxElemOff f e, scale := t.off + mxScaleOff f e, e := e }
  else { g := g, off := t.off + e * fmtBytes t.format, scale := 0, e := e }

/-! ## Bounds (R227) -/

/-- The number of in-bounds coordinates of a dimension (R32). -/
def TD.limit (t : TD) (n d : Nat) : Nat :=
  if t.dist = 1 ∧ d + 1 = t.rank then min (t.sizeOf d) (t.block * n) else t.sizeOf d

/-- The fate of coordinates: in bounds or clamped to it, filled, or a fault in a dimension. -/
inductive Fate where
  | at_ (i : List Nat)
  | clamped (i : List Nat)
  | fill
  | bad (dim : Nat)
  deriving DecidableEq, Repr

/-- The fate of one coordinate: none in bounds, else its dimension's mode. -/
def TD.outside (t : TD) (n : Nat) (c : List Int) (d : Nat) : Option Nat :=
  let x := c.getD d 0
  if 0 ≤ x ∧ x < (t.limit n d : Nat) then none else some (t.mode d)

/-- The coordinates of an element under its modes: an out-of-bounds one under ERROR faults, under FILL fills, under CLAMP
moves to the nearest in bounds. Where several are out of bounds under different modes, ERROR comes before FILL and FILL before CLAMP (log 128,
DESIGN CHOICE). -/
def TD.fate (t : TD) (n : Nat) (c : List Int) : Fate :=
  let dims := List.range t.rank
  match dims.find? fun d => t.outside n c d == some 0 with
  | some d => .bad d
  | none =>
    let near (d : Nat) : Nat := if c.getD d 0 < 0 then 0 else min (c.getD d 0).toNat (t.limit n d - 1)
    if dims.any fun d => t.outside n c d == some 2 then .fill
    else if dims.any fun d => t.outside n c d == some 1 then .clamped (dims.map near)
    else .at_ (dims.map near)

/-! ## Loops and grids (R231, R232) -/

/-- A loop entry. -/
structure Loop where
  bound : Nat
  dim : Nat
  side : Nat
  step : Int
  deriving DecidableEq, Repr

/-- The loop entry at an offset of a record. -/
def loopAt (b : List Byte) (o : Nat) : Loop :=
  { bound := fieldOf b o 2, dim := fieldOf b (o + 2) 1, side := fieldOf b (o + 3) 1, step := signedOf 32 (fieldOf b (o + 4) 4) }

/-- Every vector below some bounds, the first component fastest. -/
def grid : List Nat → List (List Nat)
  | [] => [[]]
  | n :: ns => (grid ns).flatMap fun r => (List.range n).map fun i => i :: r

/-- The vector after one, or none after the last. -/
def nextVec : List Nat → List Nat → Option (List Nat)
  | [], _ => none
  | n :: ns, v =>
    if v.headD 0 + 1 < n then some ((v.headD 0 + 1) :: v.tail)
    else (nextVec ns v.tail).map fun r => 0 :: r

/-- Coordinates with a number added in one dimension. -/
def addAt (c : List Int) (d : Nat) (x : Int) : List Int := c.set d (c.getD d 0 + x)

/-! ## Writes at a store -/

/-- A byte of a store under the bytes written so far. -/
def overlay (get : Nat → Byte) (done : List (Nat × Byte)) (a : Nat) : Byte :=
  match done.find? fun p => p.1 == a with
  | some p => p.2
  | none => get a

/-- The bytes that one write leaves, latest first (R244, R245, R219). A block's positions that belong to no element of the tensor are
neither read nor written (R214). -/
def BayWrite.apply (get : Nat → Byte) (done : List (Nat × Byte)) : BayWrite → List (Nat × Byte)
  | .bytes pa b => (b.zip (List.range b.length)).foldl (fun d e => (pa + e.2, e.1) :: d) done
  | .nibble pa hi x =>
    let old := (overlay get done pa).toNat
    (pa, BitVec.ofNat 8 (if hi then old % 16 + 16 * (x % 16) else old / 16 * 16 + x % 16)) :: done
  | .block f elems scale own elts =>
    let s := (overlay get done scale).toNat
    let at_ (k : Nat) : Nat := elems + (if f = 2 then k / 2 else k)
    let vals := (List.range 32).map fun k =>
      match elts.reverse.find? fun e => e.1 == k with
      | some e => e.2.val
      | none => if own.getLsbD k = false then .fin false 0 0 else mxVal f s (mxCode f k (overlay get done (at_ k)).toNat)
    let (s', codes) := requantize f vals
    ((codes.zip (List.range 32)).filter fun c => own.getLsbD c.2).foldl (fun d c =>
      (at_ c.2, BitVec.ofNat 8 (mxPut f c.2 (overlay get d (at_ c.2)).toNat c.1)) :: d) ((scale, BitVec.ofNat 8 s') :: done)

/-- The bytes that some writes leave, each address once. -/
def writtenBytes (get : Nat → Byte) (ops : List BayWrite) : List (Nat × Byte) :=
  let all := ops.foldl (fun d o => o.apply get d) []
  all.foldl (fun acc p => if acc.any fun q => q.1 == p.1 then acc else acc ++ [p]) []

/-- The line of a write's elements. -/
def BayWrite.line : BayWrite → Nat
  | .bytes pa _ => lineOf pa
  | .nibble pa _ _ => lineOf pa
  | .block _ e _ _ _ => lineOf e

/-- A byte as an engine reads it at a bay: through the alias window where it lies there (R220). -/
def Column.bayByte (x : Column) (free region pa : Nat) : Byte :=
  match x.bay.kindOf region pa with
  | .aliased n => (x.aliasRead free n pa 1).headD 0#8
  | _ => x.byteAt free pa

/-- Bytes written by an engine at a bay: U copies recalled, window bytes requantized, marks cleared of the sectors that
are covered whole, and the slice's tag touched with the eviction priority (R33, R61, R164, R219). -/
def Column.bayStore (x : Column) (free region ep : Nat) (bs : List (Nat × Byte)) : Column :=
  (linesOf (bs.map Prod.fst)).foldl (fun x line =>
    let mine := bs.filter fun p => decide (lineOf p.1 = line)
    let x := x.recallU free line
    match x.bay.kindOf region (128 * line) with
    | .aliased n =>
      let e (b : Nat) : Nat := x.bay.aliasElem n b
      let back := mine.flatMap fun p => x.bay.backingLines n (e p.1)
      let x := back.foldl (fun x ln => x.recallU free ln) x
      x.aliasWrite free n mine
    | _ =>
      let mask := mine.foldl (fun (m : BitVec 128) p => m ||| (1#128 <<< (p.1 % 128))) 0#128
      let sectors := mine.foldl (fun (m : BitVec 4) p => m ||| sectorsOf (p.1 % 128) 1) 0#4
      let x := (mine.foldl (fun x p => x.putByte p.1 p.2) x).clearMarks line mask
      x.updBay fun b => b.touch region line sectors true ep) x

/-- Engine writes performed at a bay. -/
def Column.bayWrites (x : Column) (free region ep : Nat) (ops : List BayWrite) : Column :=
  x.bayStore free region ep (writtenBytes (x.bayByte free region) ops)

end Sys2Proof.Machine
end

