-- ==== Sys2Proof/Machine/Transfer.lean ====
section
/-! DEFINITION. Copy and gather records (R228 to R235), the elements that one transfer moves in transfer order (R232,
R247 to R250), the places that they lie at (R251, R252, R262), and what a transfer needs and writes (R236, R244, R245). -/

namespace Sys2Proof.Machine

/-! ## Records -/

/-- A copy record, or a gather record: `a` and `b` are the source and destination descriptors of a copy, or the index and
table descriptors of a gather, whose row descriptor is `r`. -/
structure Rec where
  gather : Bool
  a : TD
  b : TD
  r : TD
  box : List Nat := []
  flags : Nat := 0
  permWord : Nat := 0
  perm : List Nat := []
  nloops : Nat := 0
  loops : List Loop := []
  count : Nat := 0
  /-- the reserved bytes are zero, those of the report area among them (R222, R233) -/
  clear : Bool := true
  /-- the offset of its report area -/
  rep : Nat := 0

/-- The bytes of a copy and of a gather record. -/
def recSize (gather : Bool) : Nat := if gather then 400 else 320

/-- perm as a list: destination dimension of each source dimension (R230). -/
def permList (rank p : Nat) : List Nat :=
  (List.range rank).map fun d => if p = 0 then d else bitsOf p (3 * d + 2) (3 * d)

/-- A record from its bytes. -/
def recOf (gather : Bool) (b : List Byte) : Rec :=
  let f := fieldOf b
  let td (o : Nat) : TD := tdOf ((b.drop o).take 96)
  let entries (o n : Nat) : List Loop := (List.range (min n 5)).map fun j => loopAt b (o + 8 * j)
  if gather then
    { gather := true, a := td 0, b := td 0x60, r := td 0xC0, flags := f 0x120 2, nloops := f 0x122 1, count := f 0x124 4
      loops := entries 0x128 (f 0x122 1), rep := 0x150
      clear := zeroBytes b 0x123 0x124 && zeroBytes b (0x128 + 8 * min (f 0x122 1) 5) 0x150 && zeroBytes b 0x15E 0x160 && zeroBytes b 0x188 0x190 }
  else
    { gather := false, a := td 0, b := td 0x60, r := td 0x60, box := (List.range 7).map fun d => f (0xC0 + 2 * d) 2, flags := f 0xCE 2
      permWord := f 0xD0 4, perm := permList (f 1 1) (f 0xD0 4), nloops := f 0xD4 1, loops := entries 0xD8 (f 0xD4 1), rep := 0x100
      clear := zeroBytes b 0xD5 0xD8 && zeroBytes b (0xD8 + 8 * min (f 0xD4 1) 5) 0x100 && zeroBytes b 0x10E 0x110 && zeroBytes b 0x138 0x140 }

/-- The fields of R229. -/
def Rec.bar (r : Rec) : Bool := bitOf r.flags 0
def Rec.sat (r : Rec) : Bool := bitOf r.flags 1
def Rec.lus (r : Rec) : Bool := bitOf r.flags 2
def Rec.eps (r : Rec) : Nat := bitsOf r.flags 4 3
def Rec.epd (r : Rec) : Nat := bitsOf r.flags 6 5

/-- Is perm the identity or a permutation with nothing above it (R230)? -/
def Rec.permOk (r : Rec) : Bool :=
  r.perm.all (fun d => decide (d < r.a.rank)) && decide (r.perm.eraseDups.length = r.perm.length) &&
    decide (r.permWord / 2 ^ (3 * r.a.rank) = 0)

/-- Is a record valid (R222, R224, R228 to R234, R244)? -/
def Rec.valid (r : Rec) : Bool :=
  let loopOk (l : Loop) : Bool :=
    let ra := r.a.rank
    let rb := r.r.rank
    decide (1 ≤ l.bound) && decide (l.side ≤ 2) && (decide (l.side = 1) || decide (l.dim < ra)) && (decide (l.side = 0) || decide (l.dim < rb))
  r.a.valid && r.b.valid && r.clear && decide (r.flags < 128) && decide (r.nloops ≤ 5) && r.loops.all loopOk &&
  if r.gather then
    r.r.valid && decide (r.a.format = 2) && decide (r.b.rank = r.r.rank) && decide (r.b.format = r.r.format) && !isMx r.b.format &&
    ((List.range (r.b.rank - 1)).all fun d => decide (r.b.sizeOf d ≤ r.r.sizeOf d)) && decide (1 ≤ r.count) && decide (r.count ≤ 65535)
  else
    decide (r.a.rank = r.b.rank) && r.permOk && convertible r.a.format r.b.format &&
    ((List.range 7).all fun d => decide (d < r.a.rank) == decide (r.box.getD d 0 ≠ 0))

/-- How many coordinates the word reads, if its rank fields let it read them (R232, R235). Where the span would pass v63 and the table's rank
differs from the word's as well, the word issues and faults RECORD (log 132, DESIGN CHOICE). -/
def Rec.coords (r : Rec) : Option Nat :=
  let ok (n : Nat) : Bool := decide (1 ≤ n) && decide (n ≤ 7)
  if r.gather then (if ok r.a.rank && ok r.r.rank && decide (r.b.rank = r.r.rank) then some (r.a.rank + r.r.rank) else none)
  else if ok r.a.rank && decide (r.a.rank = r.b.rank) then some (2 * r.a.rank) else none

/-- The bounds of the loops in use. -/
def Rec.bounds (r : Rec) : List Nat := r.loops.map (·.bound)

/-- The first and second coordinates of a transfer: source and destination, or index and row (R232, R235). -/
def Rec.starts (r : Rec) (coords : List Int) (it : List Nat) : List Int × List Int :=
  (r.loops.zip it).foldl (fun (acc : List Int × List Int) e =>
    let x := (e.2 : Int) * e.1.step
    let d := e.1.dim
    match e.1.side with
    | 0 => (addAt acc.1 d x, acc.2)
    | 1 => (acc.1, addAt acc.2 d x)
    | _ => (addAt acc.1 d x, addAt acc.2 (if r.gather then d else r.perm.getD d d) x))
    (coords.take r.a.rank, coords.drop r.a.rank)

/-! ## The elements of a transfer -/

/-- One element: where it is read, unless it is filled, and where it is written, unless it is dropped, with the coordinates
that a report names. -/
structure Pair where
  src : Option Loc
  dst : Option Loc
  sc : List Int
  dc : List Int
  ipos : Nat := 0
  deriving DecidableEq, Repr

/-- A descriptor's element for reading: none for a fill; or the fault of R227. -/
def TD.source (t : TD) (own n side ipos : Nat) (c : List Int) : Except CmdFault (Option Loc) :=
  match t.fate n c with
  | .bad d => .error { code := 3, dim := d, side := side, coords := c, ipos := ipos }
  | .fill => .ok none
  | .at_ i => .ok (some (t.locate own n i))
  | .clamped i => .ok (some (t.locate own n i))

/-- A descriptor's element for writing: none for one dropped. -/
def TD.target (t : TD) (own n side ipos : Nat) (c : List Int) : Except CmdFault (Option Loc) :=
  match t.fate n c with
  | .bad d => .error { code := 3, dim := d, side := side, coords := c, ipos := ipos }
  | .at_ i => .ok (some (t.locate own n i))
  | _ => .ok none

/-- The elements of a copy's transfer, in transfer order (R232). A fault at a clamped element reports the coordinates from before the clamp, but
at a table's row those after it (log 129, DESIGN CHOICE). -/
def Rec.copyPairs (r : Rec) (own n : Nat) (coords : List Int) (it : List Nat) : List (Except CmdFault Pair) :=
  let (s0, d0) := r.starts coords it
  (grid (r.box.take r.a.rank)).map fun o =>
    let step (acc : List Int × List Int) (e : Nat × Nat) : List Int × List Int :=
      (addAt acc.1 e.2 (e.1 : Int), addAt acc.2 (r.perm.getD e.2 e.2) (e.1 : Int))
    let (sc, dc) := (o.zip (List.range o.length)).foldl step (s0, d0)
    match r.a.source own n 0 0 sc with
    | .error f => .error f
    | .ok src =>
      match r.b.target own n 1 0 dc with
      | .error f => .error f
      | .ok dst => .ok { src := src, dst := dst, sc := sc, dc := dc }

/-- The index coordinates at position p (R247). -/
def Rec.indexAt (r : Rec) (coords : List Int) (it : List Nat) (p : Nat) : List Int := addAt (r.starts coords it).1 0 (p : Int)

/-- The elements that one position of a gather or scatter moves, for its index (R247, R248). -/
def Rec.rowPairs (r : Rec) (scat : Bool) (own n : Nat) (coords : List Int) (it : List Nat) (p : Nat) (k : Int) :
    List (Except CmdFault Pair) :=
  let rank := r.b.rank
  let row0 := addAt (r.starts coords it).2 (rank - 1) (p : Int)
  let at_ : List Int := (List.replicate (rank - 1) (0 : Int)) ++ [k]
  match r.b.outside n at_ (rank - 1) with
  | some 0 => [.error { code := 4, dim := rank - 1, side := 3, coords := at_, ipos := p }]
  | m =>
    let near : Nat := if k < 0 then 0 else min k.toNat (r.b.limit n (rank - 1) - 1)
    (grid ((List.range (rank - 1)).map r.b.sizeOf)).map fun o =>
      let tc := o ++ [near]
      let tl : Option Loc := if m = some 2 then none else some (r.b.locate own n tc)
      let tci := tc.map fun (x : Nat) => (x : Int)
      let rc := (o.zip (List.range o.length)).foldl (fun c e => addAt c e.2 (e.1 : Int)) row0
      if scat then
        match r.r.source own n 0 p rc with
        | .error f => .error f
        | .ok src => .ok { src := src, dst := tl, sc := rc, dc := tci, ipos := p }
      else
        match r.r.target own n 1 p rc with
        | .error f => .error f
        | .ok dst => .ok { src := tl, dst := dst, sc := tci, dc := rc, ipos := p }

/-! ## Places -/

/-- Where a byte lies: a column's physical memory, a launch's crib reservation, or a peer's memory behind a queue pair. -/
inductive Place where
  | bay (col pa : Nat)
  | crib (launch off : Nat)
  | peer (qp addr : Nat)
  deriving DecidableEq, Repr

/-- The store of a place, and the address in it. -/
def Place.store : Place → Nat × Nat
  | .bay c _ => (0, c)
  | .crib l _ => (1, l)
  | .peer q _ => (2, q)
def Place.addr : Place → Nat
  | .bay _ a => a
  | .crib _ a => a
  | .peer _ a => a
/-- A place moved by some bytes. -/
def Place.plus (p : Place) (n : Nat) : Place :=
  match p with
  | .bay c a => .bay c (a + n)
  | .crib l a => .crib l (a + n)
  | .peer q a => .peer q (a + n)

/-- A queue pair's name: port, number and key, as one number. -/
def qpName (port qpn key : Nat) : Nat := port * 2 ^ 56 + qpn * 2 ^ 32 + key

/-- The columns that a command's pointers reach, where among them a near pointer leads, and the gang's column count. A gcol leads to its
column's memory, behind a proxy to the lost column's; a near pointer always leads to the issuing column, which on a proxy no gcol names and
which stands after the gang's (R26, R251, R361). -/
def State.gcols (s : State) (k : Command) : List Nat × Nat × Nat :=
  let l := (s.node k.launch).launch
  (l.memMap ++ [k.col], (l.memMap.findIdx? fun x => x == k.col).getD l.map.length, l.map.length)

/-- Where an offset of a command's context lies in the column of a gcol, or the code of the fault that its translation
meets there (R251 to R253). Only the issuing column's crib window is reached, and a launch's code image takes no write (R35, R262). -/
def State.place (s : State) (k : Command) (g off : Nat) (write : Bool) : Except Nat Place × State :=
  let c := (s.gcols k).1.getD g 0
  let write0 := write && s.inCode c k.ctx off
  if 2 ^ 48 ≤ off then (.error 2, s)
  else
    match s.cribOf c k.ctx off with
    | some (l, o) =>
      if c ≠ k.col then (.error 6, s)
      else if (Tab.get {} (s.col c).cribs l).kib * 1024 ≤ o then (.error 7, s)
      else (.ok (.crib l o), s)
    | none =>
      match s.translate c k.ctx off false with
      | (none, s) => (.error 5, s)
      | (some e, s) =>
        if e.kind = 2 then
          if k.kind ≠ .copy then (.error 12, s)
          else if (write ∧ ¬ e.w) ∨ (¬ write ∧ ¬ e.r) then (.error 6, s)
          else
            let d := (s.col c).bytesAt s.free e.pa 32
            if 1 < fieldOf d 0 1 ∨ (Tab.get ({} : QueuePair) s.host.qps (fieldOf d 4 4 % 2 ^ 24)).port ≠ some (fieldOf d 0 1) then (.error 12, s)
            else (.ok (.peer (qpName (fieldOf d 0 1) (fieldOf d 4 4 % 2 ^ 24) (fieldOf d 8 4)) (fieldOf d 0x10 8 + (off - e.va))), s)
        else if (write ∧ ¬ e.w) ∨ (¬ write ∧ ¬ e.r) ∨ write0 then (.error 6, s)
        else if e.kind = 1 then
          if c ≠ k.col then (.error 6, s)
          else if (Tab.get {} (s.col c).cribs k.launch).kib * 1024 ≤ e.at_ off then (.error 7, s)
          else (.ok (.crib k.launch (e.at_ off)), s)
        else
          let pa := e.at_ off
          match (s.col c).bay.openKind k.ctx pa with
          | .hole => (.error 7, s)
          | _ => (.ok (.bay c pa), s)

/-- An element with its places: the source's and its scale's, the destination's and its scale's. -/
structure Move where
  src : Option (Place × Option Place × Nat)
  dst : Option (Place × Option Place × Nat)
  pair : Pair
  deriving DecidableEq, Repr

/-- The thresher's code for a fault that an engine would name by a code of R253: bounds, its address, its translation, its permission or a hole
(R283). -/
def mstrCode (code : Nat) : Nat :=
  match code with
  | 3 => 8 | 2 => 9 | 5 => 10 | 7 => 12 | _ => 11

/-- The places of an element and of its scale, or the fault: of the thresher that of the lower code of the two (R283). -/
def State.placeOf (s : State) (k : Command) (t : TD) (side : Nat) (c : List Int) (ipos : Nat) (write : Bool) (l : Loc) :
    Except CmdFault (Place × Option Place × Nat) × State :=
  let bad (code addr : Nat) : Except CmdFault (Place × Option Place × Nat) :=
    .error { code := code, side := side, coords := c, ipos := ipos, addr := addr }
  match s.place k l.g l.off write with
  | (.error code, s) =>
    if k.kind = .mstr ∧ isMx t.format = true then
      match s.place k l.g l.scale write with
      | (.error more, s) => (if mstrCode more < mstrCode code then bad more l.scale else bad code l.off, s)
      | (.ok _, s) => (bad code l.off, s)
    else (bad code l.off, s)
  | (.ok p, s) =>
    if isMx t.format then
      match s.place k l.g l.scale write with
      | (.error code, s) => (bad code l.scale, s)
      | (.ok q, s) => (.ok (p, some q, l.e), s)
    else (.ok (p, none, l.e), s)

/-- The elements of a transfer given their places, up to the first fault in transfer order. A command whose source and destination have both
met a peer page, in this transfer or an earlier one, faults PEER_PAGE (R252), on the source's side with no address (log 131, DESIGN CHOICE). -/
def State.moves (s : State) (k : Command) (ts td : TD) (ss sd : Nat) (peers : Bool × Bool) :
    List (Except CmdFault Pair) → Except CmdFault (List Move) × State
  | [] => (.ok [], s)
  | .error f :: _ => (.error f, s)
  | .ok p :: rest =>
    let one (t : TD) (side : Nat) (c : List Int) (w : Bool) (l : Option Loc) (s : State) :
        Except CmdFault (Option (Place × Option Place × Nat)) × State :=
      match l with
      | none => (.ok none, s)
      | some l =>
        match s.placeOf k t side c p.ipos w l with
        | (.error f, s) => (.error f, s)
        | (.ok x, s) => (.ok (some x), s)
    match one ts ss p.sc false p.src s with
    | (.error f, s) => (.error f, s)
    | (.ok src, s) =>
      match one td sd p.dc true p.dst s with
      | (.error f, s) => (.error f, s)
      | (.ok dst, s) =>
        let isPeer (x : Option (Place × Option Place × Nat)) : Bool := x.any fun y => decide (y.1.store.1 = 2)
        let peers := (peers.1 || isPeer src, peers.2 || isPeer dst)
        if peers.1 && peers.2 then (.error { code := 12, side := ss, coords := p.sc, ipos := p.ipos }, s)
        else
          match s.moves k ts td ss sd peers rest with
          | (.error f, s) => (.error f, s)
          | (.ok ms, s) => (.ok ({ src := src, dst := dst, pair := p } :: ms), s)

/-! ## Reading -/

/-- The part of a column's name in a gather's reads of its table for the window of a position (R249). -/
def windowOf (gather : Bool) (p : Nat) : Nat := if gather then p / 64 + 1 else 0

/-- What a transfer still needs before it can be performed: sectors of columns, named as in `Command.fetched`, and peer bytes. -/
structure Needs where
  sectors : List (Nat × Nat) := []
  peers : List (Nat × Nat × Nat) := []
  deriving DecidableEq, Repr

/-- A need added once. -/
def Needs.add (n : Needs) (p : Place) (size : Nat) (w : Nat := 0) : Needs :=
  match p with
  | .bay c a =>
    let k := (c + 256 * w, a / 32)
    if n.sectors.contains k then n else { n with sectors := n.sectors ++ [k] }
  | .crib _ _ => n
  | .peer q a =>
    let k := (q, a, size)
    if n.peers.contains k then n else { n with peers := n.peers ++ [k] }

/-- Bytes that a command has read, or reads directly from the crib; none while they are not there, and no bytes where an
uncorrectable error is met. -/
def State.got (s : State) (k : Command) (p : Place) (n : Nat) (w : Nat := 0) : Option (List Byte) :=
  match p with
  | .bay c a =>
    (k.fetched.find? fun e => decide (e.1 = c + 256 * w) && decide (e.2.1 = a / 32)).map fun e => (e.2.2.drop (a % 32)).take n
  | .crib l o => some (Memory.readBytes (Tab.get {} (s.col k.col).cribs l).bytes o n)
  | .peer q a => (k.peerGot.find? fun e => decide (e.1 = q) && decide (e.2.1 = a)).map fun e => e.2.2.take n

/-- Is a place still to be read? -/
def State.lacks (s : State) (k : Command) (p : Place) (n : Nat) (w : Nat := 0) : Bool := (s.got k p n w).isNone

/-- Does a transfer also need the scale byte of an MX source: to convert, or to copy scales (R245)? -/
def Rec.needsScale (r : Rec) (aligned : Bool) : Bool := isMx r.a.format && (decide (r.a.format ≠ r.b.format) || aligned)

/-- Is a transfer of a copy between tensors of one MX code block-aligned (R245)? -/
def Rec.aligned (r : Rec) (coords : List Int) (it : List Nat) : Bool :=
  let (s0, d0) := r.starts coords it
  let b0 := r.box.getD 0 0
  !r.gather && isMx r.a.format && decide (r.a.format = r.b.format) && decide (r.perm.getD 0 0 = 0) && decide (s0.getD 0 0 % 32 = 0) &&
    decide (d0.getD 0 0 % 32 = 0) &&
    (decide (b0 % 32 = 0) || (decide ((r.a.sizeOf 0 : Int) ≤ s0.getD 0 0 + b0) && decide ((r.b.sizeOf 0 : Int) ≤ d0.getD 0 0 + b0)))

/-- The value read of an element: its code and, where it is needed, its scale; or the offset at which an uncorrectable error was met. -/
def State.element (s : State) (k : Command) (t : TD) (scale : Bool) (m : Move) : Except Nat EltSrc :=
  match m.src with
  | none => .ok { fmt := t.format, code := if t.format = 0x12 then t.fill.toNat % 16 else if isMx t.format then t.fill.toNat % 256 else t.fill.toNat,
                  scale := bitsOf t.fill.toNat 15 8 }
  | some (p, q, e) =>
    let w := windowOf (decide (k.kind = .gath)) m.pair.ipos
    match (s.got k p (fmtBytes t.format) w).getD [] with
    | [] => .error ((m.pair.src.map (·.off)).getD 0)
    | b =>
      let v := natOfBytes b
      let code := if isMx t.format then mxCode (t.format - 0x10) e v else v
      match q with
      | some q =>
        if scale then
          match (s.got k q 1).getD [] with
          | [] => .error ((m.pair.src.map (·.scale)).getD 0)
          | sb => .ok { fmt := t.format, code := code, scale := natOfBytes sb }
        else .ok { fmt := t.format, code := code }
      | none => .ok { fmt := t.format, code := code }

/-! ## Writing -/

/-- A write in a store: the store, and what is written there. -/
abbrev StoreWrite := (Nat × Nat) × BayWrite

/-- An element's write into an MX block merged with the earlier ones of its block (R244). -/
def mergeBlock (l : List StoreWrite) (store : Nat × Nat) (f elems scale : Nat) (own : BitVec 32) (k : Nat) (e : EltSrc) : List StoreWrite :=
  let same (w : StoreWrite) : Bool :=
    decide (w.1 = store) && match w.2 with | .block _ a _ _ _ => decide (a = elems) | _ => false
  if l.any same then
    l.map fun w =>
      if same w then
        (match w.2 with
         | .block f a sc n elts => (w.1, .block f a sc n (elts ++ [(k, e)]))
         | _ => w)
      else w
  else l ++ [(store, .block f elems scale own [(k, e)])]

/-- How many indices along a distributed dimension a gcol of n holds (R32, R225). -/
def TD.held (t : TD) (n g : Nat) : Nat :=
  let size := t.limit n (t.rank - 1)
  if t.dist = 0 then size
  else if t.dist = 1 then min t.block (size - g * t.block)
  else size / (t.block * n) * t.block + min t.block (size % (t.block * n) - g * t.block)

/-- Does an element offset belong to an element of a plane: of dimension 0 in the linear layout, of dimensions 0 and 1, which hold size1 indices,
in the blocked one, whose offsets are decoded uniquely (R214, R215)? -/
def TD.inPlane (t : TD) (size0 size1 r : Nat) : Bool :=
  if t.layout = 0 then decide (r < size0)
  else
    let tile := t.tile0 * t.tile1
    let z := tile * t.super0 * t.super1
    let q := r % t.strideOf 1
    let pos := q % z / tile
    let w := q % tile
    decide ((q / z * t.super0 + pos % t.super0) * t.tile0 + w % t.tile0 < size0) &&
      decide ((r / t.strideOf 1 * t.super1 + pos / t.super0) * t.tile1 + w / t.tile0 < size1)

/-- Does an offset lie in the plane of some coordinates of further dimensions, given by their sizes and strides? -/
def reaches (plane : Nat → Bool) : List (Nat × Nat) → Nat → Bool
  | [], r => plane r
  | (size, stride) :: rest, r => (List.range size).any fun i => decide (i * stride ≤ r) && reaches plane rest (r - i * stride)

/-- The positions of the block of 32 that an element offset of a gcol lies in that belong to elements of the tensor there (R214): strides may
lay several rows over one block. -/
def TD.owned (t : TD) (n g e : Nat) : BitVec 32 :=
  let size (d : Nat) : Nat := if d + 1 = t.rank then t.held n g else t.sizeOf d
  let dims := ((List.range t.rank).drop (if t.layout = 0 then 1 else 2)).map fun d => (size d, t.strideOf d)
  (List.range 32).foldl (fun m k => if reaches (t.inPlane (size 0) (size 1)) dims (e / 32 * 32 + k) then m ||| (1#32 <<< k) else m) 0#32

/-- The writes of one element (R244, R245). In a block-aligned transfer a filled element gives its block fill's scale only
if no source element gives it one. -/
def Move.writes (m : Move) (t : TD) (n : Nat) (sat aligned : Bool) (x : EltSrc) (l : List StoreWrite) : List StoreWrite :=
  match m.dst with
  | none => l
  | some (p, q, e) =>
    let put (w : BayWrite) : StoreWrite := (p.store, w)
    if isMx t.format then
      let f := t.format - 0x10
      if x.fmt = t.format ∧ x.exp = 0 then
        let w : BayWrite := if f = 2 then .nibble p.addr (decide (e % 2 = 1)) x.code else .bytes p.addr [BitVec.ofNat 8 x.code]
        let done (q : Place) : Bool := m.src.isNone && l.any fun w =>
          decide (w.1 = q.store) && match w.2 with | .bytes a _ => decide (a = q.addr) | _ => false
        match (if aligned then q.filter (!done ·) else none) with
        | some q => l ++ [put w, (q.store, .bytes q.addr [BitVec.ofNat 8 x.scale])]
        | none => l ++ [put w]
      else
        let kk := e % 32
        mergeBlock l p.store f (p.addr - (if f = 2 then kk / 2 else kk)) ((q.map Place.addr).getD 0)
          ((m.pair.dst.map fun d => t.owned n d.g e).getD 0xFFFFFFFF#32) kk x
    else
      let code := if x.fmt = t.format ∧ x.exp = 0 then x.code else convCode t.format sat x.val
      l ++ [put (.bytes p.addr (bytesOf (fmtBytes t.format) code))]

/-- The bytes that a transfer counts (R236). -/
def countBytes (t : TD) (ms : List Move) : Nat :=
  let ws := ms.filterMap fun m => m.dst.map fun d => d.1
  if t.format = 0x12 then ws.eraseDups.length else ws.length * fmtBytes t.format

/-- Writes of one store grouped by the line they fall in, in order. -/
def byLine (l : List StoreWrite) (store : Nat × Nat) : Tab (List BayWrite) :=
  (l.filter fun w => decide (w.1 = store)).foldl (fun t w => Tab.upd [] t w.2.line (· ++ [w.2])) []

end Sys2Proof.Machine
end

