-- ==== Sys2Proof/Machine/Engine.lean ====
section
/-! DEFINITION. The copy and gather engines (R237 to R258): issue, spans and claims, transfers, faults, restart,
completion, peers (R252) and the counts that reach barriers (R168, R236). -/

namespace Sys2Proof.Machine

/-! ## Queues (R237) -/

/-- The commands of a queue of a group entry, in issue order. -/
def Column.queueOf (x : Column) (entry q : Nat) : List Command := x.cmds.filter fun k => decide (k.entry = entry) && decide (k.queue = q)

/-- Does a queue take another command? -/
def Column.queueRoom (x : Column) (entry q : Nat) : Bool :=
  decide ((x.queueOf entry q).length < 8) && (decide (4 ≤ q) || (x.bindQueue entry q).hwq.any fun e => e.2 == (entry, q))

/-- The unit code of a command (R176). -/
def CmdKind.unit : CmdKind → Nat
  | .copy => 0 | .gath => 1 | .scat => 1 | _ => 2

/-- Is a command the gather engine's? -/
def CmdKind.gathers : CmdKind → Bool
  | .gath => true | .scat => true | _ => false

/-! ## Issue (R221, R229, R232, R241) -/

/-- A word that reads further registers than its encoding names: it blocks while a write of one is pending (R38), an ejected lane's also while
its owner's is (R192), and traps the error of one (R164). -/
def State.vlGuard (s : State) (regs : List Reg) (run : Host.Outcome State Fault Refusal) : Host.Outcome State Fault Refusal :=
  let shared (r : Reg) : Bool := match r with | .s _ n => decide (n < 48) | _ => false
  let owner := match s.cur.who with | .lane _ => s.warp.th.vpend.filter fun v => v.regs.any fun r => shared r && regs.any r.meets | _ => []
  match (s.thread.vpend ++ owner).find? fun v => v.regs.any fun r => regs.any r.meets with
  | some v => if v.error.isSome then .next (s.raiseErred v) else .next (s.blockAt .none)
  | none => run

/-- An engine word's record and coordinates, with the traps that are precise at the word (R221, R229, R232). -/
def State.withRecord (s : State) (gather : Bool) (a b : BitVec 6)
    (run : List Byte → Nat → List Int → Option (BitVec 64) → Host.Outcome State Fault Refusal) : Host.Outcome State Fault Refusal :=
  let l := lowLane s.active
  let off := (s.sr a).toNat
  let one : TrapInfo := { lanes := 1#32 <<< l, detail := s.sr a }
  if s.group.size < off + recSize gather then .next (s.raise .localRange one)
  else if off % 16 ≠ 0 then .next (s.raise .align one)
  else
    let bytes := Memory.readBytes s.group.store off (recSize gather)
    let r := recOf gather bytes
    let n := r.coords.getD 0
    if (r.bar ∧ a = 63#6) ∨ 64 < b.toNat + n then .next s.illegal
    else
      let bar := if r.bar then [Reg.s s.path.uid (a.toNat + 1)] else []
      s.vlGuard ((List.range n).map (fun i => Reg.v (b.toNat + i) (1#32 <<< l)) ++ bar) <|
        run bytes off ((List.range n).map fun i => (lane (s.readV (b.toNat + i)) l).toInt)
          (if r.bar then some (s.readS (a.toNat + 1)) else none)

/-- COPY, GATH and SCAT (R241): a release at column scope, then the command joins its queue and the handle is PENDING;
later M- and E-pipe words wait for its claim. -/
def State.issueEngine (s : State) (kind : CmdKind) (queue : Nat) (a b : BitVec 6) (h : BitVec 4) : Host.Outcome State Fault Refusal :=
  s.unlessPending h.toNat fun s =>
    s.withRecord kind.gathers a b fun bytes off coords bar =>
      s.afterRelease 4 fun s =>
        let t := s.takeHandle h.toNat
        if !t.here.queueRoom s.entry queue then .next (s.blockAt (.queue queue))
        else
          let k : Command :=
            { id := t.nextId, kind := kind, col := s.cur.col, slot := s.slot, entry := s.entry, gid := s.group.gid
              handle := h.toNat, launch := s.launchId, ctx := s.ctxNum, queue := queue, record := bytes, offset := off
              coords := coords, bar := bar }
          let t := ({ t with nextId := t.nextId + 1 } : State).updHere fun x =>
            { x.bindQueue s.entry queue with cmds := x.cmds ++ [k] }
          .next ((t.setHandle h.toNat { st := .pending, unit := kind.unit, cmd := k.id, record := off }).addHold (.claim k.id))

def execCopy (a b : BitVec 6) (h : BitVec 4) (q : BitVec 2) (s : State) :=
  accept .engine s fun s => outsideTx s fun s => s.issueEngine .copy q.toNat a b h
def execGath (a b : BitVec 6) (h : BitVec 4) (s : State) :=
  accept .engine s fun s => outsideTx s fun s => s.issueEngine .gath 4 a b h
def execScat (a b : BitVec 6) (h : BitVec 4) (s : State) :=
  accept .engine s fun s => outsideTx s fun s => s.issueEngine .scat 4 a b h

/-! ## Faults (R233, R253, R254) -/

/-- The 64 bytes of a report. -/
def CmdFault.report (f : CmdFault) (iter : List Nat) : List Byte :=
  ((List.range 5).flatMap fun j => bytesOf 2 (iter.getD j 0)) ++ bytesOf 1 f.code ++ bytesOf 1 f.dim ++ bytesOf 1 f.side ++ bytesOf 1 1 ++
  bytesOf 2 0 ++ ((List.range 7).flatMap fun d => (BitVec.ofInt 32 (f.coords.getD d 0)).toNat |> bytesOf 4) ++ bytesOf 4 f.ipos ++
  bytesOf 8 f.addr ++ bytesOf 8 0

/-- A command's group's local store written from an offset on. -/
def Column.putStore (x : Column) (entry off : Nat) (b : List Byte) : Column :=
  let g := x.group entry
  if g.live then x.setGroup entry { g with store := Memory.writeBytes g.store off b } else x

/-- A count delivered to its barrier, which its handle is to name still: in the group's core, or in its saved context, with its sync
word, to be tested at its resume (R167, R168, R236). -/
def State.deliverCount (s : State) (c : Nat) (k : Count) : State :=
  let x := s.col c
  match x.groups.find? fun e => e.2.live && decide (e.2.launch = k.launch) && decide (e.2.gid = k.gid) with
  | some e => if x.barCurrent e.1 k.bar then s.updCol c fun x => x.deliver (barIndex k.bar) k.bytes else s
  | none =>
    let gs := (s.node k.launch).launch.groupOf k.gid
    match gs.saved with
    | none => s
    | some v =>
      let i := barIndex k.bar
      let names (b : Barrier) : Bool := decide (b.st = .opened) && decide (k.bar.extractLsb' 33 31 = 0#31) && decide ((b.g - k.bar.extractLsb' 8 24).toNat < 2 ^ 22)
      match v.barriers.find? fun e => decide (e.1 = i) && names e.2 with
      | none => s
      | some e =>
        let b := { e.2 with bytes := e.2.bytes + k.bytes }
        let v := { v with barriers := v.barriers.map fun q => if q.1 = i then (i, b) else q
                          group := { v.group with store := Memory.writeBytes v.group.store b.offset (bytesOf 16 b.syncWord) } }
        s.setGroupState k.launch k.gid { gs with saved := some v }

/-- The counts of a command that are still on their way delivered. -/
def State.settleCounts (s : State) (c id : Nat) : State :=
  let mine := (s.col c).counts.filter fun k => decide (k.cmd = id)
  mine.foldl (fun s k => s.deliverCount c k) (s.updCol c fun x => { x with counts := x.counts.filter fun k => decide (k.cmd ≠ id) })

/-- A command as it stands when it faults: nothing of its transfer is left under way. -/
def Command.stopped (k : Command) : Command :=
  { k with st := .faulted, fetched := [], waiting := [], peerGot := [], toSend := [], cribOut := [], unacked := 0, asked := 0, written := false, bytes := 0, broken := none }

/-- The answers to a command's messages that are still on their way mean nothing to it any more; their MIDs stay taken until they come. -/
def Column.forgetMsgs (x : Column) (id : Nat) : Column :=
  { x with msgs := Tab.mapVals (fun _ (m : EngineMsg) => if m.cmd = id then { m with cmd := 0 } else m) x.msgs }

/-- A command faulted, its report bytes written at an offset of its record (R233, R254, R283): the transfers before are counted, claims
released, the future FAULTED, and the tinker notified. -/
def State.faultWith (s : State) (c : Nat) (k : Command) (code rep : Nat) (report : List Byte) : State :=
  let s := (s.dropClaims k.id).settleCounts c k.id
  let s := s.updCol c fun x => (((x.putStore k.entry (k.offset + rep) report).setCmd k.stopped).forgetMsgs k.id).dropClaimHold k.id
  let s := s.setFuture c k.id fun h => { h with st := .faulted, code := code, record := k.offset }
  if k.entry < 64 then
    let h : Handle := { st := .faulted, unit := k.kind.unit, code := code, record := k.offset }
    s.updCol c fun x => x.raiseEvent { s.slotEvent c k.slot .engineFault true with detail := h.detail k.handle }
  else s

/-- A copy or gather command faulted. -/
def State.faultCmd (s : State) (c : Nat) (k : Command) (f : CmdFault) (iter : List Nat) : State :=
  s.faultWith c k f.code (recOf k.kind.gathers k.record).rep (f.report iter)

/-! ## Restart (R255, R256) -/

/-- A FAULTED copy or gather command restarted from its report, with a record, coordinates and a barrier handle. -/
def State.restartCmd (s : State) (c : Nat) (k : Command) (bytes : List Byte) (off : Nat) (coords : List Int) (bar : Option (BitVec 64)) :
    State :=
  let r := recOf k.kind.gathers bytes
  let valid := fieldOf bytes (r.rep + 0x0D) 1
  let k' : Command :=
    { k with st := .queued, record := bytes, offset := off, coords := coords, bar := bar, restarted := true
             iter := (List.range r.bounds.length).map fun j => fieldOf bytes (r.rep + 2 * j) 2 }
  let s := s.setFuture c k.id fun h => { h with st := .pending, code := 0, record := off }
  if valid ≠ 1 then s.faultCmd c k' { code := 1 } []
  else
    s.updCol c fun x =>
      let x := (x.setCmd k').putStore k.entry (off + r.rep + 0x0D) [0#8]
      x.setWarp k.slot { x.warp k.slot with holds := (x.warp k.slot).holds ++ [.claim k.id] }

/-- COPY.RST (R255). -/
def execCopyRst (a b : BitVec 6) (h : BitVec 4) (s : State) :=
  accept .engine s fun s => outsideTx s fun s =>
    let hd := s.handle h.toNat
    match (if hd.st = .faulted ∧ hd.unit ≤ 1 then s.here.cmd hd.cmd else none) with
    | none => .next (s.trap .futureStale)
    | some k =>
      s.withRecord k.kind.gathers a b fun bytes off coords bar =>
        s.afterRelease 4 fun s => .next (s.restartCmd s.cur.col k bytes off coords bar)

/-! ## Spans and claims (R242, R243, R257) -/

/-- A range of offsets in a column, whole lines. -/
structure Span where
  col : Nat
  lo : Nat
  hi : Nat
  deriving DecidableEq, Repr

/-- Do two spans meet? -/
def Span.meets (a b : Span) : Bool := decide (a.col = b.col) && decide (a.lo ≤ b.hi) && decide (b.lo ≤ a.hi)

/-- The spans of some elements: one for each column, from the lowest to the highest byte, rounded out to lines. -/
def spansOf (map : List Nat) (t : TD) (l : List Loc) : List Span :=
  let w := fmtBytes t.format
  let t := l.foldl (fun (acc : Tab (Nat × Nat)) x =>
    let lo := if isMx t.format then min x.scale x.off else x.off
    match Tab.find? acc x.g with
    | some (a, b) => Tab.put acc x.g (min a lo, max b (x.off + w - 1))
    | none => Tab.put acc x.g (lo, x.off + w - 1)) []
  t.map fun e => { col := map.getD e.1 0, lo := e.2.1 / 128 * 128, hi := e.2.2 / 128 * 128 + 127 }

/-- The elements that bound a whole tensor's extent in each column: corners in the linear layout, every element in the blocked
one. -/
def TD.extent (t : TD) (own n : Nat) : List Loc :=
  let inner := (List.range (t.rank - 1)).map t.sizeOf
  let rows := List.range (t.limit n (t.rank - 1))
  if t.layout = 0 then
    rows.flatMap fun i =>
      [t.locate own n (inner.map (fun _ => 0) ++ [i]), t.locate own n (inner.map (fun z => z - 1) ++ [i])]
  else (grid (inner ++ [t.limit n (t.rank - 1)])).map (t.locate own n)

/-- The elements that some results read and write. -/
def readLocs (l : List (Except CmdFault (Option Loc))) : List Loc :=
  l.filterMap fun e => match e with | .ok x => x | .error _ => none

/-- The source and destination spans of a command (R242, R243). -/
def Command.spans (k : Command) (own n : Nat) (map : List Nat) : List Span × List Span :=
  let r := recOf k.kind.gathers k.record
  let its := grid r.bounds
  if r.gather then
    let ps := List.range r.count
    let idx := readLocs (its.flatMap fun it => ps.map fun p => r.a.source own n 2 p (r.indexAt k.coords it p))
    let cells := its.flatMap fun it => ps.flatMap fun p =>
      (grid ((List.range (r.b.rank - 1)).map r.b.sizeOf)).map fun o =>
        (o.zip (List.range o.length)).foldl (fun c e => addAt c e.2 (e.1 : Int)) (addAt (r.starts k.coords it).2 (r.b.rank - 1) (p : Int))
    let tab := spansOf map r.b (r.b.extent own n)
    if k.kind = .scat then
      (spansOf map r.a idx ++ spansOf map r.r (readLocs (cells.map (r.r.source own n 0 0))), tab)
    else (spansOf map r.a idx ++ tab, spansOf map r.r (readLocs (cells.map (r.r.target own n 1 0))))
  else
    let steps (it : List Nat) : List (List Int × List Int) :=
      (grid (r.box.take r.a.rank)).map fun o =>
        (o.zip (List.range o.length)).foldl (fun (acc : List Int × List Int) (e : Nat × Nat) =>
          (addAt acc.1 e.2 (e.1 : Int), addAt acc.2 (r.perm.getD e.2 e.2) (e.1 : Int))) (r.starts k.coords it)
    let all := its.flatMap steps
    (spansOf map r.a (readLocs (all.map fun c => r.a.source own n 0 0 c.1)),
     spansOf map r.b (readLocs (all.map fun c => r.b.target own n 1 0 c.2)))

/-- Is a copy an identity copy (R243)? -/
def Command.identity (k : Command) : Bool :=
  let r := recOf false k.record
  decide (k.kind = .copy) && decide (r.permWord = 0) && (r.loops.all fun l => decide (l.side = 2)) &&
    decide (k.coords.take r.a.rank = k.coords.drop r.a.rank) &&
    decide (r.a.bytes.take 0x2C = r.b.bytes.take 0x2C) && decide (r.a.bytes.drop 0x30 = r.b.bytes.drop 0x30)

/-- The pages of 64 KiB that a span touches, each with the part of the span in it: offset and length. -/
def Span.pages (p : Span) : List (Nat × Nat) :=
  (List.range (p.hi / 65536 - p.lo / 65536 + 1)).map fun i =>
    let page := (p.lo / 65536 + i) * 65536
    let lo := max p.lo page
    (lo, min p.hi (page + 65535) + 1 - lo)

/-- The physical lines of a span that are memory, in runs (R242). -/
def State.spanLines (s : State) (ctx : Nat) (p : Span) : List (Nat × Nat) × State :=
  p.pages.foldl (fun (acc : List (Nat × Nat) × State) q =>
    match acc.2.translate p.col ctx q.1 false with
    | (some e, s) => if e.kind = 0 then (acc.1 ++ [(lineOf (e.at_ q.1), q.2 / 128)], s) else (acc.1, s)
    | (none, s) => (acc.1, s)) ([], s)

/-- The lines that an L1 holds, or has written back and the bay not merged yet, of some runs. -/
def Column.cachedOf (x : Column) (cache : Nat) (c : Claim) : List Nat :=
  (((x.l1Keys cache).map fun k => (x.l1Line k).line) ++ ((x.bay.reqs.filter fun r => r.put.isSome && decide (r.cache = cache)).map (·.line))).eraseDups.filter c.owns

/-- Lines of the caches sent to the bay before a claim is recorded: the issuing core's written back and dropped (R59, R242), and every U copy
recalled (R61). What another command owns already waits for it as a write-back does, and a host-tier line is to be brought first (R311). -/
def Column.forClaim (x : Column) (free ctx : Nat) (own : Bool) (c : Claim) : Column :=
  let back (x : Column) (ln : Nat) : Column :=
    if x.claimed ctx ln || hostLine ln then (match x.l1Find 0 ln with | some k => x.evictL1 k | none => x) else x.settleLine free 0 ln
  let x := if own then (x.cachedOf 0 c).foldl back x else x
  (((List.range 9).flatMap fun ca => x.cachedOf ca c).eraseDups.filter fun ln => !x.claimed ctx ln).foldl (fun x ln => x.recallU free ln) x

/-- Does a write-back of the issuing core still stand before a claim: one whose line another command owns, or of the host tier? -/
def Column.putsOwned (x : Column) (c : Claim) : Bool := x.bay.reqs.any fun r => r.put.isSome && decide (r.cache = 0) && c.owns r.line

/-- The entry of a claim in a bay: the number of commands that its table names. -/
def Bay.claimants (b : Bay) : Nat := (b.claims.map (·.cmd)).eraseDups.length

/-- The claims of a command on some spans. -/
def State.claimsOf (s : State) (k : Command) (source : Bool) (l : List Span) : List Claim × State :=
  l.foldl (fun (acc : List Claim × State) p =>
    let (lines, s) := if source then ([], acc.2) else acc.2.spanLines k.ctx p
    (acc.1 ++ [{ col := p.col, cmd := k.id, ctx := k.ctx, lo := p.lo, hi := p.hi, lines := lines, source := source, launch := k.launch
                 queue := (k.col, k.gid, k.queue) }], s)) ([], s)

/-- A claim recorded in each bay that holds part of it, once the issuing core's lines have reached its bay (R59); not while a table is full.
Whether it is recorded, and the state it leaves. -/
def State.recordClaims (s : State) (k : Command) (det : Bool) (src dst : List Span) : Bool × State :=
  let cols := ((dst ++ if det then src else []).map (·.col)).eraseDups
  if cols.any fun c => decide (64 ≤ (s.col c).bay.claimants) then (false, s)
  else
    let (mine, s) := s.claimsOf k false dst
    let s := mine.foldl (fun (s : State) cl => s.updCol cl.col fun x => x.forClaim s.free k.ctx (decide (cl.col = k.col)) cl) s
    if mine.any fun cl => decide (cl.col = k.col) && (s.col cl.col).putsOwned cl then (false, s)
    else
      let (more, s) := s.claimsOf k true (if det then src else [])
      (true, (mine ++ more).foldl (fun (s : State) cl => s.updCol cl.col fun x => x.updBay fun b => { b with claims := b.claims ++ [cl] }) s)

/-- Does a deterministic command's claim meet a standing one of its launch on another queue (R257)? -/
def State.races (s : State) (k : Command) (src dst : List Span) : Bool :=
  let hit (p : Span) (source : Bool) : Bool :=
    (s.col p.col).bay.claims.any fun c =>
      decide (c.launch = k.launch) && decide (c.cmd ≠ k.id) && decide (c.queue ≠ (k.col, k.gid, k.queue)) && (!source || !c.source) &&
        ({ col := c.col, lo := c.lo, hi := c.hi } : Span).meets p
  dst.any (hit · false) || src.any (hit · true)

/-- CLAIM_SPAN: the checks of R241 in its order, then the claim (R242); it waits while a table is full, or a line of the core has not come to
its bay. -/
def execClaimSpan (c id : Nat) (s : State) : Host.Outcome State Fault Refusal :=
  match (s.col c).cmd id with
  | none => .next s
  | some k =>
    if k.st ≠ .queued ∨ k.queue = 5 then .next s
    else if k.cancel then .next (s.dropCommand c id fun _ => {})
    else
      let r := recOf k.kind.gathers k.record
      let l := (s.node k.launch).launch
      let (map, own, n) := s.gcols k
      let tds := if r.gather then [r.a, r.b, r.r] else [r.a, r.b]
      if !r.valid then .next (s.faultCmd c k { code := 1 } [])
      else if k.bar.any fun b => !(s.col c).barCurrent k.entry b then .next (s.faultCmd c k { code := 11 } [])
      else
        match tds.findIdx? fun t => !t.baseOk n with
        | some i => .next (s.faultCmd c k { code := 2, side := if r.gather then (if i = 0 then 2 else if i = 1 then 3 else if k.kind = .scat then 0 else 1) else i } [])
        | none =>
          let ready (s : State) : State := s.updCol c fun x => (x.setCmd { k with st := .claimed }).dropClaimHold id
          if k.identity then .next (ready s)
          else
            let (src, dst) := k.spans own n map
            if src.any fun a => dst.any a.meets then .next (s.faultCmd c k { code := 9 } [])
            else if l.det && s.races k src dst then .next (s.faultCmd c k { code := 10 } [])
            else
              match s.recordClaims k l.det src dst with
              | (false, s) => .next s
              | (true, s) => .next (ready s)

/-- COPY_COMMAND_START: a claimed command whose predecessors in its queue have completed begins its transfers (R238). -/
def execCopyCommandStart (c id : Nat) (s : State) : Host.Outcome State Fault Refusal :=
  let x := s.col c
  match x.cmd id with
  | none => .next s
  | some k =>
    if k.st ≠ .claimed ∨ (x.queueOf k.entry k.queue).head?.map (·.id) ≠ some id ∨ ¬ x.mayGoOn k then .next s
    else
      let r := recOf k.kind.gathers k.record
      let iter := if k.restarted then k.iter else r.bounds.map fun _ => 0
      .next (s.updCol c fun x => x.setCmd { k with st := .moving, iter := iter })

/-! ## Fetching for a transfer -/

/-- The router of a column's bay and of its core (R288). -/
def bayRouter (c : Nat) : Nat := 256 + c

/-- A sector read at a bay for an engine: no bytes for an uncorrectable error, of a window's, in a block's scale or codes (R164, R218, R253). -/
def Column.fetchSector (x : Column) (free ctx sector : Nat) : List Byte × Column :=
  let line := sector / 4
  let x := x.recallU free line
  match x.bay.kindOf ctx (128 * line) with
  | .aliased n =>
    let x := (x.backOf n line).foldl (fun x ln => x.recallU free ln) x
    (if x.aliasBad n { lane := 0, pa := 32 * sector, size := 32 } then [] else x.aliasRead free n (32 * sector) 32, x)
  | _ => (if x.badSectors.contains sector then [] else x.bytesAt free (32 * sector) 32, x)

/-- A message of an engine command, from its column's bay to another's; it takes its MID when it is sent. -/
def Command.flit (k : Command) (type tc dst line : Nat) : Flit :=
  { type := type, dst := bayRouter dst, src := bayRouter k.col, tc := tc, region := k.ctx, launch := k.launch, addr := 128 * line, ctx := k.ctx
    tag := line % 2 ^ 20, at_ := bayRouter k.col }

/-- The address that a write begins at. -/
def BayWrite.addr : BayWrite → Nat
  | .bytes pa _ => pa
  | .nibble pa _ _ => pa
  | .block _ e _ _ _ => e

/-- The sectors of its line that a write's elements lie in. -/
def BayWrite.sectors : BayWrite → BitVec 4
  | .bytes pa b => sectorsOf (pa % 128) b.length
  | .nibble pa _ _ => sectorsOf (pa % 128) 1
  | .block f e _ _ _ => sectorsOf (e % 128) (if f = 2 then 16 else 32)

/-- An engine's message as a request to its slice (R251, R310), of a command of this column, or of another bay's with 0. -/
def Column.engineReq (x : Column) (f : Flit) (cmd : Nat) (sectors : BitVec 4) (due : Nat) : Req :=
  { id := 0, cache := 9, line := lineOf f.addr, who := .tinker, region := f.ctx, ctx := f.ctx
    sectors := if f.type = 2 then f.ops.foldl (fun m w => m ||| w.sectors) 0#4 else sectors
    ep := x.bay.epOf f.ctx (lineOf f.addr) (f.hint % 4), due := due, eng := some f, cmd := cmd }

/-- Messages of a command put to the slices of its own bay, one line in a cycle (R237). -/
def Column.askOwn (x : Column) (k : Command) (clk : Nat) (l : List (Flit × BitVec 4)) : Column :=
  (l.zip (List.range l.length)).foldl (fun x e => x.updBay (·.post (x.engineReq e.1.1 k.id e.1.2 (clk + e.2)))) x

/-- The bytes of payload that an element's value takes: its code, and the scale of an MX one. -/
def EltSrc.bytes (e : EltSrc) : List Byte := if isMx e.fmt then [BitVec.ofNat 8 e.code, BitVec.ofNat 8 e.scale] else bytesOf (fmtBytes e.fmt) e.code

/-- What a write takes of a payload, in the order of its parts. -/
def BayWrite.operand : BayWrite → List Byte
  | .bytes _ b => b
  | .nibble _ _ x => bytesOf 1 x
  | .block _ _ _ _ l => l.flatMap fun e => e.2.bytes

/-- A block's write cut into parts of 16 elements, which no flit's payload is too small for. -/
def BayWrite.pieces (w : BayWrite) : List BayWrite :=
  match w with
  | .block f e sc own l => (List.range ((l.length + 15) / 16)).map fun i => .block f e sc own ((l.drop (16 * i)).take 16)
  | _ => [w]

/-- Is a write's part overwritten by a later write of the same bytes? -/
def BayWrite.again (w v : BayWrite) : Bool :=
  match w, v with
  | .bytes a b, .bytes c d => decide (a = c) && decide (b.length ≤ d.length)
  | .nibble a i _, .nibble c j _ => decide (a = c) && decide (i = j)
  | _, _ => false

/-- The writes of a line without those that later ones overwrite, and a block's elements without those that are written again. -/
def lastWrites : List BayWrite → List BayWrite
  | [] => []
  | w :: rest =>
    if rest.any w.again then lastWrites rest
    else
      match w with
      | .block f e sc own l =>
        let last (k : Nat) : Option (Nat × EltSrc) := l.reverse.find? fun p => decide (p.1 = k)
        .block f e sc own ((List.range 32).filterMap last) :: lastWrites rest
      | w => w :: lastWrites rest

/-- Writes put into payloads of 64 bytes in their order. -/
def packWrites (l : List BayWrite) : List (List BayWrite) :=
  let size (g : List BayWrite) : Nat := (g.map fun w => w.operand.length).foldl (· + ·) 0
  l.foldl (fun gs w =>
    match gs.getLast? with
    | some g => if size g + w.operand.length ≤ 64 then gs.dropLast ++ [g ++ [w]] else gs ++ [[w]]
    | none => [[w]]) []

/-- The writes of a message put together again from its flits: a block's parts are one write. -/
def joinWrites (l : List BayWrite) : List BayWrite :=
  l.foldl (fun ws w =>
    match w with
    | .block f e sc own elts =>
      let same (v : BayWrite) : Bool := match v with | .block _ a _ _ _ => decide (a = e) | _ => false
      if ws.any same then
        ws.map fun v => match v with | .block g a s o p => if a = e then .block g a s o (p ++ elts) else v | _ => v
      else ws ++ [.block f e sc own elts]
    | w => ws ++ [w]) []

/-- The flits of a message (R289): a write's, at most 16, with 64 bytes of payload in each; any other message's one flit. -/
def Flit.parts (f : Flit) : List Flit :=
  if f.type ≠ 2 then [f]
  else
    let groups := packWrites ((lastWrites f.ops).flatMap BayWrite.pieces)
    (groups.zip (List.range groups.length)).map fun e =>
      let p := e.1.flatMap BayWrite.operand
      { f with seq := e.2, count := groups.length, ops := e.1, payload := p ++ List.replicate (64 - p.length) 0#8 }

/-- Messages of a command handed to the bay's interface in their order, as far as its backlog has room and it has a MID free (R289, R295). The
answer to a prefetch goes to no command. -/
def Column.sendEngine (x : Column) (k : Command) : Column :=
  let one (acc : Column × List Flit) (f : Flit) : Column × List Flit :=
    let (x, rest) := acc
    let fl := f.parts
    match (if rest.isEmpty ∧ x.nifBay.backlog.length + fl.length ≤ 512 then firstBelow 64 fun m => (Tab.find? x.msgs m).isNone else none) with
    | none => (x, rest ++ [f])
    | some m =>
      ({ x with msgs := Tab.put x.msgs m { cmd := if f.tc = 3 then 0 else k.id, col := f.dst % 256 + 256 * f.win, line := lineOf f.addr, flits := fl.map fun g => { g with mid := m } }
                nifBay := { x.nifBay with backlog := x.nifBay.backlog ++ fl.map fun g => { g with mid := m } } }, rest)
  let (x, rest) := k.toSend.foldl one (x, [])
  x.setCmd { k with toSend := rest }

/-- A read message of a command for a line of a column, both named as in `Command.fetched` (R249). -/
def Command.reads (k : Command) (r : Rec) (tc : Nat) (w : Nat × Nat) : Flit :=
  { k.flit 0 tc (w.1 % 256) w.2 with win := w.1 / 256, hint := r.eps + (if r.lus then 4 else 0) }

/-- The needs of a transfer asked for: its lines of the bays that hold them, and peer bytes of the peer. -/
def State.fetch (s : State) (k : Command) (r : Rec) (n : Needs) : State :=
  let lines := (n.sectors.map fun e => (e.1, e.2 / 4)).eraseDups.filter fun w => !k.waiting.contains w
  let (own, far) := lines.partition fun w => decide (w.1 % 256 = k.col)
  let sectors (w : Nat × Nat) : BitVec 4 := (n.sectors.filter fun e => decide ((e.1, e.2 / 4) = w)).foldl (fun m e => m ||| (1#4 <<< (e.2 % 4))) 0#4
  let new := n.peers.filter fun p => !s.host.peerReqs.any fun q =>
    decide (q.col = k.col) && decide (q.cmd = k.id) && !q.write && decide (qpName q.port q.qpn q.key = p.1) && decide (q.addr = p.2.1)
  let reqs := (new.zip (List.range new.length)).map fun e =>
    ({ id := s.nextId + e.2, col := k.col, cmd := k.id, port := e.1.1 / 2 ^ 56, qpn := e.1.1 / 2 ^ 32 % 2 ^ 24, write := false, key := e.1.1 % 2 ^ 32
       addr := e.1.2.1, len := e.1.2.2 } : PeerReq)
  let k := { k with waiting := k.waiting ++ lines, asked := k.asked + new.length, toSend := k.toSend ++ far.map (k.reads r 2) }
  { s.updCol k.col fun x => ((x.setCmd k).sendEngine k).askOwn k s.clk (own.map fun w => (k.reads r 2 w, sectors w)) with
    nextId := s.nextId + new.length, host := { s.host with peerReqs := s.host.peerReqs ++ reqs } }

/-! ## Performing a transfer -/

/-- What the records of a transfer read give: the elements and their places, the first fault, or index bytes still missing. -/
inductive Plan where
  | fault (f : CmdFault)
  | need (n : Needs)
  | ready (ms : List Move)

/-- The elements of a gather's transfer, once its indices are there. -/
def State.gatherPairs (s : State) (k : Command) (r : Rec) (own n : Nat) : Except Plan (List (Except CmdFault Pair)) × State :=
  let one (acc : (List (Except CmdFault Pair) × Needs) × State) (p : Nat) : (List (Except CmdFault Pair) × Needs) × State :=
    let ((ps, nd), s) := acc
    let c := r.indexAt k.coords k.iter p
    match r.a.source own n 2 p c with
    | .error f => ((ps ++ [.error f], nd), s)
    | .ok none => ((ps ++ r.rowPairs (decide (k.kind = .scat)) own n k.coords k.iter p (signedOf 32 r.a.fill.toNat), nd), s)
    | .ok (some l) =>
      match s.placeOf k r.a 2 c p false l with
      | (.error f, s) => ((ps ++ [.error f], nd), s)
      | (.ok (pl, _, _), s) =>
        match s.got k pl 4 with
        | none => ((ps, nd.add pl 4), s)
        | some [] => ((ps ++ [.error { code := 8, side := 2, coords := c, ipos := p, addr := l.off }], nd), s)
        | some b => ((ps ++ r.rowPairs (decide (k.kind = .scat)) own n k.coords k.iter p (signedOf 32 (natOfBytes b)), nd), s)
  let ((ps, nd), s) := (List.range r.count).foldl one (([], {}), s)
  if nd = {} then (.ok ps, s) else (.error (.need nd), s)

/-- The descriptors that a transfer reads and writes, with their numbers in a report. -/
def Rec.ends (r : Rec) (scat : Bool) : TD × TD × Nat × Nat :=
  if r.gather then (if scat then (r.r, r.b, 0, 3) else (r.b, r.r, 3, 1)) else (r.a, r.b, 0, 1)

/-- The moves of a command's current transfer, the fault met first, or the index bytes still missing (R232, R247). -/
def State.planMoves (s : State) (k : Command) (r : Rec) : Except Plan (List Move) × State :=
  let (_, own, n) := s.gcols k
  let (ps, s) : Except Plan (List (Except CmdFault Pair)) × State :=
    if r.gather then s.gatherPairs k r own n else (.ok (r.copyPairs own n k.coords k.iter), s)
  match ps with
  | .error p => (.error p, s)
  | .ok ps =>
    let (ts, td, ss, sd) := r.ends (decide (k.kind = .scat))
    match s.moves k ts td ss sd k.peers ps with
    | (.error f, s) => (.error (.fault f), s)
    | (.ok ms, s) => (.ok ms, s)

/-- The plan of a command's current transfer: its moves with everything they read there, or what is missing. -/
def State.plan (s : State) (k : Command) (r : Rec) : Plan × State :=
  match s.planMoves k r with
  | (.error p, s) => (p, s)
  | (.ok ms, s) =>
      let (ts, td, _, _) := r.ends (decide (k.kind = .scat))
      let scale := r.needsScale (r.aligned k.coords k.iter)
      let mixes := isMx td.format && (decide (td.format = 0x12) || decide (ts.format ≠ td.format))
      let nd := ms.foldl (fun (nd : Needs) m =>
        let w := windowOf (decide (k.kind = .gath)) m.pair.ipos
        let nd := match m.src with
          | some (p, q, _) =>
            let nd := if s.lacks k p (fmtBytes ts.format) w then nd.add p (fmtBytes ts.format) w else nd
            (match q with
             | some q => if scale && s.lacks k q 1 then nd.add q 1 else nd
             | none => nd)
          | none => nd
        match m.dst with
        | some (p, q, e) =>
          let host : Bool := match p with | .bay c a => decide (c = k.col) && hostLine (lineOf a) | _ => false
          let old : Bool := host || (mixes && decide (p.store.1 = 2))
          let block := if mixes ∧ td.format ≠ 0x12 ∨ ts.format ≠ td.format then (List.range 32).map fun i =>
              (match p with | .peer qp a => Place.peer qp (a - e % 32 + i) | pl => pl) else [p]
          let nd := if old then block.foldl (fun nd pl => if s.lacks k pl 1 then nd.add pl 1 else nd) nd else nd
          (match q with
           | some q => if old && s.lacks k q 1 then nd.add q 1 else nd
           | none => nd)
        | none => nd) {}
      if nd = {} then (.ready ms, s) else (.need nd, s)

/-- The first source element that met an uncorrectable error, or every element's value. -/
def State.values (s : State) (k : Command) (r : Rec) (ts : TD) (side : Nat) : List Move → Except CmdFault (List (Move × EltSrc))
  | [] => .ok []
  | m :: ms =>
    match s.element k ts (r.needsScale (r.aligned k.coords k.iter)) m with
    | .error addr => .error { code := 8, side := side, coords := m.pair.sc, ipos := m.pair.ipos, addr := addr }
    | .ok x =>
      match s.values k r ts side ms with
      | .error f => .error f
      | .ok rest => .ok ((m, x) :: rest)

/-- The stores that some writes reach. -/
def storesOf (l : List StoreWrite) : List (Nat × Nat) := (l.map Prod.fst).eraseDups

/-- A launch's crib reservation written on a column. -/
def Column.putCrib (x : Column) (launch : Nat) (bs : List (Nat × Byte)) : Column :=
  let sh := Tab.get {} x.cribs launch
  { x with cribs := Tab.put x.cribs launch { sh with bytes := bs.foldl (fun m p => Memory.write m p.1 p.2) sh.bytes } }

/-- Runs of consecutive addresses, for requests to a peer. -/
def runsOf (l : List (Nat × Byte)) : List (Nat × List Byte) :=
  (sortBy (fun (a b : Nat × Byte) => decide (a.1 < b.1)) l).foldr (fun p acc =>
    match acc with
    | (a, bs) :: rest => if p.1 + 1 = a then (p.1, p.2 :: bs) :: rest else (p.1, [p.2]) :: acc
    | [] => [(p.1, [p.2])]) []

/-- Bytes in parts of the aligned 16 that they lie in. -/
def bySixteen (l : List (Nat × Byte)) : List (List (Nat × Byte)) :=
  ((l.map fun p => p.1 / 16).eraseDups).map fun u => l.filter fun p => decide (p.1 / 16 = u)

/-- The writes of a transfer made: at the bays that hold their lines, the own one's slices or on their way to another, in the crib 16 bytes at a
time (R262, R282), and at peers, each to be acknowledged (R33, R236, R251, R252, R310). -/
def State.postWrites (s : State) (k : Command) (ep : Nat) (l : List StoreWrite) : Command × State :=
  (storesOf l).foldl (fun (acc : Command × State) st =>
    let (k, s) := acc
    let groups := byLine l st
    match st with
    | (0, c) =>
      let fl := groups.map fun g => { k.flit 2 2 c g.1 with ops := g.2, hint := ep }
      if c = k.col then ({ k with unacked := k.unacked + fl.length }, s.updCol c fun x => x.askOwn k s.clk (fl.map fun f => (f, 0#4)))
      else ({ k with toSend := k.toSend ++ fl, unacked := k.unacked + fl.length }, s)
    | (1, launch) =>
      let sh := Tab.get {} (s.col k.col).cribs launch
      let bs := writtenBytes (Memory.read sh.bytes) (groups.flatMap (·.2))
      ({ k with cribOut := k.cribOut ++ (bySixteen bs).map fun u => (launch, u) }, s)
    | (_, qp) =>
      let get (a : Nat) : Byte := ((s.got k (.peer qp a) 1).bind List.head?).getD 0#8
      let runs := runsOf (groups.flatMap fun g => writtenBytes get g.2)
      let reqs := (runs.zip (List.range runs.length)).map fun e =>
        ({ id := s.nextId + e.2, col := k.col, cmd := k.id, port := qp / 2 ^ 56, qpn := qp / 2 ^ 32 % 2 ^ 24, write := true, key := qp % 2 ^ 32
           addr := e.1.1, len := e.1.2.length, data := e.1.2 } : PeerReq)
      ({ k with unacked := k.unacked + reqs.length },
       { s with nextId := s.nextId + reqs.length, host := { s.host with peerReqs := s.host.peerReqs ++ reqs } })) (k, s)

/-- The next 16 bytes that a command writes into the crib written there. -/
def State.pourCrib (s : State) (k : Command) : State :=
  match k.cribOut with
  | [] => s
  | (launch, bs) :: rest => s.updCol k.col fun x => (x.putCrib launch bs).setCmd { k with cribOut := rest }

/-- A count of bytes put on its way to a command's barrier: it is delivered in the next cycle, before the word that the M unit takes in it (R168,
R236; log 121, DESIGN CHOICE). -/
def Column.addCount (x : Column) (k : Command) (n clk : Nat) : Column :=
  match k.bar with
  | some b => { x with counts := x.counts ++ [{ cmd := k.id, launch := k.launch, gid := k.gid, bar := b, bytes := n, due := clk + 1 }] }
  | none => x

/-- A command's engine taken for the cycles of a transfer, 128 bytes in each (R237). -/
def Column.takeEngine (x : Column) (k : Command) (clk : Nat) : Column :=
  { x with engineFree := Tab.put x.engineFree k.kind.unit (clk + max 1 ((k.bytes + 127) / 128)) }

/-- Is a command's engine free? -/
def Column.engineIsFree (x : Column) (k : Command) (clk : Nat) : Bool := decide (Tab.get 0 x.engineFree k.kind.unit ≤ clk)

/-- A transfer performed at its destinations: its count on its way to the barrier, its last-use taken, and the next iteration
vector (R71, R236). -/
def State.endTransfer (s : State) (k : Command) (r : Rec) : State :=
  let lines := if r.lus then ((k.fetched.filter fun e => decide (e.1 % 256 = k.col)).map fun e => e.2.1 / 4).eraseDups else []
  let next := nextVec r.bounds k.iter
  let k' : Command :=
    { k with fetched := [], waiting := [], peerGot := [], written := false, bytes := 0, iter := next.getD k.iter, finished := next.isNone }
  s.updCol k.col fun x =>
    let x := lines.foldl (fun x ln => x.lastUse 9 ln) x
    let x := x.addCount k k.bytes s.clk
    (x.takeEngine k s.clk).setCmd k'

/-- The transfer's values written. Bounds and translation are met before any value, so that a transfer with faults of both kinds reports one of
the former, at its first element in transfer order (log 130, DESIGN CHOICE). -/
def State.perform (s : State) (k : Command) (r : Rec) (ms : List Move) : State :=
  let (ts, td, ss, _) := r.ends (decide (k.kind = .scat))
  match s.values k r ts ss ms with
  | .error f => s.faultCmd k.col k f k.iter
  | .ok vs =>
    let al := r.aligned k.coords k.iter
    let ws := vs.foldl (fun l v => v.1.writes td (s.gcols k).2.2 r.sat al v.2 l) []
    let far (x : Option (Place × Option Place × Nat)) : Bool := x.any fun y => decide (y.1.store.1 = 2)
    let peers := (k.peers.1 || ms.any fun m => far m.src, k.peers.2 || ms.any fun m => far m.dst)
    let (k, s) := s.postWrites { k with written := true, bytes := countBytes td ms, peers := peers } r.epd ws
    let s := s.updCol k.col fun x => (x.setCmd k).sendEngine k
    if k.unacked = 0 ∧ k.toSend.isEmpty ∧ k.cribOut.isEmpty then s.endTransfer k r else s

/-- An identity copy walked for its coordinates and its count (R243). -/
def State.walkIdentity (s : State) (k : Command) (r : Rec) : State :=
  let (_, own, gang) := s.gcols k
  let its := (grid r.bounds).dropWhile fun it => !decide (it = k.iter)
  let bytes (ps : List Pair) : Nat :=
    let ds := ps.filterMap (·.dst)
    if r.b.format = 0x12 then (ds.map fun d => (d.g, d.off)).eraseDups.length else ds.length * fmtBytes r.b.format
  let step (acc : Nat × Option (CmdFault × List Nat)) (it : List Nat) : Nat × Option (CmdFault × List Nat) :=
    match acc.2 with
    | some _ => acc
    | none =>
      let ps := r.copyPairs own gang k.coords it
      match ps.findSome? fun p => match p with | .error f => some f | .ok _ => none with
      | some f => (acc.1, some (f, it))
      | none => (acc.1 + bytes (ps.filterMap fun p => match p with | .ok p => some p | .error _ => none), none)
  let (n, f) := its.foldl step (0, none)
  let s := s.updCol k.col fun x => x.addCount k n s.clk
  match f with
  | some (f, it) => s.faultCmd k.col k f it
  | none => s.updCol k.col fun x => x.setCmd { k with finished := true }

/-- Does a region send its engines' prefetches, as best-effort traffic (R290, R323): bit 15 of its bay quota of TC2? -/
def State.bestEffort (s : State) (launch : Nat) : Bool := ((s.node launch).eff.quota.getD 6 0#16).getLsbD 15

/-- The lines of other bays that a command's next transfer will read brought into those bays ahead of it, by messages of TC3 whose answers go to
no command; once, as a transfer begins to ask for what it needs (R290; log 105, DESIGN CHOICE). -/
def State.prefetch (s : State) (k : Command) (r : Rec) : State :=
  if !s.bestEffort k.launch || !k.waiting.isEmpty || !k.fetched.isEmpty then s
  else
    match (nextVec r.bounds k.iter).map fun it => (s.plan { k with iter := it } r).1 with
    | some (.need n) =>
      let far := ((n.sectors.map fun e => (e.1, e.2 / 4)).eraseDups.filter fun w => decide (w.1 % 256 ≠ k.col)).map (k.reads r 3)
      s.updCol k.col fun x =>
        match x.cmd k.id with
        | some q => x.sendEngine { q with toSend := q.toSend ++ far }
        | none => x
    | _ => s

/-- A transfer carried on: what it lacks is asked for, or, when it is all there, the transfer is performed. -/
def State.carry (s : State) (c id : Nat) : State :=
  match (s.col c).cmd id with
  | none => s
  | some k =>
    let r := recOf k.kind.gathers k.record
    match s.plan k r with
    | (.fault f, s) => s.faultCmd c k f k.iter
    | (.ready ms, s) => s.perform k r ms
    | (.need nd, s) => (s.fetch k r nd).prefetch k r

/-- Does a command begin no transfer, because a frame of a column that it may reach is about to move (R357)? -/
def State.marked (s : State) (k : Command) : Bool :=
  (s.gcols k).1.any fun c => (s.col c).bay.migrating.any fun f => !(s.col c).bay.claimedRange f.1 f.2

/-- The fault of a transfer that an outside error broke: at the first element that lies at the address, by its own byte or by its scale's, an
index of a gather before the rows (R233). -/
def State.blame (s : State) (k : Command) (r : Rec) (code : Nat) (store : Nat × Nat) (line : Nat) : CmdFault :=
  let (_, _, ss, sd) := r.ends (decide (k.kind = .scat))
  let (_, own, gang) := s.gcols k
  let at_ (p : Place) : Bool := decide (p.store = store) && decide (lineOf p.addr = line)
  let hits (x : Option (Place × Option Place × Nat)) (l : Option Loc) : Option Nat :=
    match x, l with
    | some (p, q, _), some l => if at_ p then some l.off else if q.any at_ then some l.scale else none
    | _, _ => none
  let index (p : Nat) : Option CmdFault :=
    let c := r.indexAt k.coords k.iter p
    match r.a.source own gang 2 p c with
    | .ok (some l) =>
      match (s.placeOf k r.a 2 c p false l).1 with
      | .ok (pl, _, _) => if at_ pl then some { code := code, side := 2, coords := c, ipos := p, addr := l.off } else none
      | .error _ => none
    | _ => none
  match (if r.gather then (List.range r.count).findSome? index else none) with
  | some f => f
  | none =>
    match (s.planMoves k r).1 with
    | .ok ms =>
      (ms.findSome? fun m =>
        match hits m.src m.pair.src with
        | some a => some { code := code, side := ss, coords := m.pair.sc, ipos := m.pair.ipos, addr := a }
        | none => (hits m.dst m.pair.dst).map fun a => { code := code, side := sd, coords := m.pair.dc, ipos := m.pair.ipos, addr := a }).getD { code := code }
    | .error _ => { code := code }

/-- One transfer of the copy or gather engine begun or carried on (R232, R247, R258, R295). -/
def State.transfer (s : State) (c id : Nat) : State :=
  let x := s.col c
  match x.cmd id with
  | none => s
  | some k =>
    let r := recOf k.kind.gathers k.record
    if k.st ≠ .moving ∨ k.finished then s
    else if k.atStop then
      if k.cancel then s.dropCommand c id fun _ => {}
      else if !x.engineIsFree k s.clk || !x.mayGoOn k || s.gateClosed c k.launch 2 || s.marked k then s
      else if k.identity then s.walkIdentity k r
      else s.carry c id
    else
      match k.broken with
      | some (code, st, a) =>
        if !k.cribOut.isEmpty then s.pourCrib k
        else if !k.toSend.isEmpty then s.updCol c fun x => x.sendEngine k
        else if k.unacked = 0 ∧ k.waiting.isEmpty ∧ k.asked = 0 then
          (if k.cancel then s.dropCommand c id fun _ => {} else s.faultCmd c k (s.blame k r code st (lineOf a)) k.iter)
        else s
      | none =>
        if !k.cribOut.isEmpty then s.pourCrib k
        else if !k.toSend.isEmpty then s.updCol c fun x => x.sendEngine k
        else if k.written then (if k.unacked = 0 then s.endTransfer k r else s)
        else if k.waiting.isEmpty ∧ k.asked = 0 then s.carry c id
        else s

/-- COPY_TRANSFER. -/
def execCopyTransfer (c id : Nat) (s : State) : Host.Outcome State Fault Refusal :=
  match (s.col c).cmd id with
  | some k => if k.kind = .copy then .next (s.transfer c id) else .next s
  | none => .next s

/-- GATHER_TRANSFER. -/
def execGatherTransfer (c id : Nat) (s : State) : Host.Outcome State Fault Refusal :=
  match (s.col c).cmd id with
  | some k => if k.kind.gathers then .next (s.transfer c id) else .next s
  | none => .next s

/-! ## Completion and counts -/

/-- BAR_BYTES_DELIVERED: the oldest count of a column whose cycle has come reaches its barrier, in the group's core or in its saved context
(R168). -/
def execBarBytesDelivered (c : Nat) (s : State) : Host.Outcome State Fault Refusal :=
  match (s.col c).counts with
  | [] => .next s
  | k :: rest => if s.clk < k.due then .next s else .next ((s.updCol c fun x => { x with counts := rest }).deliverCount c k)

/-- ENGINE_COMMAND_DONE: every transfer performed, acknowledged and counted, the future is DONE and the command leaves its queue
(R241). -/
def execEngineCommandDone (c id : Nat) (s : State) : Host.Outcome State Fault Refusal :=
  let x := s.col c
  match x.cmd id with
  | none => .next s
  | some k =>
    if k.finished ∧ k.st = .moving ∧ k.queue ≠ 5 ∧ x.engineIsFree k s.clk ∧ k.unacked = 0 ∧ ¬ x.counts.any (fun n => decide (n.cmd = id)) then
      .next (s.dropCommand c id fun h => { h with st := .done })
    else .next s

/-! ## Peers (R252) -/

/-- A command's peer request taken off the list. -/
def State.takePeer (s : State) (c id : Nat) : Option (PeerReq × State) :=
  (s.host.peerReqs.find? fun q => decide (q.col = c) && decide (q.id = id)).map fun q =>
    (q, { s with host := { s.host with peerReqs := s.host.peerReqs.filter fun p => decide (p.id ≠ id) } })

/-- PEER_ACKNOWLEDGE: a peer has acknowledged a write, or answered a read with its bytes; the traffic is counted for the service
(R366). -/
def execPeerAcknowledge (c id : Nat) (data : List (BitVec 8)) (s : State) : Host.Outcome State Fault Refusal :=
  match s.takePeer c id with
  | none => .next s
  | some (q, s) =>
    let region := match (s.col c).cmd q.cmd with | some k => k.ctx | none => 0
    let s := { s with host := { s.host with peerTraffic := Tab.upd 0 s.host.peerTraffic region (· + q.len) } }
    .next (s.updCol c fun x =>
      match x.cmd q.cmd with
      | none => x
      | some k =>
        if q.write then x.setCmd { k with unacked := k.unacked - 1 }
        else x.setCmd { k with asked := k.asked - 1, peerGot := k.peerGot ++ [(qpName q.port q.qpn q.key, q.addr, data)] })

/-- PEER_LINK: a peer has refused a request, or it went unacknowledged after the link's retries; the command faults. A write's bytes have left
the module, and count (R366). -/
def execPeerLink (c id : Nat) (s : State) : Host.Outcome State Fault Refusal :=
  match s.takePeer c id with
  | none => .next s
  | some (q, s) =>
    let region := match (s.col c).cmd q.cmd with | some k => k.ctx | none => 0
    let s := if q.write then { s with host := { s.host with peerTraffic := Tab.upd 0 s.host.peerTraffic region (· + q.len) } } else s
    match (s.col c).cmd q.cmd with
    | none => .next s
    | some k => .next (s.updCol c fun x =>
        x.setCmd { k with broken := some (13, (2, qpName q.port q.qpn q.key), q.addr),
                          unacked := if q.write then k.unacked - 1 else k.unacked,
                          asked := if q.write then k.asked else k.asked - 1 })

end Sys2Proof.Machine
end

