-- ==== Sys2Proof/Machine/Thresher.lean ====
section
/-! DEFINITION. The crib's grants (R262 to R265), the thresher's words (R272 to R281), its queue, planes and K-steps
(R266 to R271, R276, R277), MSTR's rows (R280, R281), and its faults and stopping points (R283, R284). -/

namespace Sys2Proof.Machine

/-! ## Grants (R263 to R265) -/

/-- A launch's share of a core. -/
def Column.share (x : Column) (launch : Nat) : CribShare := Tab.get {} x.cribs launch
/-- The column with a launch's share replaced. -/
def Column.setShare (x : Column) (launch : Nat) (sh : CribShare) : Column := { x with cribs := Tab.put x.cribs launch sh }
/-- A grant-table entry. -/
def Column.grant (x : Column) (i : Nat) : Grant := Tab.get {} x.grants i

/-- The entry that a grant handle names. -/
def grantIndex (h : Dword) : Nat := (h.extractLsb' 0 4).toNat

/-- The entry of a handle that is current for a launch. -/
def Column.currentGrant (x : Column) (launch : Nat) (h : Dword) : Option Grant :=
  let g := x.grant (grantIndex h)
  if h.extractLsb' 32 32 = 0#32 ∧ h.extractLsb' 4 4 = 0#4 ∧ g.live ∧ g.launch = launch ∧ g.gen = h.extractLsb' 8 24 then some g
  else none

/-- The formats that a grant may have. -/
def grantFormats : List Nat := [1, 3, 4, 5, 6, 7, 0x10, 0x11, 0x12, 0x13]

/-- Do an extent and a format word break R264's rules for a launch? -/
def Column.cribConfig (x : Column) (launch : Nat) (ext fmt : Dword) : Bool :=
  let off := (ext.extractLsb' 0 10).toNat
  let size := (ext.extractLsb' 16 11).toNat
  decide (ext.extractLsb' 27 37 ≠ 0#37) || decide (ext.extractLsb' 10 6 ≠ 0#6) || decide (fmt.extractLsb' 24 40 ≠ 0#40) || decide (size = 0) ||
    decide (fmt.extractLsb' 8 8 ≠ 32#8) || !grantFormats.contains (fmt.extractLsb' 0 8).toNat || decide ((x.share launch).kib < off + size) ||
    (List.range 16).any fun i =>
      let g := x.grant i
      g.live && decide (g.launch = launch) && decide (off < g.off + g.size) && decide (g.off < off + size)

/-- CRES. -/
def execCres (a b c : BitVec 6) (s : State) :=
  accept .thresher s fun s => s.onCore <| outsideTx s fun s =>
    let ext := s.sr b
    let fmt := s.sr c
    if !s.mayWriteS a.toNat then .next (s.trap .divergentScalar)
    else if s.here.cribConfig s.launchId ext fmt then .next (s.trap .cribConfig)
    else
      match firstBelow 16 fun i => !(s.here.grant i).live with
      | none => .next (s.trap .grantFull)
      | some i =>
        let gen := (s.here.grant i).gen + 1#24
        let g : Grant :=
          { live := true, launch := s.launchId, gen := gen, off := (ext.extractLsb' 0 10).toNat, size := (ext.extractLsb' 16 11).toNat
            fmt := (fmt.extractLsb' 0 8).toNat, sadj := (fmt.extractLsb' 16 8).toInt }
        (s.updHere fun x => { x with grants := Tab.put x.grants i g }).vlScalar a ((gen ++ BitVec.ofNat 8 i).setWidth 64)

/-- The grant handles that a thresher command names. -/
def Command.grantNames (k : Command) : List Dword :=
  match k.kind with
  | .mldw => [k.x]
  | .mloop =>
    BitVec.ofNat 64 (fieldOf k.record 8 8) :: (if bitOf (fieldOf k.record 0x23 1) 0 then [BitVec.ofNat 64 (fieldOf k.record 0 8)] else [])
  | _ => []

/-- The thresher commands of a launch on a column: those of its queue, and those saved with its groups. -/
def State.thresherCmds (s : State) (c launch : Nat) : List Command :=
  let l := (s.node launch).launch
  let here := (s.col c).cmds.filter fun k => decide (k.launch = launch) && decide (k.queue = 5)
  let away := l.groups.flatMap fun e =>
    match e.2.saved with
    | some v => if l.map.getD e.2.gcol 0 = c then v.cmds.filter fun k => decide (k.queue = 5) else []
    | none => []
  here ++ away

/-- Does a command of a launch name a grant? -/
def State.grantNamed (s : State) (c launch : Nat) (h : Dword) : Bool :=
  (s.thresherCmds c launch).any fun k => k.grantNames.contains h

/-- CREL: it waits while a command names the grant. -/
def execCrel (a : BitVec 6) (s : State) :=
  accept .thresher s fun s => s.onCore <| outsideTx s fun s =>
    let h := s.sr a
    match s.here.currentGrant s.launchId h with
    | none => .next (s.trap .grantStale)
    | some g =>
      if s.grantNamed s.cur.col s.launchId h then .next (s.blockAt (.grant (grantIndex h)))
      else .next (s.updHere fun x => { x with grants := Tab.put x.grants (grantIndex h) { g with live := false } })

/-- CSTAT's pointer. -/
def Column.grantPointer (x : Column) (launch : Nat) (h : Dword) : Dword :=
  match x.currentGrant launch h with
  | some g => BitVec.ofNat 64 ((x.share launch).window + g.off * 1024)
  | none => 0x8000000000000000#64

def execCstat (a b : BitVec 6) (s : State) :=
  accept .thresher s fun s => s.onCore <| outsideTx s fun s => s.vlScalar a (s.here.grantPointer s.launchId (s.sr b))

/-! ## Issue (R270, R272) -/

/-- The bytes of a thresher command's record (R275, R280). -/
def thresherRecord (k : CmdKind) : Nat := match k with | .mloop => 64 | .mstr => 128 | _ => 0

/-- Does a thresher record ask for a barrier? -/
def thresherBar (k : CmdKind) (b : List Byte) : Bool :=
  match k with
  | .mloop => bitOf (fieldOf b 0x23 1) 1
  | .mstr => bitOf (fieldOf b 0x69 1) 1
  | _ => false

/-- A thresher word's record, with the traps that are precise at the word (R221, R229, R275, R280). -/
def State.withThresherRecord (s : State) (kind : CmdKind) (a : BitVec 6)
    (run : List Byte → Nat → Option (BitVec 64) → Host.Outcome State Fault Refusal) : Host.Outcome State Fault Refusal :=
  let off := (s.sr a).toNat
  let n := thresherRecord kind
  let one : TrapInfo := { lanes := 1#32 <<< lowLane s.active, detail := s.sr a }
  if s.group.size < off + n then .next (s.raise .localRange one)
  else if off % 16 ≠ 0 then .next (s.raise .align one)
  else
    let b := Memory.readBytes s.group.store off n
    if thresherBar kind b then
      if a = 63#6 then .next s.illegal
      else s.vlGuard [Reg.s s.path.uid (a.toNat + 1)] (run b off (some (s.readS (a.toNat + 1))))
    else run b off none

/-- The queue of a launch on a core, in order. -/
def Column.thresherQueue (x : Column) (launch : Nat) : List Command :=
  x.cmds.filter fun k => decide (k.launch = launch) && decide (k.queue = 5)

/-- A thresher command issued: a release at column scope, then it joins its launch's queue, which holds 16, and the handle is
PENDING. -/
def State.issueThresher (s : State) (h : BitVec 4) (k : Command) : Host.Outcome State Fault Refusal :=
  s.afterRelease 4 fun s =>
    let t := s.takeHandle h.toNat
    if 16 ≤ (t.here.thresherQueue s.launchId).length then .next (s.blockAt (.queue 5))
    else
      let k : Command :=
        { k with id := t.nextId, col := s.cur.col, slot := s.slot, entry := s.entry, gid := s.group.gid, handle := h.toNat
                 launch := s.launchId, ctx := s.ctxNum, queue := 5 }
      let since (x : Column) : Column :=
        if (x.thresherQueue k.launch).isEmpty then x.setShare k.launch { x.share k.launch with since := s.clk } else x
      let t := ({ t with nextId := t.nextId + 1 } : State).updHere fun x => { since x with cmds := x.cmds ++ [k] }
      .next (t.setHandle h.toNat { st := .pending, unit := 2, cmd := k.id, record := k.offset })

/-- MLDW: the grant's handle and the offset are read at issue. -/
def execMldw (a b : BitVec 6) (h : BitVec 4) (s : State) :=
  accept .thresher s fun s => s.onCore <| outsideTx s fun s => s.unlessPending h.toNat fun s =>
    s.issueThresher h { id := 0, kind := .mldw, x := s.sr a, y := s.sr b }
def execMswap (h : BitVec 4) (s : State) :=
  accept .thresher s fun s => s.onCore <| outsideTx s fun s => s.unlessPending h.toNat fun s =>
    s.issueThresher h { id := 0, kind := .mswap }
def execMzero (m : BitVec 2) (h : BitVec 4) (s : State) :=
  accept .thresher s fun s => s.onCore <| outsideTx s fun s => s.unlessPending h.toNat fun s =>
    s.issueThresher h { id := 0, kind := .mzero, tile := m.toNat }
/-- MLOOP: the record, the displacements and the barrier handle are read at issue. -/
def execMloop (a b : BitVec 6) (h : BitVec 4) (m : BitVec 2) (s : State) :=
  accept .thresher s fun s => s.onCore <| outsideTx s fun s => s.unlessPending h.toNat fun s =>
    s.withThresherRecord .mloop a fun bytes off bar =>
      s.issueThresher h { id := 0, kind := .mloop, record := bytes, offset := off, bar := bar, y := s.sr b, tile := m.toNat }
/-- MSTR: the record and the barrier handle are read at issue. -/
def execMstr (a : BitVec 6) (m : BitVec 2) (h : BitVec 4) (s : State) :=
  accept .thresher s fun s => s.onCore <| outsideTx s fun s => s.unlessPending h.toNat fun s =>
    s.withThresherRecord .mstr a fun bytes off bar =>
      s.issueThresher h { id := 0, kind := .mstr, record := bytes, offset := off, bar := bar, tile := m.toNat }

/-! ## Tiles (R266, R267, R269) -/

/-- A row of an accumulator tile; every value is +0.0 at first. -/
def CribShare.row (sh : CribShare) (tile r : Nat) : BitVec 4096 := Tab.get 0#4096 sh.accum (128 * tile + r)
/-- A share with one row replaced. -/
def CribShare.setRow (sh : CribShare) (tile r : Nat) (x : BitVec 4096) : CribShare :=
  { sh with accum := Tab.store 0#4096 sh.accum (128 * tile + r) x }
/-- A row with rows 0 to n - 1 of a tile set to +0.0. -/
def CribShare.zeroRows (sh : CribShare) (tile n : Nat) : CribShare :=
  { sh with accum := sh.accum.filter fun e => !(decide (128 * tile ≤ e.1) && decide (e.1 < 128 * tile + n)) }

/-- MRD: a quad of one row's values, as the tile stands at issue (R279). -/
def execMrd (a : BitVec 4) (b : BitVec 6) (m : BitVec 2) (s : State) :=
  accept .accumRead s fun s => s.onCore <| outsideTx s fun s =>
    let sh := s.here.share s.launchId
    if sh.tiles ≤ m.toNat then .next (s.trap .accumRange)
    else
      let row := sh.row m.toNat ((s.sr b).extractLsb' 0 7).toNat
      .next (s.vlResult ((List.range 4).map fun i => Reg.v (4 * a.toNat + i) s.active)
        ((List.range 4).map fun i => Write.v (4 * a.toNat + i) s.active (row.extractLsb' (1024 * i) 1024)))

/-- Kt of a weight format; 0 where it is none (R266). -/
def weightKt (f : Nat) : Nat :=
  match f with
  | 1 => 128 | 5 => 64 | 6 => 128 | 7 => 128 | 0x10 => 128 | 0x11 => 128 | 0x12 => 256 | 0x13 => 512 | _ => 0

/-- The legal pairs of weight and activation formats (R266). -/
def pairLegal (w a : Nat) : Bool :=
  if w = 1 ∨ w = 5 then decide (a = w)
  else decide (weightKt w ≠ 0) && [6, 7, 0x10, 0x11].contains a

/-- The bytes of a tile or operand of 128 rows of Kt elements (R266, R267). -/
def tileBytes (f kt : Nat) : Nat := if isMx f then kt / 32 * mxTile (f - 0x10) else 128 * kt * fmtBytes f

/-- Element (k, r) of a tile or operand, without its block's scale (R267). -/
def tileElem (f kt : Nat) (b : Array Byte) (r k : Nat) : FVal :=
  let e := r * kt + k
  if isMx f then elemVal (f - 0x10) (mxCode (f - 0x10) e (b.getD (mxElemOff (f - 0x10) e) 0#8).toNat)
  else codeVal f (natOfBytes ((List.range (fmtBytes f)).map fun i => b.getD (e * fmtBytes f + i) 0#8)) 0

/-- The scale byte of block j of row r; 127, which scales by 1, where the format has none. -/
def tileScale (f kt : Nat) (b : Array Byte) (r j : Nat) : Nat :=
  if isMx f then (b.getD (mxScaleOff (f - 0x10) (r * kt + 32 * j)) 0#8).toNat else 127

/-! ## K-steps (R277) -/

/-- A block's sum B: exact products summed exactly, scaled, and rounded once; an exact zero is +0. -/
def blockSum (e : Int) (bad : Bool) (ps : List (FVal × FVal)) : FVal :=
  let p := ps.foldl (fun (acc : FVal) x => acc.add .rne (x.1.mul x.2)) (FVal.fin false 0 0)
  let p : FVal := match p with | .fin n m x => if m = 0 then .fin false 0 0 else .fin n m x | p => p
  if bad then .nan else fp32.round .rne (p.scale e)

/-- One value of a tile after a K-step: its Kt products added in blocks of 32, ascending. -/
def stepValue (fa fw kt : Nat) (sadj : Int) (a w : Array Byte) (m n : Nat) (c : Word) : Word :=
  let one (c : FVal) (j : Nat) : FVal :=
    let sa := tileScale fa kt a m j
    let sw := tileScale fw kt w n j
    let e := sadj + ((sa : Int) - 127) + ((sw : Int) - 127)
    let ps := (List.range 32).map fun i => (tileElem fa kt a m (32 * j + i), tileElem fw kt w n (32 * j + i))
    fp32.round .rne (c.add .rne (blockSum e (decide (sa = 0xFF) || decide (sw = 0xFF)) ps))
  BitVec.ofNat 32 (fp32.encode ((List.range (kt / 32)).foldl one (fp32.decode c.toNat)))

/-- A row of 128 values. -/
def rowOfList : List Word → BitVec 4096
  | [] => 0
  | w :: ws => (rowOfList ws <<< 32) ||| w.setWidth 4096

/-- Value n of a row. -/
def rowValue (x : BitVec 4096) (n : Nat) : Word := x.extractLsb' (32 * n) 32

/-! ## MLOOP's record (R275) -/

/-- The fields of an MLOOP as its steps use them: offsets with the displacements added. -/
structure Mloop where
  wgrant : Dword
  agrant : Dword
  woff : Int
  aoff : Int
  winc : Int
  ainc : Int
  ksteps : Nat
  rows : Nat
  swap : Bool
  arr : Bool
  /-- the record's fields are valid -/
  ok : Bool
  deriving DecidableEq, Repr

/-- An MLOOP's fields from its command. -/
def Command.mloop (k : Command) : Mloop :=
  let f := fieldOf k.record
  let swap := bitOf (f 0x23 1) 0
  { wgrant := BitVec.ofNat 64 (f 0 8), agrant := BitVec.ofNat 64 (f 8 8)
    woff := (f 0x10 4 : Int) + (k.y.extractLsb' 0 32).toInt, aoff := (f 0x14 4 : Int) + (k.y.extractLsb' 32 32).toInt
    winc := signedOf 32 (f 0x18 4), ainc := signedOf 32 (f 0x1C 4), ksteps := f 0x20 2, rows := f 0x22 1
    swap := swap, arr := bitOf (f 0x23 1) 1
    ok := decide (1 ≤ f 0x20 2) && decide (1 ≤ f 0x22 1) && decide (f 0x22 1 ≤ 128) && decide (f 0x23 1 < 4) && zeroBytes k.record 0x24 0x40 &&
      (swap || (decide (f 0 8 = 0) && decide (f 0x10 4 = 0) && decide (f 0x18 4 = 0))) }

/-- The offsets of the weight tiles that MLOOP loads, and of the operands it reads. -/
def Mloop.tileOffs (m : Mloop) : List Int :=
  if m.swap then (List.range (m.ksteps - 1)).map fun (i : Nat) => m.woff + ((i : Int) + 1) * m.winc else []
def Mloop.operandOffs (m : Mloop) : List Int := (List.range m.ksteps).map fun (i : Nat) => m.aoff + (i : Int) * m.ainc

/-- Is an offset a multiple of 128, with so many bytes wholly inside a grant? -/
def Grant.holds (g : Grant) (size : Nat) (off : Int) : Bool :=
  decide (off % 128 = 0) && decide (0 ≤ off) && decide (off.toNat + size ≤ g.size * 1024)

/-! ## Checks at the head of the queue (R283) -/

/-- A launch's code for a tile name beyond its count (R269). -/
def CribShare.tileCode (sh : CribShare) (tile : Nat) : List Nat := if sh.tiles ≤ tile then [5] else []

/-- The code for a barrier handle that is not current. -/
def Column.barCode (x : Column) (k : Command) : List Nat :=
  match k.bar with
  | some b => if x.barCurrent k.entry b then [] else [7]
  | none => []

/-- The failed checks of an MLDW. -/
def Column.mldwCodes (x : Column) (k : Command) : List Nat :=
  match x.currentGrant k.launch k.x with
  | none => [2]
  | some g =>
    let kt := weightKt g.fmt
    (if g.holds (tileBytes g.fmt kt) ((k.y.extractLsb' 0 32).toNat : Int) then [] else [3]) ++ (if kt = 0 then [4] else [])

/-- The failed checks of an MLOOP. -/
def Column.mloopCodes (x : Column) (k : Command) : List Nat :=
  let m := k.mloop
  let sh := x.share k.launch
  let plane := if m.swap then sh.shadow else sh.active
  let wg := if m.swap then x.currentGrant k.launch m.wgrant else none
  let ag := x.currentGrant k.launch m.agrant
  let wfmt : Option Nat := if plane.tile.isEmpty then wg.map (·.fmt) else some plane.fmt
  let kt := weightKt (wfmt.getD 0)
  (if m.ok then [] else [1]) ++
  (if ag.isNone || (m.swap && wg.isNone) then [2] else []) ++
  (if (ag.any fun g => !m.operandOffs.all (g.holds (tileBytes g.fmt kt))) || (wg.any fun g => !m.tileOffs.all (g.holds (tileBytes g.fmt (weightKt g.fmt)))) then [3]
   else []) ++
  (if (ag.any fun g => wfmt.any fun f => !pairLegal f g.fmt) || (wg.any fun g => wfmt.any fun f => decide (f ≠ g.fmt)) then [4] else []) ++
  sh.tileCode k.tile ++ (if plane.tile.isEmpty then [6] else []) ++ x.barCode k

/-- An MSTR's destination and fields (R280). -/
def Command.dst (k : Command) : TD := tdOf (k.record.take 96)
def Command.rows (k : Command) : Nat := fieldOf k.record 0x68 1
def Command.mstrFlag (k : Command) (n : Nat) : Bool := bitOf (fieldOf k.record 0x69 1) n

/-- Is an MSTR's record valid? -/
def Command.mstrOk (k : Command) : Bool :=
  let t := k.dst
  t.valid && decide (t.rank = 2) && decide (t.dist = 0) && decide (t.format ≠ 0) && decide (t.format ≠ 8) && decide (t.format ≠ 9) &&
    decide (1 ≤ k.rows) && decide (k.rows ≤ 128) && decide (fieldOf k.record 0x69 1 < 8) && zeroBytes k.record 0x6C 0x70

/-- The coordinates of an element of an MSTR. -/
def Command.mstrCoords (k : Command) (m n : Nat) : List Int :=
  [signedOf 32 (fieldOf k.record 0x60 4) + (n : Int), signedOf 32 (fieldOf k.record 0x64 4) + (m : Int)]

/-- The destination elements of one row. -/
def Command.mstrRow (k : Command) (own gang m : Nat) : List (Except CmdFault (Option Loc)) :=
  (List.range 128).map fun n => k.dst.target own gang 1 0 (k.mstrCoords m n)

/-- The destination spans of an MSTR: none where it lies in the crib. -/
def State.mstrSpans (s : State) (k : Command) : List Span :=
  let (map, own, gang) := s.gcols k
  let t := k.dst
  match (s.place k (t.baseGcol own) t.off true).1 with
  | .ok (.crib _ _) => []
  | _ => spansOf map t (readLocs ((List.range k.rows).flatMap fun m => k.mstrRow own gang m))

/-- The failed checks of an MSTR. -/
def State.mstrCodes (s : State) (k : Command) : List Nat :=
  let x := s.col k.col
  let l := (s.node k.launch).launch
  (if k.mstrOk then [] else [1]) ++ (x.share k.launch).tileCode k.tile ++ x.barCode k ++ (if k.dst.baseOk l.map.length then [] else [9]) ++
    (if k.mstrOk && k.dst.baseOk l.map.length && l.det && s.races k [] (s.mstrSpans k) then [13] else [])

/-- The failed checks of a command at the head of its queue. -/
def State.headCodes (s : State) (k : Command) : List Nat :=
  let x := s.col k.col
  match k.kind with
  | .mldw => x.mldwCodes k
  | .mzero => (x.share k.launch).tileCode k.tile
  | .mloop => x.mloopCodes k
  | .mstr => s.mstrCodes k
  | _ => []

/-- An MSTR's report (R280). -/
def mstrReport (code row col addr : Nat) : List Byte :=
  bytesOf 1 code ++ bytesOf 1 1 ++ bytesOf 1 row ++ bytesOf 1 col ++ bytesOf 4 0 ++ bytesOf 8 addr

/-- A thresher command faulted; only MSTR's record has a report (R283). One that is being cancelled is dropped, and the launch's share given up
with it if its groups have left (R284). -/
def State.thresherFault (s : State) (k : Command) (code row col addr : Nat) : State :=
  if k.cancel then (s.dropCommand k.col k.id fun _ => {}).releaseShare k.col k.launch
  else s.faultWith k.col k code 0x70 (if k.kind = .mstr then mstrReport code row col addr else [])

/-- A thresher command performed: its future DONE, or free if it was cancelled, its queue place given up, and the launch's share
with it if its groups have left. -/
def State.thresherDone (s : State) (k : Command) : State :=
  (s.dropCommand k.col k.id fun h => if k.cancel then {} else { h with st := .done }).releaseShare k.col k.launch

/-! ## Serving a launch's queue (R270, R271) -/

/-- The command that a launch's queue performs next: the first that is neither FAULTED nor behind one of its group whose handle is FAULTED. -/
def thresherHead (named : Nat → Bool) : List Command → List Nat → Option Command
  | [], _ => none
  | k :: ks, held =>
    if k.st = .faulted then thresherHead named ks (if named k.id then k.entry :: held else held)
    else if held.contains k.entry then thresherHead named ks held
    else some k

/-- Does a handle register name a FAULTED command: not once HCANCEL or HGET has freed the handle (R177, R283)? -/
def Column.handleFaulted (x : Column) (id : Nat) : Bool :=
  x.warps.any fun w => w.2.h.any fun h => decide (h.2.cmd = id) && decide (h.2.st = .faulted)

/-- The command at the head of a launch's queue. -/
def Column.thresherNext (x : Column) (launch : Nat) : Option Command := thresherHead x.handleFaulted (x.thresherQueue launch) []

/-- Has a launch a command that can start or go on? -/
def Column.thresherReady (x : Column) (launch : Nat) : Bool :=
  match x.thresherNext launch with
  | some k => x.mayGoOn k && !k.finished
  | none => false

/-- The launch that the thresher serves: one with an MLDW or MSTR under way, which runs to its end even where its group leaves, or that of the
highest region priority with queued work, on a tie the one that has waited longest (R271, R284). -/
def State.thresherChoice (s : State) (c : Nat) : Option Nat :=
  let x := s.col c
  let ready := (Tab.keys x.cribs).filter x.thresherReady
  let busy (l : Nat) : Bool :=
    match x.thresherNext l with
    | some k => decide (k.st = .moving) && (decide (k.kind = .mldw) || decide (k.kind = .mstr))
    | none => false
  let before (a b : Nat) : Bool :=
    let pa := (s.node a).eff.prio
    let pb := (s.node b).eff.prio
    decide (pb < pa) || (decide (pa = pb) && decide ((x.share a).since < (x.share b).since))
  match (Tab.keys x.cribs).find? busy with
  | some l => some l
  | none => (sortBy before ready).head?

/-- A launch's share marked as served now. -/
def Column.served_ (x : Column) (launch clk : Nat) : Column := x.setShare launch { x.share launch with since := clk }

/-- Both planes exchanged (R274). -/
def CribShare.swap (sh : CribShare) : CribShare := { sh with active := sh.shadow, shadow := sh.active }

/-- THRESHER_COMMAND_START: the checks, then MSWAP and MZERO are performed; MLDW, MLOOP and MSTR begin. MSTR waits while a table that
its claim needs is full. -/
def execThresherCommandStart (c node : Nat) (s : State) : Host.Outcome State Fault Refusal :=
  let x := s.col c
  match (if s.thresherChoice c = some node then x.thresherNext node else none) with
  | none => .next s
  | some k =>
    if k.st ≠ .queued then .next s
    else
      let s := s.updCol c fun x => x.served_ node s.clk
      match s.headCodes k with
      | code :: more => .next (s.thresherFault k (more.foldl min code) 0 0 0)
      | [] =>
        let begin_ (s : State) (lands : Nat) : State := s.updCol c fun x => x.setCmd { k with st := .moving, step := 0, lands := lands }
        match k.kind with
        | .mswap => .next ((s.updCol c fun x => x.setShare node (x.share node).swap).thresherDone k)
        | .mzero => .next ((s.updCol c fun x => x.setShare node ((x.share node).zeroRows k.tile 128)).thresherDone k)
        | .mldw =>
          let f := ((x.currentGrant node k.x).map (·.fmt)).getD 0
          .next (begin_ s (s.clk + (tileBytes f (weightKt f) + 1023) / 1024))
        | .mstr =>
          match s.recordClaims k (s.node node).launch.det [] (s.mstrSpans k) with
          | (false, s) => .next s
          | (true, s) => .next (begin_ s 0)
        | _ => .next (begin_ s 0)

/-- Bytes of a grant's range in a launch's reservation. -/
def CribShare.bytesAt (sh : CribShare) (g : Grant) (off n : Nat) : List Byte := Memory.readBytes sh.bytes (g.off * 1024 + off) n

/-- SHADOW_PLANE_LOADED: an MLDW's tile stands in the shadow plane (R273). -/
def execShadowPlaneLoaded (c node : Nat) (s : State) : Host.Outcome State Fault Refusal :=
  let x := s.col c
  match x.thresherNext node with
  | none => .next s
  | some k =>
    if k.kind ≠ .mldw ∨ k.st ≠ .moving ∨ s.clk < k.lands then .next s
    else
      match x.currentGrant node k.x with
      | none => .next s
      | some g =>
        let sh := x.share node
        let p : Plane := { tile := sh.bytesAt g (k.y.extractLsb' 0 32).toNat (tileBytes g.fmt (weightKt g.fmt)), fmt := g.fmt, sadj := g.sadj }
        .next ((s.setCol c (x.setShare node { sh with shadow := p })).thresherDone k)

/-- A share after one K-step (R276): the planes exchanged and the next tile loaded where SWAP asks, and the products added to the
tile's rows. -/
def CribShare.kstep (sh : CribShare) (m : Mloop) (wg : Grant) (ag : Grant) (tile i : Nat) : CribShare :=
  let sh := if m.swap then sh.swap else sh
  let kt := weightKt sh.active.fmt
  let a := (sh.bytesAt ag (m.aoff + (i : Int) * m.ainc).toNat (tileBytes ag.fmt kt)).toArray
  let w := sh.active.tile.toArray
  let load : Plane :=
    { tile := sh.bytesAt wg (m.woff + ((i : Int) + 1) * m.winc).toNat (tileBytes wg.fmt (weightKt wg.fmt)), fmt := wg.fmt, sadj := wg.sadj }
  let step (sh : CribShare) (r : Nat) : CribShare :=
    let old := sh.row tile r
    sh.setRow tile r (rowOfList ((List.range 128).map fun n =>
      stepValue ag.fmt sh.active.fmt kt (ag.sadj + sh.active.sadj) a w r n (rowValue old n)))
  let sh := (List.range m.rows).foldl step sh
  if m.swap ∧ i + 1 < m.ksteps then { sh with shadow := load } else sh

/-- THRESHER_KSTEP: the next K-step of the MLOOP at the head; the last one makes the barrier arrival, and its rows land 20 cycles after
they have entered (R276, R278). A cancelled MLOOP stops here (R284). -/
def execThresherKstep (c node : Nat) (s : State) : Host.Outcome State Fault Refusal :=
  let x := s.col c
  match (if s.thresherChoice c = some node then x.thresherNext node else none) with
  | none => .next s
  | some k =>
    if k.kind ≠ .mloop ∨ k.st ≠ .moving ∨ k.finished then .next s
    else if k.cancel then .next (s.thresherDone k)
    else
      let m := k.mloop
      let ag := (x.currentGrant node m.agrant).getD {}
      let wg := (x.currentGrant node m.wgrant).getD {}
      let x := x.setShare node ((x.share node).kstep m wg ag k.tile k.step)
      let x := x.served_ node s.clk
      let last := decide (m.ksteps ≤ k.step + 1)
      let x := x.setCmd { k with step := k.step + 1, finished := last, lands := s.clk + m.rows + 20 }
      match (if last then k.bar else none) with
      | some b => .next (s.setCol c (x.arriveBarrier (barIndex b)))
      | none => .next (s.setCol c x)

/-- MLOOP_ROWS_LANDED: every row of the last step has landed, and the future is DONE (R276). -/
def execMloopRowsLanded (c node : Nat) (s : State) : Host.Outcome State Fault Refusal :=
  match (s.col c).thresherNext node with
  | none => .next s
  | some k =>
    if k.kind = .mloop ∧ k.st = .moving ∧ k.finished ∧ k.lands ≤ s.clk then .next (s.thresherDone k) else .next s

/-! ## MSTR's rows (R281) -/

/-- The writes of a row with their values, or the fault of its first faulting element and its column. -/
def State.mstrMoves (s : State) (k : Command) (row : BitVec 4096) (own : Nat) :
    List (Nat × Except CmdFault (Option Loc)) → Except (CmdFault × Nat) (List (Move × EltSrc)) × State
  | [] => (.ok [], s)
  | (n, .error f) :: _ => (.error (f, n), s)
  | (_, .ok none) :: rest => s.mstrMoves k row own rest
  | (n, .ok (some l)) :: rest =>
    match s.placeOf k k.dst 1 (k.mstrCoords k.step n) 0 true l with
    | (.error f, s) => (.error (f, n), s)
    | (.ok p, s) =>
      match s.mstrMoves k row own rest with
      | (.error f, s) => (.error f, s)
      | (.ok ms, s) =>
        let src : EltSrc := { fmt := 3, code := (rowValue row n).toNat, exp := signedOf 16 (fieldOf k.record 0x6A 2) }
        (.ok (({ src := none, dst := some p, pair := { src := none, dst := some l, sc := [], dc := k.mstrCoords k.step n } }, src) :: ms), s)

/-- The host-tier bytes of the own column that a row's writes need first (R311). -/
def State.mstrNeeds (s : State) (k : Command) (ms : List (Move × EltSrc)) : Needs :=
  ms.foldl (fun nd m =>
    match m.1.dst with
    | some (p, q, e) =>
      let host : Bool := match p with | .bay c a => decide (c = k.col) && hostLine (lineOf a) | _ => false
      let block := if isMx k.dst.format then (List.range 32).map fun (i : Nat) =>
          (match p with | .bay c a => Place.bay c (a - (if k.dst.format = 0x12 then e % 32 / 2 - i / 2 else e % 32 - i)) | pl => pl) else [p]
      if host then (block ++ q.toList).foldl (fun nd pl => if s.lacks k pl 1 then nd.add pl 1 else nd) nd else nd
    | none => nd) {}

/-- A row's writes performed and acknowledged: its count, and the next row; after the last one the tile is cleared where ZERO asks. -/
def State.endRow (s : State) (k : Command) : State :=
  let last := decide (k.rows ≤ k.step + 1)
  let s := s.updCol k.col fun x =>
    (x.addCount k k.bytes s.clk).setCmd
      { k with step := k.step + 1, finished := last, fetched := [], waiting := [], written := false, bytes := 0 }
  if last ∧ k.mstrFlag 2 then
    s.updCol k.col fun x => x.setShare k.launch ((x.share k.launch).zeroRows k.tile k.rows)
  else s

/-- A row's writes made, once what they need is there; a fault stops MSTR at this row. -/
def State.mstrCarry (s : State) (k : Command) : State :=
  let (_, own, gang) := s.gcols k
  let row := ((s.col k.col).share k.launch).row k.tile k.step
  match s.mstrMoves k row own ((List.range 128).zip (k.mstrRow own gang k.step)) with
  | (.error (f, col), s) => s.thresherFault k (mstrCode f.code) k.step col f.addr
  | (.ok ms, s) =>
    let nd := s.mstrNeeds k ms
    if nd = {} then
      let t := k.dst
      let ws := ms.foldl (fun l v => v.1.writes t gang (k.mstrFlag 0) false v.2 l) []
      let (k, s) := s.postWrites { k with written := true, bytes := countBytes t (ms.map Prod.fst) } 0 ws
      let s := s.updCol k.col fun x => (x.setCmd k).sendEngine k
      if k.unacked = 0 ∧ k.toSend.isEmpty ∧ k.cribOut.isEmpty then s.endRow k else s
    else s.fetch k (recOf false []) nd

/-- The fault of a row that a host-tier line could not be brought for: PA_HOLE at the first element that lies there (R311). -/
def State.mstrBlame (s : State) (k : Command) (store : Nat × Nat) (line : Nat) : State :=
  let (_, own, gang) := s.gcols k
  let ms := (s.mstrMoves k 0#4096 own ((List.range 128).zip (k.mstrRow own gang k.step))).1
  let at_ (p : Place) : Bool := decide (p.store = store) && decide (lineOf p.addr = line)
  let hit (m : Move × EltSrc) : Bool := m.1.dst.any fun d => at_ d.1 || d.2.1.any at_
  match (match ms with | .ok l => l.find? hit | .error _ => none) with
  | some m =>
    s.thresherFault k 12 k.step (m.1.pair.dc.getD 0 0 - (k.mstrCoords k.step 0).getD 0 0).toNat ((m.1.pair.dst.map (·.off)).getD 0)
  | none => s.thresherFault k 12 k.step 0 0

/-- MSTR_TRANSFER: the row of the MSTR at the head begun or carried on; after the last row, with everything counted, the future is
DONE. -/
def execMstrTransfer (c node : Nat) (s : State) : Host.Outcome State Fault Refusal :=
  let x := s.col c
  match x.thresherNext node with
  | none => .next s
  | some k =>
    if k.kind ≠ .mstr ∨ k.st ≠ .moving then .next s
    else if k.finished then
      if x.counts.any (fun n => decide (n.cmd = k.id)) then .next s else .next (s.thresherDone k)
    else
      match k.broken with
      | some (_, st, a) =>
        if !k.cribOut.isEmpty then .next (s.pourCrib k)
        else if k.toSend.isEmpty ∧ k.unacked = 0 ∧ k.waiting.isEmpty then .next (s.mstrBlame k st (lineOf a))
        else .next (s.updCol c fun x => x.sendEngine k)
      | none =>
        if !k.cribOut.isEmpty then .next (s.pourCrib k)
        else if !k.toSend.isEmpty then .next (s.updCol c fun x => x.sendEngine k)
        else if k.written then (if k.unacked = 0 then .next (s.endRow k) else .next s)
        else if !k.waiting.isEmpty then .next s
        else if s.gateClosed c k.launch 2 || s.marked k then .next s
        else .next (s.mstrCarry k)

/-! ## Restart (R283) -/

/-- A FAULTED thresher command restarted: its record read again, and the command queued to be performed from its start. -/
def State.restartThresher (s : State) (c : Nat) (k : Command) : State :=
  let n := thresherRecord k.kind
  let b := if n = 0 then [] else Memory.readBytes ((s.col c).group k.entry).store k.offset n
  let s := s.updCol c fun x => x.setCmd { k with st := .queued, record := b, step := 0, finished := false, restarted := true }
  s.setFuture c k.id fun h => { h with st := .pending, code := 0 }

end Sys2Proof.Machine
end

