-- ==== Sys2Proof/Machine/System.lean ====
section
/-! DEFINITION. The system words: clock, counters, ejection control, SIGNAL (R181, R182, R203), and the words of the tinker and
the factor cores: the debug window (R184, R349, R350), ERET (R185, R348) and TLBI (R186, R356); the tinker's events (R345,
R346, R348). -/

namespace Sys2Proof.Machine

/-! ## Clock, counters, ejection control, SIGNAL -/

/-- CLKR: %time and %clk sampled in one cycle. -/
def execClkr (d : BitVec 5) (s : State) :=
  accept .plain s fun s =>
    if s.mayWriteS (2 * d.toNat) then
      .next ((s.putS 2 (2 * d.toNat) (BitVec.ofNat 64 s.time)).putS 2 (2 * d.toNat + 1) (BitVec.ofNat 64 s.clk))
    else .next (s.trap .divergentScalar)

/-- Counter n of the issuing column: the launch's own for 1 to 8, its region's for 32 to 50, the column's for 51 to 55 (R181,
R313). -/
def State.counter (s : State) (n : Nat) : Nat :=
  if n = 0 then s.clk
  else if n ≤ 8 then Tab.get 0 s.here.perf (16 * s.launchId + n)
  else if 32 ≤ n ∧ n ≤ 50 then Tab.get 0 s.here.bay.counts (64 * s.ctxNum + n)
  else if 51 ≤ n ∧ n ≤ 55 then Tab.get 0 s.here.bay.counts n
  else 0

def execPerf (d b : BitVec 6) (s : State) :=
  accept .plain s fun s => s.scalarTo 2 d (BitVec.ofNat 64 (s.counter b.toNat))

/-- A warp's ejection control word, with the lanes out now (R203). -/
def Column.ejectControl (x : Column) (n : Nat) : Dword :=
  let w := x.warp n
  (BitVec.ofNat 6 (laneCount (x.lanesOut n)) ++ w.limitNext.getD w.limit ++ 0#11 ++ BitVec.ofBool w.rt ++ w.ejt).setWidth 64

/-- Is a word legal for the ejection control? -/
def ejectLegal (v : Dword) : Bool :=
  decide (v.extractLsb' 38 26 = 0#26) && decide (v.extractLsb' 5 11 = 0#11) && decide ((v.extractLsb' 0 4).toNat ≤ 8)

/-- The ejection control written; its limit takes effect with the next cycle (R199, R203). -/
def Warp.setControl (w : Warp) (v : Dword) : Warp :=
  { w with ejt := v.extractLsb' 0 4, rt := v.getLsbD 4, limitNext := some (v.extractLsb' 16 16) }

/-- EJCTL. -/
def execEjctl (d a : BitVec 6) (s : State) :=
  accept .plain s fun s =>
    let v := s.sr a
    if !ejectLegal v then .next s.illegal
    else if !s.mayWriteS d.toNat then .next (s.trap .divergentScalar)
    else .next ((s.putS 2 d.toNat (s.here.ejectControl s.slot)).updWarp fun w => w.setControl v)

/-- SIGNAL: after a release at host scope, a vector of the function that the warp's service region is bound to; inside a transaction too, which it
does not abort (log 123, DESIGN CHOICE). -/
def execSignal (a : BitVec 6) (s : State) :=
  accept .plain s fun s =>
    s.afterRelease 8 fun s =>
      let region := s.regionOf s.launchId
      let fn := (s.node region).fn
      if (s.host.fn fn).region = some region then
        .next { s with host := s.host.sendVector fn ((s.sr a).extractLsb' 0 11).toNat }
      else .next s

/-! ## Path stacks as bytes (R350) -/

/-- The 192 bytes of a frame. -/
def Frame.bytes (x : Frame) : List Byte :=
  [x.kind, x.c] ++ bytesOf 2 x.epoch.toNat ++ bytesOf 4 x.join.toNat ++ bytesOf 4 x.lanes.toNat ++ bytesOf 4 x.aux.toNat ++
  [x.link, x.wpos] ++ bytesOf 46 0 ++ (List.range 16).flatMap fun i => bytesOf 8 (Tab.get 0#64 x.bank (48 + i)).toNat

/-- A frame from its bytes; what the record does not hold stays, unless its kind changes. -/
def Frame.ofBytes (old : Frame) (uid : Nat) (b : List Byte) : Frame :=
  let f := fieldOf b
  let kind := BitVec.ofNat 8 (f 0 1)
  let x := if kind = old.kind then old else { uid := uid, jpos := 2 }
  { x with
    kind := kind, c := BitVec.ofNat 8 (f 1 1), epoch := BitVec.ofNat 16 (f 2 2), join := BitVec.ofNat 32 (f 4 4), lanes := BitVec.ofNat 32 (f 8 4)
    aux := BitVec.ofNat 32 (f 0xC 4), link := BitVec.ofNat 8 (f 0x10 1), wpos := BitVec.ofNat 8 (f 0x11 1)
    bank := (List.range 16).foldl (fun t i => Tab.store 0#64 t (48 + i) (BitVec.ofNat 64 (f (0x40 + 8 * i) 8))) [] }

/-- The number of frames in use (R119). -/
def PathStack.inUse (k : PathStack) : Nat := ((List.range 5).filter fun f => decide ((k.frame f).kind ≠ 0#8)).length

/-- The control entry's number of frames in use and TOP, the topmost suspended-path frame or 0xFF (R350). -/
def PathStack.control (k : PathStack) : BitVec 8 × BitVec 8 :=
  k.raw.getD (BitVec.ofNat 8 k.inUse, BitVec.ofNat 8 (k.order.headD 0xFF))

/-- The 1,024 bytes of a path stack: five frames, and the control entry with the epoch counter, the number of frames in use and the
topmost suspended-path frame. -/
def PathStack.bytes (k : PathStack) : List Byte :=
  ((List.range 5).flatMap fun f => (k.frame f).bytes) ++ bytesOf 2 k.epoch.toNat ++ [k.control.1, k.control.2] ++ bytesOf 60 0

/-- The frames that hold a suspended path. -/
def PathStack.suspended (k : PathStack) : List Nat := (List.range 5).filter fun f => decide ((k.frame f).kind = 2#8)

/-- A path stack from its bytes: the suspended-path frames keep their order below the topmost one, and a number of frames or a TOP that
the frames do not bear out stands as it is written. -/
def PathStack.ofBytes (old : PathStack) (uid : Nat) (b : List Byte) : PathStack :=
  let frames := (List.range 5).foldl (fun t f =>
    let x := (old.frame f).ofBytes (uid + f) ((b.drop (192 * f)).take 192)
    Tab.store ({} : Frame) t f x) ([] : Tab Frame)
  let k : PathStack := { frames := frames, epoch := BitVec.ofNat 16 (fieldOf b 0x3C0 2), order := [] }
  let top := fieldOf b 0x3C3 1
  let susp := k.suspended
  let rest := (old.order.filter fun f => susp.contains f) ++ susp.filter fun f => !old.order.contains f
  let k := { k with order := if susp.contains top then top :: rest.filter (· ≠ top) else rest }
  let written := (BitVec.ofNat 8 (fieldOf b 0x3C2 1), BitVec.ofNat 8 top)
  { k with raw := if written = k.control then none else some written }

/-- Bytes with one doubleword replaced. -/
def setDword (b : List Byte) (i : Nat) (v : Dword) : List Byte := b.take (8 * i) ++ bytesOf 8 v.toNat ++ b.drop (8 * i + 8)

/-! ## The debug window (R184, R349) -/

/-- A debug-window address. -/
structure Window where
  col : Nat
  space : Nat
  slot : Nat
  lane : Nat
  index : Nat
  deriving DecidableEq, Repr

/-- A window address as the issuing agent means it: the tinker reaches its own column only. -/
def State.windowOf (s : State) (a : Dword) : Window :=
  { col := (match s.cur.who with | .factor _ => (a.extractLsb' 56 8).toNat | _ => s.cur.col), space := (a.extractLsb' 52 4).toNat
    slot := (a.extractLsb' 46 6).toNat, lane := (a.extractLsb' 41 5).toNat, index := (a.extractLsb' 0 41).toNat }

/-- The agent that owns an item, and the registers that its value depends on. -/
def Column.windowRegs (x : Column) (w : Window) : Who × List Reg :=
  let wp := x.warp w.slot
  let a := (wp.slotPath false).uid
  let b := (wp.slotPath true).uid
  let warp := Who.warp w.slot false
  let conds (u : Nat) : List Reg := (List.range 8).map fun i => Reg.c u i
  match w.space with
  | 0 => (warp, if w.index < 64 then [.v w.index (1#32 <<< w.lane)] else [])
  | 1 => (warp, if w.index < 48 then [.s 0 w.index] else if w.index < 64 then [.s a w.index] else if w.index < 80 then [.s b (w.index - 16)] else [])
  | 2 =>
    (warp, if w.index = 0 then conds a else if w.index = 1 then conds b
      else if 9 ≤ w.index ∧ w.index < 16 then [.k (w.index - 8) 0xFFFFFFFF#32] else [])
  | 7 =>
    let c := x.ctx (w.slot % 32)
    let u := c.path.uid
    (.lane (w.slot % 32), if w.index < 64 then [.v w.index (1#32 <<< c.lane)] else if w.index < 80 then [.s u (w.index - 16)]
      else if w.index = 80 then conds u ++ (List.range 7).map fun i => Reg.k (i + 1) (1#32 <<< c.lane) else [])
  | _ => (warp, [])

/-- A path's PC item. -/
def pcItem (p : Option Path) : Dword :=
  match p with
  | some p => (1#1 ++ 0#29 ++ BitVec.ofNat 2 p.wpos ++ p.pkt).setWidth 64
  | none => 0#64

/-- A token's item. -/
def tokenItem (t : Option Token) : Dword :=
  match t with
  | some t => (1#1 ++ 0#15 ++ t.epoch ++ t.join).setWidth 64
  | none => 0#64

/-- The token that an item's word gives. -/
def itemToken (v : Dword) : Option Token :=
  if v.getLsbD 63 then some ⟨v.extractLsb' 0 32, v.extractLsb' 32 16⟩ else none

/-- A path with the PC of an item's word; a position of 3 changes nothing. -/
def Path.atItem (p : Path) (v : Dword) : Path :=
  if v.extractLsb' 32 2 = 3#2 then p
  else
    let w := (v.extractLsb' 32 2).toNat
    { p with pkt := v.extractLsb' 0 32, wpos := w, fresh := decide (w = 0) }

/-- What a PC slot holds, a path or not (R349; log 115, DESIGN CHOICE). -/
def Warp.slotItem (w : Warp) (b : Bool) : Path := if b then w.b.getD w.idleB else w.a.getD w.idleA

/-- What a PC slot holds replaced. -/
def Warp.setItem (w : Warp) (b : Bool) (p : Path) : Warp :=
  if b then (if w.b.isSome then { w with b := some p } else { w with idleB := p })
  else if w.a.isSome then { w with a := some p } else { w with idleA := p }

/-- The PC item of a slot written (R349): its valid bit says whether the slot holds a path, of what stands in it. A slot filled so holds a
path of a name of its own. -/
def Warp.setPc (w : Warp) (b : Bool) (uid : Nat) (v : Dword) : Warp :=
  let p := (w.slotItem b).atItem v
  let p := if (if b then w.b else w.a).isSome then p else { p with uid := uid }
  let path := if v.getLsbD 63 then some p else none
  if b then { w with b := path, idleB := p } else { w with a := path, idleA := p }

/-- The number of a rejoin state. -/
def Rejoin.code : Rejoin → Nat
  | .running => 0 | .waiting => 1 | .parked => 2

/-- The path stack that a doubleword of a group's local store belongs to, as warp index and doubleword of its stack (R119). -/
def Group.stackWord (g : Group) (off : Nat) : Option (Nat × Nat) :=
  if g.size ≤ off ∧ off < g.size + 1024 * g.warps then some ((off - g.size) / 1024, (off - g.size) % 1024 / 8) else none

/-- The bytes of a group's reserved and declared local store. -/
def Group.extent (g : Group) : Nat := g.size + 1024 * g.warps + 256

/-- The slot of a group entry's warp. -/
def Column.slotAt (x : Column) (entry i : Nat) : Option Nat := (x.slotsOf entry).find? fun n => decide ((x.warp n).index = i)

/-- A barrier entry's first item. -/
def Barrier.item (b : Barrier) : Dword :=
  let st : Nat := match b.st with | .free => 0 | .opened => 1 | .broken => 2
  (BitVec.ofBool b.p ++ BitVec.ofBool b.xb ++ b.g ++ BitVec.ofNat 8 st).setWidth 64

/-- Does the group that an event names still stand in its slot? -/
def State.eventHeld (s : State) (c : Nat) (e : Event) : Bool :=
  let w := (s.col c).warp e.slot.toNat
  let g := (s.col c).group w.entry
  decide (e.tier ≤ 1) && w.live && decide (BitVec.ofNat 32 g.gid = e.group) && decide (BitVec.ofNat 16 (s.regionOf g.launch) = e.context)

/-- A read of the debug window; an undefined address reads 0. -/
def State.windowRead (s : State) (w : Window) : Dword :=
  let x := s.col w.col
  let wp := x.warp w.slot
  let i := w.index
  let word (b : List Byte) (n : Nat) : Dword := BitVec.ofNat 64 (fieldOf b (8 * n) 8)
  match w.space with
  | 0 => if i < 64 then (lane (Tab.get 0#1024 wp.th.v i) w.lane).setWidth 64 else 0#64
  | 1 =>
    if i < 48 then Tab.get 0#64 wp.th.s i
    else if i < 64 then Tab.get 0#64 (wp.slotItem false).bank i
    else if i < 80 then Tab.get 0#64 (wp.slotItem true).bank (i - 16) else 0#64
  | 2 =>
    if i < 2 then (wp.slotItem (decide (i = 1))).c.setWidth 64
    else if i = 8 then (wp.slotPath false).lanes.setWidth 64
    else if 8 < i ∧ i < 16 then (Tab.get 0#32 wp.th.k (i - 8)).setWidth 64 else 0#64
  | 3 => if i < 16 then (Tab.get ({} : Handle) wp.h i).status else 0#64
  | 4 =>
    let p := if i % 2 = 0 then wp.a else wp.b
    let held := wp.slotItem (decide (i % 2 = 1))
    if i < 2 then (if p.isSome then pcItem p else pcItem (some held) &&& ~~~(1#64 <<< 63))
    else if i < 4 then held.lanes.setWidth 64
    else if i < 6 then tokenItem held.token
    else if i = 6 then BitVec.ofNat 64 (wp.timerAt s.clk % 2 ^ 32 * 2 ^ 32 + wp.rejoin.code)
    else if i = 7 then x.ejectControl w.slot
    else if i = 8 then
      let served := wp.stop.any (·.served) || x.tinker.serving.any fun e => e.note && decide (e.slot.toNat = w.slot) && s.eventHeld w.col e
      BitVec.ofNat 64 ((if wp.stop.isSome then 1 else 0) + (if wp.rejoin = .parked then 2 else 0) + (if served then 4 else 0) +
        256 * ((wp.stop.map (·.cause.code)).getD 0))
    else if 64 ≤ i ∧ i < 192 then word wp.stack.bytes (i - 64) else 0#64
  | 5 =>
    let g := x.group wp.entry
    if !wp.live ∨ i % 8 ≠ 0 ∨ g.extent ≤ i then 0#64
    else
      match g.stackWord i with
      | some (j, n) => (match x.slotAt wp.entry j with | some k => word (x.warp k).stack.bytes n | none => 0#64)
      | none => BitVec.ofNat 64 (natOfBytes (Memory.readBytes g.store i 8))
  | 6 =>
    if 512 ≤ i then 0#64
    else if i % 2 = 0 then (x.barrier (i / 2)).item else BitVec.ofNat 64 (x.barrier (i / 2)).offset
  | 7 =>
    let c := x.ctx (w.slot % 32)
    if 32 ≤ w.slot then 0#64
    else if i < 64 then (lane (Tab.get 0#1024 c.th.v i) c.lane).setWidth 64
    else if i < 80 then Tab.get 0#64 c.path.bank (i - 16)
    else if i = 80 then
      let ks := (List.range 7).foldl (fun n j => if (Tab.get 0#32 c.th.k (j + 1)).getLsbD c.lane then n + 2 ^ j else n) 0
      BitVec.ofNat 64 (c.path.c.toNat + 256 * ks)
    else if i = 81 then pcItem (if c.live then some c.path else none)
    else if i = 82 then tokenItem c.path.token
    else if i = 83 then BitVec.ofNat 64 (c.lane + 256 * c.slot)
    else if i = 84 then c.stack.epoch.setWidth 64
    else if 128 ≤ i ∧ i < 248 then word c.stack.bytes (i - 128) else 0#64
  | _ => 0#64

/-- The restart item of a warp's handle (R256, R283, R349): 1 restarts the FAULTED command behind it, 2 cancels it as HCANCEL does
without blocking. -/
def State.restartItem (s : State) (c slot h v : Nat) : State :=
  let x := s.col c
  let hd := Tab.get ({} : Handle) (x.warp slot).h h
  if v = 1 then
    match (if hd.st = .faulted ∧ hd.unit ≤ 2 then x.cmd hd.cmd else none) with
    | some k =>
      if hd.unit = 2 then s.restartThresher c k
      else
        let n := recSize k.kind.gathers
        s.restartCmd c k (Memory.readBytes (x.group k.entry).store k.offset n) k.offset k.coords k.bar
    | none => s
  else if v = 2 then
    let clear (s : State) : State := s.updCol c fun x =>
      let w := x.warp slot
      x.setWarp slot { w with h := Tab.store ({} : Handle) w.h h {} }
    if hd.st = .free ∨ hd.st = .done ∨ hd.unit = 3 then clear s else s.cancelCommand c hd.cmd
  else s

/-- Does a write to a warp slot's state take effect: is it stopped by a trap, or parked (R184)? -/
def Column.mayMend (x : Column) (n : Nat) : Bool := (x.warp n).live && ((x.warp n).stop.isSome || decide ((x.warp n).rejoin = .parked))

/-- Every pending fixed-latency write of an agent landed: it was issued before the agent stopped. -/
def State.landAll (s : State) (c : Nat) (who : Who) : State :=
  let t := s.threadOf c who
  (t.pend.foldl (fun s p => s.landWrite c who p.write) (s.setThreadOf c who { t with pend := [] }))

/-- A write to a stopped or parked warp's state (R349); read-only and undefined items drop it. -/
def State.mendWarp (s : State) (w : Window) (v : Dword) : State :=
  let c := w.col
  let n := w.slot
  let i := w.index
  let id := s.nextId
  let upd (f : Warp → Warp) : State := s.updCol c fun x => x.setWarp n (f (x.warp n))
  let path (b : Bool) (f : Path → Path) : State := upd fun k => k.setItem b (f (k.slotItem b))
  match w.space with
  | 0 => if i < 64 then s.landWrite c (.warp n false) (.v i (1#32 <<< w.lane) (splat (v.setWidth 32))) else s
  | 1 =>
    if i < 48 then s.landWrite c (.warp n false) (.s 0 i v)
    else if i < 64 then path false fun p => p.write (.s p.uid i v)
    else if i < 80 then path true fun p => p.write (.s p.uid (i - 16) v) else s
  | 2 =>
    if i < 2 then path (decide (i = 1)) fun p => { p with c := v.setWidth 8 }
    else if 8 < i ∧ i < 16 then s.landWrite c (.warp n false) (.k (i - 8) 0xFFFFFFFF#32 (v.setWidth 32)) else s
  | 3 => if 16 ≤ i ∧ i < 32 then s.restartItem c n (i - 16) v.toNat else s
  | 4 =>
    let b := decide (i % 2 = 1)
    if i < 2 then { upd fun k => k.setPc b id v with nextId := id + 1 }
    else if i < 4 then path b fun p => { p with lanes := v.setWidth 32 }
    else if i < 6 then path b fun p => { p with token := itemToken v }
    else if i = 6 then
      let timer := (v.extractLsb' 32 32).toNat
      let put (r : Rejoin) : State := upd fun k => { k with rejoin := r, timerFrom := (s.clk : Int) - timer, timer := timer }
      if v.extractLsb' 0 2 = 0#2 then put .running else if v.extractLsb' 0 2 = 1#2 then put .waiting
      else if v.extractLsb' 0 2 = 2#2 then put .parked else s
    else if i = 7 then (if ejectLegal v then upd fun k => k.setControl v else s)
    else if 64 ≤ i ∧ i < 192 then
      { upd fun k => { k with stack := k.stack.ofBytes id (setDword k.stack.bytes (i - 64) v) } with nextId := id + 5 }
    else s
  | 5 =>
    let x := s.col c
    let e := (x.warp n).entry
    let g := x.group e
    if i % 8 ≠ 0 ∨ g.extent ≤ i then s
    else
      match g.stackWord i with
      | some (j, m) =>
        match x.slotAt e j with
        | some k =>
          { s.updCol c fun x => x.setWarp k { x.warp k with stack := (x.warp k).stack.ofBytes id (setDword (x.warp k).stack.bytes m v) } with
            nextId := id + 5 }
        | none => s
      | none => s.updCol c fun x => x.setGroup e { x.group e with store := Memory.writeBytes (x.group e).store i (bytesOf 8 v.toNat) }
  | _ => s

/-- A write to a gleaner lane context's state. -/
def State.mendCtx (s : State) (w : Window) (v : Dword) : State :=
  let c := w.col
  let n := w.slot
  let i := w.index
  let id := s.nextId
  let upd (f : LaneCtx → LaneCtx) : State := s.updCol c fun x => x.setCtx n (f (x.ctx n))
  let k := (s.col c).ctx n
  if i < 64 then s.landWrite c (.lane n) (.v i (1#32 <<< k.lane) (splat (v.setWidth 32)))
  else if i < 80 then s.landWrite c (.lane n) (.s k.path.uid (i - 16) v)
  else if i = 80 then
    (List.range 7).foldl (fun s j =>
      s.landWrite c (.lane n) (.k (j + 1) (1#32 <<< k.lane) (if v.getLsbD (8 + j) then 0xFFFFFFFF#32 else 0#32)))
      (upd fun k => { k with path := { k.path with c := v.setWidth 8 } })
  else if i = 81 then upd fun k => { k with path := k.path.atItem v }
  else if i = 82 then upd fun k => { k with path := { k.path with token := itemToken v } }
  else if i = 84 then upd fun k => { k with stack := { k.stack with epoch := v.setWidth 16 } }
  else if 128 ≤ i ∧ i < 248 then
    { upd fun k => { k with stack := k.stack.ofBytes id (setDword k.stack.bytes (i - 128) v) } with nextId := id + 5 }
  else s

/-- A write to the debug window (R184): of a lane context, where it is itself stopped by a trap, or its warp is parked (R199, R201). -/
def State.windowWrite (s : State) (w : Window) (v : Dword) : State :=
  let x := s.col w.col
  if w.space = 7 then
    let k := x.ctx w.slot
    if w.slot < 32 ∧ k.live ∧ (k.stop.isSome ∨ (x.warp k.slot).rejoin = .parked) then (s.landAll w.col (.lane w.slot)).mendCtx w v else s
  else if x.mayMend w.slot then (s.landAll w.col (.warp w.slot false)).mendWarp w v
  else s

/-- WINR: it waits while a variable-latency write of the register is pending and has met no error (R46). -/
def execWinr (d a : BitVec 6) (s : State) :=
  accept .privileged s fun s =>
    let w := s.windowOf (s.sr a)
    let (who, regs) := (s.col w.col).windowRegs w
    if (s.threadOf w.col who).vpend.any fun v => v.error.isNone && v.regs.any fun r => regs.any r.meets then .next (s.holdAt .none)
    else
      let s := s.landDue w.col who
      s.scalarTo 2 d (s.windowRead w)

/-- WINW. -/
def execWinw (a b : BitVec 6) (s : State) :=
  accept .privileged s fun s => .next (s.windowWrite (s.windowOf (s.sr a)) (s.sr b))

/-- DEBUG_RESTART: a write of 1 to a restart item. -/
def execDebugRestart (c slot : Nat) (h : BitVec 4) (s : State) : Host.Outcome State Fault Refusal :=
  .next (if (s.col c).mayMend slot then s.restartItem c slot h.toNat 1 else s)
/-- DEBUG_CANCEL: a write of 2 to a restart item. -/
def execDebugCancel (c slot : Nat) (h : BitVec 4) (s : State) : Host.Outcome State Fault Refusal :=
  .next (if (s.col c).mayMend slot then s.restartItem c slot h.toNat 2 else s)

/-! ## ERET (R185, R348) -/

/-- Do a warp's lanes partition among its paths, its suspended frames, its ejected lanes and the lanes that wait at their JOINs, and
is every frame in use that is referenced (R348): by a link, by TOP, by a path's token, and by an ejected lane's token and
its own frames? Suspended frames below a
TOP of 0xFF belong to no path. -/
def Column.pathsOk (x : Column) (n : Nat) : Bool :=
  let w := x.warp n
  let fr := (List.range 5).map w.stack.frame
  let sets := (w.a.toList ++ w.b.toList).map (·.lanes) ++ [x.lanesOut n] ++ (fr.filter fun f => decide (f.kind = 2#8)).map (·.lanes) ++
    (fr.filter fun f => decide (f.kind = 1#8)).map (·.aux)
  let all := sets.foldl (fun m l => m ||| l) 0#32
  let linkOk (l : BitVec 8) : Bool := decide (l = 0xFF#8) || decide ((w.stack.frame l.toNat).kind = 1#8)
  let tokOk (t : Option Token) : Bool := t.all fun t => (w.stack.region t).isSome
  let top := w.stack.control.2.toNat
  let topOk := if top = 0xFF then w.stack.suspended.isEmpty else w.stack.suspended.contains top
  let laneOk (k : LaneCtx) : Bool :=
    tokOk (some k.home) && (k.path.token.all fun t => decide (t = k.home) || (k.stack.region t).isSome) &&
      (List.range 5).all fun f => decide ((k.stack.frame f).kind = 0#8) || decide ((k.stack.frame f).link = 0xFF#8) ||
        decide ((k.stack.frame (k.stack.frame f).link.toNat).kind = 1#8)
  decide (all = ~~~w.exited) && decide ((sets.map laneCount).foldl (· + ·) 0 = laneCount all) &&
    (fr.all fun f => decide (f.kind = 0#8) || linkOk f.link) && topOk && ((w.a.toList ++ w.b.toList).all fun p => tokOk p.token) &&
    (x.ctxsOut n).all fun i => laneOk (x.ctx i)

/-- A stopped path that runs again: at its word, or after its issue unit. -/
def Stop.resume (t : Stop) (after : Bool) (p : Path) : Path :=
  if after then { p with pkt := t.nextPkt, wpos := t.nextPos, fresh := decide (t.nextPos = 0) } else p

/-- The agent of a trap resumed. -/
def Column.resume (x : Column) (e : Event) (after : Bool) : Column :=
  if e.tier = 1 then
    let k := x.ctx e.ctx.toNat
    match k.stop with
    | some t => x.setCtx e.ctx.toNat { k with stop := none, path := t.resume after k.path }
    | none => x
  else
    let w := x.warp e.slot.toNat
    match w.stop with
    | some t =>
      let w := { w with stop := none }
      x.setWarp e.slot.toNat (if t.slotB then { w with b := w.b.map (t.resume after) } else { w with a := w.a.map (t.resume after) })
    | none => x

/-- The group that an event names ended because its resumed path state is broken, and its fault domain told (R337, R348). -/
def State.pathStateEnd (s : State) (c slot : Nat) : State :=
  let g := (s.col c).group ((s.col c).warp slot).entry
  let nd := s.node g.launch
  (s.report nd.eff.fdom { kind := 5, node := g.launch, group := g.gid, runtime := nd.runtime, ended := 1 }).killGroup g.launch g.gid

/-- An event's handling ended with an action. -/
def State.eret (s : State) (c action : Nat) (e : Event) : State :=
  if !s.eventHeld c e then s
  else
    let slot := e.slot.toNat
    let g := (s.col c).group ((s.col c).warp slot).entry
    if action = 2 then s.killGroup g.launch g.gid
    else if action = 3 then s.killLaunch g.launch
    else if e.note then s
    else
      let s := s.updCol c fun x => x.resume e (decide (action = 1))
      if (s.col c).pathsOk slot then s else s.pathStateEnd c slot

/-- ERET. The tinker is idle after it, until its next event; a factor core goes on at its saved PC. -/
def execEret (a : BitVec 6) (s : State) :=
  accept .privileged s fun s =>
    match s.cur.who with
    | .factor n =>
      let f := s.factor n
      .next { s with factors := Tab.put s.factors n { f with cause := 0
                                                             path := { f.path with pkt := f.saved.1, wpos := f.saved.2, fresh := decide (f.saved.2 = 0) } } }
    | _ =>
      let action := ((s.sr a).extractLsb' 0 2).toNat
      let c := s.cur.col
      let e := s.here.tinker.serving
      let s := s.updHere fun x => { x with tinker := { x.tinker with serving := none, path := { x.tinker.path with lanes := 0#32 } } }
      match e with
      | some e => .next (s.eret c action e)
      | none => .next s

/-! ## TLBI (R186, R356) -/

/-- The columns of a context. -/
def State.columnsOf (s : State) (ctx : Nat) : List Nat := (List.range 256).filter fun c => (s.node ctx).eff.cmask.getLsbD c

/-- TLB entries dropped: of a page of a context, or of the context whole. -/
def Column.dropTlb (x : Column) (ctx va : Nat) (whole : Bool) : Column :=
  let keep (e : TlbEntry) : Bool := decide (e.ctx ≠ ctx) || (!whole && !e.covers ctx va)
  { x with l1tlb := x.l1tlb.filter keep, l2tlb := x.l2tlb.filter keep }

/-- TLBI: every named column drops its entries; the agent waits until the accesses through them have been performed. -/
def execTlbi (a b : BitVec 6) (s : State) :=
  accept .privileged s fun s =>
    let ctl := s.sr b
    let ctx := (ctl.extractLsb' 16 16).toNat
    let va := ((s.sr a).extractLsb' 16 32).toNat * 65536
    let own := match s.cur.who with | .factor _ => [] | _ => [s.cur.col]
    let cols := if ctl.getLsbD 0 then s.columnsOf ctx else own
    let s := cols.foldl (fun s c => s.updCol c fun x => x.dropTlb ctx va (ctl.getLsbD 1)) s
    let s := s.updPath fun p => { p with wait := .tlbi }
    let t := some (cols, ctx, s.nextId)
    match s.cur.who with
    | .factor n => .next { s with factors := Tab.put s.factors n { s.factor n with tlbi := t } }
    | _ => .next (s.updHere fun x => { x with tinker := { x.tinker with tlbi := t } })

/-- Has a column performed every access of a context issued before an identifier was given out: its memory words, the deferred ones, and the
transactions whose sets hold addresses that it has translated? -/
def State.drained (s : State) (c ctx id : Nat) : Bool :=
  let x := s.col c
  let mine (w : Warp) : Bool := decide (s.regionOf (x.group w.entry).launch = ctx)
  !(x.mops.any fun m => decide (m.ctx = ctx) && decide (m.id < id)) &&
  !(x.warps.any fun w => w.2.deferred.any fun d => decide (d.op.ctx = ctx) && decide (d.op.id < id)) &&
  !(x.warps.any fun w => mine w.2 && w.2.tx.any fun t => decide (t.id < id))

/-- Is a saved group's deferred word, translated before an identifier was given out, still to be performed (R69, R342)? -/
def State.savedDeferred (s : State) (cols : List Nat) (ctx id : Nat) : Bool :=
  s.dist.nodes.any fun e => e.2.launch.groups.any fun g =>
    cols.contains (e.2.launch.map.getD g.2.gcol 0) && g.2.saved.any fun v => v.warps.any fun w =>
      w.deferred.any fun d => decide (d.op.ctx = ctx) && decide (d.op.id < id)

/-- Has every access of a context through the entries that a TLBI has dropped been performed (R69, R356): on the named columns, by their
saved groups, and by the engine transfers that read or write there, whichever column has issued them? -/
def State.tlbiDone (s : State) (cols : List Nat) (ctx id : Nat) : Bool :=
  (cols.all fun c => s.drained c ctx id) && !s.savedDeferred cols ctx id &&
    s.cols.all fun e => e.2.cmds.all fun k =>
      decide (k.ctx ≠ ctx) || decide (k.st ≠ .moving) || k.finished || k.atStop ||
        !(cols.contains e.1 || ((s.node k.launch).launch.memMap.any fun c => cols.contains c))

/-- TLBI_COMPLETE: a column's tinker, or, above 255, a factor core, learns that its TLBI is complete. -/
def execTlbiComplete (c : Nat) (s : State) : Host.Outcome State Fault Refusal :=
  let awake (p : Path) : Path := { p with wait := .none }
  if c < 256 then
    let t := (s.col c).tinker
    match t.tlbi with
    | some (cols, ctx, id) =>
      if s.tlbiDone cols ctx id then
        .next (s.updCol c fun x => { x with tinker := { x.tinker with tlbi := none, path := awake x.tinker.path } })
      else .next s
    | none => .next s
  else
    let f := s.factor (c - 256)
    match f.tlbi with
    | some (cols, ctx, id) =>
      if s.tlbiDone cols ctx id then
        .next { s with factors := Tab.put s.factors (c - 256) { f with tlbi := none, path := awake f.path } }
      else .next s
    | none => .next s

/-! ## The tinker's events (R345, R346, R348) -/

/-- The event record as four words, s0 first. -/
def Event.record (e : Event) : List Dword :=
  let w0 : BitVec 64 := BitVec.ofNat 8 e.cause.code ++ BitVec.ofBool e.note ++ BitVec.ofBool e.lost ++ e.path ++ e.ctx ++ e.slot ++ 0#9 ++ e.group
  let w1 : BitVec 64 := e.context ++ 0#14 ++ e.wpos ++ e.pc
  [w0, w1, e.info ++ e.lanes, e.detail]

/-- A warp or lane context marked as served. -/
def Column.markServed (x : Column) (e : Event) : Column :=
  let on (t : Stop) : Stop := { t with served := true }
  if e.note then x
  else if e.tier = 1 then
    let k := x.ctx e.ctx.toNat
    x.setCtx e.ctx.toNat { k with stop := k.stop.map on }
  else x.setWarp e.slot.toNat { x.warp e.slot.toNat with stop := (x.warp e.slot.toNat).stop.map on }

/-- TINKER_RESTART: a tinker that its own trap has stopped is restarted; the event that it was serving is served again first
(log 26, DESIGN CHOICE). -/
def execTinkerRestart (c : Nat) (s : State) : Host.Outcome State Fault Refusal :=
  let x := s.col c
  let t := x.tinker
  if t.stop.isNone then .next s
  else .next (s.setCol c { x with tinker := { t with stop := none, serving := none, queue := t.serving.toList ++ t.queue, path := { t.path with lanes := 0#32 } } })

end Sys2Proof.Machine
end

