-- ==== Sys2Proof/Machine/Fabric.lean ====
section
/-! DEFINITION. The Lineivas fabric: routers, ports, placement and deflection (R288 to R294), injection and quotas (R295), and the
engine messages RD, RDATA, WDATA, ACK and MGMT (R251, R290). -/

namespace Sys2Proof.Machine

/-! ## Routers and ports (R288) -/

/-- Coordinates of a router by its source id. -/
def routerX (r : Nat) : Nat := r % 16
def routerY (r : Nat) : Nat := r / 16 % 16
def routerZ (r : Nat) : Nat := r / 256

/-- The router behind a port: 0 N, 1 E, 2 S, 3 W, 4 V. -/
def neighbour (r p : Nat) : Option Nat :=
  match p with
  | 0 => if routerY r < 15 then some (r + 16) else none
  | 1 => if routerX r < 15 then some (r + 1) else none
  | 2 => if 0 < routerY r then some (r - 16) else none
  | 3 => if 0 < routerX r then some (r - 1) else none
  | 4 => some ((r + 256) % 512)
  | _ => none

/-- The productive ports towards a router, in the order X, Y, Z. -/
def productive (r d : Nat) : List Nat :=
  (if routerX r < routerX d then [1] else if routerX d < routerX r then [3] else []) ++
  (if routerY r < routerY d then [0] else if routerY d < routerY r then [2] else []) ++
  (if routerZ r = routerZ d then [] else [4])

/-- Has a router a port whose link is in use (R288, R358)? -/
def State.portUp (s : State) (r p : Nat) : Bool := (neighbour r p).isSome && !s.deadLinks.contains (r, p)

/-! ## Placement (R291) -/

/-- A flit's key: its age and its class's bonus. -/
def Flit.key (f : Flit) (bonus : List Nat) : Nat := min 1023 (f.age + bonus.getD f.tc 0)
/-- A flit's rank in a cycle. -/
def Flit.rank (f : Flit) (t : Nat) : Nat := (f.src + 512 - t % 512) % 512

/-- The placement of the flits present at one router: ejected, and leaving on ports. -/
structure Placed where
  ejected : List Flit := []
  left : List (Nat × Flit) := []
  stuck : List Flit := []
  deriving DecidableEq, Repr

/-- One flit placed after those before it. -/
def State.placeFlit (s : State) (r : Nat) (p : Placed) (f : Flit) : Placed :=
  let free (q : Nat) : Bool := s.portUp r q && !p.left.any fun e => decide (e.1 = q)
  if f.dst = r ∧ p.ejected.isEmpty then { p with ejected := [f] }
  else
    match (productive r f.dst ++ [0, 1, 2, 3, 4]).find? free with
    | some q => { p with left := p.left ++ [(q, f)] }
    | none => { p with stuck := p.stuck ++ [f] }

/-- A flit that leaves a router on a port: two cycles later it takes part at the next one, a hop older. -/
def Flit.hop (f : Flit) (r q clk : Nat) : Flit := { f with at_ := (neighbour r q).getD r, due := clk + 2, age := min 1023 (f.age + 1) }

/-- The flit that an interface injects: the first of its region and class in the backlog, with quota left and a productive port free
(R291, R295): the quota that its launch's own RCB may have lowered (R324), held against its region's count as the gate is. -/
def State.injected (s : State) (r : Nat) (n : Nif) (free : Nat → Bool) : Option (Nat × Flit) :=
  let ok (f : Flit) : Bool :=
    let q := s.quotaOf (if (s.node f.launch).kind = .launch then f.launch else f.region) (if r < 256 then f.tc else 4 + f.tc)
    decide (q = 0) || decide (n.countOf s.clk f.region f.tc < q)
  let heads := n.backlog.foldl (fun (acc : List Flit) f =>
    if acc.any fun g => decide (g.region = f.region) && decide (g.tc = f.tc) then acc else acc ++ [f]) []
  heads.findSome? fun f => if ok f then ((productive r f.dst).find? free).map fun q => (q, f) else none

/-- The list without the first element equal to one. -/
def dropFirst (l : List Flit) (f : Flit) : List Flit :=
  match l with
  | [] => []
  | x :: xs => if x = f then xs else x :: dropFirst xs f

/-- An interface after it has injected a flit. -/
def Nif.inject (n : Nif) (clk : Nat) (f : Flit) : Nif :=
  let counts := if n.window = clk / 1024 then n.counts else []
  { n with backlog := dropFirst n.backlog f, window := clk / 1024, counts := Tab.upd 0 counts (4 * f.region + f.tc) (· + 1) }

/-- One router's cycle: flits of TYPE 8 to 15 are dropped and counted, the others placed in order of key and rank, and one flit of the
local interface injected after them (R290, R291). -/
def State.routerStep (s : State) (r : Nat) : State :=
  let c := r % 256
  let here := s.flits.filter fun f => decide (f.at_ = r) && decide (f.due ≤ s.clk)
  let away := s.flits.filter fun f => !(decide (f.at_ = r) && decide (f.due ≤ s.clk))
  let bad := (here.filter fun f => decide (8 ≤ f.type)).length
  let bonus := (s.node 0).eff.bonus
  let before (a b : Flit) : Bool :=
    decide (b.key bonus < a.key bonus) || (decide (a.key bonus = b.key bonus) && decide (a.rank s.clk < b.rank s.clk))
  let p := (sortBy before (here.filter fun f => decide (f.type < 8))).foldl (s.placeFlit r) {}
  let x := s.col c
  let n := if r < 256 then x.nifCore else x.nifBay
  let inj := s.injected r n fun q => s.portUp r q && !p.left.any fun e => decide (e.1 = q)
  let n := match inj with | some (_, f) => n.inject s.clk f | none => n
  let moved := (p.left ++ inj.toList).map fun e => e.2.hop r e.1 s.clk
  let x := { x with ejected := x.ejected ++ p.ejected }
  let x := if r < 256 then { x with nifCore := n } else { x with nifBay := n }
  let x := if bad = 0 then x else { x with bay := { x.bay with counts := Tab.upd 0 x.bay.counts 55 (· + bad) } }
  let s := { s with flits := away ++ (p.stuck.map fun f => { f with due := s.clk + 1 }) ++ moved }
  if here.isEmpty ∧ inj.isNone then s else s.setCol c x

/-- The routers that have a flit to place or to inject. -/
def State.busyRouters (s : State) : List Nat :=
  ((s.flits.filter fun f => decide (f.due ≤ s.clk)).map (·.at_) ++
    s.cols.flatMap fun e => (if e.2.nifCore.backlog.isEmpty then [] else [e.1]) ++ (if e.2.nifBay.backlog.isEmpty then [] else [256 + e.1])).eraseDups

/-- INJECTION_WINDOW: a new window of 1,024 cycles begins, and the counts start again (R295). -/
def execInjectionWindow (s : State) : Host.Outcome State Fault Refusal :=
  let fresh (n : Nif) : Nif := if n.window = s.clk / 1024 then n else { n with window := s.clk / 1024, counts := [] }
  .next { s with cols := Tab.mapVals (fun _ (x : Column) => { x with nifCore := fresh x.nifCore, nifBay := fresh x.nifBay }) s.cols }

/-! ## Messages at a column -/

/-- The first flit that has been ejected at a column and satisfies a test, and the column without it. -/
def Column.takeFlit (x : Column) (f : Flit → Bool) : Option (Flit × Column) :=
  (x.ejected.find? f).map fun g => (g, { x with ejected := dropFirst x.ejected g })

/-- Has a column's bay room for the answers to a flit: its interface's backlog, or its own column (R295)? -/
def Column.replyRoom (x : Column) (c n : Nat) (f : Flit) : Bool := decide (f.src % 256 = c) || decide (x.nifBay.backlog.length + n ≤ 512)

/-- A flit sent by a column's bay: to another column through the fabric, to its own core at once. -/
def Column.sendBay (x : Column) (c : Nat) (f : Flit) : Column :=
  let f := { f with src := bayRouter c, at_ := bayRouter c }
  if f.dst % 256 = c then { x with ejected := x.ejected ++ [f] }
  else { x with nifBay := { x.nifBay with backlog := x.nifBay.backlog ++ [f] } }

/-- A flit sent by a column's core: to another column through the fabric, to its own bay at once (R300). -/
def Column.sendCore (x : Column) (c : Nat) (f : Flit) : Column :=
  let f := { f with src := c, at_ := c }
  if f.dst % 256 = c then { x with ejected := x.ejected ++ [f] }
  else { x with nifCore := { x.nifCore with backlog := x.nifCore.backlog ++ [f] } }

/-- The half of a message that has come before: of the same type, source and MID, at another place (R289, R293). -/
def Column.mateOf (x : Column) (f : Flit) : Option Flit :=
  x.parts.find? fun g => decide (g.type = f.type) && decide (g.src = f.src) && decide (g.mid = f.mid) && decide (g.seq ≠ f.seq)

/-- The message that an answer's MID names given up, and its command, unless that has gone (R289). -/
def Column.answered (x : Column) (f : Flit) : Option (EngineMsg × Command) × Column :=
  match Tab.find? x.msgs f.mid with
  | none => (none, x)
  | some m => ((if m.cmd = 0 then none else x.cmd m.cmd).map fun k => (m, k), { x with msgs := Tab.erase x.msgs f.mid })

/-- A message of this bay's engines refused (R290, R312): it goes again after its hint's time. -/
def Column.nacked (x : Column) (f : Flit) (clk : Nat) : Column :=
  match Tab.find? x.msgs f.mid with
  | none => x
  | some m => { x with msgs := Tab.put x.msgs f.mid { m with again := some (clk + 8 * f.hint) } }

/-- RDATA: half of a line that an engine has asked for; with its other half the line's four sectors stand at the command. -/
def execRdata (c : Nat) (s : State) : Host.Outcome State Fault Refusal :=
  match (s.col c).takeFlit fun f => decide (f.type = 1) with
  | none => .next s
  | some (f, x) =>
    match x.mateOf f with
    | none => .next (s.setCol c { x with parts := x.parts ++ [f] })
    | some g =>
      let bytes := if f.seq = 0 then f.payload ++ g.payload else g.payload ++ f.payload
      match ({ x with parts := dropFirst x.parts g } : Column).answered f with
      | (some (m, k), x) =>
        let got := (List.range 4).map fun i => (m.col, 4 * m.line + i, if bitOf f.hint i then [] else (bytes.drop (32 * i)).take 32)
        .next (s.setCol c (x.setCmd { k with waiting := k.waiting.filter (· ≠ (m.col, m.line)), fetched := k.fetched ++ got }))
      | (none, x) => .next (s.setCol c x)

/-- MGMT: debug-window, containment and distributor traffic reaches its target. The spec gives no message of it: what it would ask for is done
by the step that asks, and no step of the model sends one (log 108, DESIGN CHOICE). -/
def execMgmt (c : Nat) (s : State) : Host.Outcome State Fault Refusal :=
  match (s.col c).takeFlit fun f => decide (f.type = 7) with
  | none => .next s
  | some (_, x) => .next (s.setCol c x)

end Sys2Proof.Machine
end

