-- ==== Sys2Proof/Machine/Slices.lean ====
section
/-! DEFINITION. The slices at work: a request's admission, its fill, its strand and its service (R308 to R312, R316, R319), for the memory
words of the column, the lines that its L1s write back, and the messages of its own and of other bays' engines (R251, R290, R310). -/

namespace Sys2Proof.Machine

/-! ## Engine messages as requests (R251, R310) -/

/-- Is a request a message of another bay's engine? -/
def Req.foreign (r : Req) : Bool := r.eng.isSome && decide (r.cmd = 0)

/-- A message of another bay's engine presented to its slice, the first time, or again after a refusal (R312). -/
def Column.present (x : Column) (clk : Nat) (f : Flit) : Column :=
  match x.bay.reqs.find? fun r => r.held && r.foreign && r.eng.any fun g => decide (g.type = f.type) && decide (g.src = f.src) && decide (g.mid = f.mid) with
  | some r => x.updBay (·.setReq { r with held := false, due := clk })
  | none => x.updBay (·.post (x.engineReq f 0 15#4 clk))

/-- RD: an engine's read request presented at this bay. -/
def execRd (c : Nat) (s : State) : Host.Outcome State Fault Refusal :=
  match (s.col c).takeFlit fun f => decide (f.type = 0) with
  | none => .next s
  | some (f, x) => .next (s.setCol c (x.present s.clk f))

/-- WDATA: a flit of an engine's writes to a line; once every flit of the message has come it is presented at this bay (R33, R251, R289). -/
def execWdata (c : Nat) (s : State) : Host.Outcome State Fault Refusal :=
  match (s.col c).takeFlit fun f => decide (f.type = 2) with
  | none => .next s
  | some (f, x) =>
    let mine (g : Flit) : Bool := decide (g.type = 2) && decide (g.src = f.src) && decide (g.mid = f.mid)
    let all := x.parts.filter mine ++ [f]
    if all.length < f.count then .next (s.setCol c { x with parts := x.parts ++ [f] })
    else
      let ops := joinWrites ((sortBy (fun a b : Flit => decide (a.seq < b.seq)) all).flatMap (·.ops))
      .next (s.setCol c (({ x with parts := x.parts.filter fun g => !mine g } : Column).present s.clk { f with ops := ops }))

/-- A bay's answer to a message of another bay's engine. -/
def Flit.answer (f : Flit) (type : Nat) : Flit :=
  { type := type, dst := f.src, src := 0, tc := 0, mid := f.mid, tag := f.tag, region := f.region, launch := f.launch, addr := f.addr, ctx := f.ctx }

/-- The four sectors of a line as an engine reads them at a bay; no bytes for an uncorrectable error. -/
def Column.readLine (x : Column) (free ctx line : Nat) : List (List Byte) × Column :=
  (List.range 4).foldl (fun (acc : List (List Byte) × Column) i =>
    let (b, y) := acc.2.fetchSector free ctx (4 * line + i)
    (acc.1 ++ [b], y)) ([], x)

/-- An engine's message served at this bay (R251, R290): a read's sectors stand at the command, or its line goes back in two flits with a mark
for each sector that an uncorrectable error has met (R164); a write is performed and acknowledged (R33). -/
def Column.serveEngine (x : Column) (free c : Nat) (r : Req) (f : Flit) : Column :=
  if f.type = 0 then
    let (secs, y) := x.readLine free f.ctx r.line
    match x.cmd r.cmd with
    | some k =>
      let w := c + 256 * f.win
      let got := (List.range 4).filterMap fun i => if r.sectors.getLsbD i then some (w, 4 * r.line + i, secs.getD i []) else none
      y.setCmd { k with waiting := k.waiting.filter (· ≠ (w, r.line)), fetched := k.fetched ++ got }
    | none =>
      if r.cmd ≠ 0 then y
      else
        let bad := ((secs.zip (List.range 4)).map fun e => if e.1.isEmpty then 2 ^ e.2 else 0).foldl (· + ·) 0
        let bytes := secs.flatMap fun b => if b.isEmpty then List.replicate 32 0#8 else b
        let y := if 4 ≤ f.hint then y.lastUse 9 r.line else y
        let back (i : Nat) : Flit := { f.answer 1 with seq := i, hint := bad, count := 2, payload := (bytes.drop (64 * i)).take 64 }
        (y.sendBay c (back 0)).sendBay c (back 1)
  else
    let y := x.bayWrites free f.ctx r.ep f.ops
    match y.cmd r.cmd with
    | some k => y.setCmd { k with unacked := k.unacked - 1 }
    | none => if r.cmd ≠ 0 then y else y.sendBay c (f.answer 3)

/-! ## Admission, the strand and service -/

/-- Cycles that a request's data keeps its strand (R21, R319): both slices of a strand send at most one line every 8 cycles, and a
written sector takes 2 beats. -/
def beatsOf (up : Bool) (sectors : BitVec 4) : Nat := if up then 2 * ((List.range 4).filter fun i => sectors.getLsbD i).length else 8

/-- Does a request's data cross a strand: the core's, the gleaners' and the thresher's do, and those of the engines, which stand at the bay,
do not (R21, R288)? -/
def Column.usesStrand (x : Column) (r : Req) : Bool := r.eng.isNone || (x.cmd r.cmd).any fun k => decide (k.kind = .mstr)

/-- Does a request that writes at the bay return data to the core as well: an ATOM's old values (R154)? -/
def Column.returnsData (x : Column) (r : Req) : Bool :=
  r.put.isNone && (x.mopOf r).any fun m => match m.kind with | .atom _ => true | _ => false

/-- A request whose line stands in its slice (a transaction's accesses and what settling a line moves are no requests: log 137): its data begins to cross its strand as soon as that is free; it keeps its slot until the data
has crossed, or, of a write, until all its beats stand there; an ATOM's old values then cross the other way (R319). -/
def State.send (s : State) (c : Nat) (r : Req) : State :=
  let x := s.col c
  let b := x.bay
  let strand := b.sliceFor r / 2
  let up := x.writesBay r
  let r := { r with admitted := true, stands := true }
  if x.usesStrand r = false then s.setCol c { x with bay := b.setReq { r with till := s.clk + 1 } }
  else if s.clk < Tab.get 0 (if up then b.strandIn else b.strandOut) strand then s.setCol c { x with bay := b.setReq r }
  else
    let till := s.clk + max 1 (beatsOf up r.sectors)
    let b := if up then { b with strandIn := Tab.put b.strandIn strand till } else { b with strandOut := Tab.put b.strandOut strand till }
    let back := max till (Tab.get 0 b.strandOut strand) + beatsOf false r.sectors
    if up ∧ x.returnsData r = true then
      s.setCol c { x with bay := { b with strandOut := Tab.put b.strandOut strand back }.setReq { r with till := back } }
    else s.setCol c { x with bay := b.setReq { r with till := till } }

/-- The HBM line behind a line, whose row a fill opens: of a window line, a line of its backing. -/
def Column.hbmLine (x : Column) (region line : Nat) : Nat :=
  match x.bay.kindOf region (128 * line) with
  | .aliased n => (x.backOf n line).headD line
  | _ => line

/-- An admitted request looked up: it stands on a hit; else it waits for its line, whose fill is asked of the channel, or of the host link
for the host tier, unless the line is in flight already (R310 to R312, R316). -/
def State.lookup (s : State) (c : Nat) (r : Req) : State :=
  let x := s.col c
  let b := x.bay
  let sl := b.sliceFor r
  let r := { r with admitted := true, stands := false, till := 0 }
  let hit := b.hits r.region r.line r.sectors
  let waits (b : Bay) : State := s.setCol c { x with bay := b.setReq r }
  match b.kindOf r.region (128 * r.line) with
  | .carve => s.send c r
  | .hole => s.send c r
  | .host =>
    if b.hostOut.any (fun h => decide (h.1 = r.line) && !h.2.1) then waits b
    else if hit then (s.setCol c { x with bay := b.touch r.region r.line r.sectors false r.ep }).send c r
    else waits { b with hostOut := b.hostOut ++ [(r.line, false, r.region)] }
  | _ =>
    if (b.landing s.clk sl r.region r.line).isSome then waits b
    else if hit then (s.setCol c { x with bay := b.touch r.region r.line r.sectors false r.ep }).send c r
    else
      let (d, b) := b.openRow (x.hbmLine r.region r.line)
      waits { b with flights := b.flights ++ [{ slice := sl, line := r.line, lands := s.clk + d }] }

/-- A request admitted (R310, R313): counted, and, where it misses and its region may allocate in no way of the slice, as an access served uncached;
its slice accepts no other in this cycle (R308). -/
def State.admitReq (s : State) (c : Nat) (r : Req) : State :=
  let x := s.col c
  let b := x.bay
  let sl := b.sliceFor r
  let n := b.occupied sl + (if r.slotKept then 0 else 1)
  let b := (b.bump r.region (32 + sl) 1).setSlice sl { b.slice sl with peak := max (b.slice sl).peak n, next := s.clk + 1 }
  let far := decide (0x200000000 ≤ 128 * r.line) && decide (128 * r.line < 0x300000000)
  let b :=
    if r.put.isNone ∧ far = false ∧ (b.allowedWays r.region sl).isEmpty ∧ b.hits r.region r.line r.sectors = false then b.bump r.region 50 1 else b
  let r := { r with reserved := false, slotKept := false, refused := 0 }
  (s.setCol c { x with bay := b.setReq r }).lookup c r

/-- A request served (R310, R319): its sectors brought to its L1, where its word goes on; or its part performed at the bay, with its last-use;
or a line that an L1 has written back merged; or an engine's message answered. Its slot is freed. -/
def State.serve (s : State) (c : Nat) (r : Req) : State :=
  let x := s.col c
  let wr := x.writesBay r
  let m := x.mopOf r
  let x := x.updBay (·.removeReq r)
  let x := if wr then x.updBay fun b => b.touch r.region r.line r.sectors true r.ep else x
  match r.put, r.eng, m with
  | some l, _, _ =>
    match x.bay.kindOf r.region (128 * r.line) with
    | .hole => s.setCol c x
    | .aliased _ => s.setCol c x
    | _ => s.setCol c (x.landPut s.free r.cache l)
  | none, some f, _ => s.setCol c (x.serveEngine s.free c r f)
  | none, none, none => s.setCol c x
  | none, none, some m =>
    if x.bypasses m r.line then
      let r' := x.performBay s.free m r.line
      (s.setCol c (if m.lu then r'.1.lastUse m.cache r.line else r'.1)).afterPart c r'.2
    else
      let v := match m.kind with | .store => 2 | _ => rdValue r.rd
      let x := (x.recallU s.free r.line).fillL1 s.free r.cache r.line (r.sectors &&& ~~~x.badOf r.line) v r.ep r.region
      s.setCol c (x.updBay fun b => { b with reqs := b.reqs ++ [{ r with sectors := 0#4, atL1 := true, admitted := false, stands := false, till := 0 }] })

/-- A request that its slice has refused (R312): its timer is set, or a NACK sent to the bay whose engine asks (R290). -/
def Column.refused (x : Column) (c clk hint : Nat) (r : Req) : Column :=
  let x := x.updBay fun b => b.refuse clk hint r
  match r.eng with
  | some f => if r.cmd = 0 then x.sendBay c { f.answer 4 with hint := hint, payload := bytesOf 1 hint } else x
  | none => x

/-- Has the bay's interface room for the answers to a request (R295)? -/
def Column.answerRoom (x : Column) (c n : Nat) (r : Req) : Bool := !r.foreign || r.eng.all (x.replyRoom c n)

/-- A request at its slice: refused, or admitted when its turn has come (R308, R310, R312); one that stands there is sent when its
strand is free, and served once its data has crossed, unless an engine command owns its line by then (R242, R319). One at its L1 goes on there
as soon as it can (R54, R85). -/
def State.sliceRequest (s : State) (c rid : Nat) : State :=
  let x := s.col c
  match x.bay.reqs.find? fun r => decide (r.id = rid) with
  | none => s
  | some r =>
    if r.atL1 then
      match x.mopOf r with
      | none => s.updCol c fun x => x.updBay (·.removeReq r)
      | some m =>
        if s.clk < r.due ∨ x.l1Waits m r.line r.missed = true then s
        else (s.updCol c fun x => x.updBay (·.removeReq r)).atL1 c m r.line r.due r.missed
    else if r.stands then
      if (r.eng.isNone ∧ x.claimed r.region r.line) ∨ x.answerRoom c 2 r = false then s
      else if r.till = 0 then s.send c r
      else if s.clk < r.till then s
      else if x.bay.kindOf r.region (128 * r.line) = .host ∧ ¬ x.bay.hits r.region r.line r.sectors ∧
          ¬ (x.bay.allowedWays r.region (x.bay.sliceFor r)).isEmpty then s.lookup c r
      else s.serve c r
    else if !x.requestReady s.clk r then s
    else
      match x.bay.refusal s.clk r with
      | some hint => if x.answerRoom c 1 r then s.setCol c (x.refused c s.clk hint r) else s
      | none =>
        if s.clk < (x.bay.slice (x.bay.sliceFor r)).next then s
        else
          match x.admitFrom s.clk (x.bay.sliceFor r) with
          | some (id, b) => if id = r.id then (s.setCol c { x with bay := b }).admitReq c r else s
          | none => s

/-- Lines of a column's share read from HBM (R358): an error that clears on the retry is counted, one that lasts leaves its sector marked
(R164). -/
def State.readHbm (s : State) (c : Nat) (read : Nat → Bool) : State :=
  let met := (s.col c).weak.filter fun e => read (e.1 / 4)
  if met.isEmpty then s
  else
    let s := s.updCol c fun x =>
      { x with
        weak := x.weak.filter fun e => !read (e.1 / 4)
        badSectors := (x.badSectors ++ (met.filter (·.2)).map Prod.fst).eraseDups }
    { s with host := { s.host with corrected := s.host.corrected + (met.filter fun e => !e.2).length } }

/-- The HBM lines that a fill of a line reads: of a window line, those of its backing (R218). -/
def Column.sourceLines (x : Column) (region line : Nat) : List Nat :=
  match x.bay.kindOf region (128 * line) with
  | .aliased n => x.backOf n line
  | _ => [line]

/-- A line landed (R309, R316), on a channel that is trained (R365): a fill stands in its slice, with the requests that wait for it there; after a write-back they look it up
again. -/
def State.hbmFill (s : State) (c line : Nat) : State :=
  let x := s.col c
  match (if s.host.untrained.getLsbD c then none else x.bay.flights.find? fun f => decide (f.line = line) && decide (f.lands ≤ s.clk)) with
  | none => s
  | some f =>
    let rs := x.bay.reqs.filter fun r => r.admitted && !r.stands && decide (r.line = line) && decide (x.bay.sliceFor r = f.slice)
    let lines := (rs.flatMap fun r => x.sourceLines r.region line) ++ [line]
    let s := if f.wb then s else s.readHbm c lines.contains
    let x := s.col c
    let b := { x.bay with flights := x.bay.flights.filter fun g => !(decide (g.line = line) && decide (g.slice = f.slice)) }
    if f.wb then rs.foldl (fun s r => s.lookup c r) (s.setCol c { x with bay := b.closeRows })
    else
      let b := rs.foldl (fun (b : Bay) r => b.touch r.region line r.sectors false r.ep) b
      rs.foldl (fun s r => s.send c r) (s.setCol c { x with bay := b.closeRows })

/-- A refused request's timer expired (R142): it is sent again, counted for the launch whose word it is (R181 counter 3). A message of another
bay's engine comes again by itself. -/
def State.nackRetry (s : State) (c rid : Nat) : State :=
  let x := s.col c
  match x.bay.reqs.find? fun r => decide (r.id = rid) with
  | none => s
  | some r =>
    if r.held ∧ r.foreign = false ∧ r.due ≤ s.clk then
      let x := x.updBay fun b => b.setReq { r with held := false }
      let n := x.slotOf r.who
      s.setCol c (if n < 64 then x.count (x.group (x.warp n).entry).launch 3 else x)
    else s

/-- The refused messages of a bay's engines whose timers have expired handed to its interface again, as its backlog has room (R142, R295). -/
def Column.resendEngine (x : Column) (clk : Nat) : Column :=
  (x.msgs.filter fun e => e.2.again.any (· ≤ clk)).foldl (fun x e =>
    if 512 < x.nifBay.backlog.length + e.2.flits.length then x
    else { x with msgs := Tab.put x.msgs e.1 { e.2 with again := none }, nifBay := { x.nifBay with backlog := x.nifBay.backlog ++ e.2.flits } }) x

/-- What a column's bay does as a cycle begins: lines land, timers expire, dirty lines go to the channel, refused messages of the engines
go again, and every request moves on as far
as it can (R308, R312, R316, R319). -/
def State.advanceBay (s : State) (c : Nat) : State :=
  let s := (s.col c).bay.flights.foldl (fun s f => s.hbmFill c f.line) s
  let s := s.updCol c fun x => (x.updBay (·.startWrites s.clk)).resendEngine s.clk
  (s.col c).bay.reqs.foldl (fun s r => (s.nackRetry c r.id).sliceRequest c r.id) s

/-! ## The steps -/

/-- NACK_RETRY. -/
def execNackRetry (c rid : Nat) (s : State) : Host.Outcome State Fault Refusal := .next (s.nackRetry c rid)
/-- SLICE_REQUEST. -/
def execSliceRequest (c rid : Nat) (s : State) : Host.Outcome State Fault Refusal := .next (s.sliceRequest c rid)
/-- HBM_FILL. -/
def execHbmFill (c line : Nat) (s : State) : Host.Outcome State Fault Refusal := .next (s.hbmFill c line)

end Sys2Proof.Machine
end

