-- ==== Sys2Proof/Machine/BayEvents.lean ====
section
/-! DEFINITION. The bay's registers (R216, R217, R309, R311, R314, R315), the host link (R311), migration (R357), errors and the
retirement of strands and links (R358, R359, R317), and containment (R360, R361). -/

namespace Sys2Proof.Machine

/-! ## Register writes (R309) -/

/-- A refused write of a bay register: ERR in BAY_STAT, and nothing else. -/
def Bay.refuseWrite (b : Bay) : Bay := { b with stat := b.stat ||| (1#64 <<< 18) }

/-- Bits of a register replaced. -/
def setField (r : BitVec 64) (hi lo v : Nat) : BitVec 64 :=
  let m := BitVec.ofNat 64 ((2 ^ (hi + 1 - lo) - 1) * 2 ^ lo)
  (r &&& ~~~m) ||| (BitVec.ofNat 64 (v % 2 ^ (hi + 1 - lo) * 2 ^ lo))

/-- Is every bit of a value outside some fields zero? The fields are given as high and low bits. -/
def onlyFields (v : BitVec 64) (fs : List (Nat × Nat)) : Bool :=
  (List.range 64).all fun i => !v.getLsbD i || fs.any fun f => decide (f.2 ≤ i) && decide (i ≤ f.1)

/-- Some ways of some slices given up: their dirty lines on their way to HBM or the host link, and nothing held there. -/
def Bay.flushWays (b : Bay) (sls : List Nat) (ways : Nat → Bool) : Bay :=
  sls.foldl (fun b sl => ((b.slice sl).lines.filter fun e => ways e.1).foldl (fun b e => b.evictWay sl e.1) b) b

/-- Every cached line of some slices written back and invalidated. -/
def Bay.flushSlices (b : Bay) (sls : List Nat) : Bay := b.flushWays sls fun _ => true

/-- May the column change its mode (R314): no group resident, no engine command in flight, and no other switch in progress? -/
def Column.modeFree (x : Column) : Bool := !(x.groups.any fun e => e.2.live) && x.cmds.isEmpty && x.bay.modeTo.isNone

/-- A mode switch carried on (R314): lines that have come meanwhile are written back and invalidated too, and once everything has reached its
place the mode is applied and FLUSHING cleared. -/
def Bay.settleMode (b : Bay) : Bay :=
  match b.modeTo with
  | none => b
  | some m =>
    let b := b.flushSlices (List.range 16)
    if b.writeQ.isEmpty ∧ b.flights.isEmpty ∧ ¬ b.hostOut.any (fun h => h.2.1) then
      { b with ctl := setField b.ctl 1 0 m, stat := b.stat &&& ~~~(1#64 <<< 16), modeTo := none }
    else b

/-- A mode switch begun (R314): FLUSHING is set while every dirty line is on its way. -/
def Bay.startMode (b : Bay) (mode : Nat) : Bay := ({ b with stat := b.stat ||| (1#64 <<< 16), modeTo := some mode } : Bay).settleMode

/-- A MODE write (R314): refused where it may not be made. -/
def Column.writeMode (x : Column) (mode : Nat) : Column :=
  if mode = 3 ∨ ¬ x.modeFree then x.updBay (·.refuseWrite) else x.updBay (·.startMode mode)

/-- The switches of a column as a cycle begins: the one in progress goes on, and the mode that a service region asks for is applied as soon
as it may be (R314, R322). -/
def Column.settleMode (x : Column) : Column :=
  let x := x.updBay (·.settleMode)
  match x.bay.modeWant with
  | none => x
  | some m =>
    if m = regField x.bay.ctl 1 0 then x.updBay fun b => { b with modeWant := none }
    else if x.modeFree then x.updBay fun b => ({ b with modeWant := none } : Bay).startMode m
    else x

/-- BAY_MODE_SWITCH. -/
def execBayModeSwitch (c : Nat) (mode : BitVec 2) (s : State) : Host.Outcome State Fault Refusal :=
  .next (s.updCol c fun x => x.writeMode mode.toNat)

/-- The L1 copies of an address range dropped, and what has been sent of them. -/
def Column.dropCopies (x : Column) (lo hi : Nat) : Column :=
  let within (line : Nat) : Bool := decide (lo ≤ 128 * line) && decide (128 * line < hi)
  let x := { x with l1 := x.l1.filter fun e => !within e.2.line }
  (x.bay.reqs.filter fun q => q.put.isSome && within q.line).foldl (fun x q => x.updBay (·.removeReq q)) x

/-- Home bytes of an address range dropped: they read as nothing written. -/
def Column.clearRange (x : Column) (lo hi : Nat) : Column :=
  { x with
    mem := x.mem.filter fun e => !(decide (lo ≤ e.1) && decide (e.1 < hi))
    undefined := Tab.keep (fun l _ => !(decide (lo ≤ 128 * l) && decide (128 * l < hi))) x.undefined
    badSectors := x.badSectors.filter fun q => !(decide (lo ≤ 32 * q) && decide (32 * q < hi)) }

/-- A CARVE write (R315): above 16 ways, or while a change is in progress, refused; a growth begins, and a shrink takes effect at
once, its discarded bytes lost. -/
def Column.writeCarve (x : Column) (ways : Nat) : Column :=
  let b := x.bay
  let cur := regField b.ctl 36 32
  if 16 < ways ∨ b.stat.getLsbD 17 then x.updBay (·.refuseWrite)
  else if cur < ways then
    x.updBay fun b => { b with ctl := setField b.ctl 20 16 ways, stat := b.stat ||| (1#64 <<< 17), carveTo := ways }
  else
    let x := x.updBay fun b => { b with ctl := setField (setField b.ctl 20 16 ways) 36 32 ways }
    (x.clearRange (0x200000000 + x.bay.carveSize) 0x300000000).dropCopies (0x200000000 + x.bay.carveSize) 0x300000000

/-- CARVE_CHANGE. -/
def execCarveChange (c ways : Nat) (s : State) : Host.Outcome State Fault Refusal := .next (s.updCol c fun x => x.writeCarve ways)

/-- CARVE_GROW_DONE: the added ways' dirty lines are written back; once they have reached HBM the new bytes are zero, CARVE_CUR rises, CARVING
is clear, and the factor complex receives its completion event (R315). -/
def execCarveGrowDone (c : Nat) (s : State) : Host.Outcome State Fault Refusal :=
  let x := s.col c
  if !x.bay.stat.getLsbD 17 then .next s
  else
    let b := x.bay.flushWays (List.range 16) fun k => decide (16 ≤ k % 16 + x.bay.carveTo)
    if !b.writeQ.isEmpty ∨ b.flights.any (·.wb) then .next (s.setCol c { x with bay := b })
    else
      let old := b.carveSize
      let b := { b with ctl := setField b.ctl 36 32 b.carveTo, stat := b.stat &&& ~~~(1#64 <<< 17), carveTo := 0 }
      .next { s.setCol c (({ x with bay := b } : Column).clearRange (0x200000000 + old) 0x300000000) with
              host := { s.host with carved := s.host.carved ++ [c] } }

/-- A write of BAY_CTL: its fields are judged together. -/
def Column.writeCtl (x : Column) (v : BitVec 64) : Column :=
  let b := x.bay
  let mode := regField v 1 0
  let carve := regField v 20 16
  let moves := decide (mode ≠ regField b.ctl 1 0)
  let carves := decide (carve ≠ regField b.ctl 20 16)
  if !onlyFields v [(36, 32), (20, 16), (8, 8), (4, 4), (1, 0)] || decide (mode = 3) || (moves && !x.modeFree) ||
      (carves && (decide (16 < carve) || b.stat.getLsbD 17)) then x.updBay (·.refuseWrite)
  else
    let x := x.updBay fun b => { b with ctl := setField (setField b.ctl 8 8 (regField v 8 8)) 4 4 (regField v 4 4) }
    let x := if moves then x.writeMode mode else x
    if carves then x.writeCarve carve else x

/-- Does a host-tier line of a region entry stand in the bay, or at its host link? -/
def Bay.hostLines (b : Bay) (n : Nat) : Bool :=
  (b.slices.any fun e => e.2.lines.any fun t => hostLine t.2.line && decide (b.entryOf t.2.region = n)) ||
    b.hostOut.any fun h => decide (b.entryOf h.2.2 = n)

/-- A write of BAY_RGN_HTn (R311): refused with a reserved bit set, or while a host-tier line of the region stands in the bay. -/
def Bay.writeHt (b : Bay) (n : Nat) (v : BitVec 64) : Bay :=
  let e := b.entry n
  if 16 ≤ n ∨ !onlyFields v [(63, 32), (0, 0)] = true ∨ (v ≠ e.ht ∧ b.hostLines n = true) then b.refuseWrite
  else { b with rgn := Tab.put b.rgn n { e with ht := v } }

/-- BAY_RGN_HT_WRITE. -/
def execBayRgnHtWrite (c n : Nat) (v : BitVec 64) (s : State) : Host.Outcome State Fault Refusal :=
  .next (s.updCol c fun x => x.updBay fun b => b.writeHt n v)

/-- The way masks of a region entry as last written. -/
def RgnEntry.ways (e : RgnEntry) : List (BitVec 64) := (e.next.map Prod.snd).getD e.way
/-- The weight of a region entry as last written. -/
def RgnEntry.weight (e : RgnEntry) : Nat := (e.next.map Prod.fst).getD (regField e.ctl 3 0)

/-- A region entry written: its weight and its masks take effect from the next cycle (R310). -/
def Bay.putRgn (b : Bay) (n : Nat) (ctl : BitVec 64) (weight : Nat) (ways : List (BitVec 64)) : Bay :=
  { b with rgn := Tab.put b.rgn n { b.entry n with ctl := ctl, next := some (weight, ways) } }

/-- A write of BAY_RGN_WAYn_k (R310). -/
def Bay.writeWay (b : Bay) (n k : Nat) (v : BitVec 64) : Bay := b.putRgn n (b.entry n).ctl (b.entry n).weight ((b.entry n).ways.set k v)

/-- A write of BAY_RGN_CTLn (R309). -/
def Bay.writeRgnCtl (b : Bay) (n : Nat) (v : BitVec 64) : Bay :=
  if !onlyFields v [(63, 63), (31, 16), (9, 8), (3, 0)] || decide (regField v 3 0 = 0) ||
      (decide (regField b.ctl 1 0 = 1) && v.getLsbD 9) then b.refuseWrite
  else b.putRgn n (setField v 3 0 (regField (b.entry n).ctl 3 0)) (regField v 3 0) (b.entry n).ways

/-! ## Alias ranges (R216, R217) -/

/-- The register of an alias range. -/
def Bay.aliasReg (b : Bay) (n : Nat) (back : Bool) : BitVec 64 := Tab.get 0#64 (if back then b.aliasBack else b.aliasWin) n

/-- The window span and the backing span of a range, given its registers: start and end of each. A range of
SIZE units has SIZE * 8 backing tiles of its format. -/
def aliasSpans (win back : BitVec 64) : (Nat × Nat) × (Nat × Nat) :=
  let base := regField win 31 16 * 65536
  let size := regField win 47 32 * 65536
  let fmt := regField back 55 52
  let addr := regField back 33 7 * 128
  ((base, base + size), (addr, addr + regField win 47 32 * 8 * mxTile fmt))

/-- Do two spans overlap? -/
def spansMeet (a b : Nat × Nat) : Bool := decide (a.1 < b.2) && decide (b.1 < a.2)

/-- May a range with these registers be enabled (R217)? -/
def Bay.aliasOk (b : Bay) (n : Nat) (win back : BitVec 64) : Bool :=
  let sp := aliasSpans win back
  decide (regField win 47 32 ≠ 0) && decide (regField win 31 16 + regField win 47 32 ≤ 65536) && decide (regField back 55 52 ≤ 3) &&
    decide (sp.2.2 ≤ 0x100000000) &&
    (List.range 4).all fun m =>
      let o := aliasSpans (b.aliasReg m false) (b.aliasReg m true)
      decide (m = n) || !(b.aliasReg m false).getLsbD 63 || (!spansMeet sp.1 o.1 && !spansMeet sp.2 o.2)

/-- The deferred words of a column's warps, and of the groups saved from it (R342, R352). -/
def State.deferredOn (s : State) (c : Nat) : List Deferred :=
  ((s.col c).warps.flatMap fun w => w.2.deferred) ++
    s.dist.nodes.flatMap fun n => n.2.launch.groups.flatMap fun g =>
      if n.2.launch.columnOf g.1 = c then (match g.2.saved with | some v => v.warps.flatMap (·.deferred) | none => []) else []

/-- Is an access to an enabled range of a column still under way: a memory word's, a deferred one's, or an engine's message (R217)? -/
def State.aliasBusy (s : State) (c n : Nat) : Bool :=
  let x := s.col c
  let sp := aliasSpans (x.bay.aliasReg n false) (x.bay.aliasReg n true)
  let within (pa : Nat) : Bool := decide (0x100000000 + sp.1.1 ≤ pa) && decide (pa < 0x100000000 + sp.1.2)
  let bound (f : Flit) : Bool := decide (f.dst = bayRouter c) && decide (f.type = 0 ∨ f.type = 2) && within f.addr
  x.mops.any (fun m => m.accs.any fun a => within a.pa) || (s.deferredOn c).any (fun d => d.op.accs.any fun a => within a.pa) ||
    x.bay.reqs.any (fun r => r.eng.isSome && within (128 * r.line)) || (x.ejected ++ x.parts ++ s.flits).any bound ||
    s.cols.any fun e => e.2.nifBay.backlog.any bound || e.2.cmds.any (fun k => k.toSend.any bound) || e.2.msgs.any fun m => m.2.flits.any bound

/-- A write of an alias register that R217 accepts, or the refusal of it. -/
def Bay.writeAlias (b : Bay) (n : Nat) (back : Bool) (v : BitVec 64) : Bay :=
  let win := b.aliasReg n false
  let bk := b.aliasReg n true
  let v := if back then v else v &&& ~~~(1#64 <<< 62)
  let win0 := win &&& ~~~(1#64 <<< 62)
  let on := win.getLsbD 63
  let reserved := if back then !onlyFields v [(55, 52), (33, 7)] else !onlyFields v [(63, 63), (47, 16)]
  let changes := if back then decide (v ≠ bk) else decide (v ≠ win0) && v.getLsbD 63
  let starts := !back && v.getLsbD 63 && !on
  if reserved || (on && changes) || (starts && !b.aliasOk n v bk) then
    { b with aliasWin := Tab.put b.aliasWin n (win ||| (1#64 <<< 62)) }
  else if back then { b with aliasBack := Tab.put b.aliasBack n v, aliasWin := Tab.put b.aliasWin n win0 }
  else { b with aliasWin := Tab.put b.aliasWin n v }

/-- Does a write clear the EN of an enabled range, and keep R217's other rules? -/
def Bay.clearsAlias (b : Bay) (n : Nat) (back : Bool) (v : BitVec 64) : Bool :=
  !back && (b.aliasReg n false).getLsbD 63 && !v.getLsbD 63 && onlyFields v [(47, 16), (62, 62)]

/-- A write of an alias register; one that clears EN first lets the range's accesses in progress complete, and the range takes no other
(R217). Until they have, EN stands: a write that clears it again is accepted, and any other is judged as of an enabled range. -/
def State.writeAlias (s : State) (c n : Nat) (back : Bool) (v : BitVec 64) : State :=
  let b := (s.col c).bay
  if b.clearsAlias n back v ∧ ((Tab.find? b.aliasOff n).isSome ∨ s.aliasBusy c n = true) then
    s.updCol c fun x => x.updBay fun b =>
      { b with aliasOff := Tab.put b.aliasOff n v, aliasWin := Tab.put b.aliasWin n (b.aliasReg n false &&& ~~~(1#64 <<< 62)) }
  else s.updCol c fun x => x.updBay fun b => b.writeAlias n back v

/-- The ranges of a column whose last access is over closed (R217); the ERR of a write refused meanwhile stays. -/
def State.settleAlias (s : State) (c : Nat) : State :=
  ((s.col c).bay.aliasOff.filter fun e => !s.aliasBusy c e.1).foldl (fun s e =>
    s.updCol c fun x => x.updBay fun b =>
      { b with aliasOff := Tab.erase b.aliasOff e.1
               aliasWin := Tab.put b.aliasWin e.1 ((e.2 &&& ~~~(1#64 <<< 62)) ||| (b.aliasReg e.1 false &&& (1#64 <<< 62))) }) s

/-- BAY_ALIAS_WRITE. -/
def execBayAliasWrite (c n : Nat) (back : Bool) (v : BitVec 64) (s : State) : Host.Outcome State Fault Refusal :=
  if 4 ≤ n then .next (s.updCol c fun x => x.updBay (·.refuseWrite)) else .next (s.writeAlias c n back v)

/-- BAY_SLSTAT of a slice (R309): PEAK, the lines in flight and the slots occupied. -/
def Column.slstat (x : Column) (sl : Nat) : BitVec 64 :=
  let b := x.bay
  let fills := (b.flights.filter fun f => decide (f.slice = sl)).length + (b.writeQ.filter fun w => decide (w.1 = sl)).length
  let host := (b.hostOut.filter fun h => decide (b.sliceOf h.2.2 (128 * h.1) = sl)).length
  let owned (c : Claim) : List Nat := (c.lines.flatMap fun r => (List.range r.2).map (r.1 + ·)).filter fun ln => decide (b.sliceOf c.ctx (128 * ln) = sl)
  let engine := ((b.claims.filter fun c => !c.source).flatMap owned).eraseDups.length
  BitVec.ofNat 64 (min 31 (b.occupied sl) + min 255 (fills + host + engine) * 2 ^ 8 + min 255 (b.slice sl).peak * 2 ^ 16)

/-- SLSTAT_READ: the factor complex reads the register, and the read clears PEAK. -/
def execSlstatRead (c sl : Nat) (s : State) : Host.Outcome State Fault Refusal :=
  if 16 ≤ sl then .next s
  else
    .next ({ s with host := { s.host with regRead := (s.col c).slstat sl } }.updCol c fun x =>
      x.updBay fun b => b.setSlice sl { b.slice sl with peak := 0 })

/-! ## The host link (R311) -/

/-- Memory words whose requests wait in a slice for a line. -/
def Column.lineReqs (x : Column) (line : Nat) : List Req := x.bay.reqs.filter fun r => r.admitted && !r.stands && decide (r.line = line)

/-- The word of a request ended by PA_HOLE (R311), with the pointer that the lowest faulting lane formed (R346): its pending write and holds are
gone, and its agent traps at the word. A warp that is stopped already meets the error at the first toucher of the word's destination instead;
a prefetch only loses the line (R146). -/
def State.holeWord (s : State) (c line : Nat) (r : Req) : State :=
  match (s.col c).mopOf r with
  | none => s.updCol c fun x => x.updBay (·.removeReq r)
  | some m =>
    let x := s.col c
    let lanes := (m.part line).foldl (fun (a : Lanes) p => a ||| (1#32 <<< p.lane)) 0#32
    if m.kind = .prefetch then (s.updCol c fun x => x.updBay (·.removeReq r)).afterPart c { m with accs := m.others line }
    else
      let stopped :=
        match m.who with
        | .warp n _ => (x.warp n).stop.isSome
        | .lane i => (x.ctx i).stop.isSome
        | _ => false
      let who :=
        match m.who with
        | .warp n b => if (((x.warp n).b.map (·.uid)) == some m.path) && decide (((x.warp n).a.map (·.uid)) ≠ some m.path) then Who.warp n true
                       else if ((x.warp n).a.map (·.uid)) == some m.path then .warp n false else .warp n b
        | w => w
      let hold (h : Hold) : Bool := match h with | .acquire id _ => decide (id ≠ m.id) | _ => true
      let s := s.updCol c fun x =>
        let x := (x.bay.reqs.filter fun q => decide (q.op = m.id) && q.put.isNone).foldl (fun x q => x.updBay (·.removeReq q)) x
        let x := { x with mops := x.mops.filter fun q => decide (q.id ≠ m.id) }
        x.setHolds m.who ((x.holds m.who).filter hold)
      let t := s.threadOf c who
      if stopped then
        let slotB := match who with | .warp _ b => b | _ => false
        s.setThreadOf c who { t with vpend := t.vpend.map fun v =>
          if m.vid ≠ 0 ∧ v.id = m.vid then { v with error := some (.paHole, lanes, m.pkt, m.wpos, slotB), addr := m.pointer lanes } else v }
      else
        let s := s.setThreadOf c who { t with vpend := t.vpend.filter fun v => decide (m.vid = 0) || decide (v.id ≠ m.vid) }
        let back := s.cur
        let s : State := { s.asAgent c who with cur := { col := c, who := who, pkt := m.pkt, wpos := m.wpos, unitEnd := m.unitEnd } }
        { s.raise .paHole { lanes := lanes, detail := m.pointer lanes } with cur := back }

/-- An engine's message whose host-tier line did not come ended (R311): its command is broken, and its MID free (R289). -/
def State.failEngine (s : State) (c line : Nat) (r : Req) (f : Flit) : State :=
  let broken (k : Command) (w : Nat × Nat) : Command :=
    let k := { k with broken := some (7, (0, c), 128 * line) }
    if f.type = 2 then { k with unacked := k.unacked - 1 } else { k with waiting := k.waiting.filter (· ≠ w) }
  let s := s.updCol c fun x => x.updBay (·.removeReq r)
  if r.cmd ≠ 0 then s.updCol c fun y => match y.cmd r.cmd with | some k => y.setCmd (broken k (c + 256 * f.win, line)) | none => y
  else s.updCol (f.src % 256) fun y =>
    match y.answered f with
    | (some (m, k), y) => y.setCmd (broken k (m.col, m.line))
    | (none, y) => y

/-- A host-tier write-back that failed reported to the region's fault domain (R311, R337). -/
def State.reportLine (s : State) (c line region : Nat) : State :=
  s.report (s.node region).eff.fdom
    { kind := 6, scope := 0, node := region, column := c, runtime := (s.node region).runtime, addr := (128 * line) % 2 ^ 32 }

/-- A host-tier line that has come (R311): the sectors that the bay does not hold take its bytes, and the line stands there for the requests
that wait for it. -/
def Column.landHost (x : Column) (region line : Nat) (bytes : List Byte) : Column :=
  let tag := (x.bay.holder line).map fun h => Tab.get ({} : SliceLine) (x.bay.slice h.1).lines h.2
  let valid := (tag.map (·.valid)).getD 0#4
  let x := (List.range 4).foldl (fun (x : Column) i =>
    if valid.getLsbD i then x else x.putBytes (128 * line + 32 * i) ((bytes.drop (32 * i)).take 32)) x
  let b := x.bay.touch region line 15#4 false ((tag.map (·.ep)).getD 0)
  { x with bay := (x.lineReqs line).foldl (fun (b : Bay) r => b.touch r.region line r.sectors false r.ep) b }

/-- The requests that wait for a host-tier line that did not come ended (R311): a write-back of an L1 is lost and reported, an engine's message
breaks its command, and a word traps. -/
def State.failReq (s : State) (c line region : Nat) (r : Req) : State :=
  match r.eng with
  | some f => s.failEngine c line r f
  | none =>
    if r.put.isSome then (s.updCol c fun x => x.updBay (·.removeReq r)).reportLine c line region else s.holeWord c line r

/-- A host-tier request that the host link ends: a fill with its data, a write-back acknowledged, or either with an error (R311), as where its
region has been unbound (R362). Those of one line end in their order. What a write-back leaves waiting looks its line up again. -/
def State.hostDone (s : State) (c rid : Nat) (error : Bool) (data : List Byte) : State :=
  let x := s.col c
  match x.bay.hostOut[rid]? with
  | none => s
  | some (line, wb, region) =>
    if (x.bay.hostOut.take rid).any fun h => decide (h.1 = line) then s
    else
      let error := error || (decide (region ≠ 0) && decide ((s.node region).kind = .free))
      let fn := s.fnOf region
      let io := x.bay.hostAddr region line
      let s := s.updCol c fun x => x.updBay fun b => { b with hostOut := b.hostOut.eraseIdx rid }
      let reqs := x.lineReqs line
      if wb then
        let s :=
          if error then (s.updCol c fun x => x.updBay fun b => b.drop line).reportLine c line region
          else { s with host := s.host.write fn io (x.bytesAt s.free (128 * line) 128) }
        reqs.foldl (fun s r => s.lookup c r) (s.acknowledged c line)
      else if error then reqs.foldl (fun s r => s.failReq c line region r) s
      else
        let bytes := if data.length = 128 then data else s.host.read fn io 128
        let s := { s with host := s.host.write fn io bytes }
        reqs.foldl (fun s r => s.send c r) (s.updCol c fun x => x.landHost region line bytes)

/-- HOST_LINK_COMPLETION: the request that stands at a place of the bay's list ends; data of another length than a line's is read from
host memory as it stands. -/
def execHostLinkCompletion (c rid : Nat) (error : Bool) (data : List (BitVec 8)) (s : State) : Host.Outcome State Fault Refusal :=
  .next (s.hostDone c rid error data)

/-- HOST_LINK_RETRIES_EXHAUSTED: a request left uncompleted after the link's retries ends as one with an error. -/
def execHostLinkRetriesExhausted (c rid : Nat) (s : State) : Host.Outcome State Fault Refusal := .next (s.hostDone c rid true [])

/-! ## Page tables as the factor complex reads them (R353) -/

/-- A leaf of a context's tables on a column: its offset, its page size, and the place and value of its entry. -/
structure Leaf where
  ctx : Nat
  va : Nat
  size : Nat
  pte : Nat
  entry : Nat
  deriving DecidableEq, Repr

/-- The frame of a leaf. -/
def Leaf.frame (l : Leaf) : Nat := pteAddr l.entry

/-- The entries of a table: place, index and value. -/
def State.tableAt (s : State) (c pa n : Nat) : List (Nat × Nat × Nat) :=
  (List.range n).filterMap fun i =>
    let e := natOfBytes ((s.col c).bytesAt s.free (pa + 8 * i) 8)
    if bitOf e 0 then some (pa + 8 * i, i, e) else none

/-- Every memory leaf that a context maps on a column. -/
def State.leaves (s : State) (c ctx : Nat) : List Leaf :=
  let m := s.dist.sysMib
  match pteTable m (Tab.get 0#64 s.dist.roots (256 * ctx + c)).toNat 4096 with
  | none => []
  | some t1 =>
    (s.tableAt c t1 512).flatMap fun a =>
      match pteTable m a.2.2 4096 with
      | none => []
      | some t2 =>
        (s.tableAt c t2 512).flatMap fun b =>
          match pteTable m b.2.2 4096 with
          | none => []
          | some t3 =>
            (s.tableAt c t3 512).flatMap fun d =>
              let va := a.2.1 * 2 ^ 39 + b.2.1 * 2 ^ 30 + d.2.1 * 2 ^ 21
              if bitOf d.2.2 1 then (if bitsOf d.2.2 4 3 = 0 then [⟨ctx, va, 0x200000, d.1, d.2.2⟩] else [])
              else
                match pteTable m d.2.2 256 with
                | none => []
                | some t4 => (s.tableAt c t4 32).filterMap fun e =>
                    if bitOf e.2.2 1 ∧ bitsOf e.2.2 4 3 = 0 then some ⟨ctx, va + e.2.1 * 65536, 65536, e.1, e.2.2⟩ else none

/-- The contexts that have tables on a column. -/
def State.ctxsOn (s : State) (c : Nat) : List Nat := (s.dist.roots.filter fun e => decide (e.1 % 256 = c)).map fun e => e.1 / 256

/-- Every memory leaf on a column. -/
def State.allLeaves (s : State) (c : Nat) : List Leaf := (s.ctxsOn c).flatMap fun k => s.leaves c k

/-- A leaf's entry rewritten. -/
def State.setPte (s : State) (c : Nat) (l : Leaf) (e : Nat) : State := s.updCol c fun x => x.putBytes l.pte (bytesOf 8 e)

/-- An entry with another frame, and with MIG set or clear. -/
def pteWith (e frame : Nat) (mig : Bool) : Nat :=
  e % 2 ^ 6 + (if mig then 2 ^ 6 else 0) + bitsOf e 7 7 * 2 ^ 7 + frame / 256 * 2 ^ 8

/-! ## Moving a page (R357, R359) -/

/-- An address carried from one frame to another. -/
def carry (old new size pa : Nat) : Nat := if old ≤ pa ∧ pa < old + size then new + (pa - old) else pa

/-- The accesses of a word carried to a page's new frame. -/
def MemOp.carry (m : MemOp) (f : Nat → Nat) : MemOp := { m with accs := m.accs.map fun a => { a with pa := f a.pa } }

/-- The sets of a transaction carried. -/
def Tx.carry (t : Tx) (f : Nat → Nat) : Tx :=
  let line (l : Nat) : Nat := lineOf (f (128 * l))
  { t with
    reads := t.reads.map fun p => (f p.1, p.2)
    lines := t.lines.map line
    writes := t.writes.map fun p => (p.1, f p.2.1, p.2.2)
    hints := t.hints.map fun h => (line h.1, h.2) }

/-- A line carried. -/
def carryLine (f : Nat → Nat) (line : Nat) : Nat := lineOf (f (128 * line))

/-- What an engine writes carried. -/
def BayWrite.carry (w : BayWrite) (f : Nat → Nat) : BayWrite :=
  match w with
  | .bytes pa b => .bytes (f pa) b
  | .nibble pa hi x => .nibble (f pa) hi x
  | .block fmt e sc own l => .block fmt (f e) (f sc) own l

/-- An engine's message to the bay of a column carried. -/
def Flit.carry (m : Flit) (c : Nat) (f : Nat → Nat) : Flit :=
  if m.dst = 256 + c ∧ (m.type = 0 ∨ m.type = 2) then
    { m with addr := f m.addr, tag := lineOf (f m.addr) % 2 ^ 20, ops := m.ops.map (·.carry f) }
  else m

/-- What a command has read of a column, and still waits for, carried. -/
def Command.carry (k : Command) (c : Nat) (f : Nat → Nat) : Command :=
  { k with
    fetched := k.fetched.map fun e => if e.1 % 256 = c then (e.1, f (32 * e.2.1) / 32, e.2.2) else e
    waiting := k.waiting.map fun w => if w.1 % 256 = c then (w.1, carryLine f w.2) else w
    toSend := k.toSend.map (·.carry c f) }

/-- A message of a bay's engines carried. -/
def EngineMsg.carry (m : EngineMsg) (c : Nat) (f : Nat → Nat) : EngineMsg :=
  { m with line := if m.col % 256 = c then carryLine f m.line else m.line, flits := m.flits.map (·.carry c f) }

/-- A column's commands, and its messages to another column's bay, carried there. -/
def Column.carryOut (x : Column) (c : Nat) (f : Nat → Nat) : Column :=
  { x with
    cmds := x.cmds.map (·.carry c f)
    msgs := Tab.mapVals (fun _ (m : EngineMsg) => m.carry c f) x.msgs
    nifBay := { x.nifBay with backlog := x.nifBay.backlog.map (·.carry c f) }
    ejected := x.ejected.map (·.carry c f)
    parts := x.parts.map (·.carry c f) }

/-- A warp's transaction and its deferred words carried. -/
def Warp.carry (w : Warp) (f : Nat → Nat) : Warp :=
  { w with tx := w.tx.map (·.carry f), deferred := w.deferred.map fun d => { d with op := d.op.carry f } }

/-- A claim's lines carried: its runs lie in one page each. -/
def Claim.carry (k : Claim) (f : Nat → Nat) : Claim := { k with lines := k.lines.map fun r => (carryLine f r.1, r.2) }

/-- A request carried: it is presented at its new line. -/
def Req.carry (r : Req) (c : Nat) (f : Nat → Nat) : Req :=
  if carryLine f r.line = r.line then r
  else
    { r with
      line := carryLine f r.line, admitted := false, stands := false, till := 0
      put := r.put.map fun l => { l with line := carryLine f l.line }, eng := r.eng.map (·.carry c f) }

/-- Requests, words, transactions and claims of a column that have met a frame meet another (R357). -/
def Column.carry (x : Column) (c : Nat) (f : Nat → Nat) : Column :=
  let moved (line : Nat) : Bool := decide (carryLine f line ≠ line)
  let x := x.updBay fun b =>
    { b with
      reqs := b.reqs.map (·.carry c f)
      flights := b.flights.filter fun g => !moved g.line
      writeQ := b.writeQ.filter fun w => !moved w.2
      hostOut := b.hostOut.filter fun h => h.2.1 || !moved h.1
      claims := b.claims.map (·.carry f) }
  { x with mops := x.mops.map (·.carry f), warps := Tab.mapVals (fun _ (w : Warp) => w.carry f) x.warps }

/-- Every access of a column's memory that has translated to a frame translated again to another, wherever it stands: at the column, in its
saved groups, and in the commands and messages of every column (R356, R357). -/
def State.carryPage (s : State) (c : Nat) (f : Nat → Nat) : State :=
  let saved (l : Launch) (g : GroupState) : GroupState :=
    if l.map.getD g.gcol 0 = c then { g with saved := g.saved.map fun v => { v with warps := v.warps.map fun (w : Warp) => w.carry f } } else g
  let node (n : Node) : Node := { n with launch := { n.launch with groups := Tab.mapVals (fun _ (g : GroupState) => saved n.launch g) n.launch.groups } }
  let s := { s with
    cols := Tab.mapVals (fun _ (x : Column) => x.carryOut c f) s.cols
    flits := s.flits.map fun (m : Flit) => m.carry c f
    dist := { s.dist with nodes := Tab.mapVals (fun _ (n : Node) => node n) s.dist.nodes } }
  s.updCol c fun x => x.carry c f

/-- The L1 lines of a frame sent to the bay and dropped, U copies among them. -/
def State.recallFrame (s : State) (c base size : Nat) : State :=
  s.updCol c fun x =>
    let held := x.l1.filter fun e => e.2.present && decide (base ≤ 128 * e.2.line) && decide (128 * e.2.line < base + size)
    held.foldl (fun x e => x.evictL1 e.1) x

/-- Has what the L1s have sent of a frame still to merge? -/
def Column.sentOf (x : Column) (base size : Nat) : Bool :=
  x.bay.reqs.any fun r => r.put.isSome && decide (base ≤ 128 * r.line) && decide (128 * r.line < base + size)

/-- A frame's bytes copied to another frame: the home bytes, with their marks; a host-tier frame's bytes come from the lines that the
bay holds or has still to write back, and else from host memory, and a copy to the host tier reaches host memory. -/
def State.copyFrame (s : State) (c ctx old new size : Nat) : State :=
  let x := s.col c
  let fn := s.fnOf ctx
  let hostSrc := decide (0x300000000 ≤ old)
  let lines := (List.range (size / 128)).map fun i => (lineOf old + i, lineOf new + i)
  let x := x.clearRange new (new + size)
  let moved (l : Nat × Nat) (x : Column) : Column :=
    let bytes := if hostSrc && !x.bay.hasHost l.1 then s.host.read fn (x.bay.hostAddr ctx l.1) 128 else Memory.readBytes x.mem (128 * l.1) 128
    let x := { x with mem := Memory.writeBytes x.mem (128 * l.2) bytes }
    let u := Tab.get 0#128 x.undefined l.1
    let x := { x with undefined := Tab.store 0#128 x.undefined l.2 u }
    { x with badSectors := x.badSectors ++ ((x.badSectors.filter fun q => decide (q / 4 = l.1)).map fun q => 4 * l.2 + q % 4)
             bay := (x.bay.drop l.1).drop l.2 }
  let x := lines.foldl (fun x l => moved l x) x
  let host := if 0x300000000 ≤ new then lines.foldl (fun (h : HostSide) l => h.write fn (x.bay.hostAddr ctx l.2) (Memory.readBytes x.mem (128 * l.2) 128)) s.host
    else s.host
  { s.setCol c x with host := host }

/-- A page moved to a new frame: copied, every entry that names the frame rewritten, their translations dropped, and what had translated
translated again, so that no access through an old entry is left and the TLBI is complete (R356, R357; log 133, DEDUCED). -/
def State.movePage (s : State) (c : Nat) (l : Leaf) (new : Nat) : State :=
  let same := (s.allLeaves c).filter fun o => decide (o.frame = l.frame) && decide (o.size = l.size)
  let s := (s.recallFrame c l.frame l.size).copyFrame c l.ctx l.frame new l.size
  let s := same.foldl (fun s o => (s.setPte c o (pteWith o.entry new false)).updCol c fun x => x.dropTlb o.ctx o.va false) s
  s.carryPage c (Machine.carry l.frame new l.size)

/-- MIGRATE_PAGE: the factor complex marks the page's frame; once no engine command owns a line of it, and the new frame is free, the
page is moved, and the mark is gone (R357). -/
def execMigratePage (ctx c va dest : Nat) (s : State) : Host.Outcome State Fault Refusal :=
  match (s.leaves c ctx).find? fun l => decide (l.va ≤ va) && decide (va < l.va + l.size) with
  | none => .next s
  | some l =>
    let mark := (l.frame, l.size)
    let x := s.col c
    let near (a : Nat) : Bool := decide (a + l.size ≤ 0x100000000) && !inSystem s.dist.sysMib a l.size
    let far (a : Nat) : Bool := decide (x.bay.kindOf ctx a = .host)
    let fits := decide (dest % l.size = 0) && ((near l.frame && far dest) || (far l.frame && near dest)) &&
      !((s.allLeaves c).any fun o => decide (o.frame < dest + l.size) && decide (dest < o.frame + o.size))
    if !fits then .next s
    else if !x.bay.migrating.contains mark then
      let s := (s.setPte c l (pteWith l.entry l.frame true)).recallFrame c l.frame l.size
      .next (s.updCol c fun x => x.updBay fun b => { b with migrating := b.migrating ++ [mark] })
    else if x.bay.claimedRange l.frame l.size then .next s
    else if x.sentOf l.frame l.size then .next (s.recallFrame c l.frame l.size)
    else .next ((s.movePage c l dest).updCol c fun x => x.updBay fun b => { b with migrating := b.migrating.filter (· ≠ mark) })

/-! ## Errors, strands and links (R358, R359) -/

/-- STRAND_BEAT_ERROR: a failed beat is resent on the same strand, which corrects it and is counted, or fails again: then the strand's
requests are refused until it is retired (R358, R359). -/
def execStrandBeatError (c strand _beat : Nat) (again : Bool) (s : State) : Host.Outcome State Fault Refusal :=
  if 8 ≤ strand ∨ (s.col c).bay.stat.getLsbD strand then .next s
  else if again then .next (s.updCol c fun x => x.updBay fun b => { b with failing := b.failing ||| (1#8 <<< strand) })
  else .next { s with host := { s.host with corrected := s.host.corrected + 1 } }

/-- A carve-out page beyond the carve-out's end moved below it, or demoted to a free HBM frame (R359 step 5): the lowest
that no entry maps and that holds nothing (log 27, DESIGN CHOICE). -/
def State.rehome (s : State) (c limit : Nat) (l : Leaf) : State :=
  let used := s.allLeaves c
  let free (a : Nat) : Bool := !(used.any fun o => decide (o.frame < a + l.size) && decide (a < o.frame + o.size))
  let carve := (List.range (limit / l.size)).map fun i => 0x200000000 + i * l.size
  let hbm := (List.range (0x100000000 / l.size)).map fun i => i * l.size
  let open_ (a : Nat) : Bool := free a && !inSystem s.dist.sysMib a l.size && !((s.col c).mem.any fun e => decide (a ≤ e.1) && decide (e.1 < a + l.size))
  match (if used.contains l then (carve.find? free).or (hbm.find? open_) else none) with
  | some a => s.movePage c l a
  | none => s

/-- STRAND_RETIRE: a strand that has failed twice is retired (R317, R359): its slices' dirty lines go to HBM, their waiting requests to
the substitutes, carve-out pages beyond the new size are moved or demoted, each context of the column is told, and the host too. -/
def execStrandRetire (c strand : Nat) (s : State) : Host.Outcome State Fault Refusal :=
  let x := s.col c
  if 8 ≤ strand ∨ ¬ x.bay.failing.getLsbD strand then .next s
  else
    let gone (sl : Nat) : Bool := decide (sl / 2 = strand)
    let b := x.bay.flushSlices [2 * strand, 2 * strand + 1]
    let b := { b with
      reqs := b.reqs.map fun r => if gone (b.sliceFor r) then { r with admitted := false, stands := false, slotKept := false, till := 0 } else r
      flights := b.flights.filter fun f => f.wb || !gone f.slice }
    let b := { b with stat := b.stat ||| (1#64 <<< strand), failing := b.failing &&& ~~~(1#8 <<< strand) }
    let s := s.setCol c { x with bay := b }
    let limit := b.carveSize
    let s := ((s.allLeaves c).filter fun l => decide (0x200000000 + limit < l.frame + l.size) && decide (0x200000000 ≤ l.frame) &&
        decide (l.frame < 0x300000000)).foldl (fun s l => s.rehome c limit l) s
    let s := s.updCol c fun x => (x.clearRange (0x200000000 + limit) 0x300000000).dropCopies (0x200000000 + limit) 0x300000000
    let told := (List.range 4096).filter fun n => (decide ((s.node n).kind = .root) || decide ((s.node n).kind = .service)) && (s.node n).eff.cmask.getLsbD c
    let detail := BitVec.ofNat 64 (b.stat.toNat % 256 + regField b.ctl 36 32 * 65536)
    let s := s.updCol c fun x => told.foldl (fun x n =>
      x.raiseEvent { cause := .capacityShrink, note := true, context := BitVec.ofNat 16 n, detail := detail, tier := 2, cycle := s.clk }) x
    .next (s.event .strandRetired c 1)

/-- LINK_CHECK_ERROR: a flit resent on its link, which is counted, or, when it fails again, the link retired at both its routers, and
PF0 told (R358). -/
def execLinkCheckError (router port : Nat) (again : Bool) (s : State) : Host.Outcome State Fault Refusal :=
  match neighbour router port with
  | none => .next s
  | some r =>
    if s.deadLinks.contains (router, port) then .next s
    else if !again then .next { s with host := { s.host with corrected := s.host.corrected + 1 } }
    else
      let back := ((List.range 5).filter fun p => decide (neighbour r p = some router)).map fun p => (r, p)
      .next (({ s with deadLinks := s.deadLinks ++ (router, port) :: back } : State).event .linkRetired (router % 256) 1)

/-! ## Containment (R360, R361) -/

/-- The groups of a launch that a lost column takes with it: those placed there and not ended. -/
def Launch.lostOn (l : Launch) (c : Nat) : List Nat :=
  (l.groups.filter fun e => decide (e.2.place ≠ .ended) && decide (l.map.getD e.2.gcol 0 = c)).map Prod.fst

/-- The proxy for a lost column (R361). -/
def State.proxyFor (s : State) (node : Nat) : Option Nat :=
  let nd := s.node node
  (List.range 256).find? fun c => nd.eff.cmask.getLsbD c && !(s.col c).coreOffline && !(s.col c).memOffline && !nd.launch.map.contains c

/-- A group started again from its start; one whose launch still waits for its start time is held as before (R329). -/
def State.restartGroup (s : State) (node gid : Nat) : State :=
  let s := s.endGroup node gid
  let l := (s.node node).launch
  let g := l.groupOf gid
  let place : GroupPlace := if bitOf l.task.tflags 4 ∧ s.time < l.task.start then .held else .waiting s.clk
  s.setGroupState node gid { g with place := place, saved := none, promoted := 0, rises := 0, endedWarps := [], exchanged := false }

/-- A report of a group restarted or lost (R337), with the failed column's gcol. -/
def State.containReport (s : State) (node gid c code : Nat) (lost : Bool) : State :=
  let nd := s.node node
  let r : Report := { kind := if lost then 3 else 2, code := code, scope := 0, node := node, group := gid, column := c, gcol := (nd.launch.map.findIdx? fun x => x == c).getD 0xFF,
                      runtime := nd.runtime, ended := if lost then 1 else 0 }
  s.report nd.eff.fdom r

/-- Is a flit an exchange message or an arrival of a gang, for a bay? -/
def Flit.forGang (f : Flit) (gang : Nat) : Bool := decide (256 ≤ f.dst) && (decide (f.type = 5) || decide (f.type = 6)) && decide (f.tag / 1024 = gang)

/-- Is a flit an answer to an exchange word of a gang, for a core? -/
def Flit.answersGang (f : Flit) (gang : Nat) : Bool :=
  decide (f.dst < 256) && (decide (f.type = 3) || decide (f.type = 4) || decide (f.type = 6)) && decide (f.tag / 1024 = gang)

/-- Every flit in flight, in a backlog or at an interface changed, or taken away. -/
def State.sweepFlits (s : State) (f : Flit → Option Flit) : State :=
  { s with
    flits := s.flits.filterMap f
    cols := Tab.mapVals (fun _ (x : Column) =>
      { x with
        ejected := x.ejected.filterMap f
        nifCore := { x.nifCore with backlog := x.nifCore.backlog.filterMap f }
        nifBay := { x.nifBay with backlog := x.nifBay.backlog.filterMap f } }) s.cols }

/-- A gang's exchange begun anew: its mailboxes and arrivals empty, and nothing of it in flight (R360; log 136, DEDUCED). -/
def State.clearGang (s : State) (l : Launch) : State :=
  let s := l.map.foldl (fun s k => s.updCol k fun x =>
    { x with mail := Tab.keep (fun i _ => decide (i / 2 ^ 18 ≠ l.gang)) x.mail, xbar := x.xbar.filter fun a => decide (a.1 / 2 ^ 10 ≠ l.gang) }) s
  s.sweepFlits fun f => if f.forGang l.gang || f.answersGang l.gang then none else some f

/-- A gang's mailboxes and arrivals of a lost column moved to its proxy's bay, with the messages on their way there (R297, R361). -/
def State.moveGang (s : State) (gang c p : Nat) : State :=
  let x := s.col c
  let turned (f : Flit) : Flit := if f.forGang gang ∧ f.dst = 256 + c then { f with dst := 256 + p } else f
  let here (f : Flit) : Bool := f.forGang gang && decide (f.dst = 256 + c)
  let s := s.updCol p fun y =>
    { y with
      mail := (x.mail.filter fun e => decide (e.1 / 2 ^ 18 = gang)).foldl (fun t e => Tab.put t e.1 e.2) y.mail
      xbar := y.xbar ++ x.xbar.filter fun a => decide (a.1 / 2 ^ 10 = gang)
      ejected := y.ejected ++ (x.ejected.filter here).map turned }
  let s := s.updCol c fun x =>
    { x with
      mail := Tab.keep (fun i _ => decide (i / 2 ^ 18 ≠ gang)) x.mail
      xbar := x.xbar.filter fun a => decide (a.1 / 2 ^ 10 ≠ gang)
      ejected := x.ejected.filter fun f => !here f }
  s.sweepFlits fun f => some (turned f)

/-- A launch under FENCE that has lost groups with a column: restarted on a proxy, whole where a lost group has exchanged, or ended. The
proxy's system area holds the mailboxes of the gcol (R297, R331), and a commit token starts again in every column without one (R341). -/
def State.fenceLaunch (s : State) (node c : Nat) : State :=
  let l := (s.node node).launch
  let lost := l.lostOn c
  let restartable := bitOf l.task.tflags 1
  let idx := (l.map.findIdx? fun k => k == c).getD 0
  let exchanged := lost.any fun g => (l.groupOf g).exchanged
  match (if restartable then s.proxyFor node else none) with
  | none =>
    let s := lost.foldl (fun s g => s.containReport node g c 17 true) s
    s.endLaunch node 17
  | some p =>
    let again := if exchanged then (Tab.keys l.groups) else lost
    let s := again.foldl (fun s g => s.containReport node g c 0 false) s
    let s := again.foldl (fun s g => s.restartGroup node g) s
    let nd := s.node node
    let s := s.updCol c fun x => { x with sysUsed := x.sysUsed - nd.launch.mailBytes idx }
    let s := s.updCol p fun x => { x with sysUsed := x.sysUsed + nd.launch.mailBytes idx }
    let lostCols := if (Tab.find? nd.launch.lostCols idx).isSome then nd.launch.lostCols else Tab.put nd.launch.lostCols idx c
    let l := { nd.launch with map := nd.launch.map.set idx p, lostCols := lostCols, tokens := Tab.erase nd.launch.tokens c }
    let s := s.setNode node { nd with launch := l }
    let s := s.moveGang l.gang c p
    let s := if exchanged then s.clearGang l else s
    l.map.eraseDups.foldl (fun s k => s.startToken node k) s

/-- A launch under RETIRE that has lost groups with a core: they end with CONTAINED, and its other groups run on. -/
def State.retireLaunch (s : State) (node c : Nat) : State :=
  let lost := (s.node node).launch.lostOn c
  let s := lost.foldl (fun s g => s.containReport node g c 17 true) s
  let nd := s.node node
  let s := s.setNode node { nd with launch := { nd.launch with ending := some 17 } }
  (lost.foldl (fun s g => s.endGroup node g) s).tryFinish node

/-- The pages of a lost memory retired: the entries that map them for the contexts of regions under RETIRE are invalid (R360). -/
def State.retirePages (s : State) (c : Nat) : State :=
  ((s.allLeaves c).filter fun l => (s.node l.ctx).eff.retire).foldl (fun s l => s.setPte c l (l.entry / 2 * 2)) s

/-- A column's core offline with its L1, and, where a region under FENCE has lost groups with it, its slices too: what they hold goes to
memory, and the bay serves everything uncached from then on (R360; log 69, DESIGN CHOICE). -/
def Column.loseCore (x : Column) (fence : Bool) : Column :=
  { x with coreOffline := true, l1 := [], bay := if fence then { x.bay.flushSlices (List.range 16) with slicesOff := true } else x.bay }

/-- CONTAINMENT: a column's core, or its memory, has failed for good and goes offline for every context, with a memory under FENCE the core
too; each launch with groups there is contained under its region's mode. -/
def execContainment (c : Nat) (memory : Bool) (s : State) : Host.Outcome State Fault Refusal :=
  let x := s.col c
  if (if memory then x.memOffline else x.coreOffline) then .next s
  else
    let hit := (s.dist.nodes.filter fun e => decide (e.2.kind = .launch) && !(e.2.launch.lostOn c).isEmpty).map Prod.fst
    let fence := hit.any fun n => !(s.node n).eff.retire
    let core := !memory || fence
    let s := if memory then (s.retirePages c).updCol c fun x => { x with memOffline := true, l1tlb := [], l2tlb := [] } else s
    let s := if core then s.updCol c (·.loseCore fence) else s
    .next (hit.foldl (fun s n =>
      if (s.node n).eff.retire then (if core then s.retireLaunch n c else s) else s.fenceLaunch n c) s)

end Sys2Proof.Machine
end

