-- ==== Sys2Proof/Machine/Lanes.lean ====
section
/-! DEFINITION. The cross-lane and mask words (R130 to R141): OP 0x48 to 0x4F, X pipe, latency 6, or 8 for the
reductions and scans. They work over the participating set P and read no lane outside it. -/

namespace Sys2Proof.Machine

/-! ## Permutes (R133) -/

/-- A permute word: each lane reads the lane its operand names, and keeps its destination where that lane is not in
P. -/
def State.permute (s : State) (src : Nat → Nat → Nat) (d a b : BitVec 6) : Host.Outcome State Fault Refusal :=
  let p := s.part
  s.vectorTo 6 d (vecOf fun l =>
    let j := src l (lane (s.vr b) l).toNat
    if p.getLsbD j then lane (s.vr a) j else lane (s.vr d) l)

def pickSrc (_ o : Nat) : Nat := o % 32
def rotSrc (l o : Nat) : Nat := (l + o % 32) % 32
def xorSrc (l o : Nat) : Nat := Nat.xor l (o % 32)
/-- LSPAN: a rotation inside aligned spans of 2^w lanes, w in bits 7:5 and at most 5. -/
def spanSrc (l o : Nat) : Nat :=
  let z := 2 ^ min (bitsOf o 7 5) 5
  l - l % z + (l % z + o % 32) % z

def execLpick (d a b : BitVec 6) (s : State) := accept .int s fun s => s.permute pickSrc d a b
def execLrot (d a b : BitVec 6) (s : State) := accept .int s fun s => s.permute rotSrc d a b
def execLxor (d a b : BitVec 6) (s : State) := accept .int s fun s => s.permute xorSrc d a b
def execLspan (d a b : BitVec 6) (s : State) := accept .int s fun s => s.permute spanSrc d a b

/-! ## Mask tests and counts (R134, R135) -/

def execKsome (d a : BitVec 3) (s : State) := accept .int s fun s => s.condTo 6 d (maskSome s.part (s.kr a))
def execKevery (d a : BitVec 3) (s : State) := accept .int s fun s => s.condTo 6 d (maskEvery s.part (s.kr a))
def execKone (d a : BitVec 3) (s : State) := accept .int s fun s => s.condTo 6 d (maskOne s.part (s.kr a))
def execKsame (d a : BitVec 3) (s : State) := accept .int s fun s => s.condTo 6 d (maskSame s.part (s.kr a))

/-- The lanes of P that hold a lane's value. -/
def peersOf (p : Lanes) (x : Vec) (l : Nat) : Lanes := p &&& lanesOf fun j => lane x j == lane x l

def execLpeers (d a : BitVec 6) (s : State) :=
  accept .int s fun s => s.vectorTo 6 d (vecOf fun l => peersOf s.part (s.vr a) l)
def execLfirst (d a : BitVec 6) (s : State) :=
  accept .int s fun s => s.vectorTo 6 d (vecOf fun l => BitVec.ofNat 32 (lowLane (peersOf s.part (s.vr a) l)))
def execKpopc (d : BitVec 6) (a : BitVec 3) (s : State) :=
  accept .int s fun s => s.scalarTo 6 d (BitVec.ofNat 64 (laneCount (s.part &&& s.kr a)))
def execKffs (d : BitVec 6) (a : BitVec 3) (s : State) :=
  accept .int s fun s => s.scalarTo 6 d (BitVec.ofNat 64 (lowLane (s.part &&& s.kr a)))

/-! ## Reductions and scans (R132, R136 to R138) -/

/-- The identity of a reduction operator (R132). -/
def redIdentity (op : Nat) : Word :=
  match op with
  | 1 => 0x7FFFFFFF#32
  | 2 => 0x80000000#32
  | 3 => 0xFFFFFFFF#32
  | 5 => 0xFFFFFFFF#32
  | 8 => 0x80000000#32
  | 9 => 0x7F800000#32
  | 10 => 0xFF800000#32
  | _ => 0#32

/-- An FP32 NaN made canonical, for the FP operators (R132). -/
def canonNan (op : Nat) (x : Word) : Word := if 8 ≤ op ∧ (f32 x).isNan then 0x7FC00000#32 else x

/-- One combination under a reduction operator (R132), FADD with RNE. -/
def redOp (op : Nat) (a b : Word) : Word :=
  match op with
  | 0 => a + b
  | 1 => lImin a b
  | 2 => lImax a b
  | 3 => lIminu a b
  | 4 => lImaxu a b
  | 5 => a &&& b
  | 6 => a ||| b
  | 7 => a ^^^ b
  | 8 => lFadd .rne a b
  | 9 => canonNan 9 (lFmin a b)
  | 10 => canonNan 10 (lFmax a b)
  | _ => a

/-- The operator that a 3-bit segment code names (R132). -/
def segOp (sop : BitVec 3) : Nat := if sop.toNat < 5 then sop.toNat else sop.toNat + 3

/-- One level of FOLD.FADD's tree: neighbours paired, a lone member unchanged (R136). -/
def treeLevel : List (Option Word) → List (Option Word)
  | [] => []
  | [x] => [x]
  | some a :: some b :: xs => some (lFadd .rne a b) :: treeLevel xs
  | some a :: none :: xs => some a :: treeLevel xs
  | none :: x :: xs => x :: treeLevel xs

/-- The members of P in lane order, and gaps. -/
def members (p : Lanes) (x : Vec) : List (Option Word) :=
  laneList.map fun l => if p.getLsbD l then some (lane x l) else none

/-- FOLD's 32-bit result (R136): the fixed tree for FADD, the order-free combination for the others. Under FADD any NaN in P gives the
canonical NaN; under FMIN and FMAX a NaN loses to a number, as R105 has it, and gives the canonical NaN only where every member is one
(DEDUCED, log 9). -/
def foldLanes (op : Nat) (p : Lanes) (x : Vec) : Word :=
  if op = 8 then
    match treeLevel (treeLevel (treeLevel (treeLevel (treeLevel (members p x))))) with
    | some r :: _ => canonNan 8 r
    | _ => redIdentity 8
  else
    match (lanesIn p).map (lane x) with
    | [] => redIdentity op
    | w :: ws => canonNan op (ws.foldl (redOp op) w)

/-- A running scan: the value before the first lane, and each lane's inclusive value, restarted at every head (R137,
R138). -/
def scanLanes (op : Nat) (heads : Lanes) (x : Vec) : Option Word → List Nat → List (Nat × Word × Word)
  | _, [] => []
  | acc, l :: ls =>
    let fresh := acc.isNone || heads.getLsbD l
    let v := canonNan op (if fresh then lane x l else redOp op (acc.getD 0#32) (lane x l))
    (l, (if fresh then redIdentity op else acc.getD 0#32), v) :: scanLanes op heads x (some v) ls

/-- A lane's entry of a scan. -/
def scanAt (t : List (Nat × Word × Word)) (l : Nat) : Word × Word :=
  match t.find? fun e => e.1 == l with
  | some e => e.2
  | none => (0#32, 0#32)

def execFold (d a b : BitVec 6) (s : State) :=
  accept .int s fun s => s.scalarTo 8 d ((foldLanes b.toNat s.part (s.vr a)).setWidth 64)
def execFoldBc (d a b : BitVec 6) (s : State) :=
  accept .int s fun s => s.vectorTo 8 d (splat (foldLanes b.toNat s.part (s.vr a)))
def execScanInc (d a b : BitVec 6) (s : State) :=
  accept .int s fun s =>
    let t := scanLanes b.toNat 0#32 (s.vr a) none (lanesIn s.part)
    s.vectorTo 8 d (vecOf fun l => (scanAt t l).2)
def execScanExc (d a b : BitVec 6) (s : State) :=
  accept .int s fun s =>
    let t := scanLanes b.toNat 0#32 (s.vr a) none (lanesIn s.part)
    s.vectorTo 8 d (vecOf fun l => (scanAt t l).1)

/-- The last lane of P in the segment of lane l: the last before the next head. -/
def segmentEnd (p heads : Lanes) (l : Nat) : Nat :=
  let later := (lanesIn p).filter fun j => decide (l < j)
  (later.takeWhile fun j => !heads.getLsbD j).getLastD l

def execSegred (d a : BitVec 6) (k p : BitVec 3) (s : State) :=
  accept .int s fun s =>
    let h := s.kr k
    let t := scanLanes (segOp p) h (s.vr a) none (lanesIn s.part)
    s.vectorTo 8 d (vecOf fun l => (scanAt t (segmentEnd s.part h l)).2)
def execSegscan (d a : BitVec 6) (k p : BitVec 3) (s : State) :=
  accept .int s fun s =>
    let t := scanLanes (segOp p) (s.kr k) (s.vr a) none (lanesIn s.part)
    s.vectorTo 8 d (vecOf fun l => (scanAt t l).2)

/-! ## Mask words (R139) -/

def execKand (d a b : BitVec 3) (s : State) := accept .int s fun s => s.maskTo 6 d (s.kr a &&& s.kr b)
def execKor (d a b : BitVec 3) (s : State) := accept .int s fun s => s.maskTo 6 d (s.kr a ||| s.kr b)
def execKxor (d a b : BitVec 3) (s : State) := accept .int s fun s => s.maskTo 6 d (s.kr a ^^^ s.kr b)
def execKandn (d a b : BitVec 3) (s : State) := accept .int s fun s => s.maskTo 6 d (s.kr a &&& ~~~s.kr b)
def execKnot (d a : BitVec 3) (s : State) := accept .int s fun s => s.maskTo 6 d (~~~s.kr a)
def execKld (d : BitVec 3) (a : BitVec 6) (s : State) := accept .int s fun s => s.maskTo 6 d ((s.sr a).setWidth 32)
def execKst (d : BitVec 6) (a : BitVec 3) (s : State) :=
  accept .int s fun s => s.scalarTo 6 d ((s.kr a &&& s.part).setWidth 64)
def execKact (d : BitVec 3) (a : BitVec 6) (s : State) :=
  accept .int s fun s => s.maskTo 6 d (test1 (fun x => decide (x ≠ 0#32)) (s.vr a))

end Sys2Proof.Machine
end

