-- ==== Sys2Proof/Machine/Exchange.lean ====
section
/-! DEFINITION. The exchange words (R297 to R304): mailboxes, XCH, XRED and XBAR, their acknowledgements, refusals and resends, and
the reassembly entries (R296). -/

namespace Sys2Proof.Machine

/-! ## Keys (R297) -/

/-- TAG of an exchange message: gang, local group, warp and parity. -/
def exchangeTag (gang j w p : Nat) : Nat := gang * 1024 + j * 64 + w * 4 + p * 2

/-- The mailbox slot of a tag for the messages of one source gcol. -/
def mailKey (tag src : Nat) : Nat := tag / 1024 * 2 ^ 18 + tag / 4 % 256 * 2 ^ 10 + src * 2 + tag / 2 % 2

/-- The launch of a gang. -/
def State.gangLaunch (s : State) (gang : Nat) : Option (Nat × Launch) :=
  (s.dist.nodes.find? fun e => decide (e.2.kind = .launch) && decide (e.2.launch.gang = gang)).map fun e => (e.1, e.2.launch)

/-- The gcol of a physical column in a launch, a lost column's among them (R361). -/
def Launch.gcolOf (l : Launch) (c : Nat) : Nat :=
  ((l.map.findIdx? fun x => x == c).or ((l.lostCols.find? fun e => decide (e.2 = c)).map Prod.fst)).getD 0

/-- Has a launch placed a local group on a gcol; and does it still live? -/
def Launch.hasLocal (l : Launch) (g j : Nat) : Bool := l.groups.any fun e => decide (e.2.gcol = g) && decide (e.2.localGroup = j)
def Launch.liveLocal (l : Launch) (g j : Nat) : Bool :=
  l.groups.any fun e => decide (e.2.gcol = g) && decide (e.2.localGroup = j) && decide (e.2.place ≠ .ended)

/-- The vector of a message's bytes, and its two halves. -/
def vecOfBytes (b : List Byte) : Vec := BitVec.ofNat 1024 (natOfBytes b)
def halfBytes (v : Vec) (i : Nat) : List Byte := bytesOf 64 (v.toNat >>> (512 * i))

/-! ## Reassembly entries (R296) -/

/-- The lowest free reassembly entry of a column. -/
def State.freeMid (s : State) (c : Nat) : Option Nat := firstBelow 64 fun i => (Tab.find? (s.col c).nifCore.entries i).isNone

/-- A flit kept with the saved group whose entry it is for, until that resumes; none where no saved group has such an entry. The group freed
its indices when it left, and another word may hold one by now: the flit's TAG, which names gang, local group and warp, tells them apart. -/
def State.keepFlit (s : State) (c : Nat) (f : Flit) : Option State :=
  let mine (nd : Node) (g : GroupState) : Bool :=
    decide (nd.kind = .launch) && decide (nd.launch.gang = f.tag / 1024) && decide (g.localGroup = f.tag / 64 % 16) &&
      decide (nd.launch.map.getD g.gcol 0 = c) && g.saved.any fun v => v.entries.any fun e => decide (e = (f.mid, f.tag / 4 % 16))
  (s.dist.nodes.findSome? fun n => (n.2.launch.groups.find? fun g => mine n.2 g.2).map fun g => (n.1, g.1, g.2)).map fun w =>
    s.setGroupState w.1 w.2.1 { w.2.2 with saved := w.2.2.saved.map fun v => { v with flits := v.flits ++ [f] } }

/-- The warp slot whose exchange an entry belongs to. -/
def Column.exchangeOf (x : Column) (mid : Nat) : Option (Nat × Exchange) :=
  match Tab.find? x.nifCore.entries mid with
  | some (_, n) => (x.warp n).xch.map fun e => (n, e)
  | none => none

/-! ## Receiving and completing (R300 to R302, R304) -/

/-- A warp slot's exchange replaced. -/
def Column.setExchange (x : Column) (n : Nat) (e : Option Exchange) : Column := x.setWarp n { x.warp n with xch := e }

/-- The tag of a warp's exchange. -/
def State.tagOf (s : State) (c n parity : Nat) : Nat :=
  let w := (s.col c).warp n
  let g := (s.col c).group w.entry
  exchangeTag (s.node g.launch).launch.gang g.localGroup w.index parity

/-- A pending write of a warp given its value or its error. -/
def Column.setVpend (x : Column) (n id : Nat) (f : VPend → VPend) : Column :=
  let w := x.warp n
  x.setWarp n { w with th := { w.th with vpend := w.th.vpend.map fun v => if v.id = id then f v else v } }

/-- An exchange that has met XCH_MISMATCH or XCH_PARTNER: it receives nothing more, and the error waits for its first toucher
(R304). -/
def Column.exchangeError (x : Column) (n : Nat) (e : Exchange) (c : Cause) : Column :=
  let err := some (c, e.lanes, e.pkt, e.wpos, e.slotB)
  let w := x.warp n
  let x :=
    if w.th.vpend.any fun v => decide (v.id = e.vid) then x.setVpend n e.vid fun v => { v with error := err }
    else x.setWarp n { w with th := { w.th with vpend := w.th.vpend ++ [{ id := e.vid, regs := [], error := err }] } }
  x.setExchange n (some { e with sources := [], error := some c })

/-- The line of a mailbox slot in the system area of S MiB (R297, R331): the place of a warp's mailboxes there is a free value. -/
def mailLine (sysMib key : Nat) : Nat := (0xFFFF0000 - sysMib * 1048576) / 128 + (Config.mailArea (key / 1024) + key % 1024) % (sysMib * 8192)

/-- A mailbox slot's line brought into the bay's slices by a region's access (R297). -/
def Column.touchMail (x : Column) (region line : Nat) (write : Bool) : Column := x.updBay fun b => b.touch region line 15#4 write 0

/-- An unread message taken from a mailbox slot for a region, which is free then. -/
def Column.takeMail (x : Column) (region sysMib key : Nat) : Option (Mail × Column) :=
  let m := Tab.get ({} : Mail) x.mail key
  if m.full then
    some (m, ({ x with mail := Tab.store ({} : Mail) x.mail key { m with full := false, kind := 0, data := 0#1024 } } : Column).touchMail region (mailLine sysMib key) false)
  else none

/-- The root's combination in ascending gcol (R302). -/
def combineAll (op : Nat) (got : Tab Vec) : Vec :=
  let vs := got.map Prod.snd
  vecOf fun l =>
    canonNan op ((vs.tail).foldl (fun acc v => redOp op acc (lane v l)) (lane (vs.headD 0#1024) l))

/-- What an exchange writes once it has received everything: its destination, the root's local store, or nothing. -/
def Exchange.writes (e : Exchange) : List Write :=
  match e.kind with
  | 3 => []
  | 4 => if e.got.isEmpty then [] else [.v e.dest e.lanes (combineAll e.op e.got)]
  | 5 => []
  | _ => [.v e.dest e.lanes (((e.got.map Prod.snd).head?).getD 0#1024)]

/-- An exchange's entry freed once its acknowledgements are in, or its release has come (R296). -/
def Column.dropEntry (x : Column) (n : Nat) : Column :=
  match (x.warp n).xch with
  | none => x
  | some e =>
    let held := (Tab.find? x.nifCore.entries e.mid).any fun o => decide (o.2 = n)
    if held && decide (e.unacked = 0) && e.resend.isEmpty && (decide (e.kind ≠ 5) || e.released) then
      { x with nifCore := { x.nifCore with entries := Tab.erase x.nifCore.entries e.mid } }
    else x

/-- Does a warp's exchange still wait for its values? -/
def Column.exchangeOpen (x : Column) (n : Nat) (e : Exchange) : Bool :=
  (x.warp n).th.vpend.any fun v => decide (v.id = e.vid) && v.error.isNone && v.value.isNone

/-- An exchange that has received and been acknowledged: its values known, and at a GATH root the messages in local store, by gcol (R300). -/
def Column.exchangeValue (x : Column) (n : Nat) (e : Exchange) : Column :=
  if x.exchangeOpen n e then
    let x := x.setVpend n e.vid fun v => { v with value := some e.writes }
    if e.kind = 3 then
      let entry := (x.warp n).entry
      let g := x.group entry
      let store := e.got.foldl (fun m p => Memory.writeBytes m (e.offset + 128 * p.1) (bytesOf 128 p.2.toNat)) g.store
      x.setGroup entry { g with store := store }
    else x
  else x

/-- An exchange that has received everything and whose messages are all acknowledged gets its values; once they are written it is complete, and
the words it held go on (R301). Its entry may be free before (R296). -/
def Column.finishExchange (x : Column) (n : Nat) : Column :=
  let x := x.dropEntry n
  match (x.warp n).xch with
  | none => x
  | some e =>
    if e.sources.isEmpty && decide (e.unacked = 0) && e.resend.isEmpty && (decide (e.kind ≠ 5) || e.released) then
      let x := x.exchangeValue n e
      if (x.warp n).th.vpend.any fun v => decide (v.id = e.vid) && v.error.isNone then x
      else
        let w := x.warp n
        x.setWarp n { w with xch := none, holds := w.holds.filter fun h => decide (h ≠ .gatherRoot) && decide (h ≠ .xbar) }
    else x

/-- The messages that stand in the slots that a warp's exchange waits for, received. XRED's are combined by the bay, and XBAR has
none. -/
def State.receive (s : State) (c n : Nat) : State :=
  match ((s.col c).warp n).xch with
  | none => s
  | some e =>
    if 4 ≤ e.kind ∨ e.sources.isEmpty then s
    else
      let tag := s.tagOf c n e.parity
      let region := s.regionOf ((s.col c).group ((s.col c).warp n).entry).launch
      let (x, e, bad) := e.sources.foldl (fun (acc : Column × Exchange × Bool) src =>
        let (x, e, bad) := acc
        match x.takeMail region s.dist.sysMib (mailKey tag src) with
        | none => acc
        | some (m, x) =>
          (x, { e with sources := e.sources.filter (· ≠ src), got := Tab.put e.got src m.data }, bad || decide (m.kind ≠ e.kind))) (s.col c, e, false)
      let x := x.setExchange n (some e)
      s.setCol c ((if bad then x.exchangeError n e .xchMismatch else x).finishExchange n)

/-- XRED_COMBINE: the root's bay combines once every message stands (R302). -/
def execXredCombine (c n : Nat) (s : State) : Host.Outcome State Fault Refusal :=
  match ((s.col c).warp n).xch with
  | none => .next s
  | some e =>
    let tag := s.tagOf c n e.parity
    let keys := e.sources.map fun g => (g, mailKey tag g)
    if e.kind ≠ 4 ∨ e.sources.isEmpty ∨ ¬ keys.all fun k => (Tab.get ({} : Mail) (s.col c).mail k.2).full then .next s
    else
      let (x, got, bad) := keys.foldl (fun (acc : Column × Tab Vec × Bool) k =>
        match acc.1.takeMail (s.regionOf ((s.col c).group ((s.col c).warp n).entry).launch) s.dist.sysMib k.2 with
        | some (m, x) => (x, Tab.put acc.2.1 k.1 m.data, acc.2.2 || decide (m.kind ≠ 4))
        | none => acc) (s.col c, e.got, false)
      let e := { e with sources := [], got := got }
      let x := x.setExchange n (some e)
      .next (s.setCol c ((if bad then x.exchangeError n e .xchMismatch else x).finishExchange n))

/-! ## Sending (R297, R300) -/

/-- The two flits of an exchange message to a gcol. -/
def State.messageFlits (s : State) (c n g : Nat) (e : Exchange) : List Flit :=
  let node := ((s.col c).group ((s.col c).warp n).entry).launch
  let dst := (s.node node).launch.map.getD g 0
  (List.range 2).map fun i =>
    { type := 5, dst := bayRouter dst, src := c, tc := 1, mid := e.mid, seq := 2 * e.kind + i, tag := s.tagOf c n e.parity, region := s.regionOf node
      launch := node, payload := halfBytes e.data i, count := 2, at_ := c }

/-- A message sent, or sent again. -/
def State.sendMessage (s : State) (c n : Nat) (e : Exchange) (g : Nat) : State :=
  s.updCol c fun x => (s.messageFlits c n g e).foldl (fun x f => x.sendCore c f) x

/-- Refused messages whose time has come sent again, each counted as a RETRY (R142, R297). -/
def State.resendExchanges (s : State) (c : Nat) : State :=
  (s.col c).warps.foldl (fun (s : State) w =>
    match ((s.col c).warp w.1).xch with
    | none => s
    | some e =>
      let due := e.resend.filter fun r => decide (r.2 ≤ s.clk)
      due.foldl (fun (s : State) r =>
        if 512 < (s.col c).nifCore.backlog.length + 2 then s
        else
          match ((s.col c).warp w.1).xch with
          | none => s
          | some e =>
            let e := { e with resend := e.resend.filter (· ≠ r) }
            (s.updCol c fun x => (x.setExchange w.1 (some e)).count (x.group (x.warp w.1).entry).launch 3).sendMessage c w.1 e r.1) s) s

/-- The issuing path left at its word to try again in the next cycle: its unit cannot accept it (R73, R295). -/
def State.inPlace (s : State) : State := s.inPlaceUntil (s.clk + 1)

/-- A pending error of an earlier exchange word, which the next one raises (R304). -/
def State.exchangeErred (s : State) : Option VPend :=
  s.thread.vpend.find? fun v => match v.error with | some (c, _) => decide (c = .xchMismatch) || decide (c = .xchPartner) | none => false

/-- What an exchange word sends to and receives from, by its kind, its gcol, the gang and its parameter (R300, with which R306's sixth row
disagrees: log 135, DEDUCED); none where R299 is broken. -/
def exchangePlan (kind c n : Nat) (v : Dword) : Option (List Nat × List Nat) :=
  let low := (v.extractLsb' 0 8).toNat
  let others := (List.range n).filter (· ≠ c)
  let only8 := decide (v.extractLsb' 8 56 = 0#56)
  let toRoot : List Nat × List Nat := if c = low then ([], others) else ([low], [])
  match kind with
  | 0 => if only8 ∧ (List.range 9).any (fun i => decide (n = 2 ^ i)) = true ∧ low < n then some ([c ^^^ low], [c ^^^ low]) else none
  | 1 => if only8 ∧ low < n then some ([(c + low) % n], [(c + n - low) % n]) else none
  | 2 => if only8 ∧ low < n then some (if c = low then (others, []) else ([], [low])) else none
  | 3 => if v.extractLsb' 8 24 = 0#24 ∧ v.extractLsb' 32 7 = 0#7 ∧ low < n then some toRoot else none
  | _ => if v.extractLsb' 12 52 = 0#52 ∧ (v.extractLsb' 8 4).toNat ≤ 10 ∧ low < n then some toRoot else none

/-- An exchange begun by the issuing warp: its entry, its count, its record and its pending write. -/
def State.beginExchange (s : State) (mid : Nat) (e : Exchange) (regs : List Reg) : Exchange × State :=
  let (vid, s) := s.pendVl regs none
  let e := { e with mid := mid, vid := vid, parity := s.warp.xcount % 2, lanes := s.active, path := s.path.uid, slotB := decide (s.pathCode = 1),
                    pkt := s.cur.pkt, wpos := s.cur.wpos }
  let nd := s.node s.launchId
  let groups := Tab.upd {} nd.launch.groups s.group.gid fun (g : GroupState) => { g with exchanged := true }
  let s := s.setNode s.launchId { nd with launch := { nd.launch with groups := groups } }
  (e, (s.updWarp fun w => { w with xch := some e, xcount := w.xcount + 1 }).updHere fun x =>
    { x with nifCore := { x.nifCore with entries := Tab.put x.nifCore.entries mid (s.entry, s.slot) } })

/-- The exchange words XCH.XOR, XCH.ROT, XCH.BC, XCH.GATH and XRED. -/
def State.exchangeWord (s : State) (kind : Nat) (d a b : BitVec 6) : Host.Outcome State Fault Refusal :=
  s.onCore <| outsideTx s fun s =>
    match s.exchangeErred with
    | some v => .next (s.raiseErred v)
    | none =>
      let v := s.sr b
      let c := s.gcol
      let n := s.launch.map.length
      match (if 16 ≤ s.group.localGroup then none else exchangePlan kind c n v) with
      | none => .next (s.trap .xchParam)
      | some (dests, sources) =>
        let root := decide ((v.extractLsb' 0 8).toNat = c)
        let off := (v.extractLsb' 32 32).toNat
        if kind = 3 ∧ root ∧ s.group.size < off + 128 * n then
          .next (s.raise .localRange { lanes := 1#32 <<< lowLane s.active, detail := BitVec.ofNat 64 off })
        else if s.warp.xch.isSome then .next (s.blockAt .exchange)
        else
          match s.freeMid s.cur.col with
          | none => .next s.inPlace
          | some mid =>
            if 512 < s.here.nifCore.backlog.length + 2 * dests.length then .next s.inPlace
            else
              let own := s.vr a
              let keeps := decide (2 ≤ kind) && root
              let writes := decide (kind ≤ 2) || (decide (kind = 4) && root)
              let (e, t) := s.beginExchange mid
                { kind := kind, parity := 0, mid := 0, sources := sources, unacked := dests.length, data := own, dest := d.toNat
                  op := (v.extractLsb' 8 4).toNat, got := if keeps then [(c, own)] else [], offset := off }
                (if writes then [Reg.v d.toNat s.active] else [])
              let t := dests.foldl (fun t g => t.sendMessage s.cur.col s.slot e g) t
              let t := if kind = 3 ∧ root then t.addHold .gatherRoot else t
              .next ((t.receive s.cur.col s.slot).updHere fun x => x.finishExchange s.slot)

def execXchXor (d a b : BitVec 6) (s : State) := accept .plain s fun s => s.exchangeWord 0 d a b
def execXchRot (d a b : BitVec 6) (s : State) := accept .plain s fun s => s.exchangeWord 1 d a b
def execXchBc (d a b : BitVec 6) (s : State) := accept .plain s fun s => s.exchangeWord 2 d a b
def execXchGath (a b : BitVec 6) (s : State) := accept .plain s fun s => s.exchangeWord 3 0#6 a b
def execXred (d a b : BitVec 6) (s : State) := accept .plain s fun s => s.exchangeWord 4 d a b

/-- XBAR (R303): a release at gang scope, then an arrival at gcol 0's bay; the commit token passes at its issue (R341). -/
def execXbar (s : State) :=
  accept .plain s fun s => s.onCore <| outsideTx s fun s =>
    match s.exchangeErred with
    | some v => .next (s.raiseErred v)
    | none =>
      if 16 ≤ s.group.localGroup then .next (s.trap .xchParam)
      else if s.warp.xch.isSome then .next (s.blockAt .exchange)
      else
        s.afterRelease 5 fun s =>
          match s.freeMid s.cur.col with
          | none => .next s.inPlace
          | some mid =>
            if 512 ≤ s.here.nifCore.backlog.length then .next s.inPlace
            else
              let (e, t) := (s.passToken s.cur.col s.slot).beginExchange mid { kind := 5, parity := 0, mid := 0 } []
              let f : Flit :=
                { type := 6, dst := bayRouter (s.launch.map.getD 0 0), src := s.cur.col, tc := 1, mid := mid, seq := 10
                  tag := t.tagOf s.cur.col s.slot e.parity, region := s.regionOf s.launchId, launch := s.launchId }
              .next ((t.updHere fun x => (x.setVpend s.slot e.vid fun v => { v with value := some [] }).sendCore s.cur.col f).addHold .xbar)

/-! ## Messages at the bay and at the core -/

/-- XDATA: a half of an exchange message. With its other half it is written into its slot and acknowledged, or refused with hint 1
while the slot holds an unread message; a partner that is not there then answers with a marked refusal, and no slot is written (R297,
R304). -/
def execXdata (c : Nat) (s : State) : Host.Outcome State Fault Refusal :=
  let x := s.col c
  match x.takeFlit fun f => decide (f.type = 5) with
  | none => .next s
  | some (f, y) =>
    match s.gangLaunch (f.tag / 1024) with
    | none => .next (s.setCol c y)
    | some (_, l) =>
      let ans (type hint : Nat) (partner : Bool) : Flit :=
        { type := type, dst := f.src, src := 0, tc := 0, mid := f.mid, seq := f.seq, tag := f.tag, region := f.region, launch := f.launch, hint := hint
          partner := partner, payload := bytesOf 1 hint }
      if !x.replyRoom c 1 f then .next s
      else
        let key := mailKey f.tag (l.gcolOf (f.src % 256))
        let m := Tab.get ({} : Mail) y.mail key
        let m := if f.seq % 2 = 0 then { m with lo := some f.payload } else { m with hi := some f.payload }
        let put (m : Mail) : Column := { y with mail := Tab.store ({} : Mail) y.mail key m }
        match m.lo, m.hi with
        | some a, some b =>
          let m := { m with lo := none, hi := none }
          if !l.liveLocal (l.gcolOf c) (f.tag / 64 % 16) then .next (s.setCol c ((put m).sendBay c (ans 4 0 true)))
          else if m.full then .next (s.setCol c ((put m).sendBay c (ans 4 1 false)))
          else
            let y := (put { m with full := true, kind := f.seq / 2, data := vecOfBytes (a ++ b) }).touchMail f.region (mailLine s.dist.sysMib key) true
            .next (s.setCol c (y.sendBay c (ans 3 0 false)))
        | _, _ => .next (s.setCol c (put m))

/-- An answer for a reassembly entry of a column's core taken by the saved group that it is for, or by the exchange that holds the entry
(R296). -/
def State.answerTo (s : State) (c : Nat) (f : Flit) (x : Column) (run : Nat → Exchange → State) : State :=
  match (s.setCol c x).keepFlit c f with
  | some t => t
  | none =>
    match x.exchangeOf f.mid with
    | some (n, e) => run n e
    | none => s.setCol c x

/-- ACK: an acknowledgement reaches its exchange word's entry, or the engine command whose message it answers (R236, R289, R296). -/
def execAck (c : Nat) (s : State) : Host.Outcome State Fault Refusal :=
  match (s.col c).takeFlit fun f => decide (f.type = 3) with
  | none => .next s
  | some (f, x) =>
    if f.dst < 256 then
      .next (s.answerTo c f x fun n e => s.setCol c ((x.setExchange n (some { e with unacked := e.unacked - 1 })).finishExchange n))
    else
      match x.answered f with
      | (some (_, k), x) => .next (s.setCol c (x.setCmd { k with unacked := k.unacked - 1 }))
      | (none, x) => .next (s.setCol c x)

/-- NACK: a refusal reaches an engine's message, which goes again after its hint's time, or its exchange
word's entry: the message is sent again after its hint's time, or XCH_PARTNER waits for its toucher (R297, R304). -/
def execNack (c : Nat) (s : State) : Host.Outcome State Fault Refusal :=
  match (s.col c).takeFlit fun f => decide (f.type = 4) with
  | none => .next s
  | some (f, x) =>
    if 256 ≤ f.dst then .next (s.setCol c (x.nacked f s.clk))
    else .next (s.answerTo c f x fun n e =>
      if f.partner then
        let e := { e with unacked := e.unacked - 1 }
        s.setCol c (((x.setExchange n (some e)).exchangeError n e .xchPartner).finishExchange n)
      else
        let g := (s.node (x.group (x.warp n).entry).launch).launch.gcolOf (f.src % 256)
        s.setCol c (x.setExchange n (some { e with resend := e.resend ++ [(g, s.clk + 8 * f.hint)] })))

/-- XCTL_ARRIVAL: an XBAR arrival at gcol 0's bay, which releases every member when all have arrived (R303). -/
def execXctlArrival (c : Nat) (s : State) : Host.Outcome State Fault Refusal :=
  let x := s.col c
  match x.takeFlit fun f => decide (f.type = 6) && decide (256 ≤ f.dst) with
  | none => .next s
  | some (f, y) =>
    match s.gangLaunch (f.tag / 1024) with
    | none => .next (s.setCol c y)
    | some (_, l) =>
      let j := f.tag / 64 % 16
      let members := (List.range l.map.length).filter fun g => l.hasLocal g j
      let all := y.xbar ++ [(f.tag, l.gcolOf (f.src % 256), f.mid)]
      let mine := all.filter fun a => decide (a.1 = f.tag)
      if members.all fun g => mine.any fun a => decide (a.2.1 = g) then
        if 512 < x.nifBay.backlog.length + members.length then .next s
        else
          let rel (a : Nat × Nat × Nat) : Flit :=
            { type := 6, dst := l.map.getD a.2.1 0, src := 0, tc := 0, mid := a.2.2, seq := 10, tag := f.tag, region := f.region, launch := f.launch }
          .next (s.setCol c (mine.foldl (fun y a => y.sendBay c (rel a)) { y with xbar := all.filter fun a => decide (a.1 ≠ f.tag) }))
      else .next (s.setCol c { y with xbar := all })

/-- XCTL_RELEASE: an XBAR's release reaches its member, which acquires at gang scope (R303). -/
def execXctlRelease (c : Nat) (s : State) : Host.Outcome State Fault Refusal :=
  match (s.col c).takeFlit fun f => decide (f.type = 6) && decide (f.dst < 256) with
  | none => .next s
  | some (f, x) =>
    .next (s.answerTo c f x fun n e =>
      let x := (x.setExchange n (some { e with released := true })).setVpend n e.vid fun v => { v with value := some [] }
      let w := x.warp n
      let x := x.setWarp n { w with th := { w.th with vpend := w.th.vpend.filter fun v => decide (v.id ≠ e.vid) } }
      s.setCol c ((x.acquireAt 0 (x.effScope n 5)).finishExchange n))

/-- ROUTER_CYCLE: refused messages whose time has come join their backlogs, and every router places, ejects and injects once a cycle
(R291). -/
def execRouterCycle (s : State) : Host.Outcome State Fault Refusal :=
  if s.clk < s.routeAt then .next s
  else
    let s := (Tab.keys s.cols).foldl State.resendExchanges s
    .next { s.busyRouters.foldl State.routerStep s with routeAt := s.clk + 1 }

end Sys2Proof.Machine
end

