-- ==== Sys2Proof/Machine/Exit.lean ====
section
/-! DEFINITION. EXIT (R125, R179). -/

namespace Sys2Proof.Machine

/-- The lanes of a warp's path retired (R125): they leave every open region, the path leaves its slot, and the regions
that this completes close; the last lane's exit passes the commit token (R341). -/
def State.retire (s : State) (n : Nat) (b : Bool) : State :=
  let p := s.path
  let s := s.endRun
  let s := s.updHere fun x =>
    let w := (x.warp n).setSlot b none
    let x := (x.setWarp n (w.exitLanes p.lanes)).settleRegions n
    x.setWarp n (x.warp n).fill
  let s := s.rejoinUpdate s.cur.col n
  if (s.here.warp n).exited = 0xFFFFFFFF#32 then s.passToken s.cur.col n else s

/-- EXIT (R160, R164, R179, R342): in a transaction it aborts first. It blocks while the warp's deferred queue holds words; the last lane's
stands at its word until all that its warp has issued is performed, and an ejected lane's until its own words are, so that an error met
meanwhile traps there (log 101, DEDUCED). An ejected lane leaves through its release (R196); the tinker and the factor cores stop issuing. -/
def execExit (s : State) :=
  accept .plain s fun s =>
    let s := if s.ownTx.isSome then s.abortTx .flow 0 0#64 else s
    match s.exitErred with
    | some (w, v) => .next ((s.setThreadOf s.cur.col w { s.threadOf s.cur.col w with
        vpend := (s.threadOf s.cur.col w).vpend.filter fun u => decide (u.id ≠ v.id) }).raiseErred v)
    | none =>
      if !s.exitFree then .next (if s.warp.deferred.isEmpty then s.holdAt .exit else s.blockAt .exit)
      else
        match s.cur.who with
        | .warp n b => .next (s.retire n b)
        | .lane i => .next (s.updHere fun x => x.setCtx i { x.ctx i with leaving := true, exiting := true })
        | _ => .next (s.updPath fun p => { p with lanes := 0#32 })

end Sys2Proof.Machine
end

