-- ==== Sys2Proof/WellFormed.lean ====
section
/-! DEFINITION. Which instruction terms an encoding admits (R41, R45, R47, R48, R123, R129, R131), and which
control bits a word may carry (R34, R36, R42). Everything else raises ILLEGAL at the word (R46). -/

namespace Sys2Proof

/-- The operand limits that the field widths of Syntax do not already state: a compare's condition code is at most 5
(R13), no k destination is k0 (R47), a reduction operator is at most 10 (R131), WAIT.L counts at most 32 (R129), a
doubleword access names an even register (R41), a branch table has a target (R123), a special register is listed
(R48) and, for SWRITE, writable, and a rounding mode is at most 4 where the prefix carries one (R42). -/
def Instr.wf : Instr → Bool
  | .nop => true
  | .yield => true
  | .exit => true
  | .brk _ => true
  | .sli _ _ => true
  | .slis _ _ => true
  | .sadd _ _ _ => true
  | .ssub _ _ _ => true
  | .smul _ _ _ => true
  | .smulh _ _ _ => true
  | .sand _ _ _ => true
  | .sor _ _ _ => true
  | .sxor _ _ _ => true
  | .sandn _ _ _ => true
  | .sshl _ _ _ => true
  | .sshr _ _ _ => true
  | .ssar _ _ _ => true
  | .srol _ _ _ => true
  | .smin _ _ _ => true
  | .smax _ _ _ => true
  | .sminu _ _ _ => true
  | .smaxu _ _ _ => true
  | .saddi _ _ _ => true
  | .scmp g _ _ _ => g.toNat ≤ 5
  | .scmpU g _ _ _ => g.toNat ≤ 5
  | .scmpi g _ _ _ => g.toNat ≤ 5
  | .smov _ _ => true
  | .scsel _ _ _ => true
  | .spopc _ _ => true
  | .sclz _ _ => true
  | .cand _ _ _ => true
  | .cor _ _ _ => true
  | .cxor _ _ _ => true
  | .candn _ _ _ => true
  | .sread _ b => b.toNat ≤ 12
  | .swrite _ b => b.toNat == 9
  | .sld _ _ _ => true
  | .sst _ _ _ => true
  | .iadd _ _ _ => true
  | .isub _ _ _ => true
  | .imin _ _ _ => true
  | .imax _ _ _ => true
  | .iminu _ _ _ => true
  | .imaxu _ _ _ => true
  | .iabs _ _ => true
  | .ineg _ _ => true
  | .imul _ _ _ => true
  | .imulh _ _ _ => true
  | .imulhu _ _ _ => true
  | .imad _ _ _ => true
  | .and _ _ _ => true
  | .or _ _ _ => true
  | .xor _ _ _ => true
  | .andn _ _ _ => true
  | .shl _ _ _ => true
  | .shr _ _ _ => true
  | .sar _ _ _ => true
  | .rol _ _ _ => true
  | .popc _ _ => true
  | .clz _ _ => true
  | .brev _ _ => true
  | .prmt _ _ _ => true
  | .bfe _ _ _ => true
  | .bfeu _ _ _ => true
  | .bfi _ _ _ => true
  | .idot4 _ _ _ => true
  | .iaddi _ _ _ => true
  | .andi _ _ _ => true
  | .ori _ _ _ => true
  | .xori _ _ _ => true
  | .shli _ _ _ => true
  | .shri _ _ _ => true
  | .sari _ _ _ => true
  | .roli _ _ _ => true
  | .icmp g d _ _ => g.toNat ≤ 5 && d != 0#3
  | .icmpU g d _ _ => g.toNat ≤ 5 && d != 0#3
  | .icmpi g d _ _ => g.toNat ≤ 5 && d != 0#3
  | .sel _ _ _ => true
  | .vmov _ _ => true
  | .vbc _ _ => true
  | .vgetl _ => true
  | .vli _ _ => true
  | .vsetl _ _ _ => true
  | .vlis _ _ => true
  | .iaddc _ _ _ => true
  | .isubb _ _ _ => true
  | .fadd _ _ _ => true
  | .fsub _ _ _ => true
  | .fmul _ _ _ => true
  | .ffma _ _ _ => true
  | .fmin _ _ _ => true
  | .fmax _ _ _ => true
  | .fabs _ _ => true
  | .fneg _ _ => true
  | .fcmp g d _ _ => g.toNat ≤ 5 && d != 0#3
  | .fcmpU g d _ _ => g.toNat ≤ 5 && d != 0#3
  | .frnd _ _ => true
  | .fscale _ _ _ => true
  | .fgetexp _ _ => true
  | .fclass _ _ => true
  | .badd2 _ _ _ => true
  | .bsub2 _ _ _ => true
  | .bmul2 _ _ _ => true
  | .bfma2 _ _ _ => true
  | .hadd2 _ _ _ => true
  | .hsub2 _ _ _ => true
  | .hmul2 _ _ _ => true
  | .hfma2 _ _ _ => true
  | .bmin2 _ _ _ => true
  | .bmax2 _ _ _ => true
  | .hmin2 _ _ _ => true
  | .hmax2 _ _ _ => true
  | .frcp _ _ => true
  | .frsq _ _ => true
  | .fsqrt _ _ => true
  | .ftanh _ _ => true
  | .fexp2 _ _ => true
  | .flog2 _ _ => true
  | .fsin _ _ => true
  | .fcos _ _ => true
  | .cvtF2i _ _ => true
  | .cvtF2u _ _ => true
  | .cvtI2f _ _ => true
  | .cvtU2f _ _ => true
  | .cvtF2b _ _ _ => true
  | .cvtF2h _ _ _ => true
  | .cvtB2f _ _ _ => true
  | .cvtH2f _ _ _ => true
  | .packE4m3 _ _ _ => true
  | .packE5m2 _ _ _ => true
  | .unpkE4m3 _ _ _ => true
  | .unpkE5m2 _ _ _ => true
  | .packTs8 _ _ _ => true
  | .unpkTs8 _ _ _ => true
  | .mxscale _ _ _ => true
  | .mxapply _ _ _ => true
  | .lpick _ _ _ => true
  | .lrot _ _ _ => true
  | .lxor _ _ _ => true
  | .lspan _ _ _ => true
  | .ksome _ _ => true
  | .kevery _ _ => true
  | .kone _ _ => true
  | .ksame _ _ => true
  | .lpeers _ _ => true
  | .lfirst _ _ => true
  | .kpopc _ _ => true
  | .kffs _ _ => true
  | .fold _ _ b => b.toNat ≤ 10
  | .foldBc _ _ b => b.toNat ≤ 10
  | .scanInc _ _ b => b.toNat ≤ 10
  | .scanExc _ _ b => b.toNat ≤ 10
  | .segred _ _ _ _ => true
  | .segscan _ _ _ _ => true
  | .kand d _ _ => d != 0#3
  | .kor d _ _ => d != 0#3
  | .kxor d _ _ => d != 0#3
  | .kandn d _ _ => d != 0#3
  | .kld d _ => d != 0#3
  | .kst _ _ => true
  | .knot d _ => d != 0#3
  | .kact d _ => d != 0#3
  | .br _ _ => true
  | .brF _ _ => true
  | .jmp _ => true
  | .call _ => true
  | .ret => true
  | .jmpi _ => true
  | .calli _ => true
  | .split _ _ _ => true
  | .join => true
  | .brt _ n => n != 0#8
  | .waitL a => a.toNat ≤ 32
  | .waitM _ => true
  | .sleep _ => true
  | .ld d _ _ z => z != 3#2 || !d.getLsbD 0
  | .ldsB _ _ _ => true
  | .ldsH _ _ _ => true
  | .ldQ _ _ _ => true
  | .pf _ _ => true
  | .st d _ _ z => z != 3#2 || !d.getLsbD 0
  | .stQ _ _ _ => true
  | .ldl d _ _ z => z != 3#2 || !d.getLsbD 0
  | .stl d _ _ z => z != 3#2 || !d.getLsbD 0
  | .ldAcqW _ _ _ => true
  | .ldAcqD _ _ _ => true
  | .stRelW _ _ _ => true
  | .stRelD _ _ _ => true
  | .atomAdd _ _ _ => true
  | .atomMin _ _ _ => true
  | .atomMax _ _ _ => true
  | .atomAnd _ _ _ => true
  | .atomOr _ _ _ => true
  | .atomXor _ _ _ => true
  | .atomXchg _ _ _ => true
  | .atomCas _ _ _ => true
  | .atomMinu _ _ _ => true
  | .atomMaxu _ _ _ => true
  | .atomInc _ _ _ => true
  | .atomDec _ _ _ => true
  | .atomFadd _ _ _ => true
  | .atomFmin _ _ _ => true
  | .atomFmax _ _ _ => true
  | .atomAdd64 _ _ _ => true
  | .atomlAdd _ _ _ => true
  | .atomlMin _ _ _ => true
  | .atomlMax _ _ _ => true
  | .atomlCas _ _ _ => true
  | .redAdd _ _ _ => true
  | .redMin _ _ _ => true
  | .redMax _ _ _ => true
  | .redFadd _ _ _ => true
  | .redBayAdd _ _ _ => true
  | .redBayMin _ _ _ => true
  | .redBayMax _ _ _ => true
  | .redBayFadd _ _ _ => true
  | .fence => true
  | .cclean _ _ => true
  | .cinv _ _ => true
  | .tbegin _ => true
  | .tend => true
  | .tabort _ => true
  | .tstat _ => true
  | .xchXor _ _ _ => true
  | .xchRot _ _ _ => true
  | .xchBc _ _ _ => true
  | .xchGath _ _ => true
  | .xred _ _ _ => true
  | .xbar => true
  | .bnew _ _ _ => true
  | .bfree _ => true
  | .bexp _ _ => true
  | .barr _ _ => true
  | .bwait _ => true
  | .bwaitg _ _ => true
  | .btest _ _ => true
  | .hwait _ => true
  | .htest _ _ => true
  | .hcancel _ => true
  | .hget _ _ => true
  | .hput _ _ => true
  | .tokwait => true
  | .tokpass => true
  | .copy _ _ _ _ => true
  | .gath _ _ _ => true
  | .scat _ _ _ => true
  | .copyRst _ _ _ => true
  | .mldw _ _ _ => true
  | .mswap _ => true
  | .mzero _ _ => true
  | .mloop _ _ _ _ => true
  | .mrd _ _ _ => true
  | .mstr _ _ _ => true
  | .cres _ _ _ => true
  | .crel _ => true
  | .cstat _ _ => true
  | .trap _ => true
  | .eret _ => true
  | .tlbi _ _ => true
  | .winr _ _ => true
  | .winw _ _ => true
  | .clkr _ => true
  | .perf _ _ => true
  | .ejctl _ _ => true
  | .signal _ => true
  | .launch _ _ _ => true
  | .pfx _ _ r _ _ _ _ y _ => y == 1#1 || r.toNat ≤ 4
  | .runArbitration _ _ => true
  | .variableLatencyLand _ _ _ => true
  | .nackRetry _ _ => true
  | .sleepExpire _ _ _ => true
  | .rejoinTimeout _ _ => true
  | .laneContextStart _ _ => true
  | .laneReturn _ _ => true
  | .taskRecordCheck => true
  | .launchRingEntry _ => true
  | .launchComplete _ => true
  | .makeResident _ => true
  | .preemptGroup _ _ => true
  | .quantumExpire _ _ => true
  | .waitPriorityRise _ _ => true
  | .startTimeReached _ => true
  | .watchdog _ => true
  | .claimSpan _ _ => true
  | .copyCommandStart _ _ => true
  | .copyTransfer _ _ => true
  | .gatherTransfer _ _ => true
  | .engineCommandDone _ _ => true
  | .barBytesDelivered _ => true
  | .thresherCommandStart _ _ => true
  | .thresherKstep _ _ => true
  | .mloopRowsLanded _ _ => true
  | .routerCycle => true
  | .injectionWindow => true
  | .xdata _ => true
  | .ack _ => true
  | .nack _ => true
  | .xctlArrival _ => true
  | .xctlRelease _ => true
  | .xredCombine _ _ => true
  | .rd _ => true
  | .rdata _ => true
  | .wdata _ => true
  | .mgmt _ => true
  | .sliceRequest _ _ => true
  | .hbmFill _ _ => true
  | .bayModeSwitch _ _ => true
  | .carveChange _ _ => true
  | .carveGrowDone _ => true
  | .bayRgnHtWrite _ _ _ => true
  | .bayAliasWrite _ _ _ _ => true
  | .slstatRead _ _ => true
  | .dutyMapWrite _ => true
  | .ringCfgWrite _ _ _ => true
  | .registerWrite _ _ _ => true
  | .attest => true
  | .pfaultDone => true
  | .train => true
  | .scrub => true
  | .eth => true
  | .thermal => true
  | .service => true
  | .qp => true
  | .fwupdate => true
  | .eccScrub => true
  | .thermalSample _ _ _ _ => true
  | .emergencyTrip => true
  | .boot _ _ => true
  | .functionLevelReset _ => true
  | .ptpSync _ _ => true
  | .peerRdmaRequest _ _ _ _ _ _ => true
  | .strandBeatError _ _ _ _ => true
  | .strandRetire _ _ => true
  | .linkCheckError _ _ _ => true
  | .containment _ _ => true
  | .migratePage _ _ _ _ => true
  | .tlbiComplete _ => true
  | .tinkerEvent _ => true
  | .debugRestart _ _ _ => true
  | .debugCancel _ _ _ => true
  | .peerAcknowledge _ _ _ => true
  | .peerLink _ _ => true
  | .hostLinkCompletion _ _ _ _ => true
  | .hostLinkRetriesExhausted _ _ => true
  | .shadowPlaneLoaded _ _ => true
  | .mstrTransfer _ _ => true
  | .tinkerRestart _ => true
  | .fringHead _ _ => true
  | .unknownOp => true
  | .ethernetLinkBringUp _ _ => true
  | .tripPointCleared => true

/-- The words that transfer control: none may carry C (R36). -/
def Instr.transfers : Instr → Bool
  | .br .. | .brF .. | .jmp .. | .call .. | .ret | .jmpi .. | .calli .. | .split .. | .join | .brt ..
  | .exit | .trap .. | .eret .. => true
  | _ => false

/-- The control bits a word may carry: no chain bit on a transfer (R36), none at all on a prefix word (R42). -/
def Instr.ctlOk (k : Ctl) : Instr → Bool
  | .pfx .. => !k.c && !k.b && k.s == 0#3
  | i => !(k.c && i.transfers)

/-- Is this one of the encoded words, or one of the steps that no word encodes? -/
def Instr.isWord : Instr → Bool
  | .nop => true
  | .yield => true
  | .exit => true
  | .brk .. => true
  | .sli .. => true
  | .slis .. => true
  | .sadd .. => true
  | .ssub .. => true
  | .smul .. => true
  | .smulh .. => true
  | .sand .. => true
  | .sor .. => true
  | .sxor .. => true
  | .sandn .. => true
  | .sshl .. => true
  | .sshr .. => true
  | .ssar .. => true
  | .srol .. => true
  | .smin .. => true
  | .smax .. => true
  | .sminu .. => true
  | .smaxu .. => true
  | .saddi .. => true
  | .scmp .. => true
  | .scmpU .. => true
  | .scmpi .. => true
  | .smov .. => true
  | .scsel .. => true
  | .spopc .. => true
  | .sclz .. => true
  | .cand .. => true
  | .cor .. => true
  | .cxor .. => true
  | .candn .. => true
  | .sread .. => true
  | .swrite .. => true
  | .sld .. => true
  | .sst .. => true
  | .iadd .. => true
  | .isub .. => true
  | .imin .. => true
  | .imax .. => true
  | .iminu .. => true
  | .imaxu .. => true
  | .iabs .. => true
  | .ineg .. => true
  | .imul .. => true
  | .imulh .. => true
  | .imulhu .. => true
  | .imad .. => true
  | .and .. => true
  | .or .. => true
  | .xor .. => true
  | .andn .. => true
  | .shl .. => true
  | .shr .. => true
  | .sar .. => true
  | .rol .. => true
  | .popc .. => true
  | .clz .. => true
  | .brev .. => true
  | .prmt .. => true
  | .bfe .. => true
  | .bfeu .. => true
  | .bfi .. => true
  | .idot4 .. => true
  | .iaddi .. => true
  | .andi .. => true
  | .ori .. => true
  | .xori .. => true
  | .shli .. => true
  | .shri .. => true
  | .sari .. => true
  | .roli .. => true
  | .icmp .. => true
  | .icmpU .. => true
  | .icmpi .. => true
  | .sel .. => true
  | .vmov .. => true
  | .vbc .. => true
  | .vgetl .. => true
  | .vli .. => true
  | .vsetl .. => true
  | .vlis .. => true
  | .iaddc .. => true
  | .isubb .. => true
  | .fadd .. => true
  | .fsub .. => true
  | .fmul .. => true
  | .ffma .. => true
  | .fmin .. => true
  | .fmax .. => true
  | .fabs .. => true
  | .fneg .. => true
  | .fcmp .. => true
  | .fcmpU .. => true
  | .frnd .. => true
  | .fscale .. => true
  | .fgetexp .. => true
  | .fclass .. => true
  | .badd2 .. => true
  | .bsub2 .. => true
  | .bmul2 .. => true
  | .bfma2 .. => true
  | .hadd2 .. => true
  | .hsub2 .. => true
  | .hmul2 .. => true
  | .hfma2 .. => true
  | .bmin2 .. => true
  | .bmax2 .. => true
  | .hmin2 .. => true
  | .hmax2 .. => true
  | .frcp .. => true
  | .frsq .. => true
  | .fsqrt .. => true
  | .ftanh .. => true
  | .fexp2 .. => true
  | .flog2 .. => true
  | .fsin .. => true
  | .fcos .. => true
  | .cvtF2i .. => true
  | .cvtF2u .. => true
  | .cvtI2f .. => true
  | .cvtU2f .. => true
  | .cvtF2b .. => true
  | .cvtF2h .. => true
  | .cvtB2f .. => true
  | .cvtH2f .. => true
  | .packE4m3 .. => true
  | .packE5m2 .. => true
  | .unpkE4m3 .. => true
  | .unpkE5m2 .. => true
  | .packTs8 .. => true
  | .unpkTs8 .. => true
  | .mxscale .. => true
  | .mxapply .. => true
  | .lpick .. => true
  | .lrot .. => true
  | .lxor .. => true
  | .lspan .. => true
  | .ksome .. => true
  | .kevery .. => true
  | .kone .. => true
  | .ksame .. => true
  | .lpeers .. => true
  | .lfirst .. => true
  | .kpopc .. => true
  | .kffs .. => true
  | .fold .. => true
  | .foldBc .. => true
  | .scanInc .. => true
  | .scanExc .. => true
  | .segred .. => true
  | .segscan .. => true
  | .kand .. => true
  | .kor .. => true
  | .kxor .. => true
  | .kandn .. => true
  | .kld .. => true
  | .kst .. => true
  | .knot .. => true
  | .kact .. => true
  | .br .. => true
  | .brF .. => true
  | .jmp .. => true
  | .call .. => true
  | .ret => true
  | .jmpi .. => true
  | .calli .. => true
  | .split .. => true
  | .join => true
  | .brt .. => true
  | .waitL .. => true
  | .waitM .. => true
  | .sleep .. => true
  | .ld .. => true
  | .ldsB .. => true
  | .ldsH .. => true
  | .ldQ .. => true
  | .pf .. => true
  | .st .. => true
  | .stQ .. => true
  | .ldl .. => true
  | .stl .. => true
  | .ldAcqW .. => true
  | .ldAcqD .. => true
  | .stRelW .. => true
  | .stRelD .. => true
  | .atomAdd .. => true
  | .atomMin .. => true
  | .atomMax .. => true
  | .atomAnd .. => true
  | .atomOr .. => true
  | .atomXor .. => true
  | .atomXchg .. => true
  | .atomCas .. => true
  | .atomMinu .. => true
  | .atomMaxu .. => true
  | .atomInc .. => true
  | .atomDec .. => true
  | .atomFadd .. => true
  | .atomFmin .. => true
  | .atomFmax .. => true
  | .atomAdd64 .. => true
  | .atomlAdd .. => true
  | .atomlMin .. => true
  | .atomlMax .. => true
  | .atomlCas .. => true
  | .redAdd .. => true
  | .redMin .. => true
  | .redMax .. => true
  | .redFadd .. => true
  | .redBayAdd .. => true
  | .redBayMin .. => true
  | .redBayMax .. => true
  | .redBayFadd .. => true
  | .fence => true
  | .cclean .. => true
  | .cinv .. => true
  | .tbegin .. => true
  | .tend => true
  | .tabort .. => true
  | .tstat .. => true
  | .xchXor .. => true
  | .xchRot .. => true
  | .xchBc .. => true
  | .xchGath .. => true
  | .xred .. => true
  | .xbar => true
  | .bnew .. => true
  | .bfree .. => true
  | .bexp .. => true
  | .barr .. => true
  | .bwait .. => true
  | .bwaitg .. => true
  | .btest .. => true
  | .hwait .. => true
  | .htest .. => true
  | .hcancel .. => true
  | .hget .. => true
  | .hput .. => true
  | .tokwait => true
  | .tokpass => true
  | .copy .. => true
  | .gath .. => true
  | .scat .. => true
  | .copyRst .. => true
  | .mldw .. => true
  | .mswap .. => true
  | .mzero .. => true
  | .mloop .. => true
  | .mrd .. => true
  | .mstr .. => true
  | .cres .. => true
  | .crel .. => true
  | .cstat .. => true
  | .trap .. => true
  | .eret .. => true
  | .tlbi .. => true
  | .winr .. => true
  | .winw .. => true
  | .clkr .. => true
  | .perf .. => true
  | .ejctl .. => true
  | .signal .. => true
  | .launch .. => true
  | .pfx .. => true
  | .runArbitration .. => false
  | .variableLatencyLand .. => false
  | .nackRetry .. => false
  | .sleepExpire .. => false
  | .rejoinTimeout .. => false
  | .laneContextStart .. => false
  | .laneReturn .. => false
  | .taskRecordCheck => false
  | .launchRingEntry .. => false
  | .launchComplete .. => false
  | .makeResident .. => false
  | .preemptGroup .. => false
  | .quantumExpire .. => false
  | .waitPriorityRise .. => false
  | .startTimeReached .. => false
  | .watchdog .. => false
  | .claimSpan .. => false
  | .copyCommandStart .. => false
  | .copyTransfer .. => false
  | .gatherTransfer .. => false
  | .engineCommandDone .. => false
  | .barBytesDelivered .. => false
  | .thresherCommandStart .. => false
  | .thresherKstep .. => false
  | .mloopRowsLanded .. => false
  | .routerCycle => false
  | .injectionWindow => false
  | .xdata .. => false
  | .ack .. => false
  | .nack .. => false
  | .xctlArrival .. => false
  | .xctlRelease .. => false
  | .xredCombine .. => false
  | .rd .. => false
  | .rdata .. => false
  | .wdata .. => false
  | .mgmt .. => false
  | .sliceRequest .. => false
  | .hbmFill .. => false
  | .bayModeSwitch .. => false
  | .carveChange .. => false
  | .carveGrowDone .. => false
  | .bayRgnHtWrite .. => false
  | .bayAliasWrite .. => false
  | .slstatRead .. => false
  | .dutyMapWrite .. => false
  | .ringCfgWrite .. => false
  | .registerWrite .. => false
  | .attest => false
  | .pfaultDone => false
  | .train => false
  | .scrub => false
  | .eth => false
  | .thermal => false
  | .service => false
  | .qp => false
  | .fwupdate => false
  | .eccScrub => false
  | .thermalSample .. => false
  | .emergencyTrip => false
  | .boot .. => false
  | .functionLevelReset .. => false
  | .ptpSync .. => false
  | .peerRdmaRequest .. => false
  | .strandBeatError .. => false
  | .strandRetire .. => false
  | .linkCheckError .. => false
  | .containment .. => false
  | .migratePage .. => false
  | .tlbiComplete .. => false
  | .tinkerEvent .. => false
  | .debugRestart .. => false
  | .debugCancel .. => false
  | .peerAcknowledge .. => false
  | .peerLink .. => false
  | .hostLinkCompletion .. => false
  | .hostLinkRetriesExhausted .. => false
  | .shadowPlaneLoaded .. => false
  | .mstrTransfer .. => false
  | .tinkerRestart .. => false
  | .fringHead .. => false
  | .unknownOp => false
  | .ethernetLinkBringUp .. => false
  | .tripPointCleared => false

end Sys2Proof
end

