-- ==== Sys2Proof/Decode.lean ====
section
/-! DEFINITION. The decoder, total on every word, and after it the encoder, both written from the opcode map and the
format tables (R34, R40, R42, R45, and each chapter's encoding table). A word that is no instruction is rejected by
name; the machine raises ILLEGAL for it (R46). -/

namespace Sys2Proof

/-- Why a word is no instruction (R46). -/
inductive DecodeError where
  /-- an OP that R45 does not list, 0x7F among them -/
  | opcode (op : BitVec 7)
  /-- an fn that R45 marks with a dash -/
  | function (op : BitVec 7) (fn : BitVec 2)
  /-- a nonzero reserved or unused bit, or a register out of its file's range (R41) -/
  | reserved
  /-- an operand value outside the limits of Instr.wf -/
  | operand
  /-- control bits that the word may not carry (R36, R42) -/
  | control
  deriving DecidableEq, Repr

/-- The four groups of the format fields: bits 19:14, 13:8, 7:2 and 1:0 (R40). -/
structure Fmt where
  d : BitVec 6
  a : BitVec 6
  b : BitVec 6
  f : BitVec 2
  deriving DecidableEq, Repr

/-- The control fields of a word (R34). -/
def ctlOf (w : Word) : Ctl := ⟨w.getLsbD 31, w.getLsbD 30, w.extractLsb' 27 3⟩
/-- The major opcode of a word (R34). -/
def opOf (w : Word) : BitVec 7 := w.extractLsb' 20 7
/-- The format fields of a word (R40). -/
def fmtOf (w : Word) : Fmt := ⟨w.extractLsb' 14 6, w.extractLsb' 8 6, w.extractLsb' 2 6, w.extractLsb' 0 2⟩

/-- An instruction, provided that its fixed bits hold what the encoding fixes. -/
def fixed (ok : Bool) (i : Instr) : Except DecodeError Instr := if ok then .ok i else .error .reserved

/-- OP 0x00: NOP, YIELD, EXIT, BRK (R45). -/
def decode00 (x : Fmt) : Except DecodeError Instr :=
  if x.f == 0#2 then fixed (x.d == 0#6 && x.a == 0#6 && x.b == 0#6) .nop
  else if x.f == 1#2 then fixed (x.d == 0#6 && x.a == 0#6 && x.b == 0#6) .yield
  else if x.f == 2#2 then fixed (x.d == 0#6 && x.a == 0#6 && x.b == 0#6) .exit
  else .ok (.brk (x.d ++ x.a ++ x.b))

/-- OP 0x01: SLI (R45). -/
def decode01 (x : Fmt) : Except DecodeError Instr :=
  .ok (.sli x.d (x.a ++ x.b ++ x.f))

/-- OP 0x02: SLIS (R45). -/
def decode02 (x : Fmt) : Except DecodeError Instr :=
  .ok (.slis x.d (x.a ++ x.b ++ x.f))

/-- OP 0x03: SADD, SSUB, SMUL, SMULH (R45). -/
def decode03 (x : Fmt) : Except DecodeError Instr :=
  if x.f == 0#2 then .ok (.sadd x.d x.a x.b)
  else if x.f == 1#2 then .ok (.ssub x.d x.a x.b)
  else if x.f == 2#2 then .ok (.smul x.d x.a x.b)
  else .ok (.smulh x.d x.a x.b)

/-- OP 0x04: SAND, SOR, SXOR, SANDN (R45). -/
def decode04 (x : Fmt) : Except DecodeError Instr :=
  if x.f == 0#2 then .ok (.sand x.d x.a x.b)
  else if x.f == 1#2 then .ok (.sor x.d x.a x.b)
  else if x.f == 2#2 then .ok (.sxor x.d x.a x.b)
  else .ok (.sandn x.d x.a x.b)

/-- OP 0x05: SSHL, SSHR, SSAR, SROL (R45). -/
def decode05 (x : Fmt) : Except DecodeError Instr :=
  if x.f == 0#2 then .ok (.sshl x.d x.a x.b)
  else if x.f == 1#2 then .ok (.sshr x.d x.a x.b)
  else if x.f == 2#2 then .ok (.ssar x.d x.a x.b)
  else .ok (.srol x.d x.a x.b)

/-- OP 0x06: SMIN, SMAX, SMINU, SMAXU (R45). -/
def decode06 (x : Fmt) : Except DecodeError Instr :=
  if x.f == 0#2 then .ok (.smin x.d x.a x.b)
  else if x.f == 1#2 then .ok (.smax x.d x.a x.b)
  else if x.f == 2#2 then .ok (.sminu x.d x.a x.b)
  else .ok (.smaxu x.d x.a x.b)

/-- OP 0x07: SADDI (R45). -/
def decode07 (x : Fmt) : Except DecodeError Instr :=
  .ok (.saddi x.d x.a (x.b ++ x.f))

/-- OP 0x08: SCMP, SCMP_U (R45). -/
def decode08 (x : Fmt) : Except DecodeError Instr :=
  if x.f == 0#2 then .ok (.scmp (x.d.extractLsb' 3 3) (x.d.extractLsb' 0 3) x.a x.b)
  else if x.f == 1#2 then .ok (.scmpU (x.d.extractLsb' 3 3) (x.d.extractLsb' 0 3) x.a x.b)
  else .error (.function 0x08#7 x.f)

/-- OP 0x09: SCMPI (R45). -/
def decode09 (x : Fmt) : Except DecodeError Instr :=
  .ok (.scmpi (x.d.extractLsb' 3 3) (x.d.extractLsb' 0 3) x.a (x.b ++ x.f))

/-- OP 0x0A: SMOV, SCSEL, SPOPC, SCLZ (R45). -/
def decode0A (x : Fmt) : Except DecodeError Instr :=
  if x.f == 0#2 then fixed (x.b == 0#6) (.smov x.d x.a)
  else if x.f == 1#2 then fixed (x.b.extractLsb' 3 3 == 0#3) (.scsel x.d x.a (x.b.extractLsb' 0 3))
  else if x.f == 2#2 then fixed (x.b == 0#6) (.spopc x.d x.a)
  else fixed (x.b == 0#6) (.sclz x.d x.a)

/-- OP 0x0B: CAND, COR, CXOR, CANDN (R45). -/
def decode0B (x : Fmt) : Except DecodeError Instr :=
  if x.f == 0#2 then fixed (x.d.extractLsb' 3 3 == 0#3 && x.a.extractLsb' 3 3 == 0#3 && x.b.extractLsb' 3 3 == 0#3) (.cand (x.d.extractLsb' 0 3) (x.a.extractLsb' 0 3) (x.b.extractLsb' 0 3))
  else if x.f == 1#2 then fixed (x.d.extractLsb' 3 3 == 0#3 && x.a.extractLsb' 3 3 == 0#3 && x.b.extractLsb' 3 3 == 0#3) (.cor (x.d.extractLsb' 0 3) (x.a.extractLsb' 0 3) (x.b.extractLsb' 0 3))
  else if x.f == 2#2 then fixed (x.d.extractLsb' 3 3 == 0#3 && x.a.extractLsb' 3 3 == 0#3 && x.b.extractLsb' 3 3 == 0#3) (.cxor (x.d.extractLsb' 0 3) (x.a.extractLsb' 0 3) (x.b.extractLsb' 0 3))
  else fixed (x.d.extractLsb' 3 3 == 0#3 && x.a.extractLsb' 3 3 == 0#3 && x.b.extractLsb' 3 3 == 0#3) (.candn (x.d.extractLsb' 0 3) (x.a.extractLsb' 0 3) (x.b.extractLsb' 0 3))

/-- OP 0x0C: SREAD, SWRITE (R45). -/
def decode0C (x : Fmt) : Except DecodeError Instr :=
  if x.f == 0#2 then fixed (x.a == 0#6) (.sread x.d x.b)
  else if x.f == 1#2 then fixed (x.d == 0#6) (.swrite x.a x.b)
  else .error (.function 0x0C#7 x.f)

/-- OP 0x0D: SLD (R45). -/
def decode0D (x : Fmt) : Except DecodeError Instr :=
  .ok (.sld x.d x.a (x.b ++ x.f))

/-- OP 0x0E: SST (R45). -/
def decode0E (x : Fmt) : Except DecodeError Instr :=
  .ok (.sst x.d x.a (x.b ++ x.f))

/-- OP 0x10: IADD, ISUB, IMIN, IMAX (R45). -/
def decode10 (x : Fmt) : Except DecodeError Instr :=
  if x.f == 0#2 then .ok (.iadd x.d x.a x.b)
  else if x.f == 1#2 then .ok (.isub x.d x.a x.b)
  else if x.f == 2#2 then .ok (.imin x.d x.a x.b)
  else .ok (.imax x.d x.a x.b)

/-- OP 0x11: IMINU, IMAXU, IABS, INEG (R45). -/
noncomputable def decode11 (x : Fmt) : Except DecodeError Instr :=
  if x.f == 0#2 then .ok (.iminu x.d x.a x.b)
  else if x.f == 1#2 then .ok (.imaxu x.d x.a x.b)
  else if x.f == 2#2 then fixed (x.b == 0#6) (.iabs x.d x.a)
  else fixed (x.b == 0#6) (.ineg x.d x.a)

/-- OP 0x12: IMUL, IMULH, IMULHU, IMAD (R45). -/
def decode12 (x : Fmt) : Except DecodeError Instr :=
  if x.f == 0#2 then .ok (.imul x.d x.a x.b)
  else if x.f == 1#2 then .ok (.imulh x.d x.a x.b)
  else if x.f == 2#2 then .ok (.imulhu x.d x.a x.b)
  else .ok (.imad x.d x.a x.b)

/-- OP 0x13: AND, OR, XOR, ANDN (R45). -/
def decode13 (x : Fmt) : Except DecodeError Instr :=
  if x.f == 0#2 then .ok (.and x.d x.a x.b)
  else if x.f == 1#2 then .ok (.or x.d x.a x.b)
  else if x.f == 2#2 then .ok (.xor x.d x.a x.b)
  else .ok (.andn x.d x.a x.b)

/-- OP 0x14: SHL, SHR, SAR, ROL (R45). -/
def decode14 (x : Fmt) : Except DecodeError Instr :=
  if x.f == 0#2 then .ok (.shl x.d x.a x.b)
  else if x.f == 1#2 then .ok (.shr x.d x.a x.b)
  else if x.f == 2#2 then .ok (.sar x.d x.a x.b)
  else .ok (.rol x.d x.a x.b)

/-- OP 0x15: POPC, CLZ, BREV, PRMT (R45). -/
def decode15 (x : Fmt) : Except DecodeError Instr :=
  if x.f == 0#2 then fixed (x.b == 0#6) (.popc x.d x.a)
  else if x.f == 1#2 then fixed (x.b == 0#6) (.clz x.d x.a)
  else if x.f == 2#2 then fixed (x.b == 0#6) (.brev x.d x.a)
  else .ok (.prmt x.d x.a x.b)

/-- OP 0x16: BFE, BFEU, BFI, IDOT4 (R45). -/
def decode16 (x : Fmt) : Except DecodeError Instr :=
  if x.f == 0#2 then .ok (.bfe x.d x.a x.b)
  else if x.f == 1#2 then .ok (.bfeu x.d x.a x.b)
  else if x.f == 2#2 then .ok (.bfi x.d x.a x.b)
  else .ok (.idot4 x.d x.a x.b)

/-- OP 0x17: IADDI (R45). -/
def decode17 (x : Fmt) : Except DecodeError Instr :=
  .ok (.iaddi x.d x.a (x.b ++ x.f))

/-- OP 0x18: ANDI (R45). -/
def decode18 (x : Fmt) : Except DecodeError Instr :=
  .ok (.andi x.d x.a (x.b ++ x.f))

/-- OP 0x19: ORI (R45). -/
def decode19 (x : Fmt) : Except DecodeError Instr :=
  .ok (.ori x.d x.a (x.b ++ x.f))

/-- OP 0x1A: XORI (R45). -/
def decode1A (x : Fmt) : Except DecodeError Instr :=
  .ok (.xori x.d x.a (x.b ++ x.f))

/-- OP 0x1B: SHLI, SHRI, SARI, ROLI (R45). -/
def decode1B (x : Fmt) : Except DecodeError Instr :=
  if x.b.extractLsb' 3 3 == 0#3 then .ok (.shli x.d x.a (x.b.extractLsb' 0 3 ++ x.f))
  else if x.b.extractLsb' 3 3 == 2#3 then .ok (.shri x.d x.a (x.b.extractLsb' 0 3 ++ x.f))
  else if x.b.extractLsb' 3 3 == 4#3 then .ok (.sari x.d x.a (x.b.extractLsb' 0 3 ++ x.f))
  else if x.b.extractLsb' 3 3 == 6#3 then .ok (.roli x.d x.a (x.b.extractLsb' 0 3 ++ x.f))
  else .error .reserved

/-- OP 0x1C: ICMP, ICMP_U (R45). -/
def decode1C (x : Fmt) : Except DecodeError Instr :=
  if x.f == 0#2 then .ok (.icmp (x.d.extractLsb' 3 3) (x.d.extractLsb' 0 3) x.a x.b)
  else if x.f == 1#2 then .ok (.icmpU (x.d.extractLsb' 3 3) (x.d.extractLsb' 0 3) x.a x.b)
  else .error (.function 0x1C#7 x.f)

/-- OP 0x1D: ICMPI (R45). -/
def decode1D (x : Fmt) : Except DecodeError Instr :=
  .ok (.icmpi (x.d.extractLsb' 3 3) (x.d.extractLsb' 0 3) x.a (x.b ++ x.f))

/-- OP 0x1E: SEL, VMOV, VBC, VGETL (R45). -/
def decode1E (x : Fmt) : Except DecodeError Instr :=
  if x.f == 0#2 then .ok (.sel x.d x.a x.b)
  else if x.f == 1#2 then fixed (x.b == 0#6) (.vmov x.d x.a)
  else if x.f == 2#2 then fixed (x.b == 0#6) (.vbc x.d x.a)
  else fixed (x.a == 0#6 && x.b == 0#6) (.vgetl x.d)

/-- OP 0x1F: VLI (R45). -/
def decode1F (x : Fmt) : Except DecodeError Instr :=
  .ok (.vli x.d (x.a ++ x.b ++ x.f))

/-- OP 0x20: VSETL, VLIS, IADDC, ISUBB (R45). -/
def decode20 (x : Fmt) : Except DecodeError Instr :=
  if x.f == 0#2 then .ok (.vsetl x.d x.a x.b)
  else if x.f == 1#2 then .ok (.vlis x.d (x.a ++ x.b))
  else if x.f == 2#2 then fixed (x.d.extractLsb' 0 1 == 0#1 && x.a.extractLsb' 0 1 == 0#1 && x.b.extractLsb' 0 1 == 0#1) (.iaddc (x.d.extractLsb' 1 5) (x.a.extractLsb' 1 5) (x.b.extractLsb' 1 5))
  else fixed (x.d.extractLsb' 0 1 == 0#1 && x.a.extractLsb' 0 1 == 0#1 && x.b.extractLsb' 0 1 == 0#1) (.isubb (x.d.extractLsb' 1 5) (x.a.extractLsb' 1 5) (x.b.extractLsb' 1 5))

/-- OP 0x30: FADD, FSUB, FMUL, FFMA (R45). -/
def decode30 (x : Fmt) : Except DecodeError Instr :=
  if x.f == 0#2 then .ok (.fadd x.d x.a x.b)
  else if x.f == 1#2 then .ok (.fsub x.d x.a x.b)
  else if x.f == 2#2 then .ok (.fmul x.d x.a x.b)
  else .ok (.ffma x.d x.a x.b)

/-- OP 0x31: FMIN, FMAX, FABS, FNEG (R45). -/
def decode31 (x : Fmt) : Except DecodeError Instr :=
  if x.f == 0#2 then .ok (.fmin x.d x.a x.b)
  else if x.f == 1#2 then .ok (.fmax x.d x.a x.b)
  else if x.f == 2#2 then fixed (x.b == 0#6) (.fabs x.d x.a)
  else fixed (x.b == 0#6) (.fneg x.d x.a)

/-- OP 0x32: FCMP, FCMP_U (R45). -/
def decode32 (x : Fmt) : Except DecodeError Instr :=
  if x.f == 0#2 then .ok (.fcmp (x.d.extractLsb' 3 3) (x.d.extractLsb' 0 3) x.a x.b)
  else if x.f == 1#2 then .ok (.fcmpU (x.d.extractLsb' 3 3) (x.d.extractLsb' 0 3) x.a x.b)
  else .error (.function 0x32#7 x.f)

/-- OP 0x33: FRND, FSCALE, FGETEXP, FCLASS (R45). -/
def decode33 (x : Fmt) : Except DecodeError Instr :=
  if x.f == 0#2 then fixed (x.b == 0#6) (.frnd x.d x.a)
  else if x.f == 1#2 then .ok (.fscale x.d x.a x.b)
  else if x.f == 2#2 then fixed (x.b == 0#6) (.fgetexp x.d x.a)
  else fixed (x.b == 0#6) (.fclass x.d x.a)

/-- OP 0x34: BADD2, BSUB2, BMUL2, BFMA2 (R45). -/
noncomputable def decode34 (x : Fmt) : Except DecodeError Instr :=
  if x.f == 0#2 then .ok (.badd2 x.d x.a x.b)
  else if x.f == 1#2 then .ok (.bsub2 x.d x.a x.b)
  else if x.f == 2#2 then .ok (.bmul2 x.d x.a x.b)
  else .ok (.bfma2 x.d x.a x.b)

/-- OP 0x35: HADD2, HSUB2, HMUL2, HFMA2 (R45). -/
noncomputable def decode35 (x : Fmt) : Except DecodeError Instr :=
  if x.f == 0#2 then .ok (.hadd2 x.d x.a x.b)
  else if x.f == 1#2 then .ok (.hsub2 x.d x.a x.b)
  else if x.f == 2#2 then .ok (.hmul2 x.d x.a x.b)
  else .ok (.hfma2 x.d x.a x.b)

/-- OP 0x36: BMIN2, BMAX2, HMIN2, HMAX2 (R45). -/
noncomputable def decode36 (x : Fmt) : Except DecodeError Instr :=
  if x.f == 0#2 then .ok (.bmin2 x.d x.a x.b)
  else if x.f == 1#2 then .ok (.bmax2 x.d x.a x.b)
  else if x.f == 2#2 then .ok (.hmin2 x.d x.a x.b)
  else .ok (.hmax2 x.d x.a x.b)

/-- OP 0x40: FRCP, FRSQ, FSQRT, FTANH (R45). -/
def decode40 (x : Fmt) : Except DecodeError Instr :=
  if x.f == 0#2 then fixed (x.b == 0#6) (.frcp x.d x.a)
  else if x.f == 1#2 then fixed (x.b == 0#6) (.frsq x.d x.a)
  else if x.f == 2#2 then fixed (x.b == 0#6) (.fsqrt x.d x.a)
  else fixed (x.b == 0#6) (.ftanh x.d x.a)

/-- OP 0x41: FEXP2, FLOG2, FSIN, FCOS (R45). -/
def decode41 (x : Fmt) : Except DecodeError Instr :=
  if x.f == 0#2 then fixed (x.b == 0#6) (.fexp2 x.d x.a)
  else if x.f == 1#2 then fixed (x.b == 0#6) (.flog2 x.d x.a)
  else if x.f == 2#2 then fixed (x.b == 0#6) (.fsin x.d x.a)
  else fixed (x.b == 0#6) (.fcos x.d x.a)

/-- OP 0x42: CVT_F2I, CVT_F2U, CVT_I2F, CVT_U2F (R45). -/
def decode42 (x : Fmt) : Except DecodeError Instr :=
  if x.f == 0#2 then fixed (x.b == 0#6) (.cvtF2i x.d x.a)
  else if x.f == 1#2 then fixed (x.b == 0#6) (.cvtF2u x.d x.a)
  else if x.f == 2#2 then fixed (x.b == 0#6) (.cvtI2f x.d x.a)
  else fixed (x.b == 0#6) (.cvtU2f x.d x.a)

/-- OP 0x43: CVT_F2B, CVT_F2H, CVT_B2F, CVT_H2F (R45). -/
def decode43 (x : Fmt) : Except DecodeError Instr :=
  if x.f == 0#2 then .ok (.cvtF2b x.d x.a x.b)
  else if x.f == 1#2 then .ok (.cvtF2h x.d x.a x.b)
  else if x.f == 2#2 then fixed (x.b.extractLsb' 1 5 == 0#5) (.cvtB2f x.d x.a (x.b.extractLsb' 0 1))
  else fixed (x.b.extractLsb' 1 5 == 0#5) (.cvtH2f x.d x.a (x.b.extractLsb' 0 1))

/-- OP 0x44: PACK_E4M3, PACK_E5M2, UNPK_E4M3, UNPK_E5M2 (R45). -/
def decode44 (x : Fmt) : Except DecodeError Instr :=
  if x.f == 0#2 then fixed (x.a.extractLsb' 0 1 == 0#1 && x.b.extractLsb' 0 1 == 0#1) (.packE4m3 x.d (x.a.extractLsb' 1 5) (x.b.extractLsb' 1 5))
  else if x.f == 1#2 then fixed (x.a.extractLsb' 0 1 == 0#1 && x.b.extractLsb' 0 1 == 0#1) (.packE5m2 x.d (x.a.extractLsb' 1 5) (x.b.extractLsb' 1 5))
  else if x.f == 2#2 then fixed (x.d.extractLsb' 0 1 == 0#1 && x.b.extractLsb' 1 5 == 0#5) (.unpkE4m3 (x.d.extractLsb' 1 5) x.a (x.b.extractLsb' 0 1))
  else fixed (x.d.extractLsb' 0 1 == 0#1 && x.b.extractLsb' 1 5 == 0#5) (.unpkE5m2 (x.d.extractLsb' 1 5) x.a (x.b.extractLsb' 0 1))

/-- OP 0x45: PACK_TS8, UNPK_TS8, MXSCALE, MXAPPLY (R45). -/
def decode45 (x : Fmt) : Except DecodeError Instr :=
  if x.f == 0#2 then fixed (x.a.extractLsb' 0 1 == 0#1 && x.b.extractLsb' 0 1 == 0#1) (.packTs8 x.d (x.a.extractLsb' 1 5) (x.b.extractLsb' 1 5))
  else if x.f == 1#2 then fixed (x.d.extractLsb' 0 1 == 0#1 && x.b.extractLsb' 1 5 == 0#5) (.unpkTs8 (x.d.extractLsb' 1 5) x.a (x.b.extractLsb' 0 1))
  else if x.f == 2#2 then fixed (x.b.extractLsb' 2 4 == 0#4) (.mxscale x.d x.a (x.b.extractLsb' 0 2))
  else .ok (.mxapply x.d x.a x.b)

/-- OP 0x48: LPICK, LROT, LXOR, LSPAN (R45). -/
def decode48 (x : Fmt) : Except DecodeError Instr :=
  if x.f == 0#2 then .ok (.lpick x.d x.a x.b)
  else if x.f == 1#2 then .ok (.lrot x.d x.a x.b)
  else if x.f == 2#2 then .ok (.lxor x.d x.a x.b)
  else .ok (.lspan x.d x.a x.b)

/-- OP 0x49: KSOME, KEVERY, KONE, KSAME (R45). -/
def decode49 (x : Fmt) : Except DecodeError Instr :=
  if x.f == 0#2 then fixed (x.d.extractLsb' 3 3 == 0#3 && x.a.extractLsb' 3 3 == 0#3 && x.b == 0#6) (.ksome (x.d.extractLsb' 0 3) (x.a.extractLsb' 0 3))
  else if x.f == 1#2 then fixed (x.d.extractLsb' 3 3 == 0#3 && x.a.extractLsb' 3 3 == 0#3 && x.b == 0#6) (.kevery (x.d.extractLsb' 0 3) (x.a.extractLsb' 0 3))
  else if x.f == 2#2 then fixed (x.d.extractLsb' 3 3 == 0#3 && x.a.extractLsb' 3 3 == 0#3 && x.b == 0#6) (.kone (x.d.extractLsb' 0 3) (x.a.extractLsb' 0 3))
  else fixed (x.d.extractLsb' 3 3 == 0#3 && x.a.extractLsb' 3 3 == 0#3 && x.b == 0#6) (.ksame (x.d.extractLsb' 0 3) (x.a.extractLsb' 0 3))

/-- OP 0x4A: LPEERS, LFIRST, KPOPC, KFFS (R45). -/
def decode4A (x : Fmt) : Except DecodeError Instr :=
  if x.f == 0#2 then fixed (x.b == 0#6) (.lpeers x.d x.a)
  else if x.f == 1#2 then fixed (x.b == 0#6) (.lfirst x.d x.a)
  else if x.f == 2#2 then fixed (x.a.extractLsb' 3 3 == 0#3 && x.b == 0#6) (.kpopc x.d (x.a.extractLsb' 0 3))
  else fixed (x.a.extractLsb' 3 3 == 0#3 && x.b == 0#6) (.kffs x.d (x.a.extractLsb' 0 3))

/-- OP 0x4B: FOLD, FOLD_BC (R45). -/
def decode4B (x : Fmt) : Except DecodeError Instr :=
  if x.f == 0#2 then .ok (.fold x.d x.a x.b)
  else if x.f == 1#2 then .ok (.foldBc x.d x.a x.b)
  else .error (.function 0x4B#7 x.f)

/-- OP 0x4C: SCAN_INC, SCAN_EXC (R45). -/
def decode4C (x : Fmt) : Except DecodeError Instr :=
  if x.f == 0#2 then .ok (.scanInc x.d x.a x.b)
  else if x.f == 1#2 then .ok (.scanExc x.d x.a x.b)
  else .error (.function 0x4C#7 x.f)

/-- OP 0x4D: SEGRED, SEGSCAN (R45). -/
def decode4D (x : Fmt) : Except DecodeError Instr :=
  if x.f == 0#2 then .ok (.segred x.d x.a (x.b.extractLsb' 3 3) (x.b.extractLsb' 0 3))
  else if x.f == 1#2 then .ok (.segscan x.d x.a (x.b.extractLsb' 3 3) (x.b.extractLsb' 0 3))
  else .error (.function 0x4D#7 x.f)

/-- OP 0x4E: KAND, KOR, KXOR, KANDN (R45). -/
def decode4E (x : Fmt) : Except DecodeError Instr :=
  if x.f == 0#2 then fixed (x.d.extractLsb' 3 3 == 0#3 && x.a.extractLsb' 3 3 == 0#3 && x.b.extractLsb' 3 3 == 0#3) (.kand (x.d.extractLsb' 0 3) (x.a.extractLsb' 0 3) (x.b.extractLsb' 0 3))
  else if x.f == 1#2 then fixed (x.d.extractLsb' 3 3 == 0#3 && x.a.extractLsb' 3 3 == 0#3 && x.b.extractLsb' 3 3 == 0#3) (.kor (x.d.extractLsb' 0 3) (x.a.extractLsb' 0 3) (x.b.extractLsb' 0 3))
  else if x.f == 2#2 then fixed (x.d.extractLsb' 3 3 == 0#3 && x.a.extractLsb' 3 3 == 0#3 && x.b.extractLsb' 3 3 == 0#3) (.kxor (x.d.extractLsb' 0 3) (x.a.extractLsb' 0 3) (x.b.extractLsb' 0 3))
  else fixed (x.d.extractLsb' 3 3 == 0#3 && x.a.extractLsb' 3 3 == 0#3 && x.b.extractLsb' 3 3 == 0#3) (.kandn (x.d.extractLsb' 0 3) (x.a.extractLsb' 0 3) (x.b.extractLsb' 0 3))

/-- OP 0x4F: KLD, KST, KNOT, KACT (R45). -/
def decode4F (x : Fmt) : Except DecodeError Instr :=
  if x.f == 0#2 then fixed (x.d.extractLsb' 3 3 == 0#3 && x.b == 0#6) (.kld (x.d.extractLsb' 0 3) x.a)
  else if x.f == 1#2 then fixed (x.a.extractLsb' 3 3 == 0#3 && x.b == 0#6) (.kst x.d (x.a.extractLsb' 0 3))
  else if x.f == 2#2 then fixed (x.d.extractLsb' 3 3 == 0#3 && x.a.extractLsb' 3 3 == 0#3 && x.b == 0#6) (.knot (x.d.extractLsb' 0 3) (x.a.extractLsb' 0 3))
  else fixed (x.d.extractLsb' 3 3 == 0#3 && x.b == 0#6) (.kact (x.d.extractLsb' 0 3) x.a)

/-- OP 0x50: BR, BR_F (R45). -/
def decode50 (x : Fmt) : Except DecodeError Instr :=
  if x.d.extractLsb' 2 1 == 1#1 then .ok (.br (x.d.extractLsb' 3 3) (x.d.extractLsb' 0 2 ++ x.a ++ x.b ++ x.f))
  else if x.d.extractLsb' 2 1 == 0#1 then .ok (.brF (x.d.extractLsb' 3 3) (x.d.extractLsb' 0 2 ++ x.a ++ x.b ++ x.f))
  else .error .reserved

/-- OP 0x51: JMP (R45). -/
def decode51 (x : Fmt) : Except DecodeError Instr :=
  .ok (.jmp (x.d ++ x.a ++ x.b ++ x.f))

/-- OP 0x52: CALL (R45). -/
def decode52 (x : Fmt) : Except DecodeError Instr :=
  .ok (.call (x.d ++ x.a ++ x.b ++ x.f))

/-- OP 0x53: RET, JMPI, CALLI (R45). -/
def decode53 (x : Fmt) : Except DecodeError Instr :=
  if x.f == 0#2 then fixed (x.d == 0#6 && x.a == 0#6 && x.b == 0#6) .ret
  else if x.f == 1#2 then fixed (x.d == 0#6 && x.b == 0#6) (.jmpi x.a)
  else if x.f == 2#2 then fixed (x.d == 0#6 && x.b == 0#6) (.calli x.a)
  else .error (.function 0x53#7 x.f)

/-- OP 0x54: SPLIT (R45). -/
def decode54 (x : Fmt) : Except DecodeError Instr :=
  .ok (.split (x.d.extractLsb' 3 3) (x.d.extractLsb' 0 3 ++ x.a ++ x.b.extractLsb' 5 1) (x.b.extractLsb' 0 5 ++ x.f))

/-- OP 0x55: JOIN (R45). -/
def decode55 (x : Fmt) : Except DecodeError Instr :=
  if x.f == 0#2 then fixed (x.d == 0#6 && x.a == 0#6 && x.b == 0#6) .join
  else .error (.function 0x55#7 x.f)

/-- OP 0x56: BRT (R45). -/
def decode56 (x : Fmt) : Except DecodeError Instr :=
  fixed (x.d == 0#6) (.brt x.a (x.b ++ x.f))

/-- OP 0x57: WAIT_L, WAIT_M, SLEEP (R45). -/
def decode57 (x : Fmt) : Except DecodeError Instr :=
  if x.f == 0#2 then fixed (x.d == 0#6 && x.b == 0#6) (.waitL x.a)
  else if x.f == 1#2 then fixed (x.d == 0#6 && x.b == 0#6) (.waitM x.a)
  else if x.f == 2#2 then fixed (x.d == 0#6 && x.b == 0#6) (.sleep x.a)
  else .error (.function 0x57#7 x.f)

/-- OP 0x58: LD (R45). -/
def decode58 (x : Fmt) : Except DecodeError Instr :=
  .ok (.ld x.d x.a x.b x.f)

/-- OP 0x59: LDS_B, LDS_H, LD_Q, PF (R45). -/
def decode59 (x : Fmt) : Except DecodeError Instr :=
  if x.f == 0#2 then .ok (.ldsB x.d x.a x.b)
  else if x.f == 1#2 then .ok (.ldsH x.d x.a x.b)
  else if x.f == 2#2 then fixed (x.d.extractLsb' 0 2 == 0#2) (.ldQ (x.d.extractLsb' 2 4) x.a x.b)
  else fixed (x.d == 0#6) (.pf x.a x.b)

/-- OP 0x5A: ST (R45). -/
def decode5A (x : Fmt) : Except DecodeError Instr :=
  .ok (.st x.d x.a x.b x.f)

/-- OP 0x5B: ST_Q (R45). -/
def decode5B (x : Fmt) : Except DecodeError Instr :=
  if x.f == 0#2 then fixed (x.d.extractLsb' 0 2 == 0#2) (.stQ (x.d.extractLsb' 2 4) x.a x.b)
  else .error (.function 0x5B#7 x.f)

/-- OP 0x5C: LDL (R45). -/
def decode5C (x : Fmt) : Except DecodeError Instr :=
  .ok (.ldl x.d x.a x.b x.f)

/-- OP 0x5D: STL (R45). -/
def decode5D (x : Fmt) : Except DecodeError Instr :=
  .ok (.stl x.d x.a x.b x.f)

/-- OP 0x5E: LD_ACQ_W, LD_ACQ_D, ST_REL_W, ST_REL_D (R45). -/
def decode5E (x : Fmt) : Except DecodeError Instr :=
  if x.f == 0#2 then .ok (.ldAcqW x.d x.a x.b)
  else if x.f == 1#2 then fixed (x.d.extractLsb' 0 1 == 0#1) (.ldAcqD (x.d.extractLsb' 1 5) x.a x.b)
  else if x.f == 2#2 then .ok (.stRelW x.d x.a x.b)
  else fixed (x.d.extractLsb' 0 1 == 0#1) (.stRelD (x.d.extractLsb' 1 5) x.a x.b)

/-- OP 0x5F: ATOM_ADD, ATOM_MIN, ATOM_MAX, ATOM_AND (R45). -/
def decode5F (x : Fmt) : Except DecodeError Instr :=
  if x.f == 0#2 then .ok (.atomAdd x.d x.a x.b)
  else if x.f == 1#2 then .ok (.atomMin x.d x.a x.b)
  else if x.f == 2#2 then .ok (.atomMax x.d x.a x.b)
  else .ok (.atomAnd x.d x.a x.b)

/-- OP 0x60: ATOM_OR, ATOM_XOR, ATOM_XCHG, ATOM_CAS (R45). -/
def decode60 (x : Fmt) : Except DecodeError Instr :=
  if x.f == 0#2 then .ok (.atomOr x.d x.a x.b)
  else if x.f == 1#2 then .ok (.atomXor x.d x.a x.b)
  else if x.f == 2#2 then .ok (.atomXchg x.d x.a x.b)
  else fixed (x.d.extractLsb' 0 1 == 0#1) (.atomCas (x.d.extractLsb' 1 5) x.a x.b)

/-- OP 0x61: ATOM_MINU, ATOM_MAXU, ATOM_INC, ATOM_DEC (R45). -/
def decode61 (x : Fmt) : Except DecodeError Instr :=
  if x.f == 0#2 then .ok (.atomMinu x.d x.a x.b)
  else if x.f == 1#2 then .ok (.atomMaxu x.d x.a x.b)
  else if x.f == 2#2 then .ok (.atomInc x.d x.a x.b)
  else .ok (.atomDec x.d x.a x.b)

/-- OP 0x62: ATOM_FADD, ATOM_FMIN, ATOM_FMAX, ATOM_ADD64 (R45). -/
def decode62 (x : Fmt) : Except DecodeError Instr :=
  if x.f == 0#2 then .ok (.atomFadd x.d x.a x.b)
  else if x.f == 1#2 then .ok (.atomFmin x.d x.a x.b)
  else if x.f == 2#2 then .ok (.atomFmax x.d x.a x.b)
  else fixed (x.d.extractLsb' 0 1 == 0#1) (.atomAdd64 (x.d.extractLsb' 1 5) x.a x.b)

/-- OP 0x63: ATOML_ADD, ATOML_MIN, ATOML_MAX, ATOML_CAS (R45). -/
def decode63 (x : Fmt) : Except DecodeError Instr :=
  if x.f == 0#2 then .ok (.atomlAdd x.d x.a x.b)
  else if x.f == 1#2 then .ok (.atomlMin x.d x.a x.b)
  else if x.f == 2#2 then .ok (.atomlMax x.d x.a x.b)
  else fixed (x.d.extractLsb' 0 1 == 0#1) (.atomlCas (x.d.extractLsb' 1 5) x.a x.b)

/-- OP 0x64: RED_ADD, RED_MIN, RED_MAX, RED_FADD (R45). -/
def decode64 (x : Fmt) : Except DecodeError Instr :=
  if x.f == 0#2 then .ok (.redAdd x.d x.a x.b)
  else if x.f == 1#2 then .ok (.redMin x.d x.a x.b)
  else if x.f == 2#2 then .ok (.redMax x.d x.a x.b)
  else .ok (.redFadd x.d x.a x.b)

/-- OP 0x65: RED_BAY_ADD, RED_BAY_MIN, RED_BAY_MAX, RED_BAY_FADD (R45). -/
def decode65 (x : Fmt) : Except DecodeError Instr :=
  if x.f == 0#2 then .ok (.redBayAdd x.d x.a x.b)
  else if x.f == 1#2 then .ok (.redBayMin x.d x.a x.b)
  else if x.f == 2#2 then .ok (.redBayMax x.d x.a x.b)
  else .ok (.redBayFadd x.d x.a x.b)

/-- OP 0x66: FENCE, CCLEAN, CINV (R45). -/
def decode66 (x : Fmt) : Except DecodeError Instr :=
  if x.f == 0#2 then fixed (x.d == 0#6 && x.a == 0#6 && x.b == 0#6) .fence
  else if x.f == 1#2 then fixed (x.d == 0#6) (.cclean x.a x.b)
  else if x.f == 2#2 then fixed (x.d == 0#6) (.cinv x.a x.b)
  else .error (.function 0x66#7 x.f)

/-- OP 0x67: TBEGIN, TEND, TABORT, TSTAT (R45). -/
def decode67 (x : Fmt) : Except DecodeError Instr :=
  if x.f == 0#2 then fixed (x.d.extractLsb' 3 3 == 0#3 && x.a == 0#6 && x.b == 0#6) (.tbegin (x.d.extractLsb' 0 3))
  else if x.f == 1#2 then fixed (x.d == 0#6 && x.a == 0#6 && x.b == 0#6) .tend
  else if x.f == 2#2 then fixed (x.d == 0#6 && x.b == 0#6) (.tabort x.a)
  else fixed (x.a == 0#6 && x.b == 0#6) (.tstat x.d)

/-- OP 0x68: XCH_XOR, XCH_ROT, XCH_BC, XCH_GATH (R45). -/
def decode68 (x : Fmt) : Except DecodeError Instr :=
  if x.f == 0#2 then .ok (.xchXor x.d x.a x.b)
  else if x.f == 1#2 then .ok (.xchRot x.d x.a x.b)
  else if x.f == 2#2 then .ok (.xchBc x.d x.a x.b)
  else fixed (x.d == 0#6) (.xchGath x.a x.b)

/-- OP 0x69: XRED, XBAR (R45). -/
def decode69 (x : Fmt) : Except DecodeError Instr :=
  if x.f == 0#2 then .ok (.xred x.d x.a x.b)
  else if x.f == 1#2 then fixed (x.d == 0#6 && x.a == 0#6 && x.b == 0#6) .xbar
  else .error (.function 0x69#7 x.f)

/-- OP 0x6A: BNEW, BFREE, BEXP, BARR (R45). -/
def decode6A (x : Fmt) : Except DecodeError Instr :=
  if x.f == 0#2 then .ok (.bnew x.d x.a x.b)
  else if x.f == 1#2 then fixed (x.d == 0#6 && x.b == 0#6) (.bfree x.a)
  else if x.f == 2#2 then fixed (x.d == 0#6) (.bexp x.a x.b)
  else fixed (x.b == 0#6) (.barr x.d x.a)

/-- OP 0x6B: BWAIT, BWAITG, BTEST (R45). -/
def decode6B (x : Fmt) : Except DecodeError Instr :=
  if x.f == 0#2 then fixed (x.d == 0#6 && x.b == 0#6) (.bwait x.a)
  else if x.f == 1#2 then fixed (x.d == 0#6) (.bwaitg x.a x.b)
  else if x.f == 2#2 then fixed (x.b == 0#6) (.btest x.d x.a)
  else .error (.function 0x6B#7 x.f)

/-- OP 0x6C: HWAIT, HTEST, HCANCEL, HGET (R45). -/
def decode6C (x : Fmt) : Except DecodeError Instr :=
  if x.f == 0#2 then fixed (x.d == 0#6 && x.a.extractLsb' 4 2 == 0#2 && x.b == 0#6) (.hwait (x.a.extractLsb' 0 4))
  else if x.f == 1#2 then fixed (x.a.extractLsb' 4 2 == 0#2 && x.b == 0#6) (.htest x.d (x.a.extractLsb' 0 4))
  else if x.f == 2#2 then fixed (x.d == 0#6 && x.a.extractLsb' 4 2 == 0#2 && x.b == 0#6) (.hcancel (x.a.extractLsb' 0 4))
  else fixed (x.a.extractLsb' 4 2 == 0#2 && x.b == 0#6) (.hget x.d (x.a.extractLsb' 0 4))

/-- OP 0x6D: HPUT, TOKWAIT, TOKPASS (R45). -/
def decode6D (x : Fmt) : Except DecodeError Instr :=
  if x.f == 0#2 then fixed (x.d.extractLsb' 4 2 == 0#2 && x.b == 0#6) (.hput (x.d.extractLsb' 0 4) x.a)
  else if x.f == 1#2 then fixed (x.d == 0#6 && x.a == 0#6 && x.b == 0#6) .tokwait
  else if x.f == 2#2 then fixed (x.d == 0#6 && x.a == 0#6 && x.b == 0#6) .tokpass
  else .error (.function 0x6D#7 x.f)

/-- OP 0x70: COPY (R45). -/
def decode70 (x : Fmt) : Except DecodeError Instr :=
  fixed (x.b.extractLsb' 4 2 == 0#2) (.copy x.d x.a (x.b.extractLsb' 0 4) x.f)

/-- OP 0x71: GATH, SCAT, COPY_RST (R45). -/
def decode71 (x : Fmt) : Except DecodeError Instr :=
  if x.f == 0#2 then fixed (x.b.extractLsb' 4 2 == 0#2) (.gath x.d x.a (x.b.extractLsb' 0 4))
  else if x.f == 1#2 then fixed (x.b.extractLsb' 4 2 == 0#2) (.scat x.d x.a (x.b.extractLsb' 0 4))
  else if x.f == 2#2 then fixed (x.b.extractLsb' 4 2 == 0#2) (.copyRst x.d x.a (x.b.extractLsb' 0 4))
  else .error (.function 0x71#7 x.f)

/-- OP 0x72: MLDW, MSWAP, MZERO (R45). -/
def decode72 (x : Fmt) : Except DecodeError Instr :=
  if x.f == 0#2 then fixed (x.b.extractLsb' 4 2 == 0#2) (.mldw x.d x.a (x.b.extractLsb' 0 4))
  else if x.f == 1#2 then fixed (x.d == 0#6 && x.a == 0#6 && x.b.extractLsb' 4 2 == 0#2) (.mswap (x.b.extractLsb' 0 4))
  else if x.f == 2#2 then fixed (x.d == 0#6 && x.a.extractLsb' 2 4 == 0#4 && x.b.extractLsb' 4 2 == 0#2) (.mzero (x.a.extractLsb' 0 2) (x.b.extractLsb' 0 4))
  else .error (.function 0x72#7 x.f)

/-- OP 0x73: MLOOP (R45). -/
def decode73 (x : Fmt) : Except DecodeError Instr :=
  fixed (x.b.extractLsb' 4 2 == 0#2) (.mloop x.d x.a (x.b.extractLsb' 0 4) x.f)

/-- OP 0x74: MRD, MSTR (R45). -/
def decode74 (x : Fmt) : Except DecodeError Instr :=
  if x.f == 0#2 then fixed (x.d.extractLsb' 0 2 == 0#2 && x.b.extractLsb' 2 4 == 0#4) (.mrd (x.d.extractLsb' 2 4) x.a (x.b.extractLsb' 0 2))
  else if x.f == 1#2 then fixed (x.a.extractLsb' 2 4 == 0#4 && x.b.extractLsb' 4 2 == 0#2) (.mstr x.d (x.a.extractLsb' 0 2) (x.b.extractLsb' 0 4))
  else .error (.function 0x74#7 x.f)

/-- OP 0x75: CRES, CREL, CSTAT (R45). -/
def decode75 (x : Fmt) : Except DecodeError Instr :=
  if x.f == 0#2 then .ok (.cres x.d x.a x.b)
  else if x.f == 1#2 then fixed (x.a == 0#6 && x.b == 0#6) (.crel x.d)
  else if x.f == 2#2 then fixed (x.b == 0#6) (.cstat x.d x.a)
  else .error (.function 0x75#7 x.f)

/-- OP 0x78: TRAP (R45). -/
def decode78 (x : Fmt) : Except DecodeError Instr :=
  .ok (.trap (x.d ++ x.a ++ x.b ++ x.f))

/-- OP 0x79: ERET, TLBI, WINR, WINW (R45). -/
def decode79 (x : Fmt) : Except DecodeError Instr :=
  if x.f == 0#2 then fixed (x.d == 0#6 && x.b == 0#6) (.eret x.a)
  else if x.f == 1#2 then fixed (x.d == 0#6) (.tlbi x.a x.b)
  else if x.f == 2#2 then fixed (x.b == 0#6) (.winr x.d x.a)
  else fixed (x.d == 0#6) (.winw x.a x.b)

/-- OP 0x7A: CLKR, PERF, EJCTL, SIGNAL (R45). -/
def decode7A (x : Fmt) : Except DecodeError Instr :=
  if x.f == 0#2 then fixed (x.d.extractLsb' 0 1 == 0#1 && x.a == 0#6 && x.b == 0#6) (.clkr (x.d.extractLsb' 1 5))
  else if x.f == 1#2 then fixed (x.a == 0#6) (.perf x.d x.b)
  else if x.f == 2#2 then fixed (x.b == 0#6) (.ejctl x.d x.a)
  else fixed (x.d == 0#6 && x.b == 0#6) (.signal x.a)

/-- OP 0x7B: LAUNCH (R45). -/
def decode7B (x : Fmt) : Except DecodeError Instr :=
  if x.f == 0#2 then fixed (x.b.extractLsb' 4 2 == 0#2) (.launch x.d x.a (x.b.extractLsb' 0 4))
  else .error (.function 0x7B#7 x.f)

/-- OP 0x7E: PREFIX (R45). -/
def decode7E (x : Fmt) : Except DecodeError Instr :=
  .ok (.pfx (x.d.extractLsb' 3 3) (x.d.extractLsb' 2 1) (x.d.extractLsb' 0 2 ++ x.a.extractLsb' 5 1) (x.a.extractLsb' 0 5 ++ x.b.extractLsb' 5 1) (x.b.extractLsb' 3 2) (x.b.extractLsb' 1 2) (x.b.extractLsb' 0 1) (x.f.extractLsb' 1 1) (x.f.extractLsb' 0 1))

/-- The instruction of an opcode and its format fields (R45). -/
noncomputable def decodeOp (op : BitVec 7) (x : Fmt) : Except DecodeError Instr :=
  if op = 0x00#7 then decode00 x else
  if op = 0x01#7 then decode01 x else
  if op = 0x02#7 then decode02 x else
  if op = 0x03#7 then decode03 x else
  if op = 0x04#7 then decode04 x else
  if op = 0x05#7 then decode05 x else
  if op = 0x06#7 then decode06 x else
  if op = 0x07#7 then decode07 x else
  if op = 0x08#7 then decode08 x else
  if op = 0x09#7 then decode09 x else
  if op = 0x0A#7 then decode0A x else
  if op = 0x0B#7 then decode0B x else
  if op = 0x0C#7 then decode0C x else
  if op = 0x0D#7 then decode0D x else
  if op = 0x0E#7 then decode0E x else
  if op = 0x10#7 then decode10 x else
  if op = 0x11#7 then decode11 x else
  if op = 0x12#7 then decode12 x else
  if op = 0x13#7 then decode13 x else
  if op = 0x14#7 then decode14 x else
  if op = 0x15#7 then decode15 x else
  if op = 0x16#7 then decode16 x else
  if op = 0x17#7 then decode17 x else
  if op = 0x18#7 then decode18 x else
  if op = 0x19#7 then decode19 x else
  if op = 0x1A#7 then decode1A x else
  if op = 0x1B#7 then decode1B x else
  if op = 0x1C#7 then decode1C x else
  if op = 0x1D#7 then decode1D x else
  if op = 0x1E#7 then decode1E x else
  if op = 0x1F#7 then decode1F x else
  if op = 0x20#7 then decode20 x else
  if op = 0x30#7 then decode30 x else
  if op = 0x31#7 then decode31 x else
  if op = 0x32#7 then decode32 x else
  if op = 0x33#7 then decode33 x else
  if op = 0x34#7 then decode34 x else
  if op = 0x35#7 then decode35 x else
  if op = 0x36#7 then decode36 x else
  if op = 0x40#7 then decode40 x else
  if op = 0x41#7 then decode41 x else
  if op = 0x42#7 then decode42 x else
  if op = 0x43#7 then decode43 x else
  if op = 0x44#7 then decode44 x else
  if op = 0x45#7 then decode45 x else
  if op = 0x48#7 then decode48 x else
  if op = 0x49#7 then decode49 x else
  if op = 0x4A#7 then decode4A x else
  if op = 0x4B#7 then decode4B x else
  if op = 0x4C#7 then decode4C x else
  if op = 0x4D#7 then decode4D x else
  if op = 0x4E#7 then decode4E x else
  if op = 0x4F#7 then decode4F x else
  if op = 0x50#7 then decode50 x else
  if op = 0x51#7 then decode51 x else
  if op = 0x52#7 then decode52 x else
  if op = 0x53#7 then decode53 x else
  if op = 0x54#7 then decode54 x else
  if op = 0x55#7 then decode55 x else
  if op = 0x56#7 then decode56 x else
  if op = 0x57#7 then decode57 x else
  if op = 0x58#7 then decode58 x else
  if op = 0x59#7 then decode59 x else
  if op = 0x5A#7 then decode5A x else
  if op = 0x5B#7 then decode5B x else
  if op = 0x5C#7 then decode5C x else
  if op = 0x5D#7 then decode5D x else
  if op = 0x5E#7 then decode5E x else
  if op = 0x5F#7 then decode5F x else
  if op = 0x60#7 then decode60 x else
  if op = 0x61#7 then decode61 x else
  if op = 0x62#7 then decode62 x else
  if op = 0x63#7 then decode63 x else
  if op = 0x64#7 then decode64 x else
  if op = 0x65#7 then decode65 x else
  if op = 0x66#7 then decode66 x else
  if op = 0x67#7 then decode67 x else
  if op = 0x68#7 then decode68 x else
  if op = 0x69#7 then decode69 x else
  if op = 0x6A#7 then decode6A x else
  if op = 0x6B#7 then decode6B x else
  if op = 0x6C#7 then decode6C x else
  if op = 0x6D#7 then decode6D x else
  if op = 0x70#7 then decode70 x else
  if op = 0x71#7 then decode71 x else
  if op = 0x72#7 then decode72 x else
  if op = 0x73#7 then decode73 x else
  if op = 0x74#7 then decode74 x else
  if op = 0x75#7 then decode75 x else
  if op = 0x78#7 then decode78 x else
  if op = 0x79#7 then decode79 x else
  if op = 0x7A#7 then decode7A x else
  if op = 0x7B#7 then decode7B x else
  if op = 0x7E#7 then decode7E x else
  .error (.opcode op)

/-- The decoder: a word is an instruction with its control fields, or it is rejected by name (R46). -/
noncomputable def decodeWord (w : Word) : Except DecodeError (Ctl × Instr) :=
  match decodeOp (opOf w) (fmtOf w) with
  | .error e => .error e
  | .ok i =>
    if i.wf then
      if i.ctlOk (ctlOf w) then .ok (ctlOf w, i) else .error .control
    else .error .operand

/-- The word at the front of a list of bytes, little-endian (R2, R34), with the bytes after it. -/
def takeWord : List Byte → Option (Word × List Byte)
  | b0 :: b1 :: b2 :: b3 :: rest => some (b3 ++ b2 ++ b1 ++ b0, rest)
  | _ => none

/-- Decoding from the bytes of memory: the first four bytes are one word. -/
noncomputable def decodeBytes (bs : List Byte) : Option (Except DecodeError (Ctl × Instr) × List Byte) :=
  match takeWord bs with
  | some (w, rest) => some (decodeWord w, rest)
  | none => none

/-- The four bytes of a word as the part stores them (R2). -/
def wordBytes (w : Word) : List Byte :=
  [w.extractLsb' 0 8, w.extractLsb' 8 8, w.extractLsb' 16 8, w.extractLsb' 24 8]

/-- The instruction that this decoder reads from a word of the opcode table's bits. -/
noncomputable def decodeTableWord (nbits w : Nat) : Option Instr :=
  match decodeBytes (wordBytes (BitVec.ofNat 32 (w % 2 ^ nbits))) with
  | some (.ok (_, i), _) => some i
  | _ => none

/-- The format groups of an encoding, assembled (R40). -/
def fmt (d a b : BitVec 6) (f : BitVec 2) : Fmt := ⟨d, a, b, f⟩

/-- The opcode and format fields of an instruction (R45); none for a step that no word encodes. -/
def encodeOp : Instr → Option (BitVec 7 × Fmt)
  | .nop => some (0x00#7, fmt 0#6 0#6 0#6 0#2)
  | .yield => some (0x00#7, fmt 0#6 0#6 0#6 1#2)
  | .exit => some (0x00#7, fmt 0#6 0#6 0#6 2#2)
  | .brk t => some (0x00#7, fmt (t.extractLsb' 12 6) (t.extractLsb' 6 6) (t.extractLsb' 0 6) 3#2)
  | .sli d i => some (0x01#7, fmt d (i.extractLsb' 8 6) (i.extractLsb' 2 6) (i.extractLsb' 0 2))
  | .slis d i => some (0x02#7, fmt d (i.extractLsb' 8 6) (i.extractLsb' 2 6) (i.extractLsb' 0 2))
  | .sadd d a b => some (0x03#7, fmt d a b 0#2)
  | .ssub d a b => some (0x03#7, fmt d a b 1#2)
  | .smul d a b => some (0x03#7, fmt d a b 2#2)
  | .smulh d a b => some (0x03#7, fmt d a b 3#2)
  | .sand d a b => some (0x04#7, fmt d a b 0#2)
  | .sor d a b => some (0x04#7, fmt d a b 1#2)
  | .sxor d a b => some (0x04#7, fmt d a b 2#2)
  | .sandn d a b => some (0x04#7, fmt d a b 3#2)
  | .sshl d a b => some (0x05#7, fmt d a b 0#2)
  | .sshr d a b => some (0x05#7, fmt d a b 1#2)
  | .ssar d a b => some (0x05#7, fmt d a b 2#2)
  | .srol d a b => some (0x05#7, fmt d a b 3#2)
  | .smin d a b => some (0x06#7, fmt d a b 0#2)
  | .smax d a b => some (0x06#7, fmt d a b 1#2)
  | .sminu d a b => some (0x06#7, fmt d a b 2#2)
  | .smaxu d a b => some (0x06#7, fmt d a b 3#2)
  | .saddi d a i => some (0x07#7, fmt d a (i.extractLsb' 2 6) (i.extractLsb' 0 2))
  | .scmp g d a b => some (0x08#7, fmt (g ++ d) a b 0#2)
  | .scmpU g d a b => some (0x08#7, fmt (g ++ d) a b 1#2)
  | .scmpi g d a i => some (0x09#7, fmt (g ++ d) a (i.extractLsb' 2 6) (i.extractLsb' 0 2))
  | .smov d a => some (0x0A#7, fmt d a 0#6 0#2)
  | .scsel d a b => some (0x0A#7, fmt d a (0#3 ++ b) 1#2)
  | .spopc d a => some (0x0A#7, fmt d a 0#6 2#2)
  | .sclz d a => some (0x0A#7, fmt d a 0#6 3#2)
  | .cand d a b => some (0x0B#7, fmt (0#3 ++ d) (0#3 ++ a) (0#3 ++ b) 0#2)
  | .cor d a b => some (0x0B#7, fmt (0#3 ++ d) (0#3 ++ a) (0#3 ++ b) 1#2)
  | .cxor d a b => some (0x0B#7, fmt (0#3 ++ d) (0#3 ++ a) (0#3 ++ b) 2#2)
  | .candn d a b => some (0x0B#7, fmt (0#3 ++ d) (0#3 ++ a) (0#3 ++ b) 3#2)
  | .sread d b => some (0x0C#7, fmt d 0#6 b 0#2)
  | .swrite a b => some (0x0C#7, fmt 0#6 a b 1#2)
  | .sld d a i => some (0x0D#7, fmt d a (i.extractLsb' 2 6) (i.extractLsb' 0 2))
  | .sst d a i => some (0x0E#7, fmt d a (i.extractLsb' 2 6) (i.extractLsb' 0 2))
  | .iadd d a b => some (0x10#7, fmt d a b 0#2)
  | .isub d a b => some (0x10#7, fmt d a b 1#2)
  | .imin d a b => some (0x10#7, fmt d a b 2#2)
  | .imax d a b => some (0x10#7, fmt d a b 3#2)
  | .iminu d a b => some (0x11#7, fmt d a b 0#2)
  | .imaxu d a b => some (0x11#7, fmt d a b 1#2)
  | .iabs d a => some (0x11#7, fmt d a 0#6 2#2)
  | .ineg d a => some (0x11#7, fmt d a 0#6 3#2)
  | .imul d a b => some (0x12#7, fmt d a b 0#2)
  | .imulh d a b => some (0x12#7, fmt d a b 1#2)
  | .imulhu d a b => some (0x12#7, fmt d a b 2#2)
  | .imad d a b => some (0x12#7, fmt d a b 3#2)
  | .and d a b => some (0x13#7, fmt d a b 0#2)
  | .or d a b => some (0x13#7, fmt d a b 1#2)
  | .xor d a b => some (0x13#7, fmt d a b 2#2)
  | .andn d a b => some (0x13#7, fmt d a b 3#2)
  | .shl d a b => some (0x14#7, fmt d a b 0#2)
  | .shr d a b => some (0x14#7, fmt d a b 1#2)
  | .sar d a b => some (0x14#7, fmt d a b 2#2)
  | .rol d a b => some (0x14#7, fmt d a b 3#2)
  | .popc d a => some (0x15#7, fmt d a 0#6 0#2)
  | .clz d a => some (0x15#7, fmt d a 0#6 1#2)
  | .brev d a => some (0x15#7, fmt d a 0#6 2#2)
  | .prmt d a b => some (0x15#7, fmt d a b 3#2)
  | .bfe d a b => some (0x16#7, fmt d a b 0#2)
  | .bfeu d a b => some (0x16#7, fmt d a b 1#2)
  | .bfi d a b => some (0x16#7, fmt d a b 2#2)
  | .idot4 d a b => some (0x16#7, fmt d a b 3#2)
  | .iaddi d a i => some (0x17#7, fmt d a (i.extractLsb' 2 6) (i.extractLsb' 0 2))
  | .andi d a i => some (0x18#7, fmt d a (i.extractLsb' 2 6) (i.extractLsb' 0 2))
  | .ori d a i => some (0x19#7, fmt d a (i.extractLsb' 2 6) (i.extractLsb' 0 2))
  | .xori d a i => some (0x1A#7, fmt d a (i.extractLsb' 2 6) (i.extractLsb' 0 2))
  | .shli d a n => some (0x1B#7, fmt d a (0#3 ++ n.extractLsb' 2 3) (n.extractLsb' 0 2))
  | .shri d a n => some (0x1B#7, fmt d a (2#3 ++ n.extractLsb' 2 3) (n.extractLsb' 0 2))
  | .sari d a n => some (0x1B#7, fmt d a (4#3 ++ n.extractLsb' 2 3) (n.extractLsb' 0 2))
  | .roli d a n => some (0x1B#7, fmt d a (6#3 ++ n.extractLsb' 2 3) (n.extractLsb' 0 2))
  | .icmp g d a b => some (0x1C#7, fmt (g ++ d) a b 0#2)
  | .icmpU g d a b => some (0x1C#7, fmt (g ++ d) a b 1#2)
  | .icmpi g d a i => some (0x1D#7, fmt (g ++ d) a (i.extractLsb' 2 6) (i.extractLsb' 0 2))
  | .sel d a b => some (0x1E#7, fmt d a b 0#2)
  | .vmov d a => some (0x1E#7, fmt d a 0#6 1#2)
  | .vbc d a => some (0x1E#7, fmt d a 0#6 2#2)
  | .vgetl d => some (0x1E#7, fmt d 0#6 0#6 3#2)
  | .vli d i => some (0x1F#7, fmt d (i.extractLsb' 8 6) (i.extractLsb' 2 6) (i.extractLsb' 0 2))
  | .vsetl d a b => some (0x20#7, fmt d a b 0#2)
  | .vlis d i => some (0x20#7, fmt d (i.extractLsb' 6 6) (i.extractLsb' 0 6) 1#2)
  | .iaddc d a b => some (0x20#7, fmt (d ++ 0#1) (a ++ 0#1) (b ++ 0#1) 2#2)
  | .isubb d a b => some (0x20#7, fmt (d ++ 0#1) (a ++ 0#1) (b ++ 0#1) 3#2)
  | .fadd d a b => some (0x30#7, fmt d a b 0#2)
  | .fsub d a b => some (0x30#7, fmt d a b 1#2)
  | .fmul d a b => some (0x30#7, fmt d a b 2#2)
  | .ffma d a b => some (0x30#7, fmt d a b 3#2)
  | .fmin d a b => some (0x31#7, fmt d a b 0#2)
  | .fmax d a b => some (0x31#7, fmt d a b 1#2)
  | .fabs d a => some (0x31#7, fmt d a 0#6 2#2)
  | .fneg d a => some (0x31#7, fmt d a 0#6 3#2)
  | .fcmp g d a b => some (0x32#7, fmt (g ++ d) a b 0#2)
  | .fcmpU g d a b => some (0x32#7, fmt (g ++ d) a b 1#2)
  | .frnd d a => some (0x33#7, fmt d a 0#6 0#2)
  | .fscale d a b => some (0x33#7, fmt d a b 1#2)
  | .fgetexp d a => some (0x33#7, fmt d a 0#6 2#2)
  | .fclass d a => some (0x33#7, fmt d a 0#6 3#2)
  | .badd2 d a b => some (0x34#7, fmt d a b 0#2)
  | .bsub2 d a b => some (0x34#7, fmt d a b 1#2)
  | .bmul2 d a b => some (0x34#7, fmt d a b 2#2)
  | .bfma2 d a b => some (0x34#7, fmt d a b 3#2)
  | .hadd2 d a b => some (0x35#7, fmt d a b 0#2)
  | .hsub2 d a b => some (0x35#7, fmt d a b 1#2)
  | .hmul2 d a b => some (0x35#7, fmt d a b 2#2)
  | .hfma2 d a b => some (0x35#7, fmt d a b 3#2)
  | .bmin2 d a b => some (0x36#7, fmt d a b 0#2)
  | .bmax2 d a b => some (0x36#7, fmt d a b 1#2)
  | .hmin2 d a b => some (0x36#7, fmt d a b 2#2)
  | .hmax2 d a b => some (0x36#7, fmt d a b 3#2)
  | .frcp d a => some (0x40#7, fmt d a 0#6 0#2)
  | .frsq d a => some (0x40#7, fmt d a 0#6 1#2)
  | .fsqrt d a => some (0x40#7, fmt d a 0#6 2#2)
  | .ftanh d a => some (0x40#7, fmt d a 0#6 3#2)
  | .fexp2 d a => some (0x41#7, fmt d a 0#6 0#2)
  | .flog2 d a => some (0x41#7, fmt d a 0#6 1#2)
  | .fsin d a => some (0x41#7, fmt d a 0#6 2#2)
  | .fcos d a => some (0x41#7, fmt d a 0#6 3#2)
  | .cvtF2i d a => some (0x42#7, fmt d a 0#6 0#2)
  | .cvtF2u d a => some (0x42#7, fmt d a 0#6 1#2)
  | .cvtI2f d a => some (0x42#7, fmt d a 0#6 2#2)
  | .cvtU2f d a => some (0x42#7, fmt d a 0#6 3#2)
  | .cvtF2b d a b => some (0x43#7, fmt d a b 0#2)
  | .cvtF2h d a b => some (0x43#7, fmt d a b 1#2)
  | .cvtB2f d a b => some (0x43#7, fmt d a (0#5 ++ b) 2#2)
  | .cvtH2f d a b => some (0x43#7, fmt d a (0#5 ++ b) 3#2)
  | .packE4m3 d a b => some (0x44#7, fmt d (a ++ 0#1) (b ++ 0#1) 0#2)
  | .packE5m2 d a b => some (0x44#7, fmt d (a ++ 0#1) (b ++ 0#1) 1#2)
  | .unpkE4m3 d a b => some (0x44#7, fmt (d ++ 0#1) a (0#5 ++ b) 2#2)
  | .unpkE5m2 d a b => some (0x44#7, fmt (d ++ 0#1) a (0#5 ++ b) 3#2)
  | .packTs8 d a b => some (0x45#7, fmt d (a ++ 0#1) (b ++ 0#1) 0#2)
  | .unpkTs8 d a b => some (0x45#7, fmt (d ++ 0#1) a (0#5 ++ b) 1#2)
  | .mxscale d a b => some (0x45#7, fmt d a (0#4 ++ b) 2#2)
  | .mxapply d a b => some (0x45#7, fmt d a b 3#2)
  | .lpick d a b => some (0x48#7, fmt d a b 0#2)
  | .lrot d a b => some (0x48#7, fmt d a b 1#2)
  | .lxor d a b => some (0x48#7, fmt d a b 2#2)
  | .lspan d a b => some (0x48#7, fmt d a b 3#2)
  | .ksome d a => some (0x49#7, fmt (0#3 ++ d) (0#3 ++ a) 0#6 0#2)
  | .kevery d a => some (0x49#7, fmt (0#3 ++ d) (0#3 ++ a) 0#6 1#2)
  | .kone d a => some (0x49#7, fmt (0#3 ++ d) (0#3 ++ a) 0#6 2#2)
  | .ksame d a => some (0x49#7, fmt (0#3 ++ d) (0#3 ++ a) 0#6 3#2)
  | .lpeers d a => some (0x4A#7, fmt d a 0#6 0#2)
  | .lfirst d a => some (0x4A#7, fmt d a 0#6 1#2)
  | .kpopc d a => some (0x4A#7, fmt d (0#3 ++ a) 0#6 2#2)
  | .kffs d a => some (0x4A#7, fmt d (0#3 ++ a) 0#6 3#2)
  | .fold d a b => some (0x4B#7, fmt d a b 0#2)
  | .foldBc d a b => some (0x4B#7, fmt d a b 1#2)
  | .scanInc d a b => some (0x4C#7, fmt d a b 0#2)
  | .scanExc d a b => some (0x4C#7, fmt d a b 1#2)
  | .segred d a k p => some (0x4D#7, fmt d a (k ++ p) 0#2)
  | .segscan d a k p => some (0x4D#7, fmt d a (k ++ p) 1#2)
  | .kand d a b => some (0x4E#7, fmt (0#3 ++ d) (0#3 ++ a) (0#3 ++ b) 0#2)
  | .kor d a b => some (0x4E#7, fmt (0#3 ++ d) (0#3 ++ a) (0#3 ++ b) 1#2)
  | .kxor d a b => some (0x4E#7, fmt (0#3 ++ d) (0#3 ++ a) (0#3 ++ b) 2#2)
  | .kandn d a b => some (0x4E#7, fmt (0#3 ++ d) (0#3 ++ a) (0#3 ++ b) 3#2)
  | .kld d a => some (0x4F#7, fmt (0#3 ++ d) a 0#6 0#2)
  | .kst d a => some (0x4F#7, fmt d (0#3 ++ a) 0#6 1#2)
  | .knot d a => some (0x4F#7, fmt (0#3 ++ d) (0#3 ++ a) 0#6 2#2)
  | .kact d a => some (0x4F#7, fmt (0#3 ++ d) a 0#6 3#2)
  | .br k o => some (0x50#7, fmt (k ++ 1#1 ++ o.extractLsb' 14 2) (o.extractLsb' 8 6) (o.extractLsb' 2 6) (o.extractLsb' 0 2))
  | .brF k o => some (0x50#7, fmt (k ++ 0#1 ++ o.extractLsb' 14 2) (o.extractLsb' 8 6) (o.extractLsb' 2 6) (o.extractLsb' 0 2))
  | .jmp o => some (0x51#7, fmt (o.extractLsb' 14 6) (o.extractLsb' 8 6) (o.extractLsb' 2 6) (o.extractLsb' 0 2))
  | .call o => some (0x52#7, fmt (o.extractLsb' 14 6) (o.extractLsb' 8 6) (o.extractLsb' 2 6) (o.extractLsb' 0 2))
  | .ret => some (0x53#7, fmt 0#6 0#6 0#6 0#2)
  | .jmpi a => some (0x53#7, fmt 0#6 a 0#6 1#2)
  | .calli a => some (0x53#7, fmt 0#6 a 0#6 2#2)
  | .split k t j => some (0x54#7, fmt (k ++ t.extractLsb' 7 3) (t.extractLsb' 1 6) (t.extractLsb' 0 1 ++ j.extractLsb' 2 5) (j.extractLsb' 0 2))
  | .join => some (0x55#7, fmt 0#6 0#6 0#6 0#2)
  | .brt a n => some (0x56#7, fmt 0#6 a (n.extractLsb' 2 6) (n.extractLsb' 0 2))
  | .waitL a => some (0x57#7, fmt 0#6 a 0#6 0#2)
  | .waitM a => some (0x57#7, fmt 0#6 a 0#6 1#2)
  | .sleep a => some (0x57#7, fmt 0#6 a 0#6 2#2)
  | .ld d a b z => some (0x58#7, fmt d a b z)
  | .ldsB d a b => some (0x59#7, fmt d a b 0#2)
  | .ldsH d a b => some (0x59#7, fmt d a b 1#2)
  | .ldQ d a b => some (0x59#7, fmt (d ++ 0#2) a b 2#2)
  | .pf a b => some (0x59#7, fmt 0#6 a b 3#2)
  | .st d a b z => some (0x5A#7, fmt d a b z)
  | .stQ d a b => some (0x5B#7, fmt (d ++ 0#2) a b 0#2)
  | .ldl d a b z => some (0x5C#7, fmt d a b z)
  | .stl d a b z => some (0x5D#7, fmt d a b z)
  | .ldAcqW d a b => some (0x5E#7, fmt d a b 0#2)
  | .ldAcqD d a b => some (0x5E#7, fmt (d ++ 0#1) a b 1#2)
  | .stRelW d a b => some (0x5E#7, fmt d a b 2#2)
  | .stRelD d a b => some (0x5E#7, fmt (d ++ 0#1) a b 3#2)
  | .atomAdd d a b => some (0x5F#7, fmt d a b 0#2)
  | .atomMin d a b => some (0x5F#7, fmt d a b 1#2)
  | .atomMax d a b => some (0x5F#7, fmt d a b 2#2)
  | .atomAnd d a b => some (0x5F#7, fmt d a b 3#2)
  | .atomOr d a b => some (0x60#7, fmt d a b 0#2)
  | .atomXor d a b => some (0x60#7, fmt d a b 1#2)
  | .atomXchg d a b => some (0x60#7, fmt d a b 2#2)
  | .atomCas d a b => some (0x60#7, fmt (d ++ 0#1) a b 3#2)
  | .atomMinu d a b => some (0x61#7, fmt d a b 0#2)
  | .atomMaxu d a b => some (0x61#7, fmt d a b 1#2)
  | .atomInc d a b => some (0x61#7, fmt d a b 2#2)
  | .atomDec d a b => some (0x61#7, fmt d a b 3#2)
  | .atomFadd d a b => some (0x62#7, fmt d a b 0#2)
  | .atomFmin d a b => some (0x62#7, fmt d a b 1#2)
  | .atomFmax d a b => some (0x62#7, fmt d a b 2#2)
  | .atomAdd64 d a b => some (0x62#7, fmt (d ++ 0#1) a b 3#2)
  | .atomlAdd d a b => some (0x63#7, fmt d a b 0#2)
  | .atomlMin d a b => some (0x63#7, fmt d a b 1#2)
  | .atomlMax d a b => some (0x63#7, fmt d a b 2#2)
  | .atomlCas d a b => some (0x63#7, fmt (d ++ 0#1) a b 3#2)
  | .redAdd d a b => some (0x64#7, fmt d a b 0#2)
  | .redMin d a b => some (0x64#7, fmt d a b 1#2)
  | .redMax d a b => some (0x64#7, fmt d a b 2#2)
  | .redFadd d a b => some (0x64#7, fmt d a b 3#2)
  | .redBayAdd d a b => some (0x65#7, fmt d a b 0#2)
  | .redBayMin d a b => some (0x65#7, fmt d a b 1#2)
  | .redBayMax d a b => some (0x65#7, fmt d a b 2#2)
  | .redBayFadd d a b => some (0x65#7, fmt d a b 3#2)
  | .fence => some (0x66#7, fmt 0#6 0#6 0#6 0#2)
  | .cclean a b => some (0x66#7, fmt 0#6 a b 1#2)
  | .cinv a b => some (0x66#7, fmt 0#6 a b 2#2)
  | .tbegin d => some (0x67#7, fmt (0#3 ++ d) 0#6 0#6 0#2)
  | .tend => some (0x67#7, fmt 0#6 0#6 0#6 1#2)
  | .tabort a => some (0x67#7, fmt 0#6 a 0#6 2#2)
  | .tstat d => some (0x67#7, fmt d 0#6 0#6 3#2)
  | .xchXor d a b => some (0x68#7, fmt d a b 0#2)
  | .xchRot d a b => some (0x68#7, fmt d a b 1#2)
  | .xchBc d a b => some (0x68#7, fmt d a b 2#2)
  | .xchGath a b => some (0x68#7, fmt 0#6 a b 3#2)
  | .xred d a b => some (0x69#7, fmt d a b 0#2)
  | .xbar => some (0x69#7, fmt 0#6 0#6 0#6 1#2)
  | .bnew d a b => some (0x6A#7, fmt d a b 0#2)
  | .bfree a => some (0x6A#7, fmt 0#6 a 0#6 1#2)
  | .bexp a b => some (0x6A#7, fmt 0#6 a b 2#2)
  | .barr d a => some (0x6A#7, fmt d a 0#6 3#2)
  | .bwait a => some (0x6B#7, fmt 0#6 a 0#6 0#2)
  | .bwaitg a b => some (0x6B#7, fmt 0#6 a b 1#2)
  | .btest d a => some (0x6B#7, fmt d a 0#6 2#2)
  | .hwait a => some (0x6C#7, fmt 0#6 (0#2 ++ a) 0#6 0#2)
  | .htest d a => some (0x6C#7, fmt d (0#2 ++ a) 0#6 1#2)
  | .hcancel a => some (0x6C#7, fmt 0#6 (0#2 ++ a) 0#6 2#2)
  | .hget d a => some (0x6C#7, fmt d (0#2 ++ a) 0#6 3#2)
  | .hput d a => some (0x6D#7, fmt (0#2 ++ d) a 0#6 0#2)
  | .tokwait => some (0x6D#7, fmt 0#6 0#6 0#6 1#2)
  | .tokpass => some (0x6D#7, fmt 0#6 0#6 0#6 2#2)
  | .copy a b h q => some (0x70#7, fmt a b (0#2 ++ h) q)
  | .gath a b h => some (0x71#7, fmt a b (0#2 ++ h) 0#2)
  | .scat a b h => some (0x71#7, fmt a b (0#2 ++ h) 1#2)
  | .copyRst a b h => some (0x71#7, fmt a b (0#2 ++ h) 2#2)
  | .mldw a b h => some (0x72#7, fmt a b (0#2 ++ h) 0#2)
  | .mswap h => some (0x72#7, fmt 0#6 0#6 (0#2 ++ h) 1#2)
  | .mzero m h => some (0x72#7, fmt 0#6 (0#4 ++ m) (0#2 ++ h) 2#2)
  | .mloop a b h m => some (0x73#7, fmt a b (0#2 ++ h) m)
  | .mrd a b m => some (0x74#7, fmt (a ++ 0#2) b (0#4 ++ m) 0#2)
  | .mstr a m h => some (0x74#7, fmt a (0#4 ++ m) (0#2 ++ h) 1#2)
  | .cres a b c => some (0x75#7, fmt a b c 0#2)
  | .crel a => some (0x75#7, fmt a 0#6 0#6 1#2)
  | .cstat a b => some (0x75#7, fmt a b 0#6 2#2)
  | .trap i => some (0x78#7, fmt (i.extractLsb' 14 6) (i.extractLsb' 8 6) (i.extractLsb' 2 6) (i.extractLsb' 0 2))
  | .eret a => some (0x79#7, fmt 0#6 a 0#6 0#2)
  | .tlbi a b => some (0x79#7, fmt 0#6 a b 1#2)
  | .winr d a => some (0x79#7, fmt d a 0#6 2#2)
  | .winw a b => some (0x79#7, fmt 0#6 a b 3#2)
  | .clkr d => some (0x7A#7, fmt (d ++ 0#1) 0#6 0#6 0#2)
  | .perf d b => some (0x7A#7, fmt d 0#6 b 1#2)
  | .ejctl d a => some (0x7A#7, fmt d a 0#6 2#2)
  | .signal a => some (0x7A#7, fmt 0#6 a 0#6 3#2)
  | .launch a b h => some (0x7B#7, fmt a b (0#2 ++ h) 0#2)
  | .pfx k z r x p e u y t => some (0x7E#7, fmt (k ++ z ++ r.extractLsb' 1 2) (r.extractLsb' 0 1 ++ x.extractLsb' 1 5) (x.extractLsb' 0 1 ++ p ++ e ++ u) (y ++ t))
  | .runArbitration .. => none
  | .variableLatencyLand .. => none
  | .nackRetry .. => none
  | .sleepExpire .. => none
  | .rejoinTimeout .. => none
  | .laneContextStart .. => none
  | .laneReturn .. => none
  | .taskRecordCheck => none
  | .launchRingEntry .. => none
  | .launchComplete .. => none
  | .makeResident .. => none
  | .preemptGroup .. => none
  | .quantumExpire .. => none
  | .waitPriorityRise .. => none
  | .startTimeReached .. => none
  | .watchdog .. => none
  | .claimSpan .. => none
  | .copyCommandStart .. => none
  | .copyTransfer .. => none
  | .gatherTransfer .. => none
  | .engineCommandDone .. => none
  | .barBytesDelivered .. => none
  | .thresherCommandStart .. => none
  | .thresherKstep .. => none
  | .mloopRowsLanded .. => none
  | .routerCycle => none
  | .injectionWindow => none
  | .xdata .. => none
  | .ack .. => none
  | .nack .. => none
  | .xctlArrival .. => none
  | .xctlRelease .. => none
  | .xredCombine .. => none
  | .rd .. => none
  | .rdata .. => none
  | .wdata .. => none
  | .mgmt .. => none
  | .sliceRequest .. => none
  | .hbmFill .. => none
  | .bayModeSwitch .. => none
  | .carveChange .. => none
  | .carveGrowDone .. => none
  | .bayRgnHtWrite .. => none
  | .bayAliasWrite .. => none
  | .slstatRead .. => none
  | .dutyMapWrite .. => none
  | .ringCfgWrite .. => none
  | .registerWrite .. => none
  | .attest => none
  | .pfaultDone => none
  | .train => none
  | .scrub => none
  | .eth => none
  | .thermal => none
  | .service => none
  | .qp => none
  | .fwupdate => none
  | .eccScrub => none
  | .thermalSample .. => none
  | .emergencyTrip => none
  | .boot .. => none
  | .functionLevelReset .. => none
  | .ptpSync .. => none
  | .peerRdmaRequest .. => none
  | .strandBeatError .. => none
  | .strandRetire .. => none
  | .linkCheckError .. => none
  | .containment .. => none
  | .migratePage .. => none
  | .tlbiComplete .. => none
  | .tinkerEvent .. => none
  | .debugRestart .. => none
  | .debugCancel .. => none
  | .peerAcknowledge .. => none
  | .peerLink .. => none
  | .hostLinkCompletion .. => none
  | .hostLinkRetriesExhausted .. => none
  | .shadowPlaneLoaded .. => none
  | .mstrTransfer .. => none
  | .tinkerRestart .. => none
  | .fringHead .. => none
  | .unknownOp => none
  | .ethernetLinkBringUp .. => none
  | .tripPointCleared => none

/-- A word from its control fields, its opcode and its format fields (R34). -/
def joinWord (k : Ctl) (op : BitVec 7) (x : Fmt) : Word :=
  BitVec.ofBool k.c ++ BitVec.ofBool k.b ++ k.s ++ op ++ x.d ++ x.a ++ x.b ++ x.f

/-- The encoder: the word of an instruction with its control fields, where one encodes it. -/
def encode (k : Ctl) (i : Instr) : Option Word :=
  match encodeOp i with
  | some (op, x) => some (joinWord k op x)
  | none => none

end Sys2Proof
end

