-- ==== Sys2Proof/Machine/TxWords.lean ====
section
/-! DEFINITION. The transaction words (R159 to R162): OP 0x67. -/

namespace Sys2Proof.Machine

/-- TBEGIN (R159, R197): an acquire at column scope, and 1 to c[d] by a variable-latency write. With a transaction open
it opens nothing and aborts it TX_NEST; by an ejected lane, or the tinker, it aborts it, or records, TX_FLOW. Where it opens nothing and
its path goes on, it writes 0 to c[d], by a variable-latency write too. -/
def execTbegin (d : BitVec 3) (s : State) :=
  accept .plain s fun s =>
    let zero (s : State) : State := s.vlResult [.c s.path.uid d.toNat] [.c s.path.uid d.toNat false]
    match s.cur.who with
    | .warp _ _ =>
      match s.warp.tx with
      | some t =>
        if t.path = s.path.uid then .next (s.abortTx .nest 0 0#64) else .next (zero (s.abortTx .nest 0 0#64))
      | none =>
        let p := s.path
        let s := (s.acquire 4).updWarp fun w => { w with tx := some { path := p.uid, pkt := p.pkt, wpos := p.wpos, cond := d.toNat, lanes := p.lanes, token := p.token, id := s.nextId } }
        .next (s.vlResult [.c p.uid d.toNat] [.c p.uid d.toNat true])
    | .lane _ =>
      let s := if s.warp.tx.isSome then s.abortTx .flow 0 0#64 else s.updWarp fun w => { w with tstat := tstatOf .flow 0 0#64 }
      .next (zero s)
    | .tinker => .next (zero (s.updHere fun x => { x with tinker := { x.tinker with tstat := tstatOf .flow 0 0#64 } }))
    | .factor _ => .next (zero s)

/-- The write set applied in one step (R62, R63): the lowest lane's last write to a byte stands. -/
def Column.applyWrites (x : Column) (w : List (Nat × Nat × Byte)) : Column :=
  (List.range 32).reverse.foldl (fun x l => (w.filter fun e => e.1 == l).foldl (fun x e => x.putByte e.2.1 e.2.2) x) x

/-- A commit at the bay (R62, R161): every byte of the read set is checked against memory, then the write set is applied
with its hints, and the core's copies of its lines are dropped. -/
def State.commit (s : State) (t : Tx) : State :=
  let wl := addLines [] (t.writes.map fun w => (w.1, w.2.1))
  let x := (t.lines ++ wl).foldl (fun x ln => (x.recallU s.free ln).settleLine s.free s.cur.who.cache ln) s.here
  let s := s.setCol s.cur.col x
  if t.reads.all fun r => x.byteAt s.free r.1 == r.2 then
    let x := x.applyWrites t.writes
    let x := wl.foldl (fun x ln =>
      let whole := (List.range 4).filter fun i => (List.range 32).all fun j => t.writes.any fun w => w.2.1 == 128 * ln + 32 * i + j
      { x with badSectors := x.badSectors.filter fun q => !(whole.any fun i => q == 4 * ln + i) }) x
    let x := t.hints.foldl (fun (x : Column) h =>
      let x := { x with bay := x.bay.touch s.ctxNum h.1 15#4 h.2.2.2 h.2.1 }
      if h.2.2.1 then x.lastUse s.cur.who.cache h.1 else x) x
    (s.setCol s.cur.col x).updWarp fun w => { w with tx := none, tstat := 0#64 }
  else s.abortTx .conflict 0 0#64

/-- TEND (R158, R161): ILLEGAL without the path's own open transaction; in a deterministic launch, one that writes a
shared page waits for the commit token; the commit is a release at column scope. -/
def execTend (s : State) :=
  accept .plain s fun s =>
    match s.ownTx with
    | none => .next s.illegal
    | some t =>
      let s := s.performDeferred s.cur.col s.slot
      if t.shared ∧ s.isDet ∧ (¬ s.holdsToken s.cur.col s.slot ∨ ¬ s.warp.deferred.isEmpty) then .next (s.holdAt .commit)
      else
        s.afterRelease 4 fun s =>
          let lines := t.lines ++ addLines [] (t.writes.map fun w => (w.1, w.2.1))
          if lines.any fun ln => s.here.claimed s.ctxNum ln then .next (s.blockAt .earlier) else .next (s.commit t)

/-- TABORT (R162): no effect with no transaction open. One of a path or lane that does not own the warp's open transaction has no effect either
(log 122, DESIGN CHOICE). -/
def execTabort (a : BitVec 6) (s : State) :=
  accept .plain s fun s => .next (if s.ownTx.isSome then s.abortTx .user a.toNat 0#64 else s)

/-- TSTAT (R162): the status of the warp's most recent transaction. -/
def execTstat (d : BitVec 6) (s : State) := accept .plain s fun s => s.vlScalar d s.tstat

end Sys2Proof.Machine
end

