-- ==== Sys2Proof/Machine/Issue.lean ====
section
/-! DEFINITION. Issue (R34 to R44, R72, R73, R79 to R82): the members of a packet, the checks of placement, the scoreboard, and
the steps of the core that no word encodes: arbitration, the landing of variable-latency results, sleeping, the rejoin timer, the
start and return of ejected lanes (R195, R196), and requests at the slices. -/

namespace Sys2Proof

open Sys2Proof.Machine

/-- The handle that a word installs a command in. -/
def Instr.handle : Instr → Option Nat
  | .hput d _ => some d.toNat
  | .copy _ _ h _ | .gath _ _ h | .scat _ _ h | .copyRst _ _ h | .mldw _ _ h | .mswap h | .mzero _ h | .mloop _ _ h _ | .mstr _ _ h
  | .launch _ _ h => some h.toNat
  | _ => none

/-- The fields of a prefix instruction. -/
def Instr.asPfx : Instr → Option Pfx
  | .pfx k z r x p e u y t =>
    some { k := k, z := decide (z = 1#1), rm := r, x := x, rd := p, ep := e, lu := decide (u = 1#1), e := decide (y = 1#1), sat := decide (t = 1#1) }
  | _ => none

end Sys2Proof

namespace Sys2Proof.Machine

/-! ## Members and chains (R36, R43) -/

/-- A member of a packet: a single word, or a prefix pair, which issues as one. -/
structure Member where
  /-- the position of its first word -/
  pos : Nat
  /-- the position of its base word -/
  base : Nat
  pfx : Option Word := none
  word : Word
  deriving DecidableEq, Repr

/-- Is a word a prefix (R42)? -/
def isPrefix (w : Word) : Bool := decide (opOf w = 0x7E#7)

/-- The members of the words from a position of a packet. -/
def membersOf : Nat → List Word → List Member
  | p, w :: v :: rest =>
    if isPrefix w && !isPrefix v then { pos := p, base := p + 1, pfx := some w, word := v } :: membersOf (p + 2) rest
    else { pos := p, base := p, word := w } :: membersOf (p + 1) (v :: rest)
  | p, [w] => [{ pos := p, base := p, word := w }]
  | _, [] => []

/-- The issue unit at the front: the members up to the first without C. -/
def unitOf : List Member → List Member
  | m :: ms => if (ctlOf m.word).c then m :: unitOf ms else [m]
  | [] => []

/-- The instruction of a word, its control bits aside. -/
noncomputable def plainInstr (w : Word) : Option Instr :=
  match decodeOp (opOf w) (fmtOf w) with
  | .ok i => if i.wf then some i else none
  | .error _ => none

/-- The pipe of an OP (R45), whatever the rest of its word holds; none for a prefix and for an OP that R45 does not list. -/
def opPipe (op : BitVec 7) : Option Pipe :=
  let n := op.toNat
  let within (a b : Nat) : Bool := decide (a ≤ n) && decide (n ≤ b)
  if within 0x00 0x0C || within 0x50 0x57 || within 0x78 0x7A then some .s
  else if within 0x0D 0x0E || within 0x58 0x6D then some .m
  else if within 0x10 0x20 || within 0x30 0x36 then some .v
  else if within 0x40 0x45 || within 0x48 0x4F then some .x
  else if within 0x70 0x75 || within 0x7B 0x7B then some .e
  else none

/-- Is a word a transfer by its OP and fn (R15, R36): a branch, a call, EXIT, SPLIT, JOIN or BRT, TRAP or ERET? -/
def opTransfers (op : BitVec 7) (f : BitVec 2) : Bool :=
  let n := op.toNat
  (decide (0x50 ≤ n) && decide (n ≤ 0x56)) || (decide (n = 0x00) && decide (f = 2#2)) || decide (n = 0x78) ||
    (decide (n = 0x79) && decide (f = 0#2))

/-- The instruction that a word's OP and fn name, for its destination: the first form that decodes when reserved bits are read as zero, of its b
and a groups, and, for MSWAP and MZERO, whose handle stands in the b group, of its d group (log 60). -/
noncomputable def namedInstr (w : Word) : Option Instr :=
  let f := fmtOf w
  let forms := (if opOf w = 0x72#7 then [f.d, 0#6] else [f.d]).flatMap fun d =>
    [f.a, f.a &&& 3#6, 0#6].flatMap fun a => [f.b, f.b &&& 15#6, 0#6].map fun b => { f with d := d, a := a, b := b }
  forms.findSome? fun f => match decodeOp (opOf w) f with | .ok i => some i | .error _ => none

/-- May words of an OP follow a prefix (R44)? -/
def opAccepts (op : BitVec 7) : Bool :=
  let n := op.toNat
  (decide (0x10 ≤ n) && decide (n ≤ 0x20)) || (decide (0x30 ≤ n) && decide (n ≤ 0x36)) || (decide (0x40 ≤ n) && decide (n ≤ 0x45)) ||
    (decide (0x48 ≤ n) && decide (n ≤ 0x4F)) || (decide (0x58 ≤ n) && decide (n ≤ 0x66)) || decide (n = 0x0D) || decide (n = 0x0E) ||
    decide (n = 0x54)

/-- What a chain has taken so far: its pipes, destination registers and handles. -/
structure Taken where
  pipes : List Pipe := []
  dests : List Opnd := []
  handles : List Nat := []
  deriving DecidableEq, Repr

/-- What a word would take of its chain: the pipe of its OP, and the destination that its OP and fn give it, whether or not the word
decodes (log 60). -/
noncomputable def takenBy (w : Word) : Taken :=
  let i := namedInstr w
  { pipes := (opPipe (opOf w)).toList, dests := (i.map (·.writes)).getD [], handles := (i.bind (·.handle)).toList }

/-- Does a word clash with the earlier words of its chain: the same pipe, or the same destination (R12, R36)? -/
def Taken.clash (t u : Taken) : Bool :=
  u.pipes.any t.pipes.contains || u.dests.any t.dests.contains || u.handles.any t.handles.contains

/-- A chain with one more word. -/
def Taken.add (t u : Taken) : Taken :=
  { pipes := u.pipes ++ t.pipes, dests := u.dests ++ t.dests, handles := u.handles ++ t.handles }

/-- The first error of chain or prefix placement in a packet: the position and the offending word (R12, R36, R43). Placement is a matter of
C, of the stall count, of OP and fn and of destinations, so a word that does not decode takes its part in it (R46). -/
noncomputable def misplaced : Taken → List Member → Option (Nat × Word)
  | _, [] => none
  | t, m :: ms =>
    let k := ctlOf m.word
    let u := takenBy m.word
    if isPrefix m.word then some (m.pos, m.word)
    else if m.pfx.isSome && !opAccepts (opOf m.word) then some (m.pos, m.pfx.getD 0#32)
    else if k.c && (decide (m.base = 2) || decide (k.s ≠ 0#3) || opTransfers (opOf m.word) (fmtOf m.word).f) then
      some (m.base, m.word)
    else if t.clash u then some (m.base, m.word)
    else misplaced (if k.c then t.add u else {}) ms

/-! ## Decoding a member (R46) -/

/-- What decoding makes of a member: an instruction that executes, ILLEGAL with the offending word, or ROLE. -/
inductive Decoded where
  | illegal (w : Word)
  | role
  | run (i : Instr)
  deriving DecidableEq, Repr

/-- A prefix word executed: its fields stand for the base word that it travels with (R42, R43). -/
def execPfx (k : BitVec 3) (z : BitVec 1) (r : BitVec 3) (x : BitVec 6) (p : BitVec 2) (e : BitVec 2) (u y t : BitVec 1) (s : State) :
    Host.Outcome State Fault Refusal :=
  .next { s with cur := { s.cur with pfx := (Instr.pfx k z r x p e u y t).asPfx } }

/-- The prefix fields of a prefix word, if it decodes. -/
noncomputable def pfxOf (w : Word) : Option Pfx :=
  match decodeWord w with
  | .ok (_, i) => i.asPfx
  | .error _ => none

/-- Does a word raise ILLEGAL by what its encoding, its prefix or its table holds: a join offset of 0 of a SPLIT (R122), or a BRT whose
table has one, or a nonzero bit in 31:20 of a table word (R123)? A table whose fetch fails is left to the BRT itself. -/
def State.dividesIllegally (s : State) : Instr → Bool
  | .split _ t j => decide ((s.splitOffsets t j).2 = 0#32)
  | .brt _ n =>
    match (s.tableWords ((n.toNat + 3) / 3) (s.cur.pkt + 1#32)).1 with
    | .ok ws =>
      let t := ws.take (n.toNat + 1)
      decide (n = 0#8) || decide (t.headD 0#32 = 0#32) || t.any fun w => decide (w.extractLsb' 20 12 ≠ 0#12)
    | .error _ => false
  | _ => false

/-- A member decoded for the issuing agent. ILLEGAL and ROLE are decided here, before the scoreboard (R46). -/
noncomputable def State.decodeMember (s : State) (m : Member) : Decoded :=
  let p := m.pfx.bind pfxOf
  if m.pfx.isSome ∧ p.isNone then .illegal (m.pfx.getD 0#32)
  else
    match decodeWord m.word with
    | .error _ => .illegal m.word
    | .ok (_, i) =>
      if (match p with | some p => !i.cls.admits p | none => false) then .illegal (m.pfx.getD 0#32)
      else
        let s := ({ s with cur := { s.cur with pfx := p } } : State)
        match s.decodeCause i.cls with
        | some .illegal => .illegal m.word
        | some _ => .role
        | none => if s.dividesIllegally i then .illegal m.word else .run i

/-! ## The scoreboard (R37, R38, R82) -/

/-- A register operand of the issuing word, with the lanes that it reads or writes there. -/
def Opnd.reg (o : Opnd) (uid : Nat) (lanes : Lanes) (p : Option Pfx) : Reg :=
  match o with
  | .v r => .v r lanes
  | .k r => .k r lanes
  | .s r => .s uid r
  | .c i => .c uid i
  | .fourth d => .v (match p with | some p => p.x.toNat | none => d) lanes

/-- The registers that a word reads: its operands, and the mask that its prefix names (R42). An exchange word reads all lanes. -/
def State.readsOf (s : State) (i : Instr) (p : Option Pfx) : List Reg :=
  let lanes := if i.pipe = .m ∧ (match i with | .xchXor .. | .xchRot .. | .xchBc .. | .xchGath .. | .xred .. => true | _ => false) = true
    then 0xFFFFFFFF#32 else s.active
  let mask :=
    match p with
    | some p => if i.cls.kz ≠ .none ∧ p.k ≠ 0#3 then [Reg.k p.k.toNat s.active] else []
    | none => []
  i.reads.map (·.reg s.path.uid lanes p) ++ mask

/-- The registers that a word writes. -/
def State.writesOf (s : State) (i : Instr) (p : Option Pfx) : List Reg := i.writes.map (·.reg s.path.uid s.active p)

/-- What a division or a JOIN at its region's end copies or discards besides its operands (R383): none, the path's banks, or, with a
candidate to be ejected, its v and k registers too. A SPLIT whose taken side begins at the packet after it may have one side only
(R120), which is found when it executes. -/
def State.copiedBy (s : State) : Instr → Option Bool
  | .split k t j =>
    let m := s.kr k &&& s.active
    some (decide ((s.splitOffsets t j).1 ≠ 1#32) &&
      s.ejectsAny [{ pkt := s.cur.pkt, wpos := 1, lanes := s.active &&& ~~~m }, { pkt := s.cur.pkt, wpos := 0, lanes := m }])
  | .brt a n =>
    match (s.tableWords ((n.toNat + 3) / 3) (s.cur.pkt + 1#32)).1 with
    | .ok ws => some (s.ejectsAny (brtCands s.cur.pkt (tableOffsets (ws.take (n.toNat + 1)))
        (s.cur.pkt + 1#32 + BitVec.ofNat 32 ((n.toNat + 3) / 3)) s.active (s.vr a)))
    | .error _ => none
  | .join => if s.path.token.map (·.join) = some s.cur.pkt then some false else none
  | _ => none

/-- The pending variable-latency writes that a word meets (R38), among them an ejected lane's in its owner's s0-s47 (R192), and those of
what a division or a JOIN copies (R383). A chained word meets none that an earlier word of its chain has made (R12). -/
def State.meets (s : State) (i : Instr) (p : Option Pfx) : List VPend :=
  let rs := s.readsOf i p ++ s.writesOf i p
  let copied : Reg → Bool :=
    match ({ s with cur := { s.cur with pfx := p } } : State).copiedBy i with
    | some all => Reg.copied s.path.uid s.path.lanes all
    | none => fun _ => false
  let old (v : VPend) : Bool := match s.cur.before with | some b => decide (v.id < b.2) | none => true
  let hit (v : VPend) : Bool := old v && v.regs.any fun r => rs.any r.meets || copied r
  let owner :=
    match s.cur.who with
    | .lane _ => s.warp.th.vpend.filter fun v => v.regs.any fun r => match r with | .s _ n => decide (n < 48) && rs.any r.meets | _ => false
    | _ => []
  s.thread.vpend.filter hit ++ owner

/-- Pending variable-latency writes that a word would create (R82): a word of the M or E pipe with a destination, or an engine
command's handle; HPUT of a PENDING command's token. -/
def State.creates (s : State) (i : Instr) : Nat :=
  let token (a : BitVec 6) : Bool :=
    match Tab.find? s.group.tickets ((s.sr a).extractLsb' 0 16).toNat with
    | some h => decide (h.st = .pending)
    | none => false
  match i with
  | .hput _ a => if token a then 1 else 0
  | _ =>
    if i.pipe = .m ∨ i.pipe = .e then (if i.writes.isEmpty ∧ i.handle.isNone then 0 else 1) else 0

/-- How many variable-latency writes an agent may have pending (R82, R191, R192). -/
def Who.pendLimit : Who → Nat
  | .lane _ => 8
  | _ => 32

/-- Does a unit block under R38: it meets a pending write that has not landed, or would create one too many? A word that decodes
to ILLEGAL or ROLE, or that meets an error, does not block. -/
noncomputable def State.blocks (s : State) : List Member → Nat → Bool
  | [], n => decide (s.cur.who.pendLimit < s.pendingVl + n) && decide (n ≠ 0)
  | m :: ms, n =>
    match s.decodeMember m with
    | .run i =>
      let p := m.pfx.bind pfxOf
      let v := s.meets i p
      if v.any (·.error.isSome) then false
      else if !v.isEmpty then true
      else s.blocks ms (n + s.creates i)
    | _ => decide (s.cur.who.pendLimit < s.pendingVl + n) && decide (n ≠ 0)

/-- Does a unit hold a word of a pipe? -/
noncomputable def hasPipe (p : Pipe) (ms : List Member) : Bool :=
  ms.any fun m => match plainInstr m.word with | some i => decide (i.pipe = p) | none => false

/-- Does a read of a unit's member fall before a fixed-latency result is ready (R37)? -/
def stallShort (pend : List Pend) (clk : Nat) (rs : List Reg) : Bool :=
  pend.any fun p => decide (clk < p.due) && rs.any p.write.touches

/-- Is the checking scoreboard on for the issuing agent's warp (R37)? -/
def State.checking (s : State) : Bool := s.warp.check

/-! ## Waiting (R39, R129) -/

/-- Is the wait of the issuing agent over? -/
def State.waitOver (s : State) : Bool :=
  match s.path.wait with
  | .none => true
  | .passed => true
  | .failed _ => true
  | .yield => false
  | .barrier _ _ _ => false
  | .tlbi => false
  | .handle h => decide ((s.handle h).st ≠ .pending)
  | .token => s.holdsToken s.cur.col s.slot || !s.isDet
  | .commit => (s.holdsToken s.cur.col s.slot || !s.isDet) && s.warp.deferred.isEmpty
  | .release n => !s.here.putsBefore s.cur.who.cache n
  | .hosted => !s.hostBusy
  | .exit => s.exitFree || s.exitErred.isSome
  | .code => !(s.here.mops.any fun m => m.mine s && decide (m.kind = .fetch))
  | .latency n => decide (s.pendingVl ≤ n) || s.erred.isSome
  | .memory n => decide (s.unperformed + s.erredCount ≤ n) || s.erred.isSome
  | .until t => decide (t ≤ s.clk)
  | .earlier => !s.heldBack && s.quiet
  | .command id =>
    match s.here.cmd id with
    | some k => decide (k.st = .faulted)
    | none => true
  | .grant g => !((s.thresherCmds s.cur.col s.launchId).any fun k => k.grantNames.any fun h => decide (grantIndex h = g))
  | .queue q => if q = 5 then decide ((s.thresherCmds s.cur.col s.launchId).length < 16) else s.here.queueRoom s.entry q
  | .exchange => s.warp.xch.isNone || s.exchangeErred.isSome
  | .ticket => decide (s.group.tickets.length < 65536)
  | .banks all => !s.pendingBanks all || (s.erredBanks all).isSome
  | .barrierIdle e => !s.here.barNamed s.entry e

/-! ## Eligibility and arbitration (R79 to R81) -/

/-- A path of a warp slot that might issue: lanes, and no stop or parking (R79). -/
def Column.mayIssue (x : Column) (n : Nat) (b : Bool) : Bool :=
  let w := x.warp n
  w.live && !(x.group w.entry).leaving && decide (w.rejoin ≠ .parked) && w.stop.isNone && decide (w.exited ≠ 0xFFFFFFFF#32)
    && (if b then w.b else w.a).isSome

/-- The words of an agent's packet from its position, none where its fetch fails. -/
def State.nextWords (s : State) : List Word :=
  match (s.fetchPacket s.path.pkt).1 with
  | .ok ws => ws.drop s.path.wpos
  | .error _ => []

/-- The traffic classes of the M-pipe words in an agent's next packet (R79). Where the path's run broke in the middle of its packet, the
words before its position have issued and are not counted (log 89, DESIGN CHOICE). -/
noncomputable def State.classesAhead (s : State) : List Nat :=
  (membersOf s.path.wpos s.nextWords).filterMap fun m =>
    let op := (opOf m.word).toNat
    match plainInstr m.word with
    | some i => if i.pipe = .m then some (if op = 0x68 ∨ op = 0x69 then 1 else 0) else none
    | none => none

/-- The eligibility of a path, its gate aside, and whether the gate alone shuts it out (R79). -/
noncomputable def State.eligible (s : State) (c n : Nat) (b : Bool) : Bool × Bool :=
  if !(s.col c).mayIssue n b then (false, false)
  else
    let s := s.asAgent c (.warp n b)
    if !s.waitOver || s.blocks (unitOf (membersOf s.path.wpos s.nextWords)) 0 then (false, false)
    else
      let shut := s.classesAhead.any fun tc => s.gateClosed c s.launchId tc
      (!shut, shut)

/-- The slot that an eligible warp issues its next run from: alternately, when both are eligible (R80). -/
def pickSlot (lastB a b : Bool) : Bool := if a ∧ b then !lastB else b

/-- The best class by credit, ties to copy, matrix, vector and unified (R81). -/
def bestClass (credits : List Nat) (present : List Nat) : Nat :=
  present.foldl (fun best r => if credits.getD best 0 < credits.getD r 0 then r else best) (present.headD 0)

/-- The warp with the oldest last issue, ties to the lower slot (R81). -/
def oldestWarp (x : Column) (l : List Nat) : Option Nat :=
  l.foldl (fun best n =>
    match best with
    | none => some n
    | some m => if (x.warp n).lastIssue < (x.warp m).lastIssue then some n else best) none

/-- The winner of an arbitration among the eligible warps (R81): the credits after it, and its slot. The warps of a promoted
group count at priority 15 (R334). -/
def State.winner (s : State) (c q : Nat) (elig : List Nat) : Option (List Nat × Nat) :=
  let x := s.col c
  let prio (n : Nat) : Nat :=
    let g := x.group (x.warp n).entry
    if g.promoted then 15 else (s.node g.launch).eff.prio
  let top := elig.foldl (fun p n => max p (prio n)) 0
  let e := elig.filter fun n => decide (prio n = top)
  let role (n : Nat) : Nat := (x.warp n).role.index
  let present := (List.range 4).filter fun r => e.any fun n => decide (role n = r)
  let credits := (List.range 4).map fun r => (x.quarter q).credits.getD r 0
  let credits := if present.all fun r => decide (credits.getD r 0 = 0)
    then (List.range 4).map fun r => (s.weightOf c q r).getD (credits.getD r 0) else credits
  let r := bestClass credits present
  (oldestWarp x (e.filter fun n => decide (role n = r))).map fun n =>
    ((List.range 4).map fun i => if i = r then credits.getD i 0 - 1 else credits.getD i 0, n)

/-- The slots of a quarter. -/
def slotsIn (q : Nat) : List Nat := (List.range 16).map (16 * q + ·)

/-- The waits of YIELD ended with the arbitration that they sat out (R79). -/
def Column.clearYields (x : Column) (q : Nat) : Column :=
  (slotsIn q).foldl (fun x n =>
    let w := x.warp n
    let f (p : Path) : Path := if p.wait = .yield then { p with wait := .none } else p
    if w.live then x.setWarp n { w with a := w.a.map f, b := w.b.map f } else x) x

/-- The live warps of a quarter (R35). -/
def State.liveIn (s : State) (c q : Nat) : List Nat := (slotsIn q).filter fun n => ((s.col c).warp n).live

/-- A quarter made ready for its arbitration: due writes land, the warps that have nothing left end, suspended paths are popped into
free slots (R120), and the holds of its warps are settled (R31). -/
def State.readyQuarter (s : State) (c q : Nat) : State :=
  let live := s.liveIn c q
  let s := live.foldl (fun s n => s.landDue c (.warp n false)) s
  let s := live.foldl (fun s n => s.reap c n) s
  let live := s.liveIn c q
  let s := s.updCol c fun x => live.foldl (fun x n => x.setWarp n (x.warp n).fill) x
  live.foldl (fun s n => (s.asAgent c (.warp n ((s.col c).warp n).a.isNone)).settleHolds) s

/-- The winner's run begun (R81). -/
def Column.startRun (x : Column) (q n clk : Nat) (b : Bool) (credits : List Nat) : Column :=
  (x.setWarp n { x.warp n with lastIssue := clk, lastB := b }).setQuarter q { x.quarter q with run := some { slot := n, b := b }, credits := credits }

/-- The arbitration of a ready quarter (R79 to R81): counted for each launch that has a warp which a gate alone shuts out (R181
counter 8), and the winner's run begins. -/
noncomputable def State.arbitrate (s : State) (c q : Nat) : State :=
  let e : List (Nat × (Bool × Bool) × Bool × Bool) := (s.liveIn c q).map fun n => (n, s.eligible c n false, s.eligible c n true)
  let elig := e.filter fun p => p.2.1.1 || p.2.2.1
  let shut := e.filter fun p => !(p.2.1.1 || p.2.2.1) && (p.2.1.2 || p.2.2.2)
  let gated := (shut.map fun (p : Nat × (Bool × Bool) × Bool × Bool) => ((s.col c).group ((s.col c).warp p.1).entry).launch).eraseDups
  let s := s.updCol c fun x => gated.foldl (fun (x : Column) (n : Nat) => x.count n 8) x
  let s :=
    match s.winner c q (elig.map (·.1)) with
    | none => s
    | some (credits, n) =>
      let b : Bool := match elig.find? (fun (p : Nat × (Bool × Bool) × Bool × Bool) => decide (p.1 = n)) with
        | some p => pickSlot ((s.col c).warp n).lastB p.2.1.1 p.2.2.1
        | none => false
      s.updCol c fun x => x.startRun q n s.clk b credits
  s.updCol c fun x => (x.clearYields q).setQuarter q { (x.clearYields q).quarter q with arb := s.clk + 1 }

/-- RUN_ARBITRATION: a quarter without a run, at most once in a cycle, is made ready and arbitrates. -/
noncomputable def execRunArbitration (c q : Nat) (s : State) : Host.Outcome State Fault Refusal :=
  if 4 ≤ q ∨ ((s.col c).quarter q).run.isSome ∨ s.clk < ((s.col c).quarter q).arb then .next s
  else .next { (s.readyQuarter c q).arbitrate c q with cur := s.cur }

/-! ## Variable-latency results (R82, R384) -/

/-- The agent that a number names: a warp slot, 64 and the context of a lane, or 96 for the tinker. -/
def agentOf (n : Nat) : Who := if n < 64 then .warp n false else if n < 96 then .lane (n - 64) else .tinker

/-- VARIABLE_LATENCY_LAND: a pending result whose value is known lands in all its lanes at once, behind the earlier writes of its
registers (R37, R82). -/
def execVariableLatencyLand (c agent id : Nat) (s : State) : Host.Outcome State Fault Refusal :=
  let who := agentOf agent
  let s := if agent < 64 then s.receive c agent else s
  let s := s.landDue c who
  let t := s.threadOf c who
  match t.vpend.find? fun v => decide (v.id = id) with
  | none => .next s
  | some v =>
    match v.value with
    | none => .next s
    | some ws =>
      if v.error.isSome || ws.any (fun w => t.pend.any fun p => p.write.sameReg w) then .next s
      else
        let s := ws.foldl (fun s w => s.landWrite c who w) s
        let t := s.threadOf c who
        let s := s.setThreadOf c who { t with vpend := t.vpend.filter fun u => decide (u.id ≠ id) }
        .next (if agent < 64 then s.updCol c fun x => x.finishExchange agent else s)

/-- SLEEP_EXPIRE (R129): the path may issue again. -/
def execSleepExpire (c agent : Nat) (slotB : Bool) (s : State) : Host.Outcome State Fault Refusal :=
  let who := match agentOf agent with | .warp n _ => Who.warp n slotB | w => w
  let p := s.pathOf c who
  let held : Bool := match who with | .warp n b => (if b then ((s.col c).warp n).b else ((s.col c).warp n).a).isSome | _ => true
  match p.wait with
  | .until t => if held ∧ t ≤ s.clk then .next (s.setPathOf c who { p with wait := .none }) else .next s
  | _ => .next s

/-! ## Rejoin, hand-over and return (R195, R196, R199) -/

/-- REJOIN_TIMEOUT: a waiting warp whose timer has reached its limit parks. -/
def execRejoinTimeout (c slot : Nat) (s : State) : Host.Outcome State Fault Refusal :=
  let w := (s.col c).warp slot
  if w.live ∧ w.rejoin = .waiting ∧ w.limit.toNat * 1024 ≤ w.timerAt s.clk then .next (s.park c slot) else .next s

/-- Is a transfer of a context on the port done? -/
def Column.portDone (x : Column) (i : Nat) (back : Bool) (clk : Nat) : Bool :=
  x.port.any fun j => decide (j.ctx = i) && decide (j.back = back) && decide (j.done ≤ clk)

/-- A context's transfer taken off the port. -/
def Column.portClear (x : Column) (i : Nat) : Column := { x with port := x.port.filter fun j => decide (j.ctx ≠ i) }

/-- The lane's release of R195 begun, or gone on with: its warp's words from before the division, then the core L1's dirty bytes and
partials; what the drain goes on from, `some 0` when it is complete, and the column. -/
def Column.handOver (x : Column) (i : Nat) : Option Nat × Column :=
  let k := x.ctx i
  let earlier := (x.mops.any fun m => decide (m.who.base = .warp k.slot false) && decide (m.id < k.path.uid)) ||
    (x.warp k.slot).deferred.any fun d => decide (d.op.id < k.path.uid)
  if k.drain.isNone ∧ earlier = true then (none, x)
  else
    match x.drain 0 k.drain with
    | (true, _, x) => (some 0, x)
    | (false, n, x) => (n, x)

/-- LANE_CONTEXT_START: the lane's transfer and the write-back of its warp's earlier accesses are done; its start is an acquire at
column scope (R52, R195). -/
def execLaneContextStart (c i : Nat) (s : State) : Host.Outcome State Fault Refusal :=
  let k := (s.col c).ctx i
  if !k.live || !k.starting then .next s
  else
    let s := s.performDeferred c k.slot
    let (n, x) := (s.col c).handOver i
    if n = some 0 ∧ x.portDone i false s.clk then
      let x := (x.acquireL1 (i / 4 + 1)).portClear i
      .next (s.setCol c (x.setCtx i { x.ctx i with starting := false, drain := none, path := { (x.ctx i).path with ready := s.clk + 1 } }))
    else .next (s.setCol c (x.setCtx i { x.ctx i with drain := n }))

/-- A context's lane removed from the column. -/
def Column.freeCtx (x : Column) (i : Nat) : Column := { x.portClear i with ctxs := Tab.erase x.ctxs i }

/-- The owner after one of its lanes has come back or left: its regions settle, free slots fill, and its rejoin state follows. -/
def State.afterLane (s : State) (c n : Nat) : State :=
  (s.updCol c fun x =>
    let x := x.settleRegions n
    x.setWarp n (x.warp n).fill).rejoinUpdate c n

/-- A returning context's release (R196 step 2), begun or gone on with: its L1's dirty bytes go to the bay, and, when they have, the core
drops its clean copies of the lines that the lane wrote. Is it complete? -/
def Column.releaseCtx (x : Column) (i : Nat) : Bool × Column :=
  match x.drain (i / 4 + 1) (x.ctx i).drain with
  | (true, _, x) => (true, x.dropClean (x.ctx i).wrote)
  | (false, n, x) => (false, x.setCtx i { x.ctx i with drain := n })

/-- A lane merged into its warp (R196 steps 3 and 4): its v and k values, the writes that an error has left pending (R164), and its place in the arrived set of its region. -/
def Column.mergeLane (x : Column) (i : Nat) : Column :=
  let k := x.ctx i
  let w := x.warp k.slot
  let m : Lanes := 1#32 <<< k.lane
  let v := k.th.v.foldl (fun t e => Tab.store 0#1024 t e.1 (blend m e.2 (Tab.get 0#1024 t e.1))) (Tab.mapVals (fun _ v => blend m 0#1024 v) w.th.v)
  let ks := k.th.k.foldl (fun t e => Tab.store 0#32 t e.1 ((e.2 &&& m) ||| (Tab.get 0#32 t e.1 &&& ~~~m))) (Tab.mapVals (fun _ v => v &&& ~~~m) w.th.k)
  let stack :=
    match w.stack.region k.home with
    | some f => w.stack.setFrame f { w.stack.frame f with aux := (w.stack.frame f).aux ||| m, jpos := k.path.wpos }
    | none => w.stack
  let th : Thread := { w.th with v := v.filter (fun e => e.2 ≠ 0#1024), k := ks.filter (fun e => e.2 ≠ 0#32), vpend := w.th.vpend ++ k.th.vpend }
  (x.setWarp k.slot { w with th := th, stack := stack }).freeCtx i

/-- LANE_RETURN: a lane that has arrived performs its release and asks for its transfer, and is merged when that is done; a lane
that has executed EXIT leaves after its release (R125, R196). -/
def execLaneReturn (c i : Nat) (s : State) : Host.Outcome State Fault Refusal :=
  let back := s.cur
  let s := s.landDue c (.lane i)
  let x := s.col c
  let k := x.ctx i
  let n := k.slot
  if !k.live || !k.leaving || k.starting then .next s
  else if x.port.any fun j => decide (j.ctx = i) then
    if x.portDone i true s.clk then .next ((s.setCol c (x.mergeLane i)).afterLane c n) else .next s
  else if k.drain.isNone && (!(s.asAgent c (.lane i)).quiet || k.th.vpend.any (·.error.isNone) || !k.th.pend.isEmpty) then
    .next { (s.asAgent c (.lane i)).performDeferred c n with cur := back }
  else
    match x.releaseCtx i with
    | (false, x) => .next (s.setCol c x)
    | (true, x) =>
      if k.exiting then
        let m : Lanes := 1#32 <<< k.lane
        let s := (s.setCol c ((x.setWarp n ((x.warp n).exitLanes m)).freeCtx i)).afterLane c n
        .next (if ((s.col c).warp n).exited = 0xFFFFFFFF#32 then s.passToken c n else s)
      else .next (s.setCol c { x with port := x.port ++ [{ ctx := i, back := true, done := x.portFree s.clk + 4 }] })

end Sys2Proof.Machine
end

