-- ==== Sys2Proof/Machine/Host.lean ====
section
/-! DEFINITION. The host, peers, boot and trust (R362 to R372): register writes, the mailbox's requests, the duties, page faults
forwarded to the host (R355), boot, resets, time, power and the clocks. -/

namespace Sys2Proof.Machine

/-! ## The duty map (R365) -/

/-- Does a duty run in hardware mode: 0 steward, 1 page faults, 2 training, 3 scrub, 4 Ethernet, 5 thermal? -/
def HostSide.hardware (h : HostSide) (duty : Nat) : Bool := h.dutyMap.getLsbD duty

/-- The module has reported ready: the host link is up (R368). -/
def HostSide.ready (h : HostSide) : Bool := h.fctBoot.getLsbD 63

/-- A write of DUTY_MAP: refused with a reserved bit set. -/
def HostSide.writeDuty (h : HostSide) (v : BitVec 64) : HostSide := if onlyFields v [(5, 0)] then { h with dutyMap := v } else h

/-- DUTY_MAP_WRITE. -/
def execDutyMapWrite (v : BitVec 64) (s : State) : Host.Outcome State Fault Refusal :=
  .next (if s.host.ready then { s with host := s.host.writeDuty v } else s)

/-! ## The factor register block and the doorbell pages (R363) -/

/-- A write of RING_CFG or FRING_CFG: its size must lie in range; while EN is set it may only clear EN; setting EN starts the ring's
counts again. -/
def Fn.writeCfg (f : Fn) (fault : Bool) (v : BitVec 64) : Fn :=
  let old := if fault then f.fringCfg else f.ringCfg
  let hi := if fault then 12 else 16
  let size := regField v 4 0
  if !onlyFields v [(63, 63), (4, 0)] || decide (size < 4) || decide (hi < size) || (old.getLsbD 63 && decide (v ≠ setField old 63 63 0)) then f
  else
    let starts := v.getLsbD 63 && !old.getLsbD 63
    if fault then
      if starts then { f with fringCfg := v, fringHead := 0, fringTail := 0 } else { f with fringCfg := v }
    else if starts then { f with ringCfg := v, ringHead := 0, ringTail := 0, ringTaken := 0, finished := [] } else { f with ringCfg := v }

/-- A write of a function's RING_CFG or FRING_CFG; reports that were kept are written when its fault-report ring is enabled. -/
def HostSide.writeCfg (h : HostSide) (fn : Nat) (fault : Bool) (v : BitVec 64) : HostSide :=
  let f := (h.fn fn).writeCfg fault v
  if fault then (h.setFn fn f).drainKept f.kept.length fn else h.setFn fn f

/-- RING_CFG_WRITE. -/
def execRingCfgWrite (fn : Nat) (fault : Bool) (v : BitVec 64) (s : State) : Host.Outcome State Fault Refusal :=
  .next (if fn < 64 ∧ s.host.ready then { s with host := s.host.writeCfg fn fault v } else s)

/-- A write of FRING_HEAD: the reports up to it are taken, and reports kept while the ring was full are written. A value that lies not
between the head and the tail is ignored. -/
def HostSide.takeReports (h : HostSide) (fn v : Nat) : HostSide :=
  let f := h.fn fn
  let n := (v + 2 ^ 32 - f.fringHead) % 2 ^ 32
  if (f.fringTail + 2 ^ 32 - f.fringHead) % 2 ^ 32 < n then h
  else (h.setFn fn { f with fringHead := v % 2 ^ 32 }).drainKept f.kept.length fn

/-- FRING_HEAD. -/
def execFringHead (fn : Nat) (v : BitVec 64) (s : State) : Host.Outcome State Fault Refusal :=
  .next (if fn < 64 then { s with host := s.host.takeReports fn (v.toNat % 2 ^ 32) } else s)

/-- A write of RING_TAIL: ignored where it lies behind RING_HEAD, or more than the ring's size ahead of it. -/
def Fn.writeTail (f : Fn) (v : Nat) : Fn :=
  if (v % 2 ^ 32 + 2 ^ 32 - f.ringHead) % 2 ^ 32 ≤ 2 ^ regField f.ringCfg 4 0 ∧ f.ringCfg.getLsbD 63 then { f with ringTail := v % 2 ^ 32 } else f

/-- A write to PF0's factor register block: read-only registers and addresses not aligned to 4 KiB are refused. -/
def HostSide.writeFactor (h : HostSide) (off : Nat) (v : BitVec 64) : HostSide :=
  let page := decide (v.toNat % 4096 = 0)
  if off = 0x100 then h.writeDuty v
  else if off = 0x200 then (if page then { h with h2dBase := v } else h)
  else if off = 0x210 then { h with h2dTail := v &&& 0xFFFFFFFF#64 }
  else if off = 0x218 then (if page then { h with d2hBase := v } else h)
  else if off = 0x220 then ({ h with d2hHead := v &&& 0xFFFFFFFF#64 } : HostSide).flush h.outbox.length
  else if 0x1000 ≤ off ∧ off < 0x2000 then
    let fn := (off - 0x1000) / 0x40
    let f := h.fn fn
    match (off - 0x1000) % 0x40 with
    | 0x00 => if page && !f.ringCfg.getLsbD 63 then h.setFn fn { f with ringBase := v } else h
    | 0x08 => h.writeCfg fn false v
    | 0x10 => if page && !f.fringCfg.getLsbD 63 then h.setFn fn { f with fringBase := v } else h
    | 0x18 => h.writeCfg fn true v
    | _ => h
  else h

/-- A write to a bay's register block (R309), its alias registers aside: what it writes to read-only fields and registers is ignored (R5). -/
def Column.writeReg (x : Column) (off : Nat) (v : BitVec 64) : Column :=
  if off = 0 then x.writeCtl v
  else if off = 8 then x.updBay fun b => { b with stat := if v.getLsbD 18 then b.stat &&& ~~~(1#64 <<< 18) else b.stat }
  else if 0x100 ≤ off ∧ off < 0x500 then
    let n := (off - 0x100) / 0x40
    let r := (off - 0x100) % 0x40
    if r = 0 then x.updBay fun b => b.writeRgnCtl n v
    else if r < 0x28 ∧ r % 8 = 0 then
      x.updBay fun b => b.writeWay n (r / 8 - 1) v
    else if r = 0x28 then x.updBay fun b => b.writeHt n v
    else x.updBay (·.refuseWrite)
  else if 0x500 ≤ off ∧ off < 0x580 ∧ off % 8 = 0 then x
  else x.updBay (·.refuseWrite)

/-- The alias register at an offset of a bay's block: its range, and whether it is BAY_ALIAS_BACK (R216). -/
def aliasAt (off : Nat) : Option (Nat × Bool) :=
  if 0x600 ≤ off ∧ off < 0x640 ∧ off % 8 = 0 then some ((off - 0x600) / 16, decide (off % 16 = 8)) else none

/-- REGISTER_WRITE: a 64-bit write at an offset of a register space: 0 to 255 the bay of a column, 256 PF0's factor block, and 257 + f
function f's doorbell page. -/
def execRegisterWrite (sp off : Nat) (v : BitVec 64) (s : State) : Host.Outcome State Fault Refusal :=
  if sp < 256 then
    match aliasAt off with
    | some (n, back) => .next (s.writeAlias sp n back v)
    | none => .next (s.updCol sp fun x => x.writeReg off v)
  else if !s.host.ready then .next s
  else if sp = 256 then .next { s with host := s.host.writeFactor off v }
  else if sp < 321 then
    let fn := sp - 257
    if off = 0 then .next { s with host := s.host.setFn fn ((s.host.fn fn).writeTail v.toNat) }
    else if off = 0x18 then .next { s with host := s.host.takeReports fn (v.toNat % 2 ^ 32) }
    else .next s
  else .next s

/-! ## The mailbox (R364) -/

/-- A request of the host as it stands in its slot. -/
structure Request where
  op : Nat
  tag : Nat
  payload : List Byte
  deriving DecidableEq, Repr

/-- The next request that the host has written. -/
def HostSide.request (h : HostSide) : Option Request :=
  if h.h2dHead = h.h2dTail ∨ h.ready = false then none
  else
    let b := h.read 0 (h.h2dBase.toNat + 4096 * (h.h2dHead.toNat % 64)) 4096
    some { op := fieldOf b 0 2, tag := fieldOf b 8 8, payload := (b.drop 32).take (min 4064 (fieldOf b 4 4)) }

/-- A payload in parts of at most 4,064 bytes, at least one. -/
def payloadParts : Nat → List Byte → List (List Byte)
  | 0, b => [b.take 4064]
  | n + 1, b => if b.length ≤ 4064 then [b] else b.take 4064 :: payloadParts n (b.drop 4064)

/-- A request taken and answered: the head moves past it, and the response carries its op, its tag, a status and a payload; one longer than a
message's goes on in further responses of the same op and tag (log 28, DESIGN CHOICE). -/
def HostSide.answer (h : HostSide) (q : Request) (status : Nat) (payload : List Byte) : HostSide :=
  (payloadParts (payload.length / 4064) payload).foldl (fun h p => h.send (message q.op 1 q.tag status p)) { h with h2dHead := nextCount h.h2dHead }

/-- A request of an op served when it is the host's next: malformed where its payload is shorter than the op needs, else what the op does,
with the status and the payload of its response. -/
def State.serveOp (s : State) (op need : Nat) (run : State → List Byte → State × Nat × List Byte) : Host.Outcome State Fault Refusal :=
  match s.host.request with
  | none => .next s
  | some q =>
    if q.op ≠ op then .next s
    else if q.payload.length < need then .next { s with host := s.host.answer q 3 [] }
    else
      let r := run s q.payload
      .next { r.1 with host := r.1.host.answer q r.2.1 r.2.2 }

/-- UNKNOWN_OP: a request whose op no host may send (R364). -/
def execUnknownOp (s : State) : Host.Outcome State Fault Refusal :=
  match s.host.request with
  | none => .next s
  | some q =>
    if [0x01, 0x03, 0x04, 0x05, 0x06, 0x07, 0x08, 0x09, 0x0A].contains q.op then .next s
    else .next { s with host := s.host.answer q 2 [] }

/-- The report of R371: nonce, measurements and versions of the loaded stages, fuses, DUTY_MAP, and the service regions with their
functions. -/
def State.attestReport (s : State) (nonce : List Byte) : List Byte :=
  let stages := s.host.stages.flatMap fun e => bytesOf 48 e.1 ++ bytesOf 4 e.2
  let services := (s.dist.nodes.filter fun e => decide (e.2.kind = .service)).flatMap fun e => bytesOf 2 e.1 ++ bytesOf 1 e.2.fn
  nonce ++ stages ++ Config.fuses ++ bytesOf 8 s.host.dutyMap.toNat ++ services

/-- ATTEST: Selvis's report, signed under both schemes (log 28, DESIGN CHOICE). -/
def execAttest (s : State) : Host.Outcome State Fault Refusal :=
  s.serveOp 0x01 32 fun s p =>
    let r := s.attestReport (p.take 32)
    (s, 0, r ++ Config.signature 0 r ++ Config.signature 1 r)

/-- TRAIN: trained parameters for a column's channel, which waits for them no longer (R365). -/
def execTrain (s : State) : Host.Outcome State Fault Refusal :=
  s.serveOp 0x04 2 fun s p =>
    let c := fieldOf p 0 2
    if 256 ≤ c then (s, 1, [])
    else ({ s with host := { s.host with train := Tab.put s.host.train c (p.drop 2), untrained := s.host.untrained &&& ~~~(1#256 <<< c) } }, 0, [])

/-- SCRUB: a range of a column's share read, and what is found there handled as any read's (R358). -/
def execScrub (s : State) : Host.Outcome State Fault Refusal :=
  s.serveOp 0x05 18 fun s p =>
    if 256 ≤ fieldOf p 0 2 ∨ 0x100000000 < fieldOf p 2 8 + fieldOf p 10 8 then (s, 1, [])
    else (s.readHbm (fieldOf p 0 2) fun l => decide (fieldOf p 2 8 < 128 * l + 128) && decide (128 * l < fieldOf p 2 8 + fieldOf p 10 8), 0, [])

/-- ETH: a port's PCS and PMA parameters (R365, R366). -/
def execEth (s : State) : Host.Outcome State Fault Refusal :=
  s.serveOp 0x06 1 fun s p =>
    let port := fieldOf p 0 1
    if 1 < port then (s, 1, []) else ({ s with host := { s.host with eth := Tab.put s.host.eth port (p.drop 1) } }, 0, [])

/-- THERMAL: the power cap, and in host-assisted mode the clock step (R372). -/
def execThermal (s : State) : Host.Outcome State Fault Refusal :=
  s.serveOp 0x07 3 fun s p =>
    let step := fieldOf p 0 1
    if 3 < step then (s, 1, [])
    else
      let h := { s.host with powerCap := min 2400 (fieldOf p 1 2) }
      ({ s with host := if h.hardware 5 then h else { h with clockStep := step } }, 0, [])

/-! ## Service regions (R322, R324, R338) -/

/-- The service region bound to a function. -/
def State.serviceFor (s : State) (fn : Nat) : Option Nat := (s.host.fn fn).region

/-- Has a mode a partition (R308, R309): PART2 has two, PART4 four, and SHARED ignores it? -/
def hasPart (mode part : Nat) : Bool := decide (mode ≠ 1) || decide (part < 2)

/-- Does a service RCB's mode or partition contradict an installed service region's on a column that both masks contain, or its own
mode (R309, R322)? A bay has one mode, and each of the two partitions is to be one that the other's mode has; two regions may share a
partition (log 111, DEDUCED). -/
def State.contradicts (s : State) (self : Nat) (e : Eff) : Bool :=
  !hasPart e.mode e.part ||
  s.dist.nodes.any fun n => decide (n.1 ≠ self) && decide (n.2.kind = .service) && decide (n.2.eff.cmask &&& e.cmask ≠ 0#256) &&
    (decide (n.2.eff.mode ≠ e.mode) || !hasPart n.2.eff.mode e.part || !hasPart e.mode n.2.eff.part)

/-- A service RCB's effective values under the root's. -/
def State.serviceEff (s : State) (b : List Byte) : Eff := effective b (s.node 0).eff (((s.node 0).unspent).getD 0)

/-- The partition that a bay keeps for a service region while a launch of it runs, which a rewritten RCB does not change (R324). -/
def Bay.partOf (b : Bay) (node : Nat) : Nat :=
  ((List.range 16).findSome? fun n =>
    let c := (b.entry n).ctl
    if c.getLsbD 63 ∧ n ≠ 0 ∧ regField c 31 16 = node then some (regField c 9 8) else none).getD 0

/-- A bay's entry of a service region. -/
def Bay.serviceEntry (b : Bay) (node : Nat) : Option Nat :=
  (List.range 16).find? fun n => (b.entry n).ctl.getLsbD 63 && decide (n ≠ 0) && decide (regField (b.entry n).ctl 31 16 = node)

/-- The way masks of effective values as a bay's four registers hold them. -/
def Eff.wayRegs (e : Eff) : List (BitVec 64) :=
  (List.range 4).map fun k => BitVec.ofNat 64 ((List.range 4).foldl (fun a j => a + (e.ways.getD (4 * k + j) 0xFFFF#16).toNat * 2 ^ (16 * j)) 0)

/-- Does a service region run on a column: is a group of it resident there? -/
def State.runsOn (s : State) (c region : Nat) : Bool := (s.col c).groups.any fun g => g.2.live && decide (s.regionOf g.2.launch = region)

/-- A service region's allotment written into the bays of its columns (R309, R310): its entry is its own, or the lowest one that is not
in use; the mode that it asks for is applied as soon as it may be (R314, R322), its partition while no launch of it runs, and its weight and masks
at once where no group of it is resident, else at the next quantum boundary of one (R324, log 25, DEDUCED). -/
def State.allot (s : State) (node : Nat) : State :=
  let e := (s.node node).eff
  let idle := (s.launchesOf node).isEmpty
  ((List.range 256).filter fun c => e.cmask.getLsbD c).foldl (fun s c =>
    let b := (s.col c).bay
    let mine := b.serviceEntry node
    let slot := mine.or ((List.range 16).find? fun n => !(b.entry n).ctl.getLsbD 63)
    let part := if idle ∨ mine.isNone then e.part else b.partOf node
    let later := mine.isSome && s.runsOn c node
    let put (b : Bay) : Bay := match slot with
      | some n => b.putRgn n (BitVec.ofNat 64 (2 ^ 63 + node * 65536 + part * 256 + regField (b.entry n).ctl 3 0))
          (if later then (b.entry n).weight else e.bweight) (if later then (b.entry n).ways else e.wayRegs)
      | none => b
    let s := s.updCol c fun x => x.updBay fun b => { put b with modeWant := some e.mode }
    let nd := s.node node
    s.setNode node { nd with stale := if later then nd.stale ||| (1#256 <<< c) else nd.stale &&& ~~~(1#256 <<< c), due := nd.due &&& ~~~(1#256 <<< c) }) s

/-- A rewritten weight and masks given to a column's bay: where no group of the region is resident any more, or one's quantum boundary has come
(R324). -/
def State.settleLimits (s : State) (c : Nat) : State :=
  (s.dist.nodes.filter fun e => e.2.stale.getLsbD c && (e.2.due.getLsbD c || !s.runsOn c e.1)).foldl (fun s e =>
    let s := s.updCol c fun x => x.updBay fun b => match b.serviceEntry e.1 with
      | some n => b.putRgn n (b.entry n).ctl e.2.eff.bweight e.2.eff.wayRegs
      | none => b
    s.setNode e.1 { s.node e.1 with stale := e.2.stale &&& ~~~(1#256 <<< c), due := e.2.due &&& ~~~(1#256 <<< c) }) s

/-- The partitions that rewritten RCBs have asked for given to the bays of a column, once their regions have no launch (R324). -/
def State.settleParts (s : State) (c : Nat) : State :=
  (s.dist.nodes.filter fun e => decide (e.2.kind = .service) && e.2.eff.cmask.getLsbD c && decide ((s.col c).bay.partOf e.1 ≠ e.2.eff.part) &&
      (s.launchesOf e.1).isEmpty).foldl (fun s e => s.updCol c fun x => x.updBay fun b =>
    { b with rgn := Tab.mapVals (fun n (r : RgnEntry) =>
        if n ≠ 0 ∧ r.ctl.getLsbD 63 ∧ regField r.ctl 31 16 = e.1 then { r with ctl := setField r.ctl 9 8 e.2.eff.part } else r) b.rgn }) s

/-- The launch of a service region's steward asked for, in host-assisted mode (R338): its task record is the factor complex's. -/
def State.startSteward (s : State) (node : Nat) : State :=
  let p := Config.stewardTask node
  let u : Submit := { col := p / 2 ^ 56 % 256, parent := node, task := p % 2 ^ 48, rcbCol := 0, rcb := none }
  { s with dist := { s.dist with submits := s.dist.submits ++ [u] } }

/-- A service region installed for a function, and its steward started (R322, R338). -/
def State.installService (s : State) (fn : Nat) (b : List Byte) : State × Nat :=
  let eff := s.serviceEff b
  let count := (s.dist.nodes.filter fun e => decide (e.2.kind = .service)).length
  match s.freeNode with
  | none => (s, 1)
  | some n =>
    if 64 ≤ fn ∨ (s.serviceFor fn).isSome ∨ ¬ rcbValid b ∨ fieldOf b 4 1 ≠ 1 ∨ bitOf (fieldOf b 0 4) 10 ∨ 64 ≤ count ∨ s.contradicts n eff then (s, 1)
    else
      let s := s.setNode n { kind := .service, parent := 0, eff := eff, rcb := b, fn := fn, steward := s.host.hardware 0 }
      let s := { s with host := s.host.setFn fn { s.host.fn fn with region := some n } }
      let s := s.allot n
      (if s.host.hardware 0 then s else s.startSteward n, 0)

/-- A service region's RCB rewritten (R324): its own node takes the new values. -/
def State.rewriteService (s : State) (fn : Nat) (b : List Byte) : State × Nat :=
  match s.serviceFor fn with
  | none => (s, 1)
  | some n =>
    let eff := s.serviceEff b
    if !rcbValid b || decide (fieldOf b 4 1 ≠ 1) || bitOf (fieldOf b 0 4) 10 || s.contradicts n eff then (s, 1)
    else ((s.setNode n { s.node n with eff := eff, rcb := b }).allot n, 0)

/-- A service region unbound: its entries leave the bays, its function and its node are free, and no completion of its ring is still to come
(R362). -/
def State.unbind (s : State) (fn node : Nat) : State :=
  let s := (Tab.keys s.cols).foldl (fun s c => s.updCol c fun x => x.updBay fun b =>
    { b with rgn := Tab.mapVals (fun n (r : RgnEntry) => if n ≠ 0 ∧ regField r.ctl 31 16 = node then { ctl := 1#64 } else r) b.rgn }) s
  let s := { s with host := { s.host.setFn fn { s.host.fn fn with region := none } with
                              posted := s.host.posted.filter fun p => p.ring.isNone || decide (p.fn ≠ fn) } }
  { s with dist := { s.dist with nodes := Tab.erase s.dist.nodes node } }

/-- A service region removed, once it holds no launch (log 29, DESIGN CHOICE). -/
def State.removeService (s : State) (fn : Nat) : State × Nat :=
  match s.serviceFor fn with
  | none => (s, 1)
  | some n => if (s.launchesOf n).isEmpty then (s.unbind fn n, 0) else (s, 1)

/-- SERVICE. -/
def execService (s : State) : Host.Outcome State Fault Refusal :=
  s.serveOp 0x08 130 fun s p =>
    let fn := fieldOf p 1 1
    let b := (p.drop 2).take 128
    let r := match fieldOf p 0 1 with
      | 0 => s.installService fn b
      | 1 => s.rewriteService fn b
      | 2 => s.removeService fn
      | _ => (s, 1)
    (r.1, r.2, [])

/-! ## Queue pairs and peers (R366) -/

/-- QP: a queue pair created at a port, bound to it, or destroyed. -/
def execQp (s : State) : Host.Outcome State Fault Refusal :=
  s.serveOp 0x09 6 fun s p =>
    let port := fieldOf p 1 1
    let qpn := fieldOf p 2 4
    let qs := s.host.qps
    let put (t : Tab QueuePair) : State := { s with host := { s.host with qps := t } }
    if 1 < port ∨ 2 ^ 24 ≤ qpn then (s, 1, [])
    else
      match fieldOf p 0 1, Tab.find? qs qpn with
      | 0, none =>
        if 4096 ≤ (qs.filter fun e => decide (e.2.home = port)).length then (s, 1, [])
        else (put (Tab.put qs qpn { home := port, params := p.drop 6 }), 0, [])
      | 1, some q => if q.home = port then (put (Tab.put qs qpn { q with port := some port, params := p.drop 6 }), 0, []) else (s, 1, [])
      | 2, some q => if q.home = port then (put (Tab.erase qs qpn), 0, []) else (s, 1, [])
      | _, _ => (s, 1, [])

/-- The service region to which the traffic of a peer's own request at an address counts: the lowest context that maps it there, else the root
(R366; log 67, DESIGN CHOICE). -/
def State.ownerAt (s : State) (c pa : Nat) : Nat :=
  (((s.allLeaves c).find? fun l => decide (l.frame ≤ pa) && decide (pa < l.frame + l.size)).map (·.ctx)).getD 0

/-- PEER_RDMA_REQUEST: a peer's RDMA WRITE (kind 0) or READ (kind 1, as many bytes as `data` has) performed at the column's bay and
answered; any other kind, an unbound queue pair, or an address that is no memory gets a NAK. -/
def execPeerRdmaRequest (port qpn kind col pa : Nat) (data : List (BitVec 8)) (s : State) : Host.Outcome State Fault Refusal :=
  let bound := decide ((Tab.get ({} : QueuePair) s.host.qps qpn).port = some port) && s.host.linkUp.getD port false
  let n := data.length
  let put (k : Nat) (b : List Byte) (s : State) : State :=
    { s with host := { s.host with peerAnswers := s.host.peerAnswers ++ [(port, qpn, k, b)]
                                   peerTraffic := if k = 2 then s.host.peerTraffic else Tab.upd 0 s.host.peerTraffic (s.ownerAt col pa) (· + n) } }
  let lines := linesOf ((List.range n).map (pa + ·))
  let home := decide (col < 256) && !(s.col col).memOffline && decide (pa + n ≤ 0x100000000)
  let recalled (s : State) : State := s.updCol col fun x => lines.foldl (fun x l => x.recallU s.free l) x
  if !bound || !home || decide (2 ≤ kind) then .next (put 2 [] s)
  else if (s.col col).bay.modeTo.isSome then .next s
  else if kind = 0 then
    .next (put 0 [] ((recalled s).updCol col fun x =>
      let x := x.putBytes pa data
      lines.foldl (fun x l => x.updBay fun b => b.touch 0 l 15#4 true 0) x))
  else
    let s := recalled s
    .next (put 1 ((s.col col).bytesAt s.free pa n) s)


/-! ## Page faults and the tinker (R345, R346, R355) -/

/-- Does an instruction write memory, an atomic among them? -/
def Instr.writesMem (i : Instr) : Bool := decide (i.cls = Cls.store) || decide (i.cls = Cls.storeRelease) || decide (i.cls = Cls.scalarStore)

/-- What the host is told of a page fault: the access (0 read, 1 write, 2 engine) and the virtual offset, which an engine's report holds: PAGE_FAULT
is code 5 of the engines (R253) and code 10 of the thresher (R283). No fault for another event. -/
noncomputable def State.faultOf (s : State) (c : Nat) (e : Event) : Option (Nat × Nat) :=
  if e.cause = .pageFault then
    let t := s.asAgent c (if e.tier = 1 then .lane e.ctx.toNat else .warp e.slot.toNat (decide (e.path = 1#2)))
    let w := match (t.fetchPacket e.pc).1 with
      | .ok ws => (membersOf e.wpos.toNat (ws.drop e.wpos.toNat)).head?
      | .error _ => none
    let wr := match w.bind fun m => plainInstr m.word with | some i => Instr.writesMem i | none => false
    some (if wr then 1 else 0, e.detail.toNat % 2 ^ 48)
  else if e.cause = .engineFault ∧ bitsOf e.detail.toNat 23 16 = (if bitsOf e.detail.toNat 11 8 = 2 then 10 else 5) then
    let g := (s.col c).group ((s.col c).warp e.slot.toNat).entry
    let off := bitsOf e.detail.toNat 47 32
    let gather := decide (bitsOf e.detail.toNat 11 8 = 1)
    let at_ := if bitsOf e.detail.toNat 11 8 = 2 then 0x78 else (recOf gather (Memory.readBytes g.store off (recSize gather))).rep + 48
    some (2, natOfBytes (Memory.readBytes g.store (off + at_) 8))
  else none

/-- The agent that an event names. -/
def Event.who (e : Event) : Who := if e.tier = 1 then .lane e.ctx.toNat else .warp e.slot.toNat (decide (e.path = 1#2))

/-- A tinker's firmware: its code and private data stand in the top 64 KiB of the column's HBM share (R345). -/
def Column.loadTinker (x : Column) (image : List Byte) : Column :=
  ({ x.dropCopies 0xFFFF0000 0x100000000 with tinker := { x.tinker with update := none } } : Column).putBytes 0xFFFF0000
    ((Config.imageBody image).take 65536)

/-- New tinker firmware taken up, by a tinker that serves no event (R370). -/
def Column.takeUpdate (x : Column) : Column :=
  match x.tinker.update with
  | some b => if x.tinker.serving.isNone then x.loadTinker b else x
  | none => x

/-- TINKER_EVENT: an idle tinker takes its next event and starts at its entry packet, with the record in s0 to s3. A page fault in
host-assisted mode is forwarded to the host, and the tinker waits for its answer (R355). -/
noncomputable def execTinkerEvent (c : Nat) (s : State) : Host.Outcome State Fault Refusal :=
  let s := (s.landAll c .tinker).updCol c (·.takeUpdate)
  let x := s.col c
  let t := x.tinker
  match t.queue with
  | [] => .next s
  | e :: rest =>
    if t.serving.isSome ∨ t.stop.isSome then .next s
    else
      let e := { e with lost := t.lost }
      let regs := (e.record.zip (List.range 4)).foldl (fun r p => Tab.store 0#64 r p.2 p.1) t.th.s
      let fault := if s.host.hardware 1 then none else s.faultOf c e
      let p := { t.path with pkt := t.entry, wpos := 0, fresh := true, lanes := if fault.isSome then 0#32 else 1#32, wait := .none, ready := s.clk + 1 }
      let s := s.setCol c ({ x with tinker := { t with th := { t.th with s := regs }, path := p, queue := rest, serving := some e, lost := false } }.markServed e)
      match fault with
      | none => .next s
      | some (access, va) =>
        let tag := s.host.nextTag
        let m := message 0x02 0 tag 0 (bytesOf 4 e.context.toNat ++ bytesOf 2 c ++ bytesOf 1 access ++ bytesOf 8 va)
        let h := { s.host with nextTag := tag + 1, pfaults := s.host.pfaults ++ [(tag, c, e.who)] }
        .next { s with host := h.send m }

/-- PFAULT_DONE: the host's answer to a page fault: the access is tried again, or its group or its launch ends (R185, R355, R364). -/
def execPfaultDone (s : State) : Host.Outcome State Fault Refusal :=
  s.serveOp 0x03 9 fun s p =>
    let tag := fieldOf p 0 8
    let action := fieldOf p 8 1
    match (if action ≤ 2 then s.host.pfaults.find? fun f => decide (f.1 = tag) else none) with
    | none => (s, 1, [])
    | some (_, c, _) =>
      let s := { s with host := { s.host with pfaults := s.host.pfaults.filter fun f => decide (f.1 ≠ tag) } }
      match (s.col c).tinker.serving with
      | none => (s, 0, [])
      | some e =>
        let s := s.updCol c fun x => { x with tinker := { x.tinker with serving := none } }
        let s := s.eret c (if action = 0 then 0 else action + 1) e
        let again := decide (action = 0) && e.note && s.eventHeld c e
        (if again then s.restartItem c e.slot.toNat (e.detail.toNat % 16) 1 else s, 0, [])

/-! ## Boot, firmware and trust (R368 to R370) -/

/-- The root's values at boot: every priority, every column, every resource, no budget (log 30, DESIGN CHOICE). -/
def bootRoot : Eff := { prio := 15, cmask := BitVec.allOnes 256, ways := List.replicate 16 0xFFFF#16, quota := List.replicate 8 0#16 }

/-- Is a firmware image accepted (R369): its digest matches, both signatures verify, and its security version is not below the fused minimum? -/
def HostSide.accepts (h : HostSide) (image : List Byte) : Bool :=
  decide (Config.imageDigest image = Config.sha384 (Config.imageBody image)) && Config.imageVerifies 0 image && Config.imageVerifies 1 image &&
    decide (h.minVersion ≤ Config.imageVersion image)

/-- The image that boots a stage (0 Selvis, 1 field, 2 tinker firmware): from flash the first accepted of slot A's and slot B's; from the
network the one that is served (R368, R369; log 138, DESIGN CHOICE). -/
def HostSide.bootImage (h : HostSide) (net : Bool) (stage : Nat) : Option (List Byte) :=
  (if net then [Config.netImage stage] else [Config.flashImage 0 stage, Config.flashImage 1 stage]).find? h.accepts

/-- A stage's image loaded: its measurement and its security version are recorded (R371). -/
def HostSide.record (h : HostSide) (stage : Nat) (image : List Byte) : HostSide :=
  { h with stages := h.stages.take stage ++ (natOfBytes (Config.sha384 image), Config.imageVersion image) :: h.stages.drop (stage + 1) }

/-- Field firmware loaded on factor cores 1 to 3, which start with it (R368, R370). -/
def State.loadField (s : State) (image : List Byte) : State :=
  { s with
    factors := [1, 2, 3].foldl (fun t n => Tab.put t n {}) s.factors
    host := { s.host.record 1 image with
      firmware := image
      fctId := setField s.host.fctId 63 32 (Config.imageFirmware image) } }

/-- Tinker firmware given to every column: it stands in the tinker's area at once where the tinker serves no event, else between two events
(R345, R368, R370). -/
def State.loadTinkers (s : State) (image : List Byte) : State :=
  let s := { s with host := s.host.record 2 image }
  if (Config.imageBody image).isEmpty then s
  else (List.range 256).foldl (fun s c => s.updCol c fun x => ({ x with tinker := { x.tinker with update := some image } } : Column).takeUpdate) s

/-- A boot step that fails stops the sequence (R368): the boot status shows it, with a nonzero failure code, and the host is told once there is
room (log 70, DESIGN CHOICE). -/
def State.bootFails (s : State) (step : Nat) : State :=
  let code := 1 + (Config.freeDword s.free).toNat % 255
  let m := message 0x0B 0 s.host.nextTag 0 (bytesOf 2 HostEvent.bootFailed.code ++ bytesOf 2 0xFFFF ++ bytesOf 8 s.time ++ bytesOf 4 1)
  { s with booted := step, host := { s.host with
      fctBoot := BitVec.ofNat 64 (code * 256 + step), nextTag := s.host.nextTag + 1, outbox := s.host.outbox ++ [m] } }

/-- Boot steps 5 and 6: the channels trained, unless the flag in flash leaves that to the host (R365, R368), every bay set to SHARED, the system
area's size set (R331, a free value), the root installed, and the host link up. -/
def State.bootField (s : State) (fail : Nat) : State :=
  let h := s.host
  let h := if h.flashTrain then { h with dutyMap := h.dutyMap &&& ~~~4#64, untrained := BitVec.allOnes 256 } else h
  let s := { s with host := h }
  if fail = 5 then s.bootFails 5
  else
    let s := (Tab.keys s.cols).foldl (fun s c => s.updCol c fun x => x.updBay fun b => { b with ctl := setField b.ctl 1 0 0 }) s
    let s := s.setNode 0 { kind := .root, eff := bootRoot }
    let s := { s with dist := { s.dist with sysMib := 256 + 64 * (Config.sysUnits % 13) } }
    if fail = 6 then s.bootFails 6
    else { s with booted := 6, host := { s.host with fctBoot := BitVec.ofNat 64 (2 ^ 63 + 6), lastScrub := s.time } }

/-- BOOT (R368): from reset, the boot source read, the stages verified, loaded and recorded, and what field firmware does up to ready. `fail` is
the step that fails for a reason of its own, 0 for none; step 3 fails too where no image of Selvis is accepted, and step 4 where none of the
other firmware is (R369). -/
def execBoot (fail : Nat) (net : Bool) (s : State) : Host.Outcome State Fault Refusal :=
  if s.booted ≠ 0 then .next s
  else if fail = 1 ∨ fail = 2 then .next (s.bootFails fail)
  else
    let s := if net then { s with host := { s.host with linkUp := s.host.linkUp.set 0 true } } else s
    match (if fail = 3 then none else s.host.bootImage net 0) with
    | none => .next (s.bootFails 3)
    | some selvis =>
      let s := { s with host := s.host.record 0 selvis }
      match (if fail = 4 then none else s.host.bootImage net 1), s.host.bootImage net 2 with
      | some field, some tinker => .next (((s.loadField field).loadTinkers tinker).bootField fail)
      | _, _ => .next (s.bootFails 4)

/-- FWUPDATE: a signed image read from host memory and verified, or rejected (R369). Factor cores 1 to 3 restart with new field firmware, and the
duties in hardware mode pause meanwhile; new tinker firmware is taken up between two events (R370; log 139, DESIGN CHOICE). -/
def execFwupdate (s : State) : Host.Outcome State Fault Refusal :=
  s.serveOp 0x0A 12 fun s p =>
    let image := s.host.read 0 (fieldOf p 0 8) (fieldOf p 8 4)
    if !s.host.accepts image then (s, 1, [])
    else if Config.imageTinker image then (s.loadTinkers image, 0, [])
    else
      let s := s.loadField image
      ({ s with host := { s.host with restartAt := s.clk + Config.restartCycles } }, 0, [])

/-- A region's host-tier lines that are dirty at a bay, in an L1 or on their way dropped (R362). -/
def Column.dropHost (x : Column) (region : Nat) : Column :=
  let mine (l r : Nat) : Bool := hostLine l && decide (r = region)
  let x := { x with l1 := x.l1.filter fun e => !mine e.2.line e.2.region }
  let x := (x.bay.reqs.filter fun q => q.put.any fun l => mine l.line l.region).foldl (fun x q => x.updBay (·.removeReq q)) x
  x.updBay fun b => { b with
    slices := Tab.mapVals (fun _ (sl : Slice) => { sl with lines := Tab.keep (fun _ t => !(t.dirty && mine t.line t.region)) sl.lines }) b.slices
    hostOut := b.hostOut.filter fun h => !(h.2.1 && decide (h.2.2 = region)) }

/-- FUNCTION_LEVEL_RESET: a VF's launches end with ENDED, its region's dirty host-tier lines are dropped, and the region is unbound
(R362). -/
def execFunctionLevelReset (vf : Nat) (s : State) : Host.Outcome State Fault Refusal :=
  match (if vf = 0 then none else s.serviceFor vf) with
  | none => .next s
  | some n =>
    let s := (s.launchesOf n).foldl (fun s l => s.endLaunch l 18) s
    let s := (s.launchesOf n).foldl (fun s l => let nd := s.node l; s.setNode l { nd with launch := { nd.launch with ring := none } }) s
    let gone := s.cols.flatMap fun e => (e.2.bay.hostOut.filter fun h => h.2.1 && decide (h.2.2 = n)).map fun h => (e.1, h.1)
    let s := (Tab.keys s.cols).foldl (fun s c => s.updCol c (·.dropHost n)) s
    .next (gone.foldl (fun s g => s.acknowledged g.1 g.2) (s.unbind vf n))

/-! ## Time, power and the clocks (R367, R372) -/

/-- PTP_SYNC: the clock-carrying port's correction: an offset above 1 ms is stepped forward, any other is slewed. -/
def execPtpSync (port : Nat) (offset : Int) (s : State) : Host.Outcome State Fault Refusal :=
  if port ≠ s.host.ptpPort then .next s
  else if 1000000 < offset then .next { s with time := s.time + offset.toNat, host := { s.host with slew := 0 } }
  else .next { s with host := { s.host with slew := offset, slewDue := s.time + 10000 } }

/-- A column whose launches are lost: what they held on it is gone; memory, the bay's registers and its lines stay. -/
def Column.loseAll (x : Column) : Column :=
  { x with
    warps := [], groups := [], barriers := [], quarters := [], ctxs := [], port := [], glean := [], mops := [], cmds := [], counts := [], hwq := []
    cribs := [], grants := [], mail := [], xbar := [], nifCore := {}, nifBay := {}, ejected := [], parts := [], msgs := [], sysUsed := 0
    roomFor := none
    bay := { x.bay with reqs := [], flights := [], claims := [], hostOut := [], writeQ := [] }
    tinker := { x.tinker with queue := [], serving := none } }

/-- EMERGENCY_TRIP: hardware stops the clocks, and every launch is lost (R372). -/
def execEmergencyTrip (s : State) : Host.Outcome State Fault Refusal :=
  .next { s with
    clocksStopped := true
    cols := Tab.mapVals (fun _ (x : Column) => x.loseAll) s.cols
    flits := []
    dist := { s.dist with nodes := Tab.keep (fun _ (n : Node) => decide (n.kind ≠ .launch)) s.dist.nodes, submits := [] }
    host := { s.host with tripped := true, pfaults := [], peerReqs := [], posted := s.host.posted.map fun p => { p with awaits := [] } } }

/-! ## The duties of field firmware in hardware mode (R365, R370) -/

/-- One sample of the thermal policy: power averaged over 1 ms and 10 ms in watts, and the hottest junction in degrees (R372). -/
def HostSide.sample (h : HostSide) (time avg1 avg10 junction : Nat) : HostSide :=
  let hot := decide (95 ≤ junction) || decide (92 * h.powerCap ≤ 100 * avg10)
  let h := if hot then { h with lastHot := time } else h
  let free := h.lastStep.all fun t => decide (t + 1000000 ≤ time)
  if free ∧ (h.powerCap < avg1 ∨ 100 ≤ junction) then { h with clockStep := min 3 (h.clockStep + 1), lastStep := some time }
  else if free ∧ hot = false ∧ h.lastHot + 10000000 ≤ time ∧ 0 < h.clockStep then { h with clockStep := h.clockStep - 1, lastStep := some time }
  else h

/-- An event of a hardware-mode duty served: a scrub reads every share that 24 hours have not, and what it finds is handled as any read's
(R358); a channel that training has put right counts as a corrected error; a link comes up; the thermal policy takes a sample. -/
def State.runDuty (s : State) : Duty → State
  | .scrub =>
    if s.host.lastScrub + 86400000000000 ≤ s.time then
      (Tab.keys s.cols).foldl (fun s c => s.readHbm c fun _ => true) { s with host := { s.host with lastScrub := s.time } }
    else s
  | .retrain c => { s with host := { s.host with corrected := s.host.corrected + 1, untrained := s.host.untrained &&& ~~~(1#256 <<< c) } }
  | .linkUp port => { s with host := { s.host with linkUp := s.host.linkUp.set port true } }
  | .thermal avg1 avg10 junction => { s with host := s.host.sample s.time avg1 avg10 junction }

/-- An event of a hardware-mode duty: it waits in queue while factor cores 1 to 3 restart, and behind what waits already (R370). -/
def State.duty (s : State) (d : Duty) : State :=
  if s.clk < s.host.restartAt ∨ s.host.duties ≠ [] then { s with host := { s.host with duties := s.host.duties ++ [d] } } else s.runDuty d

/-- The events that have waited for the restart's end served, oldest first (R370). -/
def State.runDuties (s : State) : State :=
  if s.clk < s.host.restartAt then s else s.host.duties.foldl (·.runDuty) { s with host := { s.host with duties := [] } }

/-- ECC_SCRUB (R365): field firmware reads every HBM share once each 24 hours while the SCRUB duty runs in hardware mode. -/
def execEccScrub (s : State) : Host.Outcome State Fault Refusal := .next (if s.host.hardware 3 then s.duty .scrub else s)

/-- A column's HBM5 channel loses its training (R358): in hardware mode field firmware trains it again on demand; in host-assisted mode it waits
for the host's parameters (R365; log 140, DESIGN CHOICE). -/
def State.untrain (s : State) (c : Nat) : State :=
  let s := { s with host := { s.host with untrained := s.host.untrained ||| (1#256 <<< (c % 256)) } }
  if s.host.hardware 2 then s.duty (.retrain (c % 256)) else s

/-- ETHERNET_LINK_BRING_UP: a port's link goes down, or comes up: in hardware mode by field firmware, in host-assisted mode once the host
has set the port's parameters (R365). -/
def execEthernetLinkBringUp (port : Nat) (up : Bool) (s : State) : Host.Outcome State Fault Refusal :=
  if 1 < port then .next s
  else if up = false then .next { s with host := { s.host with linkUp := s.host.linkUp.set port false } }
  else if s.host.hardware 4 then .next (s.duty (.linkUp port))
  else .next (if (Tab.find? s.host.eth port).isSome then s.runDuty (.linkUp port) else s)

/-- THERMAL_SAMPLE: a sample of the module's power, its averages over 1 ms and 10 ms, and the hottest junction: at 110 degrees the clocks stop,
whatever the mode; else the policy takes it in hardware mode (R372). -/
def execThermalSample (_power avg1 avg10 junction : Nat) (s : State) : Host.Outcome State Fault Refusal :=
  if s.clocksStopped then .next s
  else if 110 ≤ junction then execEmergencyTrip s
  else .next (if s.host.hardware 5 then s.duty (.thermal avg1 avg10 junction) else s)

/-- TRIP_POINT_CLEARED: below the trip point again, the clocks run, the reports that waited for a release are given, for nothing of it is left,
and the trip is reported to PF0. -/
def execTripPointCleared (s : State) : Host.Outcome State Fault Refusal :=
  if !s.host.tripped then .next s
  else .next (({ s with clocksStopped := false, host := { s.host with tripped := false } } : State).acknowledged 256 0 |>.event .thermalTrip 0xFFFF 1)

end Sys2Proof.Machine
end

