-- ==== Sys2Proof/Machine/Dispatch.lean ====
section
/-! DEFINITION. The dispatch of the instructions to their meanings: one arm per constructor of Instr, in the order of Syntax.lean. -/

namespace Sys2Proof.Machine

/- The meaning of an instruction at a state: the agent that issues it, and the word it stands in, are the state's cur. Lean's runtime cannot
build thirteen of the 351 constructors, so that the decoder, and exec with it, has no compiled code; the kernel evaluates both. -/
open Sys2Proof in noncomputable
def exec (i : Instr) (s : State) : Host.Outcome State Fault Refusal :=
  match i with
  | .brk t => Sys2Proof.Machine.execBrk t s
  | .sli d im => Sys2Proof.Machine.execSli d im s
  | .slis d im => Sys2Proof.Machine.execSlis d im s
  | .sadd d a b => Sys2Proof.Machine.execSadd d a b s
  | .ssub d a b => Sys2Proof.Machine.execSsub d a b s
  | .smul d a b => Sys2Proof.Machine.execSmul d a b s
  | .smulh d a b => Sys2Proof.Machine.execSmulh d a b s
  | .sand d a b => Sys2Proof.Machine.execSand d a b s
  | .sor d a b => Sys2Proof.Machine.execSor d a b s
  | .sxor d a b => Sys2Proof.Machine.execSxor d a b s
  | .sandn d a b => Sys2Proof.Machine.execSandn d a b s
  | .sshl d a b => Sys2Proof.Machine.execSshl d a b s
  | .sshr d a b => Sys2Proof.Machine.execSshr d a b s
  | .ssar d a b => Sys2Proof.Machine.execSsar d a b s
  | .srol d a b => Sys2Proof.Machine.execSrol d a b s
  | .smin d a b => Sys2Proof.Machine.execSmin d a b s
  | .smax d a b => Sys2Proof.Machine.execSmax d a b s
  | .sminu d a b => Sys2Proof.Machine.execSminu d a b s
  | .smaxu d a b => Sys2Proof.Machine.execSmaxu d a b s
  | .saddi d a im => Sys2Proof.Machine.execSaddi d a im s
  | .scmp g d a b => Sys2Proof.Machine.execScmp g d a b s
  | .scmpU g d a b => Sys2Proof.Machine.execScmpU g d a b s
  | .scmpi g d a im => Sys2Proof.Machine.execScmpi g d a im s
  | .smov d a => Sys2Proof.Machine.execSmov d a s
  | .scsel d a b => Sys2Proof.Machine.execScsel d a b s
  | .spopc d a => Sys2Proof.Machine.execSpopc d a s
  | .sclz d a => Sys2Proof.Machine.execSclz d a s
  | .cand d a b => Sys2Proof.Machine.execCand d a b s
  | .cor d a b => Sys2Proof.Machine.execCor d a b s
  | .cxor d a b => Sys2Proof.Machine.execCxor d a b s
  | .candn d a b => Sys2Proof.Machine.execCandn d a b s
  | .sread d b => Sys2Proof.Machine.execSread d b s
  | .swrite a b => Sys2Proof.Machine.execSwrite a b s
  | .sld d a im => Sys2Proof.Machine.execSld d a im s
  | .sst d a im => Sys2Proof.Machine.execSst d a im s
  | .iadd d a b => Sys2Proof.Machine.execIadd d a b s
  | .isub d a b => Sys2Proof.Machine.execIsub d a b s
  | .imin d a b => Sys2Proof.Machine.execImin d a b s
  | .imax d a b => Sys2Proof.Machine.execImax d a b s
  | .iabs d a => Sys2Proof.Machine.execIabs d a s
  | .ineg d a => Sys2Proof.Machine.execIneg d a s
  | .imul d a b => Sys2Proof.Machine.execImul d a b s
  | .imulh d a b => Sys2Proof.Machine.execImulh d a b s
  | .imulhu d a b => Sys2Proof.Machine.execImulhu d a b s
  | .imad d a b => Sys2Proof.Machine.execImad d a b s
  | .and d a b => Sys2Proof.Machine.execAnd d a b s
  | .or d a b => Sys2Proof.Machine.execOr d a b s
  | .xor d a b => Sys2Proof.Machine.execXor d a b s
  | .andn d a b => Sys2Proof.Machine.execAndn d a b s
  | .shl d a b => Sys2Proof.Machine.execShl d a b s
  | .shr d a b => Sys2Proof.Machine.execShr d a b s
  | .sar d a b => Sys2Proof.Machine.execSar d a b s
  | .rol d a b => Sys2Proof.Machine.execRol d a b s
  | .popc d a => Sys2Proof.Machine.execPopc d a s
  | .clz d a => Sys2Proof.Machine.execClz d a s
  | .brev d a => Sys2Proof.Machine.execBrev d a s
  | .prmt d a b => Sys2Proof.Machine.execPrmt d a b s
  | .bfe d a b => Sys2Proof.Machine.execBfe d a b s
  | .bfeu d a b => Sys2Proof.Machine.execBfeu d a b s
  | .bfi d a b => Sys2Proof.Machine.execBfi d a b s
  | .idot4 d a b => Sys2Proof.Machine.execIdot4 d a b s
  | .iaddi d a im => Sys2Proof.Machine.execIaddi d a im s
  | .andi d a im => Sys2Proof.Machine.execAndi d a im s
  | .ori d a im => Sys2Proof.Machine.execOri d a im s
  | .xori d a im => Sys2Proof.Machine.execXori d a im s
  | .shli d a n => Sys2Proof.Machine.execShli d a n s
  | .shri d a n => Sys2Proof.Machine.execShri d a n s
  | .sari d a n => Sys2Proof.Machine.execSari d a n s
  | .roli d a n => Sys2Proof.Machine.execRoli d a n s
  | .icmp g d a b => Sys2Proof.Machine.execIcmp g d a b s
  | .icmpU g d a b => Sys2Proof.Machine.execIcmpU g d a b s
  | .icmpi g d a im => Sys2Proof.Machine.execIcmpi g d a im s
  | .sel d a b => Sys2Proof.Machine.execSel d a b s
  | .vmov d a => Sys2Proof.Machine.execVmov d a s
  | .vbc d a => Sys2Proof.Machine.execVbc d a s
  | .vgetl d => Sys2Proof.Machine.execVgetl d s
  | .vli d im => Sys2Proof.Machine.execVli d im s
  | .vsetl d a b => Sys2Proof.Machine.execVsetl d a b s
  | .vlis d im => Sys2Proof.Machine.execVlis d im s
  | .iaddc d a b => Sys2Proof.Machine.execIaddc d a b s
  | .isubb d a b => Sys2Proof.Machine.execIsubb d a b s
  | .fadd d a b => Sys2Proof.Machine.execFadd d a b s
  | .fsub d a b => Sys2Proof.Machine.execFsub d a b s
  | .fmul d a b => Sys2Proof.Machine.execFmul d a b s
  | .ffma d a b => Sys2Proof.Machine.execFfma d a b s
  | .fmin d a b => Sys2Proof.Machine.execFmin d a b s
  | .fmax d a b => Sys2Proof.Machine.execFmax d a b s
  | .fabs d a => Sys2Proof.Machine.execFabs d a s
  | .fneg d a => Sys2Proof.Machine.execFneg d a s
  | .fcmp g d a b => Sys2Proof.Machine.execFcmp g d a b s
  | .fcmpU g d a b => Sys2Proof.Machine.execFcmpU g d a b s
  | .frnd d a => Sys2Proof.Machine.execFrnd d a s
  | .fscale d a b => Sys2Proof.Machine.execFscale d a b s
  | .fgetexp d a => Sys2Proof.Machine.execFgetexp d a s
  | .fclass d a => Sys2Proof.Machine.execFclass d a s
  | .bfma2 d a b => Sys2Proof.Machine.execBfma2 d a b s
  | .frcp d a => Sys2Proof.Machine.execFrcp d a s
  | .frsq d a => Sys2Proof.Machine.execFrsq d a s
  | .fsqrt d a => Sys2Proof.Machine.execFsqrt d a s
  | .ftanh d a => Sys2Proof.Machine.execFtanh d a s
  | .fexp2 d a => Sys2Proof.Machine.execFexp2 d a s
  | .flog2 d a => Sys2Proof.Machine.execFlog2 d a s
  | .fsin d a => Sys2Proof.Machine.execFsin d a s
  | .fcos d a => Sys2Proof.Machine.execFcos d a s
  | .cvtF2i d a => Sys2Proof.Machine.execCvtF2i d a s
  | .cvtF2u d a => Sys2Proof.Machine.execCvtF2u d a s
  | .cvtI2f d a => Sys2Proof.Machine.execCvtI2f d a s
  | .cvtU2f d a => Sys2Proof.Machine.execCvtU2f d a s
  | .cvtF2b d a b => Sys2Proof.Machine.execCvtF2b d a b s
  | .cvtF2h d a b => Sys2Proof.Machine.execCvtF2h d a b s
  | .cvtB2f d a b => Sys2Proof.Machine.execCvtB2f d a b s
  | .cvtH2f d a b => Sys2Proof.Machine.execCvtH2f d a b s
  | .packE4m3 d a b => Sys2Proof.Machine.execPackE4m3 d a b s
  | .packE5m2 d a b => Sys2Proof.Machine.execPackE5m2 d a b s
  | .unpkE4m3 d a b => Sys2Proof.Machine.execUnpkE4m3 d a b s
  | .unpkE5m2 d a b => Sys2Proof.Machine.execUnpkE5m2 d a b s
  | .packTs8 d a b => Sys2Proof.Machine.execPackTs8 d a b s
  | .unpkTs8 d a b => Sys2Proof.Machine.execUnpkTs8 d a b s
  | .mxscale d a b => Sys2Proof.Machine.execMxscale d a b s
  | .mxapply d a b => Sys2Proof.Machine.execMxapply d a b s
  | .lpick d a b => Sys2Proof.Machine.execLpick d a b s
  | .lrot d a b => Sys2Proof.Machine.execLrot d a b s
  | .lxor d a b => Sys2Proof.Machine.execLxor d a b s
  | .lspan d a b => Sys2Proof.Machine.execLspan d a b s
  | .ksome d a => Sys2Proof.Machine.execKsome d a s
  | .kevery d a => Sys2Proof.Machine.execKevery d a s
  | .kone d a => Sys2Proof.Machine.execKone d a s
  | .ksame d a => Sys2Proof.Machine.execKsame d a s
  | .lpeers d a => Sys2Proof.Machine.execLpeers d a s
  | .lfirst d a => Sys2Proof.Machine.execLfirst d a s
  | .kpopc d a => Sys2Proof.Machine.execKpopc d a s
  | .kffs d a => Sys2Proof.Machine.execKffs d a s
  | .fold d a b => Sys2Proof.Machine.execFold d a b s
  | .foldBc d a b => Sys2Proof.Machine.execFoldBc d a b s
  | .scanInc d a b => Sys2Proof.Machine.execScanInc d a b s
  | .scanExc d a b => Sys2Proof.Machine.execScanExc d a b s
  | .segred d a k p => Sys2Proof.Machine.execSegred d a k p s
  | .segscan d a k p => Sys2Proof.Machine.execSegscan d a k p s
  | .kand d a b => Sys2Proof.Machine.execKand d a b s
  | .kor d a b => Sys2Proof.Machine.execKor d a b s
  | .kxor d a b => Sys2Proof.Machine.execKxor d a b s
  | .kandn d a b => Sys2Proof.Machine.execKandn d a b s
  | .kld d a => Sys2Proof.Machine.execKld d a s
  | .kst d a => Sys2Proof.Machine.execKst d a s
  | .knot d a => Sys2Proof.Machine.execKnot d a s
  | .kact d a => Sys2Proof.Machine.execKact d a s
  | .br k o => Sys2Proof.Machine.execBr k o s
  | .brF k o => Sys2Proof.Machine.execBrF k o s
  | .jmp o => Sys2Proof.Machine.execJmp o s
  | .call o => Sys2Proof.Machine.execCall o s
  | .jmpi a => Sys2Proof.Machine.execJmpi a s
  | .calli a => Sys2Proof.Machine.execCalli a s
  | .split k t j => Sys2Proof.Machine.execSplit k t j s
  | .brt a n => Sys2Proof.Machine.execBrt a n s
  | .waitL a => Sys2Proof.Machine.execWaitL a s
  | .waitM a => Sys2Proof.Machine.execWaitM a s
  | .sleep a => Sys2Proof.Machine.execSleep a s
  | .ld d a b z => Sys2Proof.Machine.execLd d a b z s
  | .ldsB d a b => Sys2Proof.Machine.execLdsB d a b s
  | .ldsH d a b => Sys2Proof.Machine.execLdsH d a b s
  | .ldQ d a b => Sys2Proof.Machine.execLdQ d a b s
  | .pf a b => Sys2Proof.Machine.execPf a b s
  | .st d a b z => Sys2Proof.Machine.execSt d a b z s
  | .stQ d a b => Sys2Proof.Machine.execStQ d a b s
  | .ldl d a b z => Sys2Proof.Machine.execLdl d a b z s
  | .stl d a b z => Sys2Proof.Machine.execStl d a b z s
  | .ldAcqW d a b => Sys2Proof.Machine.execLdAcqW d a b s
  | .ldAcqD d a b => Sys2Proof.Machine.execLdAcqD d a b s
  | .stRelW d a b => Sys2Proof.Machine.execStRelW d a b s
  | .stRelD d a b => Sys2Proof.Machine.execStRelD d a b s
  | .atomAdd d a b => Sys2Proof.Machine.execAtomAdd d a b s
  | .atomMin d a b => Sys2Proof.Machine.execAtomMin d a b s
  | .atomMax d a b => Sys2Proof.Machine.execAtomMax d a b s
  | .atomAnd d a b => Sys2Proof.Machine.execAtomAnd d a b s
  | .atomOr d a b => Sys2Proof.Machine.execAtomOr d a b s
  | .atomXor d a b => Sys2Proof.Machine.execAtomXor d a b s
  | .atomXchg d a b => Sys2Proof.Machine.execAtomXchg d a b s
  | .atomCas d a b => Sys2Proof.Machine.execAtomCas d a b s
  | .atomMinu d a b => Sys2Proof.Machine.execAtomMinu d a b s
  | .atomMaxu d a b => Sys2Proof.Machine.execAtomMaxu d a b s
  | .atomInc d a b => Sys2Proof.Machine.execAtomInc d a b s
  | .atomDec d a b => Sys2Proof.Machine.execAtomDec d a b s
  | .atomFadd d a b => Sys2Proof.Machine.execAtomFadd d a b s
  | .atomFmin d a b => Sys2Proof.Machine.execAtomFmin d a b s
  | .atomFmax d a b => Sys2Proof.Machine.execAtomFmax d a b s
  | .atomAdd64 d a b => Sys2Proof.Machine.execAtomAdd64 d a b s
  | .atomlAdd d a b => Sys2Proof.Machine.execAtomlAdd d a b s
  | .atomlMin d a b => Sys2Proof.Machine.execAtomlMin d a b s
  | .atomlMax d a b => Sys2Proof.Machine.execAtomlMax d a b s
  | .atomlCas d a b => Sys2Proof.Machine.execAtomlCas d a b s
  | .redAdd d a b => Sys2Proof.Machine.execRedAdd d a b s
  | .redMin d a b => Sys2Proof.Machine.execRedMin d a b s
  | .redMax d a b => Sys2Proof.Machine.execRedMax d a b s
  | .redFadd d a b => Sys2Proof.Machine.execRedFadd d a b s
  | .redBayAdd d a b => Sys2Proof.Machine.execRedBayAdd d a b s
  | .redBayMin d a b => Sys2Proof.Machine.execRedBayMin d a b s
  | .redBayMax d a b => Sys2Proof.Machine.execRedBayMax d a b s
  | .redBayFadd d a b => Sys2Proof.Machine.execRedBayFadd d a b s
  | .cclean a b => Sys2Proof.Machine.execCclean a b s
  | .cinv a b => Sys2Proof.Machine.execCinv a b s
  | .tbegin d => Sys2Proof.Machine.execTbegin d s
  | .tabort a => Sys2Proof.Machine.execTabort a s
  | .tstat d => Sys2Proof.Machine.execTstat d s
  | .xchXor d a b => Sys2Proof.Machine.execXchXor d a b s
  | .xchRot d a b => Sys2Proof.Machine.execXchRot d a b s
  | .xchBc d a b => Sys2Proof.Machine.execXchBc d a b s
  | .xchGath a b => Sys2Proof.Machine.execXchGath a b s
  | .xred d a b => Sys2Proof.Machine.execXred d a b s
  | .bnew d a b => Sys2Proof.Machine.execBnew d a b s
  | .bfree a => Sys2Proof.Machine.execBfree a s
  | .bexp a b => Sys2Proof.Machine.execBexp a b s
  | .barr d a => Sys2Proof.Machine.execBarr d a s
  | .bwait a => Sys2Proof.Machine.execBwait a s
  | .bwaitg a b => Sys2Proof.Machine.execBwaitg a b s
  | .btest d a => Sys2Proof.Machine.execBtest d a s
  | .hwait a => Sys2Proof.Machine.execHwait a s
  | .htest d a => Sys2Proof.Machine.execHtest d a s
  | .hcancel a => Sys2Proof.Machine.execHcancel a s
  | .hget d a => Sys2Proof.Machine.execHget d a s
  | .hput d a => Sys2Proof.Machine.execHput d a s
  | .copy a b h q => Sys2Proof.Machine.execCopy a b h q s
  | .gath a b h => Sys2Proof.Machine.execGath a b h s
  | .scat a b h => Sys2Proof.Machine.execScat a b h s
  | .copyRst a b h => Sys2Proof.Machine.execCopyRst a b h s
  | .mldw a b h => Sys2Proof.Machine.execMldw a b h s
  | .mswap h => Sys2Proof.Machine.execMswap h s
  | .mzero m h => Sys2Proof.Machine.execMzero m h s
  | .mloop a b h m => Sys2Proof.Machine.execMloop a b h m s
  | .mrd a b m => Sys2Proof.Machine.execMrd a b m s
  | .mstr a m h => Sys2Proof.Machine.execMstr a m h s
  | .cres a b c => Sys2Proof.Machine.execCres a b c s
  | .crel a => Sys2Proof.Machine.execCrel a s
  | .cstat a b => Sys2Proof.Machine.execCstat a b s
  | .trap im => Sys2Proof.Machine.execTrap im s
  | .eret a => Sys2Proof.Machine.execEret a s
  | .tlbi a b => Sys2Proof.Machine.execTlbi a b s
  | .winr d a => Sys2Proof.Machine.execWinr d a s
  | .winw a b => Sys2Proof.Machine.execWinw a b s
  | .clkr d => Sys2Proof.Machine.execClkr d s
  | .perf d b => Sys2Proof.Machine.execPerf d b s
  | .ejctl d a => Sys2Proof.Machine.execEjctl d a s
  | .signal a => Sys2Proof.Machine.execSignal a s
  | .launch a b h => Sys2Proof.Machine.execLaunch a b h s
  | .pfx k z r x p e u y t => Sys2Proof.Machine.execPfx k z r x p e u y t s
  | .iminu d a b => Sys2Proof.Machine.execIminu d a b s
  | .imaxu d a b => Sys2Proof.Machine.execImaxu d a b s
  | .badd2 d a b => Sys2Proof.Machine.execBadd2 d a b s
  | .bsub2 d a b => Sys2Proof.Machine.execBsub2 d a b s
  | .bmul2 d a b => Sys2Proof.Machine.execBmul2 d a b s
  | .hadd2 d a b => Sys2Proof.Machine.execHadd2 d a b s
  | .hsub2 d a b => Sys2Proof.Machine.execHsub2 d a b s
  | .hmul2 d a b => Sys2Proof.Machine.execHmul2 d a b s
  | .hfma2 d a b => Sys2Proof.Machine.execHfma2 d a b s
  | .bmin2 d a b => Sys2Proof.Machine.execBmin2 d a b s
  | .bmax2 d a b => Sys2Proof.Machine.execBmax2 d a b s
  | .hmin2 d a b => Sys2Proof.Machine.execHmin2 d a b s
  | .hmax2 d a b => Sys2Proof.Machine.execHmax2 d a b s
  | .nop => Sys2Proof.Machine.execNop s
  | .yield => Sys2Proof.Machine.execYield s
  | .exit => Sys2Proof.Machine.execExit s
  | .ret => Sys2Proof.Machine.execRet s
  | .join => Sys2Proof.Machine.execJoin s
  | .fence => Sys2Proof.Machine.execFence s
  | .tend => Sys2Proof.Machine.execTend s
  | .xbar => Sys2Proof.Machine.execXbar s
  | .tokwait => Sys2Proof.Machine.execTokwait s
  | .tokpass => Sys2Proof.Machine.execTokpass s
  | .runArbitration col q => Sys2Proof.Machine.execRunArbitration col q s
  | .variableLatencyLand col agent id => Sys2Proof.Machine.execVariableLatencyLand col agent id s
  | .nackRetry col rid => Sys2Proof.Machine.execNackRetry col rid s
  | .sleepExpire col agent slotB => Sys2Proof.Machine.execSleepExpire col agent slotB s
  | .rejoinTimeout col slot => Sys2Proof.Machine.execRejoinTimeout col slot s
  | .laneContextStart col ctx => Sys2Proof.Machine.execLaneContextStart col ctx s
  | .laneReturn col ctx => Sys2Proof.Machine.execLaneReturn col ctx s
  | .taskRecordCheck => Sys2Proof.Machine.execTaskRecordCheck s
  | .launchRingEntry fn => Sys2Proof.Machine.execLaunchRingEntry fn s
  | .launchComplete node => Sys2Proof.Machine.execLaunchComplete node s
  | .makeResident col => Sys2Proof.Machine.execMakeResident col s
  | .preemptGroup col entry => Sys2Proof.Machine.execPreemptGroup col entry s
  | .quantumExpire col entry => Sys2Proof.Machine.execQuantumExpire col entry s
  | .waitPriorityRise node group => Sys2Proof.Machine.execWaitPriorityRise node group s
  | .startTimeReached node => Sys2Proof.Machine.execStartTimeReached node s
  | .watchdog node => Sys2Proof.Machine.execWatchdog node s
  | .claimSpan col id => Sys2Proof.Machine.execClaimSpan col id s
  | .copyCommandStart col id => Sys2Proof.Machine.execCopyCommandStart col id s
  | .copyTransfer col id => Sys2Proof.Machine.execCopyTransfer col id s
  | .gatherTransfer col id => Sys2Proof.Machine.execGatherTransfer col id s
  | .engineCommandDone col id => Sys2Proof.Machine.execEngineCommandDone col id s
  | .barBytesDelivered col => Sys2Proof.Machine.execBarBytesDelivered col s
  | .thresherCommandStart col node => Sys2Proof.Machine.execThresherCommandStart col node s
  | .thresherKstep col node => Sys2Proof.Machine.execThresherKstep col node s
  | .mloopRowsLanded col node => Sys2Proof.Machine.execMloopRowsLanded col node s
  | .routerCycle => Sys2Proof.Machine.execRouterCycle s
  | .injectionWindow => Sys2Proof.Machine.execInjectionWindow s
  | .xdata col => Sys2Proof.Machine.execXdata col s
  | .ack col => Sys2Proof.Machine.execAck col s
  | .nack col => Sys2Proof.Machine.execNack col s
  | .xctlArrival col => Sys2Proof.Machine.execXctlArrival col s
  | .xctlRelease col => Sys2Proof.Machine.execXctlRelease col s
  | .xredCombine col slot => Sys2Proof.Machine.execXredCombine col slot s
  | .rd col => Sys2Proof.Machine.execRd col s
  | .rdata col => Sys2Proof.Machine.execRdata col s
  | .wdata col => Sys2Proof.Machine.execWdata col s
  | .mgmt col => Sys2Proof.Machine.execMgmt col s
  | .sliceRequest col rid => Sys2Proof.Machine.execSliceRequest col rid s
  | .hbmFill col line => Sys2Proof.Machine.execHbmFill col line s
  | .bayModeSwitch col mode => Sys2Proof.Machine.execBayModeSwitch col mode s
  | .carveChange col ways => Sys2Proof.Machine.execCarveChange col ways s
  | .carveGrowDone col => Sys2Proof.Machine.execCarveGrowDone col s
  | .bayRgnHtWrite col n val => Sys2Proof.Machine.execBayRgnHtWrite col n val s
  | .bayAliasWrite col n back val => Sys2Proof.Machine.execBayAliasWrite col n back val s
  | .slstatRead col sl => Sys2Proof.Machine.execSlstatRead col sl s
  | .dutyMapWrite val => Sys2Proof.Machine.execDutyMapWrite val s
  | .ringCfgWrite fn fault val => Sys2Proof.Machine.execRingCfgWrite fn fault val s
  | .registerWrite sp off val => Sys2Proof.Machine.execRegisterWrite sp off val s
  | .attest => Sys2Proof.Machine.execAttest s
  | .pfaultDone => Sys2Proof.Machine.execPfaultDone s
  | .train => Sys2Proof.Machine.execTrain s
  | .scrub => Sys2Proof.Machine.execScrub s
  | .eth => Sys2Proof.Machine.execEth s
  | .thermal => Sys2Proof.Machine.execThermal s
  | .service => Sys2Proof.Machine.execService s
  | .qp => Sys2Proof.Machine.execQp s
  | .fwupdate => Sys2Proof.Machine.execFwupdate s
  | .eccScrub => Sys2Proof.Machine.execEccScrub s
  | .thermalSample power avg1 avg10 junction => Sys2Proof.Machine.execThermalSample power avg1 avg10 junction s
  | .emergencyTrip => Sys2Proof.Machine.execEmergencyTrip s
  | .boot fail net => Sys2Proof.Machine.execBoot fail net s
  | .functionLevelReset vf => Sys2Proof.Machine.execFunctionLevelReset vf s
  | .ptpSync port offset => Sys2Proof.Machine.execPtpSync port offset s
  | .peerRdmaRequest port qpn kind col pa data => Sys2Proof.Machine.execPeerRdmaRequest port qpn kind col pa data s
  | .strandBeatError col strand beat again => Sys2Proof.Machine.execStrandBeatError col strand beat again s
  | .strandRetire col strand => Sys2Proof.Machine.execStrandRetire col strand s
  | .linkCheckError router port again => Sys2Proof.Machine.execLinkCheckError router port again s
  | .containment col memory => Sys2Proof.Machine.execContainment col memory s
  | .migratePage ctx col va dest => Sys2Proof.Machine.execMigratePage ctx col va dest s
  | .tlbiComplete col => Sys2Proof.Machine.execTlbiComplete col s
  | .tinkerEvent col => Sys2Proof.Machine.execTinkerEvent col s
  | .debugRestart col slot h => Sys2Proof.Machine.execDebugRestart col slot h s
  | .debugCancel col slot h => Sys2Proof.Machine.execDebugCancel col slot h s
  | .peerAcknowledge col id data => Sys2Proof.Machine.execPeerAcknowledge col id data s
  | .peerLink col id => Sys2Proof.Machine.execPeerLink col id s
  | .hostLinkCompletion col rid error data => Sys2Proof.Machine.execHostLinkCompletion col rid error data s
  | .hostLinkRetriesExhausted col rid => Sys2Proof.Machine.execHostLinkRetriesExhausted col rid s
  | .shadowPlaneLoaded col node => Sys2Proof.Machine.execShadowPlaneLoaded col node s
  | .mstrTransfer col node => Sys2Proof.Machine.execMstrTransfer col node s
  | .tinkerRestart col => Sys2Proof.Machine.execTinkerRestart col s
  | .fringHead fn val => Sys2Proof.Machine.execFringHead fn val s
  | .unknownOp => Sys2Proof.Machine.execUnknownOp s
  | .ethernetLinkBringUp port up => Sys2Proof.Machine.execEthernetLinkBringUp port up s
  | .tripPointCleared => Sys2Proof.Machine.execTripPointCleared s

end Sys2Proof.Machine
end

