-- ==== Sys2Proof/Machine/Cycle.lean ====
section
/-! DEFINITION. The machine's cycle: one issue unit of an agent (R10, R34 to R39, R72, R73, R191, R192), the passing of a cycle
(R335, R367, R372), and the order in which the model lets the agents and steps of the module act when its agenda names none
(log 1, DESIGN CHOICE). -/

namespace Sys2Proof.Machine

/-! ## The words of an issue unit -/

/-- Is an agent stopped by a trap? -/
def State.stoppedAt (s : State) (c : Nat) : Who → Bool
  | .warp n _ => ((s.col c).warp n).stop.isSome
  | .lane i => ((s.col c).ctx i).stop.isSome
  | .tinker => (s.col c).tinker.stop.isSome
  | .factor n => (s.factor n).stop.isSome

/-- Does the issuing agent stand at a position of its packet, not stopped? -/
def State.standsAt (s : State) (pkt : BitVec 32) (wpos : Nat) : Bool :=
  !s.stoppedAt s.cur.col s.cur.who && decide (s.path.pkt = pkt) && decide (s.path.wpos = wpos)

/-- What an issue unit has in common: its packet, where it begins and ends, the cycle from which the next word may issue, and the
fixed-latency writes pending before it. -/
structure UnitInfo where
  pkt : BitVec 32
  start : Nat
  after : Nat
  ready : Nat
  pend : List Pend
  /-- Are the words of the packet after the unit all NOP, words of zeros? They take no issue cycle (log 32, DEDUCED). -/
  ends : Bool
  deriving DecidableEq, Repr

/-- A path past a word of its packet, and past the zeros that end the packet after the unit (log 32, DEDUCED). -/
def Path.past (p : Path) (u : UnitInfo) (base : Nat) : Path :=
  ({ p with wpos := if u.ends ∧ base + 1 = u.after then 2 else base } : Path).advance

/-- The state in which a member executes: the PC past it, and the word that executes named. -/
noncomputable def State.toMember (s : State) (u : UnitInfo) (m : Member) (pos : Nat) : State :=
  let s := s.updPath fun p => p.past u m.base
  { s with cur := { s.cur with pkt := u.pkt, wpos := pos, word := m.word, pfx := m.pfx.bind pfxOf, unitEnd := u.after, held := false } }

/-- A member's instruction executed, its prefix word first. -/
noncomputable def State.execMember (s : State) (m : Member) (i : Instr) : Host.Outcome State Fault Refusal :=
  match m.pfx with
  | none => exec i s
  | some w =>
    match decodeWord w with
    | .error _ => exec i s
    | .ok (_, p) =>
      match exec p s with
      | .next s => exec i s
      | o => o

/-- Does a word that stays at its position wait there itself (R39's last row), so that the words of its chain before it have issued? -/
def State.waitsAlone (s : State) (i : Instr) : Bool :=
  match s.path.wait with
  | .handle _ => (match i with | .hwait _ => true | _ => false)
  | .barrier .. | .token | .latency _ | .memory _ | .until _ | .commit | .yield | .tlbi => true
  | _ => false

/-- What becomes of one member (R37, R38, R46, R77, R164): it traps, or its instruction executes. A scalar word that reads too early with
checking on (R37) and writes s0-s47 in a divergent region (R90) raises STALL_SHORT, which is met first (log 92, DESIGN CHOICE). -/
noncomputable def State.member (s : State) (u : UnitInfo) (m : Member) : Host.Outcome State Fault Refusal :=
  match s.decodeMember m with
  | .illegal w => .next { s with cur := { s.cur with word := w } }.illegal
  | .role => .next (s.trap .role)
  | .run i =>
    let p := m.pfx.bind pfxOf
    if s.checking && stallShort u.pend s.clk (s.readsOf i p) then .next (s.trap .stallShort)
    else
      match (s.meets i p).find? (·.error.isSome) with
      | some v => .next (s.raiseErred v)
      | none => s.execMember m i

/-- A word chained after another: it reads the handles as the chain found them (R12). -/
def State.chained (s before : State) : State := { s with cur := { s.cur with before := some (before.warp.h, before.nextId) } }

/-- Does a member, held at its position, leave the whole chain where it began (R12, R39)? Not where it waits there by R39's last row. -/
noncomputable def State.holdsChain (s t : State) (u : UnitInfo) (m : Member) : Bool :=
  decide (m.pos ≠ u.start) && t.cur.held && (match s.decodeMember m with | .run i => !t.waitsAlone i | _ => false)

/-- The members of a chain from one on, in a state: a later member that would block leaves the whole chain where it began (R12, R39); where
it waits only for what an earlier word of its own chain has asked for, that word stands, and it waits at its own position (log 93, DESIGN
CHOICE). The words run in their order: every word reads the registers and handles as they stood before the chain (R12), but a record in
local store is read after the bytes of an STL that stands before its engine word in the chain, as R20 has it of every earlier store (log
94, DESIGN CHOICE). -/
noncomputable def State.members (before : State) (u : UnitInfo) : State → List Member → Host.Outcome State Fault Refusal
  | s, [] => .next s
  | s, m :: ms =>
    match ((if m.pos = u.start then s else s.chained before).toMember u m m.pos).member u m with
    | .next t =>
      if s.holdsChain t u m then
        match (before.toMember u m u.start).member u m with
        | .next b => .next (if b.cur.held then b else t)
        | o => o
      else if !t.cur.held ∧ t.standsAt u.pkt (m.base + 1) then State.members before u t ms
      else .next t
    | o => o

/-! ## The run and the units that a core shares -/

/-- The packet of a unit counted in the run that issues it, and its B noted (R39). -/
def State.countPacket (s : State) (fresh b : Bool) : State :=
  match s.cur.who with
  | .warp n _ =>
    s.updHere fun x =>
      let q := x.quarter (n / 16)
      match q.run with
      | some r =>
        let packets := if fresh ∨ r.packets = 0 then r.packets + 1 else r.packets
        x.setQuarter (n / 16) { q with run := some { r with packets := packets, boundary := r.boundary || b } }
      | none => x
  | _ => s

/-- The stall count of an issued unit (R10): the warp's next word, from whichever path it comes, waits for it, and the next word of an agent
of one path. -/
def State.stall (s : State) (u : UnitInfo) : State :=
  match s.cur.who with
  | .warp n _ => s.updHere fun x => x.setWarp n { x.warp n with ready := u.ready }
  | _ => s.updPath fun p => { p with ready := u.ready }

/-- The run after a unit (R39): at the end of a packet it ends with an issued B, or with its eighth packet, and RUN_FORCED is counted. -/
def State.closePacket (s : State) : State :=
  match s.cur.who with
  | .warp n _ =>
    match (s.here.quarter (n / 16)).run with
    | some r =>
      if r.slot ≠ n ∨ ¬ s.path.fresh then s
      else if r.boundary then s.endRun
      else if 8 ≤ r.packets then s.endRun.updHere fun x => x.count s.launchId 1
      else s
    | none => s
  | _ => s

/-- The members of a unit that decode for the agent, up to the first that does not. -/
noncomputable def State.decodable (s : State) (ms : List Member) : List Member :=
  ms.takeWhile fun m => match s.decodeMember m with | .run _ => true | _ => false

/-- Does a unit use a pipe, as far as it decodes? -/
noncomputable def State.uses (s : State) (p : Pipe) (ms : List Member) : Bool := hasPipe p (s.decodable ms)

/-- Must a unit wait for earlier operations of its agent (R39), or block on the scoreboard (R38)? -/
noncomputable def State.holdsUnit (s : State) (ms : List Member) : Bool := s.heldBack && (s.uses .m ms || s.uses .e ms)

/-- The unit at an agent's position; none where its packet does not fetch. -/
def State.nextUnit (s : State) : List Member := unitOf (membersOf s.path.wpos s.nextWords)

/-- May the path that holds a quarter's run issue in this cycle, its shared unit aside? -/
def State.runReady (s : State) (c q : Nat) : Option Who :=
  let x := s.col c
  match (x.quarter q).run with
  | some r =>
    let w := x.warp r.slot
    let p := w.slotPath r.b
    if (if r.b then w.b else w.a).isSome ∧ w.stop.isNone ∧ (x.quarter q).free ≤ s.clk ∧ w.ready ≤ s.clk ∧ p.ready ≤ s.clk ∧ (s.asAgent c (.warp r.slot r.b)).waitOver = true
    then some (.warp r.slot r.b) else none
  | none => none

/-- Does a quarter ask for a shared unit in this cycle? -/
noncomputable def State.asks (s : State) (p : Pipe) (c q : Nat) : Bool :=
  match s.runReady c q with
  | some who => let s := s.asAgent c who; s.uses p s.nextUnit
  | none => false

/-- May a quarter take a shared unit: it is free, and no quarter that comes first in the rotation asks for it (R73)? -/
noncomputable def State.granted (s : State) (p : Pipe) (u : Nat × Nat) (c q : Nat) : Bool :=
  decide (u.1 ≤ s.clk) && decide (((List.range 4).map fun i => (u.2 + 1 + i) % 4).find? (fun r => s.asks p c r) = some q)

/-- May the path that holds a quarter's run issue in this cycle? -/
noncomputable def State.quarterMay (s : State) (c q : Nat) : Bool :=
  match s.runReady c q with
  | some who =>
    let x := s.col c
    let a := s.asAgent c who
    (!a.uses .m a.nextUnit || s.granted .m x.unitM c q) && (!a.uses .e a.nextUnit || s.granted .e x.unitE c q)
  | none => false

/-- May a lane context issue in this cycle, its place in the rotation aside (R191, R192)? -/
noncomputable def State.ctxReady (s : State) (c i : Nat) : Bool :=
  let x := s.col c
  let k := x.ctx i
  let a := s.asAgent c (.lane i)
  k.live && !k.starting && !k.leaving && k.stop.isNone && !(x.group (x.warp k.slot).entry).leaving && decide (k.path.ready ≤ s.clk) &&
    a.waitOver && (a.settleHolds.stoppedAt c (.lane i) || !a.settleHolds.holdsUnit a.nextUnit) && !a.blocks a.nextUnit 0

/-- May a lane context issue in this cycle: its gleaner is free, and no ready context comes first in the rotation (R191)? At reset context 3 of a
gleaner counts as the one picked last, so that the first rotation begins at context 0 (log 3, DESIGN CHOICE). -/
noncomputable def State.laneMay (s : State) (c i : Nat) : Bool :=
  let g := i / 4
  let u := Tab.get (0, 4 * g + 3) (s.col c).glean g
  decide (u.1 ≤ s.clk) && decide (((List.range 4).map fun k => 4 * g + (u.2 + 1 + k) % 4).find? (fun k => s.ctxReady c k) = some i)

/-- May a column's tinker issue in this cycle: it serves an event, and has not stopped, nor has its core failed (R345, R348, R360)? -/
noncomputable def State.tinkerMay (s : State) (c : Nat) : Bool :=
  let t := (s.col c).tinker
  let a := s.asAgent c .tinker
  t.serving.isSome && t.stop.isNone && !(s.col c).coreOffline && decide (t.path.lanes ≠ 0#32) && decide (t.path.ready ≤ s.clk) && a.waitOver &&
    (a.settleHolds.stoppedAt c .tinker || !a.settleHolds.holdsUnit a.nextUnit) && !a.blocks a.nextUnit 0

/-- May a factor core issue in this cycle? -/
def State.factorMay (s : State) (n : Nat) : Bool :=
  let f := s.factor n
  decide (n < 4) && f.stop.isNone && decide (f.path.lanes ≠ 0#32) && decide (f.path.ready ≤ s.clk) && f.tlbi.isNone

/-- The part of the machine that an issue unit takes for a cycle: its quarter with the shared units, or its gleaner, which takes two
cycles for a chain of three (R72, R73, R191). -/
noncomputable def State.occupy (s : State) (ms : List Member) : State :=
  match s.cur.who with
  | .warp n _ =>
    let q := n / 16
    let m := s.uses .m ms
    let e := s.uses .e ms
    s.updHere fun x =>
      let x := x.setQuarter q { x.quarter q with free := s.clk + 1 }
      { x with unitM := if m then (s.clk + 1, q) else x.unitM, unitE := if e then (s.clk + 1, q) else x.unitE }
  | .lane i => s.updHere fun x => { x with glean := Tab.put x.glean (i / 4) (s.clk + (if 3 ≤ ms.length then 2 else 1), i) }
  | _ => s

/-- The writes of an issuing agent landed that are due: a lane context's with those of its warp, whose s0-s47 it reads (R192). -/
def State.landFor (s : State) (c : Nat) (who : Who) : State :=
  match who with
  | .lane i => (s.landDue c (.warp ((s.col c).ctx i).slot false)).landDue c who
  | _ => s.landDue c who

/-- The fixed-latency writes that an agent's reads may meet. -/
def State.pendFor (s : State) : List Pend :=
  match s.cur.who with
  | .lane _ => s.thread.pend ++ s.warp.th.pend.filter fun p => (match p.write with | .s _ r _ => decide (r < 48) | _ => false)
  | _ => s.thread.pend

/-- Every count of bytes whose cycle has come delivered: before the core's M unit, which a word may take in the same cycle (R168). -/
def State.deliverAll (s : State) (c : Nat) : State :=
  let now := (s.col c).counts.filter fun k => decide (k.due ≤ s.clk)
  if now.isEmpty then s
  else now.foldl (fun s k => s.deliverCount c k) (s.updCol c fun x => { x with counts := x.counts.filter fun k => decide (s.clk < k.due) })

/-- The state in which an agent's turn begins: delivered bytes have been counted, its due writes have landed, and the wait that it stood in
is noted and over. -/
def State.beginTurn (s : State) (c : Nat) (who : Who) : State :=
  let s := ((s.deliverAll c).landFor c who).asAgent c who
  let s := { s with cur := { s.cur with wait := s.path.wait } }
  s.updPath fun p => { p with wait := .none }

/-- The members of the unit at the agent's position in its packet (R34, R36). -/
def State.unitIn (s : State) (ws : List Word) : List Member := unitOf (membersOf s.path.wpos (ws.drop s.path.wpos))

/-- What the members of a unit have in common. -/
def State.unitInfo (s : State) (ws : List Word) (ms : List Member) : UnitInfo :=
  let last := (ms.getLast?).getD { pos := 0, base := 0, word := 0#32 }
  { pkt := s.path.pkt, start := s.path.wpos, after := last.base + 1, ready := s.clk + 1 + (ctlOf last.word).s.toNat, pend := s.pendFor,
    ends := (ws.drop (last.base + 1)).all fun w => decide (w = 0#32) }

/-- What an issue unit leaves behind (R10, R39): nothing where its agent trapped or its first word stands held, for no word has issued;
else its packet is counted, and, where no word of it stands held, its stall count begins and the run may end with its packet. -/
def State.afterUnit (s : State) (u : UnitInfo) (fresh b : Bool) : State :=
  if s.stoppedAt s.cur.col s.cur.who ∨ (s.cur.held ∧ s.cur.wpos = u.start) then s
  else
    let s := s.countPacket fresh b
    if s.cur.held then s else (s.stall u).closePacket

/-- The words of the tables that a unit's BRT reads which an ejected lane's gleaner does not hold yet (R123, R191). -/
noncomputable def State.tableMisses (s : State) (ms : List Member) : List Nat :=
  ms.flatMap fun m =>
    match decodeWord m.word with
    | .ok (_, .brt _ n) => (List.range ((n.toNat + 3) / 3)).flatMap fun i => s.codeMisses (s.path.pkt + 1#32 + BitVec.ofNat 32 i)
    | _ => []

/-- An ejected lane's instruction fetch (R191): the words that its gleaner's L1 does not hold are brought there, and it waits for them at
its word. -/
noncomputable def State.startFetch (s : State) (pas : List Nat) : State :=
  let (m, s) := (s.occupy []).newOp .fetch (pas.map fun p => { lane := 0, pa := p, size := 4 }) []
  (s.startOp s.cur.col m).blockAt .code

/-- One issue unit of an agent: its packet is fetched (R35, R191) and checked for placement (R46), earlier operations and the scoreboard may
hold it (R38, R39), and then its members execute in one cycle. -/
noncomputable def State.issueUnit (s : State) (c : Nat) (who : Who) : Host.Outcome State Fault Refusal :=
  let s := s.beginTurn c who
  if s.codeMisses s.path.pkt ≠ [] then .next (s.startFetch (s.codeMisses s.path.pkt)) else
  match s.fetchPacket s.path.pkt with
  | (.error e, s) => .next ((s.occupy []).trap e)
  | (.ok ws, s) =>
    match misplaced {} (membersOf 0 ws) with
    | some (p, w) => .next { s.occupy [] with cur := { s.cur with wpos := p, word := w } }.illegal
    | none =>
      let ms := s.unitIn ws
      let s := s.settleHolds
      if s.stoppedAt c who then .next (s.occupy [])
      else if s.tableMisses ms ≠ [] then .next (s.startFetch (s.tableMisses ms))
      else if s.holdsUnit ms then .next ((s.occupy []).blockAt .earlier)
      else if s.blocks ms 0 then .next ((s.occupy []).blockAt .none)
      else
        let u := s.unitInfo ws ms
        let t := s.occupy ms
        match State.members t u t ms with
        | .next t => .next (t.afterUnit u s.path.fresh (ms.any fun m => (ctlOf m.word).b))
        | o => o

/-- May an agent issue in this cycle? -/
noncomputable def State.mayIssue (s : State) (c : Nat) : Who → Bool
  | .warp n b => decide (s.runReady c (n / 16) = some (.warp n b)) && s.quarterMay c (n / 16)
  | .lane i => s.laneMay c i
  | .tinker => s.tinkerMay c
  | .factor n => s.factorMay n

/-- An agent's turn: nothing where it may not issue in this cycle. A factor core's fetch has no address space (R34, R184). -/
noncomputable def State.issueTurn (s : State) (c : Nat) (who : Who) : Host.Outcome State Fault Refusal :=
  if !s.mayIssue c who then .next s
  else
    match who with
    | .factor _ => .refused .factorMemory
    | _ => s.issueUnit c who

/-! ## The passing of a cycle -/

/-- A cycle in parts of 1/39520 ns, at the clock steps of 1.9, 1.6, 1.3 and 1.0 GHz (R372). -/
def cycleParts (step : Nat) : Nat := [20800, 24700, 30400, 39520].getD step 20800

/-- %time after a cycle (R48, R367): whole nanoseconds, and at most one slewed in 10,000. -/
def State.passTime (s : State) : State :=
  let parts := s.timeFrac + cycleParts s.host.clockStep
  let up := parts / 39520
  let t := s.time + up
  let s := { s with timeFrac := parts % 39520 }
  let h := s.host
  if h.slew = 0 ∨ t < h.slewDue then { s with time := t }
  else if 0 < h.slew then { s with time := t + 1, host := { h with slew := h.slew - 1, slewDue := t + 10001 } }
  else if up = 0 then { s with time := t }
  else { s with time := t - 1, host := { h with slew := h.slew + 1, slewDue := t + 10000 } }

/-- Does a launch have a resident group (R335)? -/
def Launch.resident (l : Launch) : Bool := l.groups.any fun e => match e.2.place with | .resident _ => true | _ => false

/-- The runtime counters after a cycle (R335): of the launches with a resident group, and of their service regions. -/
def State.passRuntime (s : State) : State :=
  let on (n : Nat) : Bool := decide ((s.node n).kind = .launch) && (s.node n).launch.resident
  let up (n : Nat) (x : Node) : Bool :=
    on n || (decide (x.kind = .service) && s.dist.nodes.any fun e => on e.1 && decide (e.2.parent = n))
  { s with dist := { s.dist with nodes := Tab.mapVals (fun n (x : Node) => if up n x then { x with runtime := x.runtime + 1 } else x) s.dist.nodes } }

/-- The agents that hold registers. -/
def State.agents (s : State) : List (Nat × Who) :=
  s.cols.flatMap fun e =>
    (e.2.warps.map fun w => (e.1, Who.warp w.1 false)) ++ (e.2.ctxs.map fun k => (e.1, Who.lane k.1)) ++ [(e.1, Who.tinker)]

/-- What a column does as a cycle begins: the limits that an EJCTL has written take effect (R203), the bay's weights and masks do (R310),
its switches and closing alias ranges go on (R217, R314), and its lines and requests move on (R308, R316, R319). -/
def State.beginCycle (s : State) (c : Nat) : State :=
  let s := s.updCol c fun x =>
    let due := x.warps.filter fun e => e.2.limitNext.isSome
    let x := due.foldl (fun x e => x.setWarp e.1 { e.2 with limit := e.2.limitNext.getD e.2.limit, limitNext := none }) x
    (x.updBay (·.newCycle)).settleMode
  (((s.settleAlias c).settleParts c).settleLimits c).advanceBay c

/-- An agent's releases that hold its later words gone on with, whether or not it could issue (R150, R151); an error that one would meet waits
for the agent's turn (R164). -/
def State.carryHolds (s : State) (c : Nat) (who : Who) : State :=
  if ((s.col c).holds who).isEmpty then s
  else
    let a := s.asAgent c who
    if a.thread.vpend.any fun v => v.error.isSome then s else { a.settleHolds with cur := s.cur }

/-- One cycle passes: %clk and %time advance, the runtime counters count, every column begins the cycle, the fixed-latency writes that
are due land (R10, R37), duties that waited for a restart are served (R370), releases that hold words back go on, and the deferred words of the commit token's holders are performed (R342). -/
def State.tick (s : State) : State :=
  let s := ({ s with clk := s.clk + 1 } : State).passTime.passRuntime.runDuties
  let s := (Tab.keys s.cols).foldl (fun s c => s.beginCycle c) s
  let s := s.agents.foldl (fun s a => (s.landDue a.1 a.2).carryHolds a.1 a.2) s
  s.agents.foldl (fun s a => match a.2 with | .warp n _ => s.performDeferred a.1 n | _ => s) s

/-! ## The debugger (R37) -/

/-- Is a launch stopped: does an agent of it stand at a trap (log 114, DESIGN CHOICE)? -/
def State.launchStopped (s : State) (node : Nat) : Bool :=
  s.cols.any fun e =>
    let mine (n : Nat) : Bool := (e.2.warp n).live && decide ((e.2.group (e.2.warp n).entry).launch = node)
    (e.2.warps.any fun w => mine w.1 && w.2.stop.isSome) || e.2.ctxs.any fun k => k.2.live && mine k.2.slot && k.2.stop.isSome

/-- The debugger turns the checking scoreboard on for a stopped launch (R37): for its warps on the cores, its saved ones, and those of its
groups to come. -/
def State.turnCheckOn (s : State) (node : Nat) : State :=
  if !s.launchStopped node then s
  else
    let nd := s.node node
    let on (w : Warp) : Warp := { w with check := true }
    let groups := Tab.mapVals (fun _ (g : GroupState) =>
      { g with saved := g.saved.map fun (v : Saved) => { v with warps := v.warps.map on } }) nd.launch.groups
    let s := s.setNode node { nd with launch := { nd.launch with groups := groups, task := { nd.launch.task with tflags := nd.launch.task.tflags ||| 4 } } }
    (Tab.keys s.cols).foldl (fun s c => s.updCol c fun x =>
      (x.warps.filter fun e => e.2.live && decide ((x.group e.2.entry).launch = node)).foldl (fun x e => x.setWarp e.1 (on e.2)) x) s

/-! ## The order of the turns (log 1, DESIGN CHOICE) -/

/-- A turn taken. -/
noncomputable def State.turn (s : State) : Turn → Host.Outcome State Fault Refusal
  | .issue c who => s.issueTurn c who
  | .event i => exec i s
  | .tick => .next s.tick
  | .check node => .next (s.turnCheckOn node)
  | .weaken c sector lasting =>
    .next (if sector < 2 ^ 27 then s.updCol (c % 256) fun x => { x with weak := (x.weak.filter fun e => decide (e.1 ≠ sector)) ++ [(sector, lasting)] } else s)
  | .retried => .next { s with host := { s.host with corrected := s.host.corrected + 1 } }
  | .untrain c => .next (s.untrain c)
  | .flashFlag b => .next (if s.host.ready then { s with host := { s.host with flashTrain := b } } else s)
  | .clockPort p => .next (if p < 2 then { s with host := { s.host with ptpPort := p } } else s)

/-- The first agent that may issue in this cycle: quarters, then lane contexts, then tinkers. -/
noncomputable def State.issuer (s : State) : Option (Nat × Who) :=
  s.cols.findSome? fun e =>
    let c := e.1
    let x := e.2
    (((List.range 4).map fun i => (x.unitM.2 + 1 + i) % 4).findSome? fun q => if s.quarterMay c q then (s.runReady c q).map fun w => (c, w) else none).or
      (((Tab.keys x.ctxs).find? fun i => s.laneMay c i).map (fun i => (c, Who.lane i)) |>.or (if s.tinkerMay c then some (c, .tinker) else none))

/-- The steps of a column that no word encodes, which the model may take by itself. -/
noncomputable def State.columnEvents (s : State) (c : Nat) : List Instr :=
  let x := s.col c
  let vpends (n : Nat) (t : Thread) : List Instr := t.vpend.map fun v => .variableLatencyLand c n v.id
  let nodes := Tab.keys x.cribs
  (x.warps.flatMap fun e => vpends e.1 e.2.th ++ [.rejoinTimeout c e.1, .xredCombine c e.1]) ++
  (x.ctxs.flatMap fun e => vpends (64 + e.1) e.2.th ++ [.laneContextStart c e.1, .laneReturn c e.1]) ++
  vpends 96 x.tinker.th ++
  (x.bay.reqs.flatMap fun r => [.nackRetry c r.id, .sliceRequest c r.id]) ++
  (x.bay.flights.map fun f => .hbmFill c f.line) ++
  (x.cmds.flatMap fun k => [.claimSpan c k.id, .copyCommandStart c k.id, .copyTransfer c k.id, .gatherTransfer c k.id, .engineCommandDone c k.id, .peerLink c k.id]) ++
  (nodes.flatMap fun n => [.thresherCommandStart c n, .thresherKstep c n, .mloopRowsLanded c n, .shadowPlaneLoaded c n, .mstrTransfer c n]) ++
  [.barBytesDelivered c, .xdata c, .ack c, .nack c, .xctlArrival c, .xctlRelease c, .rd c, .rdata c, .wdata c, .mgmt c, .carveGrowDone c, .tlbiComplete c,
    .tinkerEvent c] ++
  (x.groups.flatMap fun e => [.quantumExpire c e.1, .preemptGroup c e.1]) ++
  [.makeResident c] ++ (List.range 4).map (fun q => .runArbitration c q)

/-- The steps of the module that no word encodes, which the model may take by itself: those that the outside alone decides are left to
the agenda. -/
noncomputable def State.events (s : State) : List Instr :=
  let cols := Tab.keys s.cols
  (s.dist.nodes.flatMap fun e => [.watchdog e.1, .startTimeReached e.1] ++ (e.2.launch.groups.map fun g => .waitPriorityRise e.1 g.1) ++ [.launchComplete e.1]) ++
  [.taskRecordCheck] ++ (Tab.keys s.host.fns).map (fun f => .launchRingEntry f) ++
  cols.flatMap s.columnEvents ++
  (List.range 4).map (fun n => .tlbiComplete (256 + n)) ++
  [.injectionWindow, .routerCycle, .pfaultDone, .attest, .train, .scrub, .eth, .thermal, .service, .qp, .fwupdate, .unknownOp] ++
  (cols.flatMap fun c => (s.col c).bay.hostOut.length |> List.range |>.map fun i => .hostLinkCompletion c i false [])

/-- The first of some steps that changes the state. -/
noncomputable def State.firstChange (s : State) : List Instr → Option (Host.Outcome State Fault Refusal)
  | [] => none
  | i :: is =>
    match exec i s with
    | .next t => if t = s then s.firstChange is else some (.next t)
    | o => some o

/-- What the machine does next by itself: an agent that may issue issues; else a step that no word encodes is taken; else the cycle
passes. -/
noncomputable def State.auto (s : State) : Host.Outcome State Fault Refusal :=
  match s.issuer with
  | some (c, who) => s.issueTurn c who
  | none => (s.firstChange s.events).getD (.next s.tick)

/-- One step of the machine: the next turn of the agenda, or, when it names none, what the machine does by itself. While the clocks
are stopped nothing acts but the trip point's clearing (R372). -/
noncomputable def State.next (s : State) : Host.Outcome State Fault Refusal :=
  let s := { s with free := s.free + 1 }
  match s.agenda with
  | [] => if s.clocksStopped then .fault .clocksStopped else s.auto
  | t :: ts =>
    let s := { s with agenda := ts }
    if s.clocksStopped ∧ t ≠ .event .tripPointCleared then .next s else s.turn t

end Sys2Proof.Machine
end

