-- ==== Sys2Proof/Machine/Step.lean ====
section
/-! DEFINITION. One step of the machine, and the machine with one instruction placed where its next step fetches it. -/

namespace Sys2Proof.Machine

/-- One step: an issue unit of one agent, one step of the module that no word encodes, or the passing of a cycle (log 1, DESIGN CHOICE). -/
noncomputable def step (s : State) : Host.Outcome State Fault Refusal := s.next

/-- The page tables of a column that map one page of 2 MiB, readable, at the same offset as its frame: the offset 0x200000 (R353, R354). -/
def oneTable : List (Nat × Nat) := [(0x1000, 0x2001), (0x2000, 0x3001), (0x3008, 0x200083)]

/-- A launch of one group of one warp on column 0, in the root region's context, whose code image is one packet (R325). -/
def oneLaunch : Node :=
  { kind := .launch, parent := 0
    launch := { task := { code := 0x200000, codelen := 1 }, map := [0], groups := [(0, { place := .resident 0 })] } }

/-- A warp whose 32 lanes stand at its first word (R35, R179). -/
def oneWarp : Warp := { live := true, a := some { lanes := 0xFFFFFFFF#32 } }

/-- The state with one instruction placed where the next step fetches (log 31, DESIGN CHOICE): column 0 holds a group of one warp whose code image is the
instruction's bytes with zeros after them, its quarter's run has begun, and it is that warp's turn. -/
def State.withFetchWord (s : State) (nbits w : Nat) : State :=
  let x := s.col 0
  let tables := oneTable.foldl (fun m e => Memory.writeBytes m e.1 (bytesOf 8 e.2)) x.mem
  let mem := Memory.writeBytes tables 0x200000 (bytesOf 12 (w % 2 ^ nbits))
  let x :=
    { x with
      mem := mem, undefined := [], badSectors := [], memOffline := false, coreOffline := false, l1tlb := [], l2tlb := [], ctxs := []
      groups := [(0, { live := true, launch := 1, warps := 1 })]
      warps := [(0, oneWarp)]
      quarters := [(0, { run := some { slot := 0, b := false } })] }
  { s.setCol 0 x with
    dist := { s.dist with nodes := Tab.put s.dist.nodes 1 oneLaunch, roots := Tab.put s.dist.roots 0 0x1001#64 }
    clocksStopped := false
    agenda := [.issue 0 (.warp 0 false)] }

end Sys2Proof.Machine
end

