-- ==== Sys2Proof/Safety.lean ====
section
/-! DEFINITION. What counts as a safe run, and the words in which the claims are stated: when an agent may execute a word and what it
then completes in, results that are pushed, what two states have in common, and the integers that the rules compute in. -/

namespace Sys2Proof.Machine

/-! ## Steps and completion -/

/-- A safe step answers a next state: it meets no fault and no refusal. -/
def State.stepsOn (s : State) : Prop := ∃ t, step s = .next t

/-- No check of decoding stops a word for the issuing agent: not the prefix it carries, not its role, not the reserve of OP 0x79
(R46, R77). -/
def State.takes (s : State) (i : Instr) : Prop := s.decodeCause i.cls = none

/-- A word or a step answers a next state of which something holds. -/
def State.answers (s : State) (i : Instr) (p : State → Prop) : Prop := ∃ t, exec i s = .next t ∧ p t

/-- Where the issuing agent takes it, the word completes in a state. -/
def State.completes (s : State) (i : Instr) (t : State) : Prop := s.takes i → exec i s = .next t

/-! ## Results -/

/-- A per-lane result of one vector operand after a latency. -/
def State.lanes1 (s : State) (latency : Nat) (d a : BitVec 6) (f : Word → Word) : State :=
  s.putV latency d.toNat (vecOf fun l => f (lane (s.vr a) l))
/-- A per-lane result of two vector operands. -/
def State.lanes2 (s : State) (latency : Nat) (d a b : BitVec 6) (f : Word → Word → Word) : State :=
  s.putV latency d.toNat (vecOf fun l => f (lane (s.vr a) l) (lane (s.vr b) l))
/-- A per-lane result of two vector operands and the fourth operand (R42). -/
def State.lanes3 (s : State) (latency : Nat) (d a b : BitVec 6) (f : Word → Word → Word → Word) : State :=
  s.putV latency d.toNat (vecOf fun l => f (lane (s.vr a) l) (lane (s.vr b) l) (lane (s.fourth d) l))

/-! ## What two states have in common -/

/-- Every agent's vector, mask and scalar registers hold the same values in two states (the banked ones stand in the paths). -/
def State.sameRegisters (s t : State) : Prop :=
  ∀ c who, (t.threadOf c who).v = (s.threadOf c who).v ∧ (t.threadOf c who).k = (s.threadOf c who).k ∧
    (t.threadOf c who).s = (s.threadOf c who).s

/-- Every byte of column memory and of local store is the same in two states. -/
def State.sameMemory (s t : State) : Prop :=
  ∀ c, (∀ free a, (t.col c).byteAt free a = (s.col c).byteAt free a) ∧
    ∀ e a, Memory.read ((t.col c).group e).store a = Memory.read ((s.col c).group e).store a

/-! ## Frames -/

/-- The register that a write names. -/
def Write.opnd : Write → Opnd
  | .v r _ _ => .v r
  | .k r _ _ => .k r
  | .s _ r _ => .s r
  | .c _ i _ => .c i

end Sys2Proof.Machine

namespace Sys2Proof

open Sys2Proof.Machine

/-- A word that only computes: of the V or X pipe, or a scalar word of the S pipe that writes registers and neither transfers control nor
writes the ejection control or an agent's state. -/
def Instr.computes (i : Instr) : Bool :=
  decide (i.pipe = .v) || decide (i.pipe = .x) ||
    (decide (i.pipe = .s) && !i.writes.isEmpty && !i.transfers && decide (i.cls = .plain) && match i with | .ejctl .. => false | _ => true)

/-- The words that abort the transaction of their path TX_UNSUPPORTED (R160); that the crib words and MRD count as engine commands is log 141. -/
def Instr.unsupportedInTx : Instr → Bool
  | .atomAdd .. | .atomMin .. | .atomMax .. | .atomAnd .. | .atomOr .. | .atomXor .. | .atomXchg .. | .atomCas .. | .atomMinu .. | .atomMaxu .. => true
  | .atomInc .. | .atomDec .. | .atomFadd .. | .atomFmin .. | .atomFmax .. | .atomAdd64 .. => true
  | .redAdd .. | .redMin .. | .redMax .. | .redFadd .. | .redBayAdd .. | .redBayMin .. | .redBayMax .. | .redBayFadd .. => true
  | .ldAcqW .. | .ldAcqD .. | .stRelW .. | .stRelD .. | .fence | .cclean .. | .cinv .. | .sld .. | .sst .. => true
  | .copy .. | .gath .. | .scat .. | .copyRst .. | .mldw .. | .mswap .. | .mzero .. | .mloop .. | .mstr .. | .mrd .. => true
  | .cres .. | .crel .. | .cstat .. | .xchXor .. | .xchRot .. | .xchBc .. | .xchGath .. | .xred .. | .xbar => true
  | .bnew .. | .bfree .. | .bexp .. | .barr .. | .bwait .. | .bwaitg .. | .btest .. => true
  | .hwait .. | .htest .. | .hcancel .. | .hget .. | .hput .. | .tokwait | .tokpass => true
  | _ => false

end Sys2Proof

namespace Sys2Proof.Machine

/-- The frame of a computing word: no register has changed and no byte of memory, no path has moved, no agent has anything new pending but
the issuing one, and what it has is writes of the registers that the word names, due later. -/
def State.onlyWrites (s t : State) (named : List Opnd) : Prop :=
  s.sameRegisters t ∧ s.sameMemory t ∧ (∀ c who, t.pathOf c who = s.pathOf c who) ∧
    (∀ c who, (who.base ≠ s.cur.who.base ∨ (c ≠ s.cur.col ∧ ∀ n, s.cur.who ≠ .factor n)) → t.threadOf c who = s.threadOf c who) ∧
    (∃ new, t.thread.pend = s.thread.pend ++ new ∧ ∀ p ∈ new, p.write.opnd ∈ named ∧ s.clk < p.due) ∧
    t.thread.vpend = s.thread.vpend ∧ t.clk = s.clk ∧ t.time = s.time ∧ t.host = s.host ∧ t.dist = s.dist ∧ t.cur = s.cur

/-! ## Memory words -/

/-- Every lane of a memory word passes its checks outside a transaction, with the state that translation leaves, the lanes' physical
addresses and whether one is on a shared page; and no deferred word addresses one of their lines (R142, R342). -/
def State.passes (s : State) (n : Need) (addrs : List (Nat × Dword)) (u : State) (pas : List (Nat × Nat)) (shg : Bool) : Prop :=
  (∀ f, s.cur.who ≠ .factor f) ∧ s.ownTx = none ∧
    ∃ r, s.checkLanes n addrs = (r, u) ∧ worst r = none ∧ passed r = pas ∧ anyShg r = shg ∧ u.lineDeferred pas = false

/-- A memory word begun that returns nothing, with its lanes' physical addresses and the pointers that they formed; a scalar word makes one
access. -/
def State.beginsOp (s : State) (kind : MemKind) (accs : List Acc) (ptrs : List (Nat × Dword)) (scalar : Bool := false) : State :=
  let o := s.newOp kind accs ptrs
  o.2.startOp o.2.cur.col { o.1 with scalar := scalar }

/-- The same of one that is performed past the L1. -/
def State.beginsAtBay (s : State) (kind : MemKind) (accs : List Acc) (ptrs : List (Nat × Dword)) : State :=
  let o := s.newOp kind accs ptrs
  o.2.startOp o.2.cur.col { o.1 with bypass := true }

/-- A store begun. -/
def State.beginsStore (s : State) (accs : List Acc) (ptrs : List (Nat × Dword)) (scalar : Bool := false) : State :=
  s.beginsOp .store accs ptrs scalar

/-- A load begun: its registers pending until it is performed, and held back what an acquire holds back. -/
def State.beginsLoad (s : State) (kind : MemKind) (size : Nat) (regs : List Reg) (dest : List Nat) (lanes : Lanes)
    (pas : List (Nat × Nat)) (acq : Option Nat) (ptrs : List (Nat × Dword)) (scalar : Bool := false) : State :=
  let v := s.pendVl regs none true
  let o := v.2.newOp kind (pas.map fun p => ⟨p.1, p.2, size, 0, 0⟩) ptrs
  let t := acq.elim o.2 fun sc => o.2.addHold (.acquire o.1.id sc)
  t.startOp t.cur.col { o.1 with dest := dest, lanes := lanes, vid := v.1, acquire := acq, scalar := scalar }

/-- An atomic begun: its register, or pair of registers, pending, and every lane's operands in hand. -/
def State.beginsAtom (s : State) (op size d : Nat) (pas : List (Nat × Nat)) (ptrs : List (Nat × Dword)) : State :=
  let dest := if size = 8 then [d, d + 1] else [d]
  let v := s.pendVl (dest.map fun r => .v r s.writeLanes) none
  let x (l : Nat) : Nat := (lane (s.readV d) l).toNat + if size = 8 then 4294967296 * (lane (s.readV (d + 1)) l).toNat else 0
  let o := v.2.newOp (.atom op) (pas.map fun p => ⟨p.1, p.2, size, x p.1, (lane (s.readV (d + 1)) p.1).toNat⟩) ptrs
  o.2.startOp o.2.cur.col { o.1 with dest := dest, lanes := s.writeLanes, vid := v.1, bypass := true }

/-- A variable-latency scalar whose value is known at issue. -/
def State.willWriteS (s : State) (d : BitVec 6) (x : Dword) : State := s.vlResult [.s s.path.uid d.toNat] [.s s.path.uid d.toNat x]

/-! ## Requests served -/

/-- A request of a memory word that its slice is about to serve: its line, of a kind of address, stands there, its data has crossed the strand,
and no engine command owns the line (R30, R242, R319). -/
def Column.servable (x : Column) (clk : Nat) (r : Req) (m : MemOp) (kind : PaKind) : Prop :=
  (x.bay.reqs.find? fun q => decide (q.id = r.id)) = some r ∧ r.atL1 = false ∧ r.stands = true ∧ r.till ≠ 0 ∧ r.till ≤ clk ∧ r.eng = none ∧
    r.put = none ∧ x.claimed r.region r.line = false ∧ x.bay.kindOf r.region (128 * r.line) = kind ∧ x.mopOf r = some m

/-- A request whose sectors have come to its L1, where its word may go on. -/
def Column.arrived (x : Column) (clk : Nat) (r : Req) (m : MemOp) : Prop :=
  (x.bay.reqs.find? fun q => decide (q.id = r.id)) = some r ∧ r.atL1 = true ∧ r.missed = true ∧ r.due ≤ clk ∧ x.mopOf r = some m ∧
    x.l1Waits m r.line true = false ∧ x.l1Lacks m r.line true = 0#4

/-- No L1 holds a line or has bytes of it on their way to the bay. -/
def Column.uncached (x : Column) (line : Nat) : Prop := ∀ c, c < 9 → x.l1Find c line = none ∧ x.puts c line = []

/-- Every access of a word, one at least, is of a line, aligned to its size, and meets no uncorrectable mark. -/
def Column.plainAccs (x : Column) (m : MemOp) (line size : Nat) : Prop :=
  m.accs ≠ [] ∧ ∀ a ∈ m.accs, a.pa / 128 = line ∧ a.size = size ∧ a.pa % size = 0 ∧ x.isBad a = false

/-- Stores merged into a held line: the highest lane's byte stands where they meet, dirty, and every other byte is as before (R50, R145). -/
def CacheLine.storedBy (l t : CacheLine) (accs : List Acc) : Prop :=
  let covers (a : Acc) (o : Nat) : Prop := a.pa % 128 ≤ o ∧ o < a.pa % 128 + a.size
  (∀ o, o < 128 → (∀ a ∈ accs, ¬ covers a o) → t.bytes o 1 = l.bytes o 1 ∧ t.dirty.getLsbD o = l.dirty.getLsbD o) ∧
    ∀ o before a after, o < 128 → accs = before ++ a :: after → covers a o → (∀ e ∈ after, ¬ covers e o) →
      t.bytes o 1 = [BitVec.ofNat 8 (a.x / 2 ^ (8 * (o - a.pa % 128)))] ∧ t.dirty.getLsbD o = true

/-! ## Barriers -/

/-- The test of an open barrier entry (R168): overshot, matched, or neither. -/
def Barrier.tested (b : Barrier) : Barrier :=
  if b.atgt < b.arr ∨ (b.p = true ∧ b.btgt < b.bytes) ∨ 68719476736 ≤ b.bytes ∨ 68719476736 ≤ b.btgt then { b with st := .broken }
  else if b.arr = b.atgt ∧ b.p = true ∧ b.bytes = b.btgt then { b with g := b.g + 1#24, arr := 0, btgt := 0, bytes := 0, p := !b.xb }
  else b

/-- The entry that a handle names. -/
def State.barAt (s : State) (h : Dword) : Barrier := s.here.barrier (h.toNat % 256)

/-- A handle names an open entry of the issuing agent's group in one of its current phases (R166). -/
def State.openBar (s : State) (h : Dword) : Prop :=
  h.toNat / 8589934592 % 2147483648 = 0 ∧ (s.barAt h).st = .opened ∧ (s.barAt h).entry = s.entry ∧
    ((s.barAt h).g - BitVec.ofNat 24 (h.toNat / 256)).toNat < 4194304

/-- Every barrier entry of the issuing agent's column but one is the same in two states. -/
def State.sameBarriersBut (s t : State) (i : Nat) : Prop := ∀ j, j ≠ i → t.here.barrier j = s.here.barrier j

/-! ## Commands of the engines and of the thresher -/

/-- The command that an issue puts at the end of a queue (R237, R270). -/
def State.issued (r : State) (k : Command) (queue : Nat) (h : BitVec 4) : Command :=
  { k with id := r.nextId, col := r.cur.col, slot := r.slot, entry := r.entry, gid := r.group.gid, handle := h.toNat, launch := r.launchId,
           ctx := r.ctxNum, queue := queue }

/-- A command has joined the column's queues, its handle is PENDING, and nothing that a program reads has changed (R241, R272). -/
def State.queues (r t : State) (h : BitVec 4) (k : Command) : Prop :=
  t.here.cmds = r.here.cmds ++ [k] ∧ Tab.get {} t.warp.h h.toNat = { st := .pending, unit := k.kind.unit, cmd := k.id, record := k.offset } ∧
    r.sameMemory t ∧ r.sameRegisters t

/-- Every PENDING future of a warp of the column that names a command has become what a function makes of it (R174). -/
def State.futuresBecome (s t : State) (c id : Nat) (f : Handle → Handle) : Prop :=
  ∀ n i, let h := Tab.get ({} : Handle) ((s.col c).warp n).h i
    h.st = .pending → h.cmd = id → Tab.get ({} : Handle) ((t.col c).warp n).h i = f h

/-- A command has left its queue and its futures are DONE (R176, R241). -/
def State.commandDone (s t : State) (c id : Nat) : Prop :=
  (t.col c).cmd id = none ∧ s.futuresBecome t c id fun h => { h with st := .done }

/-- A command is FAULTED with a code, and its futures say so, with the record's offset (R176, R233). -/
def State.commandFaulted (s t : State) (c : Nat) (k : Command) (code : Nat) : Prop :=
  ((t.col c).cmd k.id).map (·.st) = some .faulted ∧ s.futuresBecome t c k.id fun h => { h with st := .faulted, code := code, record := k.offset }

/-- The first active lane, with the contents of a scalar register as DETAIL (R229, R275). -/
def State.oneLane (s : State) (a : BitVec 6) : TrapInfo := { lanes := 1#32 <<< lowLane s.active, detail := s.sr a }

/-- A warp, or one of its ejected lanes, issues. -/
def State.byWarp (s : State) : Prop := (∃ n b, s.cur.who = .warp n b) ∨ ∃ i, s.cur.who = .lane i

/-- No register of the issuing agent waits for a variable-latency result, nor, for an ejected lane, one of its owner's (R192). -/
def State.settledRegs (s : State) : Prop := s.thread.vpend = [] ∧ s.warp.th.vpend = []

/-! ## Exchanges -/

/-- The warp's exchange has begun: its message, the messages that it waits for and that it has sent, and its place in the sequence
(R297, R301). -/
def State.exchanges (s t : State) (kind : Nat) (dests sources : List Nat) (data : Vec) : Prop :=
  (∃ e, t.warp.xch = some e ∧ e.kind = kind ∧ e.sources = sources ∧ e.unacked = dests.length ∧ e.data = data ∧ e.lanes = s.active ∧
    e.parity = s.warp.xcount % 2) ∧
  t.warp.xcount = s.warp.xcount + 1

/-! ## Transactions and the deferred queue -/

/-- What a lane's outcome does to a transaction, in R163's order of causes (log 42): 16 for CROSS, 25 for a window, and twice the cause's code for
another fault. -/
def Checked.txRank : Checked → Option Nat
  | .ok pa _ => if pa / 4294967296 = 1 ∨ pa / 4294967296 = 3 then some 25 else none
  | .bad c pa => some (if c ≠ .cross ∧ (pa / 4294967296 = 1 ∨ pa / 4294967296 = 3) then 25 else 2 * c.code)

/-- The first lane whose outcome comes first in that order. -/
def txFirst (r : List (Nat × Dword × Checked)) (k : Nat) (e : Nat × Dword × Checked) : Prop :=
  r.find? (fun e => decide (e.2.2.txRank = some k)) = some e ∧ ∀ q ∈ r, ∀ j, q.2.2.txRank = some j → k ≤ j

/-- A transaction aborted by the address of such a lane (R160): TX_CROSS and TX_FAULT with the address, TX_TIER without. -/
def State.abortsAt (s : State) (k : Nat) (e : Nat × Dword × Checked) : State :=
  if k = 16 then s.abortTx .cross 0 e.2.1 else if k = 25 then s.abortTx .tier 0 0#64 else s.abortTx .fault 0 e.2.1

/-- A word entered at the end of its warp's deferred queue (R342). -/
def State.enters (s : State) (m : MemOp) : State := s.updWarp fun w => { w with deferred := w.deferred ++ [{ op := m }] }

/-- A word that enters an empty deferred queue while its warp holds the token: it is begun, and leaves the queue if it is performed at once
(R342). -/
def State.entersAndBegins (s : State) (m : MemOp) : State :=
  let v := (s.updWarp fun w => { w with deferred := [{ op := m, begun := true }] }).startOp s.cur.col m
  if v.here.mops.any fun q => decide (q.id = m.id) then v
  else v.updCol s.cur.col fun x => x.setWarp s.slot { x.warp s.slot with deferred := [] }

/-! ## Divisions -/

/-- The path that a division made of a path for one of its candidates: it starts at the candidate with copies of the banks (R122). -/
def Cand.became (c : Cand) (p q : Path) : Prop := q.lanes = c.lanes ∧ q.pkt = c.pkt ∧ q.wpos = c.wpos ∧ q.bank = p.bank ∧ q.c = p.c

/-- The path of a warp's other PC slot. -/
def State.otherSlot (s : State) (b : Bool) : Option Path := if b then s.warp.a else s.warp.b

/-- A warp's path may divide without ejecting, at once: no transaction, no pending write of its banks, and the frames that R120 asks for. -/
def State.divisible (s : State) (n : Nat) (b : Bool) (join : BitVec 32) (cands : List Cand) : Prop :=
  s.cur.who = .warp n b ∧ s.ownTx = none ∧ s.warp.ejt = 0#4 ∧ s.bankWait false = none ∧ (∀ c ∈ cands, c.wpos < 3) ∧
    (if s.path.token.map (·.join) = some join then 0 else 1) + (cands.length - 1 - if s.otherSlot b = none then 1 else 0) ≤
      s.stack.freeFrames.length

/-- Where the candidates of a division stand (R120): the first in slot A, the other slot's path or else the second in slot B, and the
next one on top of the suspended paths. -/
def State.divided (s u : State) (n : Nat) (b : Bool) (first : Cand) (rest : List Cand) : Prop :=
  let w := u.here.warp n
  (∃ q, w.a = some q ∧ first.became s.path q) ∧
  (∀ r, s.otherSlot b = some r → w.b = some r) ∧
  (s.otherSlot b = none → ∀ c cs, rest = c :: cs → ∃ q, w.b = some q ∧ c.became s.path q) ∧
  (s.otherSlot b = none → rest = [] → w.b = none) ∧
  (∀ c cs, (if s.otherSlot b = none then rest.drop 1 else rest) = c :: cs → ∃ q k, w.stack.pop = some (q, k) ∧ c.became s.path q)

/-! ## Divisions that eject (R119 to R121, R194, R195) -/

/-- The division that a SPLIT or a BRT asks for: the state in which it is made (a BRT has fetched its table), the join packet, and the
candidates in order (R120, R122, R123). -/
def State.divisionBy (s u : State) (i : Instr) (join : BitVec 32) (cands : List Cand) : Prop :=
  (∃ k t j, i = .split k t j ∧ u = s ∧ (s.splitOffsets t j).2 ≠ 0#32 ∧ join = s.cur.pkt + (s.splitOffsets t j).2 ∧
    cands = orderCands (s.splitCands (s.cur.pkt + (s.splitOffsets t j).1) (s.kr k))) ∨
  ∃ a n ws, i = .brt a n ∧ s.tableWords ((n.toNat + 3) / 3) (s.cur.pkt + 1#32) = (.ok ws, u) ∧ n ≠ 0#8 ∧
    let t := ws.take (n.toNat + 1)
    t.headD 0#32 ≠ 0#32 ∧ (∀ x ∈ t, x.toNat < 1048576) ∧ join = s.cur.pkt + t.headD 0#32 ∧
    cands = orderCands (brtCands s.cur.pkt (t.tail.map fun x => BitVec.ofInt 32 (x.extractLsb' 0 20).toInt)
      (s.cur.pkt + BitVec.ofNat 32 (1 + (n.toNat + 3) / 3)) u.active (u.vr a))

/-- The free contexts of the gleaner pool, and those of one gleaner. -/
def Column.freeContexts (x : Column) : List Nat := (List.range 32).filter fun i => !(x.ctx i).live
def Column.freeOf (x : Column) (g : Nat) : Nat := (x.freeContexts.filter fun i => decide (i / 4 = g)).length

/-- The lanes of some candidates, counted. -/
def lanesOfCands (l : List Cand) : Nat := (l.map fun c => laneCount c.lanes).sum

/-- The context that a division gives to a lane of an ejected candidate (R195): the lane's registers, the candidate's place, the token, and the
banks of the dividing path. -/
def State.handedOver (s : State) (n : Nat) (t : Token) (c : Cand) (l : Nat) (x : LaneCtx) : Prop :=
  x.live = true ∧ x.slot = n ∧ x.lane = l ∧ x.home = t ∧ x.starting = true ∧
    Cand.became { c with lanes := 1#32 <<< l } s.path x.path ∧ x.path.token = some t ∧
    ∀ r, lane (Tab.get 0#1024 x.th.v r) l = lane (Tab.get 0#1024 s.warp.th.v r) l ∧
      (Tab.get 0#32 x.th.k r).getLsbD l = (Tab.get 0#32 s.warp.th.k r).getLsbD l

/-! ## Numbers of the rules -/

/-- A value clamped to the signed 32-bit numbers: SAT_I32 (R95). -/
def clamp32 (x : Int) : Word := BitVec.ofInt 32 (max (-2147483648) (min 2147483647 x))

/-- cc_true (R13): EQ, NE, LT, GE, LE, GT. -/
def ccTrue (cc : BitVec 3) (a b : Int) : Bool :=
  match cc.toNat with
  | 0 => decide (a = b)
  | 1 => decide (a ≠ b)
  | 2 => decide (a < b)
  | 3 => decide (b ≤ a)
  | 4 => decide (a ≤ b)
  | 5 => decide (b < a)
  | _ => false

/-- The exact value of a finite number (R8). -/
def FVal.exact : FVal → Rat
  | .fin n m e => (if n then -1 else 1) * (m * 2 ^ e)
  | _ => 0

/-- RND_fmt(x, rm) of an exact value that is not zero (R103): where the magnitude of x lies from 2^t below 2^(t + 1), the multiple k of the
distance q between the format's values there, subnormal positions included, that the mode takes; and above the largest finite value what the
mode makes of an overflow. The sign is that of x. -/
def FpFmt.rounds (f : FpFmt) (rm : Rm) (x : Rat) (y : FVal) : Prop :=
  ∀ t : Int, 2 ^ t ≤ x.abs → x.abs < 2 ^ (t + 1) →
    let q : Rat := 2 ^ (max t (1 - (f.bias : Int)) - f.fb)
    let neg := decide (x < 0)
    ∃ k : Int,
      (match rm with
        | .rdn => k * q ≤ x ∧ x < (k + 1) * q
        | .rup => (k - 1) * q < x ∧ x ≤ k * q
        | .rtz => 0 ≤ k * x ∧ (k * q).abs ≤ x.abs ∧ x.abs < (k * q).abs + q
        | .rne => 2 * (x - k * q).abs ≤ q ∧ (2 * (x - k * q).abs = q → k % 2 = 0)
        | .rna => 2 * (x - k * q).abs ≤ q ∧ (2 * (x - k * q).abs = q → x.abs < (k * q).abs)) ∧
      if (FVal.fin false f.maxFin.1 f.maxFin.2).exact < (k * q).abs then
        y = match rm with
          | .rne => .inf neg
          | .rna => .inf neg
          | .rtz => .fin neg f.maxFin.1 f.maxFin.2
          | .rdn => if neg then .inf true else .fin false f.maxFin.1 f.maxFin.2
          | .rup => if neg then .fin true f.maxFin.1 f.maxFin.2 else .inf false
      else ∃ m e, y = .fin neg m e ∧ y.exact = k * q

/-- The FP32 value nearest to the square root of a positive number: no other lies nearer, since the root of one lies halfway between no two
(R109). -/
def nearestRoot (x : Rat) (y : FVal) : Prop :=
  ∀ t : Int, 2 ^ (2 * t) ≤ x → x < 2 ^ (2 * t + 2) →
    let q : Rat := 2 ^ (t - 23)
    ∃ k : Nat, (∃ m e, y = .fin false m e) ∧ y.exact = k * q ∧ ((2 * k - 1) * q) ^ 2 < 4 * x ∧ 4 * x < ((2 * k + 1) * q) ^ 2

/-- FOLD.FADD's tree over the lanes of a set (R136): at level 0 a lane's value, at each later one the RNE sum of two neighbours of the level
before, or the one of them that is there. -/
def sumTree (p : Lanes) (x : Vec) : Nat → Nat → Option Word
  | 0, i => if p.getLsbD i then some (lane x i) else none
  | n + 1, i =>
    match sumTree p x n (2 * i), sumTree p x n (2 * i + 1) with
    | some a, some b => some (r32 .rne ((f32 a).add .rne (f32 b)))
    | some a, none => some a
    | none, b => b

/-- The 64-bit number in an even-odd pair of a lane (R47). -/
def State.pairAt (s : State) (r : BitVec 5) (l : Nat) : Nat :=
  (lane (s.readV (2 * r.toNat)) l).toNat + 4294967296 * (lane (s.readV (2 * r.toNat + 1)) l).toNat

/-! ## Tensors -/

/-- A block of 32 requantized (R219): with a NaN or an infinity among its values the scale byte is 0xFF and its codes are zero; else the scale puts
the largest magnitude at the top of the format, and each value is encoded under it. `own` are the positions whose codes are written (R214). -/
def requantizes (fmt : Nat) (own : Nat → Prop) (new : Nat → FVal) (s : Nat) (code : Nat → Nat) : Prop :=
  let encoded (v : FVal) : Nat :=
    if fmt = 0 then e4m3.encode (e4m3.sat (e4m3.round .rne v)) else if fmt = 1 then e5m2.encode (e5m2.sat (e5m2.round .rne v))
    else if fmt = 2 then e2m1.encode (e2m1.sat (e2m1.round .rne v)) else ts8Pack .rne v
  ((∃ k, k < 32 ∧ (new k).special = true) → s = 255 ∧ ∀ k, k < 32 → own k → code k = if fmt = 3 then 0x77 else 0) ∧
  ((∀ k, k < 32 → (new k).special = false) → (∀ k, k < 32 → own k → code k = encoded ((new k).scale (127 - (s : Int)))) ∧
    ((∀ k, k < 32 → (new k).exact = 0) → s = 0) ∧
    ∀ e : Int, (∃ k, k < 32 ∧ 2 ^ e ≤ (new k).exact.abs) → (∀ k, k < 32 → (new k).exact.abs < 2 ^ (e + 1)) →
      (s : Int) = max 0 (min 254 (e + 127 - if fmt = 0 then 8 else if fmt = 1 then 15 else if fmt = 2 then 2 else 0)))

/-- The value of a block's code under its scale byte (R212). -/
def blockValue (fmt s code : Nat) : FVal :=
  let decoded := if fmt = 0 then e4m3.decode code else if fmt = 1 then e5m2.decode code else if fmt = 2 then e2m1.decode code else ts8Decode code
  if s = 255 then .nan else decoded.scale ((s : Int) - 127)

/-- The code in the byte of an element: a nibble in MXFP4 (R210). -/
def codeIn (fmt e byte : Nat) : Nat := if fmt = 2 then byte / 16 ^ (e % 2) % 16 else byte

/-- The place of a vector among those below some bounds, the first component fastest. -/
def placeIn : List Nat → List Nat → Nat
  | n :: ns, i :: is => i + n * placeIn ns is
  | _, _ => 0

/-- A vector lies below some bounds. -/
def below (bs o : List Nat) : Prop := o.length = bs.length ∧ ∀ d, d < bs.length → o.getD d 0 < bs.getD d 0

/-- A coordinate is in bounds (R32, R227). -/
def TD.inBounds (t : TD) (n : Nat) (c : List Int) (d : Nat) : Prop :=
  0 ≤ c.getD d 0 ∧ c.getD d 0 < (if t.dist = 1 ∧ d + 1 = t.rank then min (t.sizeOf d) (t.block * n) else t.sizeOf d : Nat)

/-- The in-bounds coordinate nearest to one. -/
def TD.nearest (t : TD) (n : Nat) (c : List Int) (d : Nat) : Nat :=
  if c.getD d 0 < 0 then 0
  else min (c.getD d 0).toNat ((if t.dist = 1 ∧ d + 1 = t.rank then min (t.sizeOf d) (t.block * n) else t.sizeOf d) - 1)

/-- What a source reads at some coordinates: no one is out of bounds under ERROR; with one under FILL it is the fill element, and else the element
at the nearest coordinates (R227). -/
def TD.reads (t : TD) (own n : Nat) (c : List Int) (x : Option Loc) : Prop :=
  (∀ d, d < t.rank → ¬ t.inBounds n c d → t.mode d ≠ 0) ∧
    ((∃ d, d < t.rank ∧ ¬ t.inBounds n c d ∧ t.mode d = 2) → x = none) ∧
    ((∀ d, d < t.rank → ¬ t.inBounds n c d → t.mode d ≠ 2) → x = some (t.locate own n ((List.range t.rank).map (t.nearest n c))))

/-- What a destination writes at some coordinates: the element there, or none with one out of bounds, which is not under ERROR (R227). -/
def TD.takes (t : TD) (own n : Nat) (c : List Int) (x : Option Loc) : Prop :=
  (∀ d, d < t.rank → ¬ t.inBounds n c d → t.mode d ≠ 0) ∧
    ((∃ d, d < t.rank ∧ ¬ t.inBounds n c d) → x = none) ∧
    ((∀ d, d < t.rank → t.inBounds n c d) → x = some (t.locate own n ((List.range t.rank).map fun d => (c.getD d 0).toNat)))

/-- The steps of the loops that move a coordinate, added up (R231, R232). -/
def Rec.moved (r : Rec) (it : List Nat) (f : Loop → Bool) : Int := ((r.loops.zip it).map fun e => if f e.1 then (e.2 : Int) * e.1.step else 0).sum

/-- Every byte that an engine's write names lies in the HBM share. -/
def BayWrite.inHbm : BayWrite → Prop
  | .bytes pa b => pa + b.length ≤ 4294967296
  | .nibble pa _ _ => pa < 4294967296
  | .block _ elems scale _ _ => elems + 32 ≤ 4294967296 ∧ scale < 4294967296

end Sys2Proof.Machine
end

