-- ==== Sys2Proof/Certificates/Slice0/Obligations.lean ====
section
/-! DEFINITION. The statements for the provers, from the numbered rules of the spec. -/

open Sys2Proof Sys2Proof.Machine

/-! ## Scalar words -/

/-- R48, R93: every scalar word that may write its destination completes with the value that the rule gives, after the latency of the S
pipe; SREAD writes the special register that R48 numbers, and SWRITE %ejt puts the new threshold in force; and SCSEL inside a divergent
region traps whatever its condition holds. That the new threshold stands at once, before the latency of R88 has passed, is the model's
choice (log 116). -/
def Obligations.ScalarWordsCompute : Prop :=
  (∀ (s : State) (d a b : BitVec 6) (g k m n : BitVec 3) (i : BitVec 14) (j : BitVec 8), s.mayWriteS d.toNat = true →
    s.completes (.sli d i) (s.putS 2 d.toNat (BitVec.ofInt 64 i.toInt)) ∧
    s.completes (.slis d i) (s.putS 2 d.toNat (BitVec.ofNat 64 ((s.sr d).toNat * 16384 + i.toNat))) ∧
    s.completes (.sadd d a b) (s.putS 2 d.toNat (BitVec.ofNat 64 ((s.sr a).toNat + (s.sr b).toNat))) ∧
    s.completes (.ssub d a b) (s.putS 2 d.toNat (BitVec.ofInt 64 ((s.sr a).toInt - (s.sr b).toInt))) ∧
    s.completes (.smul d a b) (s.putS 2 d.toNat (BitVec.ofNat 64 ((s.sr a).toNat * (s.sr b).toNat))) ∧
    s.completes (.smulh d a b) (s.putS 2 d.toNat (BitVec.ofInt 64 ((s.sr a).toInt * (s.sr b).toInt / 18446744073709551616))) ∧
    s.completes (.sand d a b) (s.putS 2 d.toNat (s.sr a &&& s.sr b)) ∧
    s.completes (.sor d a b) (s.putS 2 d.toNat (s.sr a ||| s.sr b)) ∧
    s.completes (.sxor d a b) (s.putS 2 d.toNat (s.sr a ^^^ s.sr b)) ∧
    s.completes (.sandn d a b) (s.putS 2 d.toNat (s.sr a &&& ~~~s.sr b)) ∧
    s.completes (.sshl d a b) (s.putS 2 d.toNat (if 64 ≤ (s.sr b).toNat then 0#64 else s.sr a <<< (s.sr b).toNat)) ∧
    s.completes (.sshr d a b) (s.putS 2 d.toNat (if 64 ≤ (s.sr b).toNat then 0#64 else s.sr a >>> (s.sr b).toNat)) ∧
    s.completes (.ssar d a b) (s.putS 2 d.toNat (BitVec.ofInt 64 ((s.sr a).toInt / 2 ^ min (s.sr b).toNat 63))) ∧
    s.completes (.srol d a b) (s.putS 2 d.toNat ((s.sr a).rotateLeft ((s.sr b).toNat % 64))) ∧
    s.completes (.smin d a b) (s.putS 2 d.toNat (if (s.sr a).toInt < (s.sr b).toInt then s.sr a else s.sr b)) ∧
    s.completes (.smax d a b) (s.putS 2 d.toNat (if (s.sr a).toInt < (s.sr b).toInt then s.sr b else s.sr a)) ∧
    s.completes (.sminu d a b) (s.putS 2 d.toNat (if (s.sr a).toNat < (s.sr b).toNat then s.sr a else s.sr b)) ∧
    s.completes (.smaxu d a b) (s.putS 2 d.toNat (if (s.sr a).toNat < (s.sr b).toNat then s.sr b else s.sr a)) ∧
    s.completes (.saddi d a j) (s.putS 2 d.toNat (BitVec.ofInt 64 ((s.sr a).toInt + j.toInt))) ∧
    s.completes (.smov d a) (s.putS 2 d.toNat (s.sr a)) ∧
    s.completes (.scsel d a n) (if s.readC n.toNat then s.putS 2 d.toNat (s.sr a) else s) ∧
    s.completes (.spopc d a) (s.putS 2 d.toNat (BitVec.ofNat 64 ((List.range 64).countP fun i => (s.sr a).getLsbD i))) ∧
    s.completes (.sclz d a) (s.putS 2 d.toNat (BitVec.ofNat 64 (if (s.sr a).toNat = 0 then 64 else 63 - (s.sr a).toNat.log2))) ∧
    s.completes (.scmp g k a b) (s.putC 2 k.toNat (ccTrue g (s.sr a).toInt (s.sr b).toInt)) ∧
    s.completes (.scmpU g k a b) (s.putC 2 k.toNat (ccTrue g (s.sr a).toNat (s.sr b).toNat)) ∧
    s.completes (.scmpi g k a j) (s.putC 2 k.toNat (ccTrue g (s.sr a).toInt j.toInt)) ∧
    s.completes (.cand k m n) (s.putC 2 k.toNat (s.readC m.toNat && s.readC n.toNat)) ∧
    s.completes (.cor k m n) (s.putC 2 k.toNat (s.readC m.toNat || s.readC n.toNat)) ∧
    s.completes (.cxor k m n) (s.putC 2 k.toNat (s.readC m.toNat ^^ s.readC n.toNat)) ∧
    s.completes (.candn k m n) (s.putC 2 k.toNat (s.readC m.toNat && !s.readC n.toNat)) ∧
    (∀ e ∈ ([(0#6, (lanesIn s.active).headD 32), (1#6, s.warp.index), (2#6, s.group.gid), (3#6, s.slot / 16), (4#6, s.cur.col),
        (6#6, s.launch.map.length), (8#6, (lanesIn s.active).length), (9#6, s.warp.ejt.toNat), (11#6, s.clk), (12#6, s.time)] :
          List (BitVec 6 × Nat)), s.completes (.sread d e.1) (s.putS 2 d.toNat (BitVec.ofNat 64 e.2))) ∧
    (s.cur.col ∈ s.launch.map → s.completes (.sread d 5#6) (s.putS 2 d.toNat (BitVec.ofNat 64 (s.launch.map.idxOf s.cur.col)))) ∧
    (∀ w t, s.cur.who = .warp w t → s.completes (.sread d 7#6) (s.putS 2 d.toNat (if t then 1#64 else 0#64))) ∧
    (∀ l, s.cur.who = .lane l → s.completes (.sread d 7#6) (s.putS 2 d.toNat 2#64)) ∧
    (∃ x, s.completes (.sread d 10#6) (s.putS 2 d.toNat x) ∧ ∀ tc, tc < 4 →
      let nif := if tc < 2 then s.here.nifCore else s.here.nifBay
      let r := s.regionOf s.launchId
      let quota := s.quotaOf s.launchId (if tc < 2 then tc else 4 + tc)
      (x.getLsbD (16 * tc + 15) = true ↔ (quota ≠ 0 ∧ quota ≤ nif.countOf s.clk r tc) ∨ 32 ≤ nif.backlogOf r tc) ∧
        (x.extractLsb' (16 * tc) 15).toNat = nif.backlogOf r tc % 32768) ∧
    ((s.sr a).toNat ≤ 8 → s.completes (.swrite a 9#6) (s.updWarp fun w => { w with ejt := (s.sr a).setWidth 4 }))) ∧
  ∀ (s : State) (d a : BitVec 6) (n : BitVec 3), d.toNat < 48 → s.path.token.isSome = true →
    s.completes (.scsel d a n) (s.trap .divergentScalar)

/-- R46, R48, R90: inside a divergent region a scalar word that names one of s0 to s47 as its destination traps DIVERGENT_SCALAR and does
nothing else, SCSEL with a clear condition included; and an SREAD of an unlisted number, an SWRITE to a register that is read-only or
unlisted, and an SWRITE to %ejt of a value above 8 trap ILLEGAL. That ILLEGAL comes first where both would apply is the model's reading of
R46 (log 38). -/
def Obligations.ScalarWordsTrap : Prop :=
  (∀ (s : State) (d a b : BitVec 6) (n : BitVec 3) (i : BitVec 14) (j : BitVec 8), d.toNat < 48 → s.path.token.isSome = true →
    s.completes (.sli d i) (s.trap .divergentScalar) ∧ s.completes (.slis d i) (s.trap .divergentScalar) ∧
    s.completes (.sadd d a b) (s.trap .divergentScalar) ∧ s.completes (.ssub d a b) (s.trap .divergentScalar) ∧
    s.completes (.smul d a b) (s.trap .divergentScalar) ∧ s.completes (.smulh d a b) (s.trap .divergentScalar) ∧
    s.completes (.sand d a b) (s.trap .divergentScalar) ∧ s.completes (.sor d a b) (s.trap .divergentScalar) ∧
    s.completes (.sxor d a b) (s.trap .divergentScalar) ∧ s.completes (.sandn d a b) (s.trap .divergentScalar) ∧
    s.completes (.sshl d a b) (s.trap .divergentScalar) ∧ s.completes (.sshr d a b) (s.trap .divergentScalar) ∧
    s.completes (.ssar d a b) (s.trap .divergentScalar) ∧ s.completes (.srol d a b) (s.trap .divergentScalar) ∧
    s.completes (.smin d a b) (s.trap .divergentScalar) ∧ s.completes (.smax d a b) (s.trap .divergentScalar) ∧
    s.completes (.sminu d a b) (s.trap .divergentScalar) ∧ s.completes (.smaxu d a b) (s.trap .divergentScalar) ∧
    s.completes (.saddi d a j) (s.trap .divergentScalar) ∧ s.completes (.smov d a) (s.trap .divergentScalar) ∧
    s.completes (.scsel d a n) (s.trap .divergentScalar) ∧ s.completes (.spopc d a) (s.trap .divergentScalar) ∧
    s.completes (.sclz d a) (s.trap .divergentScalar) ∧
    (b.toNat ≤ 12 → s.completes (.sread d b) (s.trap .divergentScalar))) ∧
  ∀ (s : State) (a b d : BitVec 6),
    (12 < b.toNat → s.completes (.sread d b) s.illegal) ∧
    (b ≠ 9#6 → s.completes (.swrite a b) s.illegal) ∧
    (8 < (s.sr a).toNat → s.completes (.swrite a 9#6) s.illegal)

/-! ## Vector integer words -/

/-- R95, R96: the vector arithmetic and logic words complete with the rule's value in every participating lane, saturating under SAT, and so do
the vector shifts and rotations, with the whole register or the five immediate bits as the amount. -/
def Obligations.VectorArithmeticAndShiftsCompute : Prop :=
  (∀ (s : State) (d a b : BitVec 6) (j : BitVec 8),
    s.completes (.iadd d a b) (s.lanes2 4 d a b fun x y =>
      if s.pfx.sat then clamp32 (x.toInt + y.toInt) else BitVec.ofInt 32 (x.toInt + y.toInt)) ∧
    s.completes (.isub d a b) (s.lanes2 4 d a b fun x y =>
      if s.pfx.sat then clamp32 (x.toInt - y.toInt) else BitVec.ofInt 32 (x.toInt - y.toInt)) ∧
    s.completes (.iaddi d a j) (s.lanes1 4 d a fun x =>
      if s.pfx.sat then clamp32 (x.toInt + j.toInt) else BitVec.ofInt 32 (x.toInt + j.toInt)) ∧
    s.completes (.imin d a b) (s.lanes2 4 d a b fun x y => if x.toInt < y.toInt then x else y) ∧
    s.completes (.imax d a b) (s.lanes2 4 d a b fun x y => if x.toInt < y.toInt then y else x) ∧
    s.completes (.iminu d a b) (s.lanes2 4 d a b fun x y => if x.toNat < y.toNat then x else y) ∧
    s.completes (.imaxu d a b) (s.lanes2 4 d a b fun x y => if x.toNat < y.toNat then y else x) ∧
    s.completes (.iabs d a) (s.lanes1 4 d a fun x => BitVec.ofInt 32 (max x.toInt (-x.toInt))) ∧
    s.completes (.ineg d a) (s.lanes1 4 d a fun x => BitVec.ofInt 32 (-x.toInt)) ∧
    s.completes (.imul d a b) (s.lanes2 4 d a b fun x y => BitVec.ofNat 32 (x.toNat * y.toNat)) ∧
    s.completes (.imulh d a b) (s.lanes2 4 d a b fun x y => BitVec.ofInt 32 (x.toInt * y.toInt / 4294967296)) ∧
    s.completes (.imulhu d a b) (s.lanes2 4 d a b fun x y => BitVec.ofNat 32 (x.toNat * y.toNat / 4294967296)) ∧
    s.completes (.imad d a b) (s.lanes3 4 d a b fun x y z => BitVec.ofNat 32 (x.toNat * y.toNat + z.toNat)) ∧
    s.completes (.and d a b) (s.lanes2 4 d a b fun x y => x &&& y) ∧
    s.completes (.or d a b) (s.lanes2 4 d a b fun x y => x ||| y) ∧
    s.completes (.xor d a b) (s.lanes2 4 d a b fun x y => x ^^^ y) ∧
    s.completes (.andn d a b) (s.lanes2 4 d a b fun x y => x &&& ~~~y) ∧
    s.completes (.andi d a j) (s.lanes1 4 d a fun x => x &&& BitVec.ofNat 32 j.toNat) ∧
    s.completes (.ori d a j) (s.lanes1 4 d a fun x => x ||| BitVec.ofNat 32 j.toNat) ∧
    s.completes (.xori d a j) (s.lanes1 4 d a fun x => x ^^^ BitVec.ofNat 32 j.toNat) ∧
    s.completes (.popc d a) (s.lanes1 4 d a fun x => BitVec.ofNat 32 ((List.range 32).countP fun i => x.getLsbD i)) ∧
    s.completes (.clz d a) (s.lanes1 4 d a fun x => BitVec.ofNat 32 (if x.toNat = 0 then 32 else 31 - x.toNat.log2)) ∧
    s.completes (.brev d a) (s.lanes1 4 d a fun x => x.reverse)) ∧
  (∀ (s : State) (d a b : BitVec 6) (n : BitVec 5),
    s.completes (.shl d a b) (s.lanes2 4 d a b fun x y => if 32 ≤ y.toNat then 0#32 else x <<< y.toNat) ∧
    s.completes (.shr d a b) (s.lanes2 4 d a b fun x y => if 32 ≤ y.toNat then 0#32 else x >>> y.toNat) ∧
    s.completes (.sar d a b) (s.lanes2 4 d a b fun x y => BitVec.ofInt 32 (x.toInt / 2 ^ min y.toNat 31)) ∧
    s.completes (.rol d a b) (s.lanes2 4 d a b fun x y => x.rotateLeft (y.toNat % 32)) ∧
    s.completes (.shli d a n) (s.lanes1 4 d a fun x => x <<< n.toNat) ∧
    s.completes (.shri d a n) (s.lanes1 4 d a fun x => x >>> n.toNat) ∧
    s.completes (.sari d a n) (s.lanes1 4 d a fun x => BitVec.ofInt 32 (x.toInt / 2 ^ n.toNat)) ∧
    s.completes (.roli d a n) (s.lanes1 4 d a fun x => x.rotateLeft n.toNat))

/-- R97, R98, R99, R100: field extraction and insertion, byte permutation and the dot product of bytes; the compares that write mask bits, the
moves, and the 64-bit words on even-odd pairs. -/
def Obligations.VectorFieldsComparesMovesAndPairsCompute : Prop :=
  (∀ (s : State) (d a b : BitVec 6),
    let pos (y : Word) : Nat := min (y.toNat % 256) 32
    let len (y : Word) : Nat := min (y.toNat / 256 % 256) 32
    s.completes (.bfeu d a b) (s.lanes2 4 d a b fun x y => BitVec.ofNat 32 (x.toNat / 2 ^ pos y % 2 ^ len y)) ∧
    s.completes (.bfe d a b) (s.lanes2 4 d a b fun x y => BitVec.ofInt 32 ((x.toInt / 2 ^ pos y).bmod (2 ^ len y))) ∧
    (∃ f, s.completes (.bfi d a b) (s.lanes3 4 d a b f) ∧
      ∀ x y z i, i < 32 → (f x y z).getLsbD i = if pos y ≤ i ∧ i < pos y + len y then x.getLsbD (i - pos y) else z.getLsbD i) ∧
    (∃ f, s.completes (.prmt d a b) (s.lanes3 4 d a b f) ∧
      ∀ x y z i, i < 4 →
        let n := z.extractLsb' (4 * i) 4
        let q := (y ++ x).extractLsb' (8 * (n.toNat % 8)) 8
        (f x y z).extractLsb' (8 * i) 8 = if n.msb then (if q.msb then 0xFF#8 else 0#8) else q) ∧
    s.completes (.idot4 d a b) (s.lanes3 4 d a b fun x y z =>
      BitVec.ofInt 32 (z.toInt +
        ((List.range 4).map fun i => (x.extractLsb' (8 * i) 8).toInt * (y.extractLsb' (8 * i) 8).toInt).sum))) ∧
  (∀ (s : State) (d a b : BitVec 6) (g k : BitVec 3) (j : BitVec 8) (i : BitVec 14) (o : BitVec 12) (p q r : BitVec 5),
    s.completes (.icmp g k a b) (s.putK 4 k.toNat (lanesOf fun l => ccTrue g (lane (s.vr a) l).toInt (lane (s.vr b) l).toInt)) ∧
    s.completes (.icmpU g k a b) (s.putK 4 k.toNat (lanesOf fun l => ccTrue g (lane (s.vr a) l).toNat (lane (s.vr b) l).toNat)) ∧
    s.completes (.icmpi g k a j) (s.putK 4 k.toNat (lanesOf fun l => ccTrue g (lane (s.vr a) l).toInt j.toInt)) ∧
    (s.pfx.z = false → s.completes (.sel d a b) (s.push 4 (.v d.toNat s.active
      (blend (s.kr s.pfx.k) (s.vr a) (s.vr b))))) ∧
    (s.pfx.z = true → exec (.sel d a b) s = .next s.illegal) ∧
    s.completes (.vmov d a) (s.lanes1 4 d a fun x => x) ∧
    s.completes (.vbc d a) (s.lanes1 4 d a fun _ => BitVec.ofNat 32 (s.sr a).toNat) ∧
    s.completes (.vgetl d) (s.putV 4 d.toNat (vecOf fun l => BitVec.ofNat 32 l)) ∧
    s.completes (.vli d i) (s.putV 4 d.toNat (vecOf fun _ => BitVec.ofInt 32 i.toInt)) ∧
    s.completes (.vlis d o) (s.lanes1 4 d d fun x => BitVec.ofNat 32 (x.toNat * 4096 + o.toNat)) ∧
    s.completes (.vsetl d a b) (s.push 4 (.v d.toNat (s.part &&& (1#32 <<< ((s.sr b).toNat % 32)))
      (vecOf fun _ => BitVec.ofNat 32 (s.sr a).toNat))) ∧
    s.completes (.iaddc p q r) ((s.putV 4 (2 * p.toNat) (vecOf fun l => BitVec.ofNat 32 (s.pairAt q l + s.pairAt r l))).putV 4
      (2 * p.toNat + 1) (vecOf fun l => BitVec.ofNat 32 ((s.pairAt q l + s.pairAt r l) / 4294967296))) ∧
    s.completes (.isubb p q r) ((s.putV 4 (2 * p.toNat) (vecOf fun l =>
        BitVec.ofInt 32 ((s.pairAt q l : Int) - s.pairAt r l))).putV 4
      (2 * p.toNat + 1) (vecOf fun l => BitVec.ofInt 32 (((s.pairAt q l : Int) - s.pairAt r l) / 4294967296))))

/-! ## Floating-point words -/

/-- R105, R106, R107: the FP32 words round the exact result of their operands once, under the mode in force; FMIN and FMAX drop a lone NaN
and order the zeros; FABS and FNEG act on the sign bit; the compares are decided by NaN, then by value. -/
def Obligations.FloatWordsCompute : Prop :=
  ∀ (s : State) (d a b : BitVec 6) (g k : BitVec 3),
    s.completes (.fadd d a b) (s.lanes2 4 d a b fun x y => r32 s.rm ((f32 x).add s.rm (f32 y))) ∧
    s.completes (.fsub d a b) (s.lanes2 4 d a b fun x y => r32 s.rm ((f32 x).add s.rm (f32 y).neg)) ∧
    s.completes (.fmul d a b) (s.lanes2 4 d a b fun x y => r32 s.rm ((f32 x).mul (f32 y))) ∧
    s.completes (.ffma d a b) (s.lanes3 4 d a b fun x y z => r32 s.rm (((f32 x).mul (f32 y)).add s.rm (f32 z))) ∧
    s.completes (.fmin d a b) (s.lanes2 4 d a b fun x y =>
      if (f32 x).isNan ∧ (f32 y).isNan then 0x7FC00000#32 else if (f32 x).isNan then y else if (f32 y).isNan then x
      else if (f32 x).cmp (f32 y) = .gt ∨ ((f32 x).cmp (f32 y) = .eq ∧ y.msb = true) then y else x) ∧
    s.completes (.fmax d a b) (s.lanes2 4 d a b fun x y =>
      if (f32 x).isNan ∧ (f32 y).isNan then 0x7FC00000#32 else if (f32 x).isNan then y else if (f32 y).isNan then x
      else if (f32 x).cmp (f32 y) = .lt ∨ ((f32 x).cmp (f32 y) = .eq ∧ y.msb = false) then y else x) ∧
    s.completes (.fabs d a) (s.lanes1 4 d a fun x => BitVec.ofNat 32 (x.toNat % 2147483648)) ∧
    s.completes (.fneg d a) (s.lanes1 4 d a fun x => BitVec.ofNat 32 (x.toNat + 2147483648)) ∧
    s.completes (.fcmp g k a b) (s.putK 4 k.toNat (lanesOf fun l =>
      let x := f32 (lane (s.vr a) l)
      let y := f32 (lane (s.vr b) l)
      !x.isNan && !y.isNan && ccOf g (x.cmp y))) ∧
    s.completes (.fcmpU g k a b) (s.putK 4 k.toNat (lanesOf fun l =>
      let x := f32 (lane (s.vr a) l)
      let y := f32 (lane (s.vr b) l)
      x.isNan || y.isNan || ccOf g (x.cmp y))) ∧
    s.completes (.frnd d a) (s.lanes1 4 d a fun x =>
      match f32 x with
      | .fin n m e => BitVec.ofNat 32 (fp32.encode (.fin n (roundInt s.rm n m e) 0))
      | v => BitVec.ofNat 32 (fp32.encode v)) ∧
    s.completes (.fscale d a b) (s.lanes2 4 d a b fun x y => r32 s.rm ((f32 x).scale y.toInt)) ∧
    s.completes (.fgetexp d a) (s.lanes1 4 d a fun x =>
      match f32 x with
      | .nan => 0x80000001#32
      | .inf _ => 0x7FFFFFFF#32
      | .fin _ m e => if m = 0 then 0x80000000#32 else BitVec.ofInt 32 (floorLog2 m e)) ∧
    s.completes (.fclass d a) (s.lanes1 4 d a fun x =>
      let m := x.toNat % 2147483648
      1#32 <<< (if 0x7FC00000 ≤ m then 9 else if 0x7F800000 < m then 8 else if m = 0x7F800000 then (if x.msb then 0 else 7)
        else if 0x800000 ≤ m then (if x.msb then 1 else 6) else if m = 0 then (if x.msb then 3 else 4) else if x.msb then 2 else 5))

/-- R108, R109: the packed words treat the two elements of a lane apart, each rounded once; the special functions round the exact value of
their function to the nearest, with the table's special operands and exact cases, and FRCP, FRSQ and FSQRT give the FP32 value nearest
to the exact one. How the other five are evaluated is the model's presumption (log 6). -/
def Obligations.PackedAndSpecialWordsCompute : Prop :=
  ∀ (s : State) (d a b : BitVec 6),
    let lo (x : Word) : Nat := x.toNat % 65536
    let hi (x : Word) : Nat := x.toNat / 65536
    let two (f : FpFmt) (op : FVal → FVal → FVal) (x y : Word) : Word :=
      BitVec.ofNat 16 (f.rnd s.rm (op (f.decode (hi x)) (f.decode (hi y)))) ++ BitVec.ofNat 16 (f.rnd s.rm (op (f.decode (lo x)) (f.decode (lo y))))
    let fma (f : FpFmt) (x y z : Word) : Word :=
      BitVec.ofNat 16 (f.rnd s.rm (((f.decode (hi x)).mul (f.decode (hi y))).add s.rm (f.decode (hi z)))) ++
        BitVec.ofNat 16 (f.rnd s.rm (((f.decode (lo x)).mul (f.decode (lo y))).add s.rm (f.decode (lo z))))
    let ext (f : FpFmt) (most : Bool) (x y : Word) : Word :=
      BitVec.ofNat 16 (f.minMax most (hi x) (hi y)) ++ BitVec.ofNat 16 (f.minMax most (lo x) (lo y))
    s.completes (.badd2 d a b) (s.lanes2 4 d a b (two bf16 (FVal.add s.rm))) ∧
    s.completes (.bsub2 d a b) (s.lanes2 4 d a b (two bf16 fun x y => x.add s.rm y.neg)) ∧
    s.completes (.bmul2 d a b) (s.lanes2 4 d a b (two bf16 FVal.mul)) ∧
    s.completes (.bfma2 d a b) (s.lanes3 4 d a b (fma bf16)) ∧
    s.completes (.hadd2 d a b) (s.lanes2 4 d a b (two fp16 (FVal.add s.rm))) ∧
    s.completes (.hsub2 d a b) (s.lanes2 4 d a b (two fp16 fun x y => x.add s.rm y.neg)) ∧
    s.completes (.hmul2 d a b) (s.lanes2 4 d a b (two fp16 FVal.mul)) ∧
    s.completes (.hfma2 d a b) (s.lanes3 4 d a b (fma fp16)) ∧
    s.completes (.bmin2 d a b) (s.lanes2 4 d a b (ext bf16 false)) ∧
    s.completes (.bmax2 d a b) (s.lanes2 4 d a b (ext bf16 true)) ∧
    s.completes (.hmin2 d a b) (s.lanes2 4 d a b (ext fp16 false)) ∧
    s.completes (.hmax2 d a b) (s.lanes2 4 d a b (ext fp16 true)) ∧
    s.completes (.frcp d a) (s.lanes1 10 d a fun x => r32 .rne (fRcp (f32 x))) ∧
    s.completes (.frsq d a) (s.lanes1 10 d a fun x => r32 .rne (fRsq (f32 x))) ∧
    s.completes (.fsqrt d a) (s.lanes1 10 d a fun x => r32 .rne (fSqrt (f32 x))) ∧
    s.completes (.ftanh d a) (s.lanes1 10 d a fun x => r32 .rne (fTanh (f32 x))) ∧
    s.completes (.fexp2 d a) (s.lanes1 10 d a fun x => r32 .rne (fExp2 (f32 x))) ∧
    s.completes (.flog2 d a) (s.lanes1 10 d a fun x => r32 .rne (fLog2 (f32 x))) ∧
    s.completes (.fsin d a) (s.lanes1 10 d a fun x => r32 .rne (fSin (f32 x))) ∧
    s.completes (.fcos d a) (s.lanes1 10 d a fun x => r32 .rne (fCos (f32 x))) ∧
    let gives (f : FVal → FVal) (x : Word) : Word := r32 .rne (f (f32 x))
    let inf := 0x7F800000#32
    let negInf := 0xFF800000#32
    let nan := 0x7FC00000#32
    (∀ e ∈ ([(fRcp, 0#32, inf), (fRcp, 0x80000000#32, negInf), (fRcp, inf, 0#32), (fRcp, negInf, 0x80000000#32), (fRsq, 0#32, inf),
        (fRsq, 0x80000000#32, negInf), (fRsq, inf, 0#32), (fSqrt, 0#32, 0#32), (fSqrt, 0x80000000#32, 0x80000000#32), (fSqrt, inf, inf),
        (fTanh, 0#32, 0#32), (fTanh, 0x80000000#32, 0x80000000#32), (fTanh, inf, 0x3F800000#32), (fTanh, negInf, 0xBF800000#32),
        (fExp2, negInf, 0#32), (fExp2, inf, inf), (fLog2, 0#32, negInf), (fLog2, 0x80000000#32, negInf), (fLog2, inf, inf), (fSin, inf, nan),
        (fSin, negInf, nan), (fCos, inf, nan), (fCos, negInf, nan), (fSin, 0#32, 0#32), (fSin, 0x80000000#32, 0x80000000#32)] :
          List ((FVal → FVal) × Word × Word)), gives e.1 e.2.1 = e.2.2) ∧
    (∀ f ∈ [fRcp, fRsq, fSqrt, fTanh, fExp2, fLog2, fSin, fCos], ∀ x, (f32 x).isNan = true → gives f x = nan) ∧
    (∀ f ∈ [fRsq, fSqrt, fLog2], ∀ x, x.msb = true → x ≠ 0x80000000#32 → gives f x = nan) ∧
    (∀ x, (f32 x).exact ≠ 0 → fp32.rounds .rne (1 / (f32 x).exact) (f32 (gives fRcp x))) ∧
    (∀ x, 0 < (f32 x).exact → nearestRoot (f32 x).exact (f32 (gives fSqrt x)) ∧ nearestRoot (1 / (f32 x).exact) (f32 (gives fRsq x))) ∧
    (∀ x n m e, f32 x = .fin n m e → ∀ k : Int, -149 ≤ k → k ≤ 127 →
      ((f32 x).exact = k → (f32 (gives fExp2 x)).exact = 2 ^ k) ∧ ((f32 x).exact = 2 ^ k → (f32 (gives fLog2 x)).exact = k))

/-- R101, R103: rounding takes the multiple of the format's precision at its operand that the mode names, subnormal positions included: the
nearest for RNE and RNA, with their ties, the one below, above or toward zero for the others; and what overflows becomes what the mode says.
Under every mode that is the value toward minus infinity or the one toward plus infinity. An encoding that is no NaN decodes to a value that
encodes to it, signed zeros and subnormals included. -/
def Obligations.FloatsRoundAndEncode : Prop :=
  (∀ (f : FpFmt) (rm : Rm) (neg : Bool) (m : Nat) (e : Int),
    (f.round rm (.fin neg m e) = f.round .rdn (.fin neg m e) ∨ f.round rm (.fin neg m e) = f.round .rup (.fin neg m e)) ∧
    f.round .rtz (.fin neg m e) = f.round (if neg then .rup else .rdn) (.fin neg m e) ∧
    (m = 0 → f.round rm (.fin neg m e) = .fin neg 0 0) ∧
    (m ≠ 0 → f.rounds rm (FVal.fin neg m e).exact (f.round rm (.fin neg m e)))) ∧
  ∀ f ∈ [fp32, fp16, bf16, e4m3, e5m2, e2m1], ∀ x < 2 ^ (f.eb + f.fb + 1), f.decode x ≠ .nan → f.encode (f.decode x) = x

/-- R110 to R116: the conversions between integers and FP32, between FP32 and the half and byte formats, and the block scales. -/
def Obligations.ConversionsCompute : Prop :=
  ∀ (s : State) (d a b : BitVec 6) (p q : BitVec 5) (h : BitVec 1) (z : BitVec 2),
    let toInt (x : Word) : Option Int :=
      match f32 x with
      | .fin n m e => some (if n then -(roundInt s.rm n m e : Int) else roundInt s.rm n m e)
      | .inf n => some (if n then -9007199254740992 else 9007199254740992)
      | .nan => none
    let half (f : FpFmt) (x : Word) : Nat := f.encode (if s.pfx.sat then f.sat (f.round s.rm (f32 x)) else f.round s.rm (f32 x))
    let part (r : BitVec 5) (i l : Nat) : FVal := f32 (lane (s.readV (2 * r.toNat + i)) l)
    let four (f : FVal → Nat) : Vec := vecOf fun l =>
      BitVec.ofNat 8 (f (part q 1 l)) ++ BitVec.ofNat 8 (f (part q 0 l)) ++ BitVec.ofNat 8 (f (part p 1 l)) ++ BitVec.ofNat 8 (f (part p 0 l))
    let byte (f : Nat → FVal) (i l : Nat) : Word :=
      BitVec.ofNat 32 (fp32.rnd .rne (f ((lane (s.vr a) l).toNat / 2 ^ (16 * h.toNat + 8 * i) % 256)))
    let pair (f : Nat → FVal) : State := (s.putV 6 (2 * p.toNat) (vecOf (byte f 0))).putV 6 (2 * p.toNat + 1) (vecOf (byte f 1))
    s.completes (.cvtF2i d a) (s.lanes1 6 d a fun x =>
      match toInt x with
      | none => if s.pfx.sat then 0#32 else 0x80000000#32
      | some n => if -2147483648 ≤ n ∧ n ≤ 2147483647 then BitVec.ofInt 32 n else if s.pfx.sat = true ∧ 0 ≤ n then 0x7FFFFFFF#32
        else 0x80000000#32) ∧
    s.completes (.cvtF2u d a) (s.lanes1 6 d a fun x =>
      match toInt x with
      | none => if s.pfx.sat then 0#32 else 0xFFFFFFFF#32
      | some n => if 0 ≤ n ∧ n ≤ 4294967295 then BitVec.ofInt 32 n else if s.pfx.sat = true ∧ n < 0 then 0#32 else 0xFFFFFFFF#32) ∧
    s.completes (.cvtI2f d a) (s.lanes1 6 d a fun x => r32 s.rm (FVal.ofInt x.toInt)) ∧
    s.completes (.cvtU2f d a) (s.lanes1 6 d a fun x => r32 s.rm (FVal.ofInt x.toNat)) ∧
    s.completes (.cvtF2b d a b) (s.lanes2 6 d a b fun x y => BitVec.ofNat 16 (half bf16 y) ++ BitVec.ofNat 16 (half bf16 x)) ∧
    s.completes (.cvtF2h d a b) (s.lanes2 6 d a b fun x y => BitVec.ofNat 16 (half fp16 y) ++ BitVec.ofNat 16 (half fp16 x)) ∧
    s.completes (.cvtB2f d a h) (s.lanes1 6 d a fun x =>
      BitVec.ofNat 32 (fp32.rnd .rne (bf16.decode (x.toNat / 2 ^ (16 * h.toNat) % 65536)))) ∧
    s.completes (.cvtH2f d a h) (s.lanes1 6 d a fun x =>
      BitVec.ofNat 32 (fp32.rnd .rne (fp16.decode (x.toNat / 2 ^ (16 * h.toNat) % 65536)))) ∧
    s.completes (.packE4m3 d p q) (s.putV 6 d.toNat (four fun x => e4m3.encode (e4m3.sat (e4m3.round s.rm x)))) ∧
    s.completes (.packE5m2 d p q) (s.putV 6 d.toNat (four fun x =>
      e5m2.encode (if s.pfx.sat then e5m2.sat (e5m2.round s.rm x) else e5m2.round s.rm x))) ∧
    s.completes (.packTs8 d p q) (s.putV 6 d.toNat (four (ts8Pack s.rm))) ∧
    s.completes (.unpkE4m3 p a h) (pair e4m3.decode) ∧
    s.completes (.unpkE5m2 p a h) (pair e5m2.decode) ∧
    s.completes (.unpkTs8 p a h) (pair ts8Decode) ∧
    s.completes (.mxscale d a z) (s.putV 6 d.toNat (vecOf fun _ =>
      BitVec.ofNat 32 (blockScale z.toNat ((lanesIn s.part).map fun l => f32 (lane (s.vr a) l))))) ∧
    s.completes (.mxapply d a b) (s.lanes2 6 d a b fun x y =>
      if y.toNat % 256 = 255 then 0x7FC00000#32 else r32 .rne ((f32 x).scale (127 - (y.toNat % 256 : Nat))))

/-! ## Cross-lane and mask words -/

/-- R133, R134, R135, R139: permutes, mask tests, peer sets, counts and mask words, over the participating lanes alone. -/
def Obligations.CrossLaneWordsCompute : Prop :=
  ∀ (s : State) (d a b : BitVec 6) (k m n : BitVec 3),
    let move (f : Nat → Nat → Nat) : State := s.putV 6 d.toNat (vecOf fun l =>
      let j := f l (lane (s.vr b) l).toNat
      if s.part.getLsbD j then lane (s.vr a) j else lane (s.vr d) l)
    let same (l j : Nat) : Bool := s.part.getLsbD j && decide (lane (s.vr a) j = lane (s.vr a) l)
    s.completes (.lpick d a b) (move fun _ o => o % 32) ∧
    s.completes (.lrot d a b) (move fun l o => (l + o % 32) % 32) ∧
    s.completes (.lxor d a b) (move fun l o => l ^^^ (o % 32)) ∧
    s.completes (.lspan d a b) (move fun l o =>
      let z := 2 ^ min (o / 32 % 8) 5
      l - l % z + (l % z + o % 32) % z) ∧
    s.completes (.ksome k m) (s.putC 6 k.toNat ((lanesIn s.part).any fun l => (s.kr m).getLsbD l)) ∧
    s.completes (.kevery k m) (s.putC 6 k.toNat ((lanesIn s.part).all fun l => (s.kr m).getLsbD l)) ∧
    s.completes (.kone k m) (s.putC 6 k.toNat (decide (((lanesIn s.part).countP fun l => (s.kr m).getLsbD l) = 1))) ∧
    s.completes (.ksame k m) (s.putC 6 k.toNat
      (((lanesIn s.part).all fun l => (s.kr m).getLsbD l) || !((lanesIn s.part).any fun l => (s.kr m).getLsbD l))) ∧
    s.completes (.lpeers d a) (s.putV 6 d.toNat (vecOf fun l => lanesOf (same l))) ∧
    s.completes (.lfirst d a) (s.putV 6 d.toNat (vecOf fun l => BitVec.ofNat 32 ((laneList.find? (same l)).getD 32))) ∧
    (s.mayWriteS d.toNat = true →
      s.completes (.kpopc d m) (s.putS 6 d.toNat (BitVec.ofNat 64 ((lanesIn s.part).countP fun l => (s.kr m).getLsbD l))) ∧
      s.completes (.kffs d m) (s.putS 6 d.toNat (BitVec.ofNat 64 (((lanesIn s.part).find? fun l => (s.kr m).getLsbD l).getD 32))) ∧
      s.completes (.kst d m) (s.putS 6 d.toNat (BitVec.ofNat 64 (s.kr m &&& s.part).toNat))) ∧
    s.completes (.kand k m n) (s.putK 6 k.toNat (s.kr m &&& s.kr n)) ∧
    s.completes (.kor k m n) (s.putK 6 k.toNat (s.kr m ||| s.kr n)) ∧
    s.completes (.kxor k m n) (s.putK 6 k.toNat (s.kr m ^^^ s.kr n)) ∧
    s.completes (.kandn k m n) (s.putK 6 k.toNat (s.kr m &&& ~~~s.kr n)) ∧
    s.completes (.knot k m) (s.putK 6 k.toNat (~~~s.kr m)) ∧
    s.completes (.kld k a) (s.putK 6 k.toNat (BitVec.ofNat 32 (s.sr a).toNat)) ∧
    s.completes (.kact k a) (s.putK 6 k.toNat (lanesOf fun l => decide (lane (s.vr a) l ≠ 0#32)))

/-- R132, R136, R137, R138: the reductions and scans complete. For the integer operators a reduction is the operator folded over the
participating lanes from its identity; for FMIN and FMAX it is R105's over their values in any order, and for FADD the sum along R136's tree.
A scan combines along the lanes, the first one's value passing unchanged but for a NaN; a segment's scan starts afresh at its first lane, and
a segment reduction is what it gives at the segment's last lane. That a NaN loses to a number in a fold of FMIN or FMAX, and that a NaN of a
lone lane is made canonical, is the model's reading (log 9). -/
def Obligations.ReductionsAndScansCompute : Prop :=
  ∀ (s : State) (d a : BitVec 6) (k p : BitVec 3),
    (∀ b : BitVec 6, b.toNat < 8 →
      let upTo (f : Nat → Bool) : Word := (((lanesIn s.part).filter f).map (lane (s.vr a))).foldl (redOp b.toNat) (redIdentity b.toNat)
      (s.mayWriteS d.toNat = true → s.completes (.fold d a b) (s.putS 8 d.toNat (BitVec.ofNat 64 (upTo fun _ => true).toNat))) ∧
      s.completes (.foldBc d a b) (s.putV 8 d.toNat (vecOf fun _ => upTo fun _ => true)) ∧
      (∃ x, s.completes (.scanInc d a b) (s.putV 8 d.toNat x) ∧
        ∀ l, l < 32 → s.part.getLsbD l = true → lane x l = upTo fun j => decide (j ≤ l)) ∧
      (∃ x, s.completes (.scanExc d a b) (s.putV 8 d.toNat x) ∧
        ∀ l, l < 32 → s.part.getLsbD l = true → lane x l = upTo fun j => decide (j < l))) ∧
    let ordered (op : Nat) (f : Nat → Bool) : Word :=
      match ((lanesIn s.part).filter f).map (lane (s.vr a)) with
      | [] => redIdentity op
      | v :: vs => vs.foldl (fun acc w => canonNan op (redOp op acc w)) (canonNan op v)
    (∀ b : BitVec 6, 8 ≤ b.toNat → b.toNat ≤ 10 →
      let all := if b = 8#6 then ((sumTree s.part (s.vr a) 5 0).map (canonNan 8)).getD (redIdentity 8) else ordered b.toNat fun _ => true
      (s.mayWriteS d.toNat = true → s.completes (.fold d a b) (s.putS 8 d.toNat (BitVec.ofNat 64 all.toNat))) ∧
      s.completes (.foldBc d a b) (s.putV 8 d.toNat (vecOf fun _ => all)) ∧
      (∃ x, s.completes (.scanInc d a b) (s.putV 8 d.toNat x) ∧
        ∀ l, l < 32 → s.part.getLsbD l = true → lane x l = ordered b.toNat fun j => decide (j ≤ l)) ∧
      (∃ x, s.completes (.scanExc d a b) (s.putV 8 d.toNat x) ∧
        ∀ l, l < 32 → s.part.getLsbD l = true → lane x l = ordered b.toNat fun j => decide (j < l))) ∧
    (∀ x y : Word, (∀ f ∈ ([(0, BitVec.ofNat 32 (x.toNat + y.toNat)), (1, if x.toInt < y.toInt then x else y), (2, if x.toInt < y.toInt then y else x),
          (3, if x.toNat < y.toNat then x else y), (4, if x.toNat < y.toNat then y else x), (5, x &&& y), (6, x ||| y), (7, x ^^^ y),
          (8, r32 .rne ((f32 x).add .rne (f32 y))), (9, BitVec.ofNat 32 (fp32.minMax false x.toNat y.toNat)),
          (10, BitVec.ofNat 32 (fp32.minMax true x.toNat y.toNat))] : List (Nat × Word)), canonNan f.1 (redOp f.1 x y) = canonNan f.1 f.2) ∧
      (∀ op, canonNan op x = if 8 ≤ op ∧ (f32 x).isNan = true then 0x7FC00000#32 else x)) ∧
    ((List.range 11).map redIdentity =
      [0#32, 0x7FFFFFFF#32, 0x80000000#32, 0xFFFFFFFF#32, 0#32, 0xFFFFFFFF#32, 0#32, 0#32, 0x80000000#32, 0x7F800000#32, 0xFF800000#32]) ∧
    (∃ x, s.completes (.segscan d a k p) (s.putV 8 d.toNat x) ∧
      ∀ l, l < 32 → s.part.getLsbD l = true → lane x l = ordered (if p.toNat < 5 then p.toNat else p.toNat + 3) fun j =>
        decide (j ≤ l) && (lanesIn s.part).all fun i => !(decide (j < i) && decide (i ≤ l) && (s.kr k).getLsbD i)) ∧
    (∃ x y, s.completes (.segscan d a k p) (s.putV 8 d.toNat x) ∧ s.completes (.segred d a k p) (s.putV 8 d.toNat y) ∧
      ∀ l e, l < 32 → l ≤ e → e < 32 → s.part.getLsbD l = true → s.part.getLsbD e = true →
        (∀ j, l < j → j ≤ e → s.part.getLsbD j = true → (s.kr k).getLsbD j = false) →
        (∀ j, e < j → j < 32 → s.part.getLsbD j = true → ∃ i, e < i ∧ i ≤ j ∧ s.part.getLsbD i = true ∧ (s.kr k).getLsbD i = true) →
        lane y l = lane x e)

/-! ## Control words -/

/-- R118, R129, R180: a branch goes to its packet when its condition holds and else on to the next word; a call writes the number of the next
packet to s63; BRK and TRAP raise their cause with their immediate, and NOP does nothing; and a taken one puts the issuing path at word 0 of its
packet and leaves its lanes, registers and every other agent alone. A waiting word passes, ending the run, when its bound holds, and holds the
path at its word while it does not; WAIT.L above 32 traps ILLEGAL; SLEEP waits at least its cycles; YIELD ends a warp's run and lets it issue no
word of this arbitration. -/
def Obligations.ControlAndWaitingWordsComplete : Prop :=
  ((∀ (s : State) (k : BitVec 3) (o : BitVec 16) (j : BitVec 20) (a : BitVec 6) (n : BitVec 18),
    let next : Dword := BitVec.ofNat 64 ((s.cur.pkt.toNat + 1) % 4294967296)
    s.completes .nop s ∧
    s.completes (.br k o) (if s.readC k.toNat = true then s.goto (BitVec.ofInt 32 (s.cur.pkt.toNat + o.toInt)) else s) ∧
    s.completes (.brF k o) (if s.readC k.toNat = true then s else s.goto (BitVec.ofInt 32 (s.cur.pkt.toNat + o.toInt))) ∧
    s.completes (.jmp j) (s.goto (BitVec.ofInt 32 (s.cur.pkt.toNat + j.toInt))) ∧
    s.completes (.call j) ((s.putS 2 63 next).goto (BitVec.ofInt 32 (s.cur.pkt.toNat + j.toInt))) ∧
    s.completes .ret (s.goto (BitVec.ofNat 32 (s.readS 63).toNat)) ∧
    s.completes (.jmpi a) (s.goto (BitVec.ofNat 32 (s.sr a).toNat)) ∧
    s.completes (.calli a) ((s.putS 2 63 next).goto (BitVec.ofNat 32 (s.sr a).toNat)) ∧
    s.completes (.brk n) (s.raise .breakpoint { lanes := s.active, info := BitVec.ofNat 32 n.toNat }) ∧
    s.completes (.trap j) (s.raise .userTrap { lanes := s.active, info := BitVec.ofNat 32 j.toNat })) ∧
  ∀ (s : State) (p : BitVec 32),
    (s.goto p).path = { s.path with pkt := p, wpos := 0, fresh := true } ∧
    s.sameRegisters (s.goto p) ∧ s.sameMemory (s.goto p) ∧ (s.goto p).dist = s.dist ∧ (s.goto p).host = s.host ∧
    ∀ c who, who.base ≠ s.cur.who.base → (s.goto p).pathOf c who = s.pathOf c who) ∧
  (∀ (s : State) (a : BitVec 6),
    (32 < a.toNat → s.completes (.waitL a) s.illegal) ∧
    (a.toNat ≤ 32 → s.pendingVl ≤ a.toNat → s.completes (.waitL a) s.endRun) ∧
    (a.toNat ≤ 32 → a.toNat < s.pendingVl → s.erred = none → s.completes (.waitL a) (s.holdAt (.latency a.toNat))) ∧
    (s.unperformed + s.erredCount ≤ a.toNat → s.completes (.waitM a) s.endRun) ∧
    (a.toNat < s.unperformed → s.erred = none → s.completes (.waitM a) (s.holdAt (.memory a.toNat))) ∧
    ((s.sr a).toNat % 4294967296 = 0 → s.completes (.sleep a) s.endRun) ∧
    ((s.sr a).toNat % 4294967296 ≠ 0 → s.completes (.sleep a)
      (s.updPath fun p => { p with wait := .until (s.clk + (s.sr a).toNat % 4294967296) }).endRun) ∧
    (∀ n b, s.cur.who = .warp n b → s.completes .yield (s.updPath fun p => { p with wait := .yield }).endRun))

/-- R44, R120, R122: SPLIT divides its path, the lanes set in its mask to the taken side, the larger side first and the fall-through on
a tie; one path where both begin at the same word; its offsets are those of the base word, or widened by a prefix with E; a zero join offset is
ILLEGAL. -/
def Obligations.SplitDividesThePath : Prop :=
  ∀ (s : State) (k : BitVec 3) (t : BitVec 10) (j : BitVec 7) (n : Nat) (b : Bool),
    let o := s.splitOffsets t j
    let m := s.kr k &&& s.active
    let fall : Cand := { pkt := s.path.pkt, wpos := s.path.wpos, lanes := s.active &&& ~~~m }
    let taken : Cand := { pkt := s.cur.pkt + o.1, wpos := 0, lanes := m }
    (s.cur.pfx = none → o = (BitVec.ofInt 32 t.toInt, BitVec.ofNat 32 j.toNat)) ∧
    (∀ p, s.cur.pfx = some p → o = (BitVec.ofInt 32 (p.x ++ t).toInt,
      BitVec.ofNat 32 (j.toNat + 128 * (p.rm.toNat + 8 * p.z.toNat + 16 * p.k.toNat)))) ∧
    (o.2 = 0#32 → s.completes (.split k t j) s.illegal) ∧
    (o.2 ≠ 0#32 → s.divisible n b (s.cur.pkt + o.2) [fall] → m = 0#32 → s.active ≠ 0#32 →
      ∃ u, s.completes (.split k t j) u ∧ s.divided u n b fall []) ∧
    (o.2 ≠ 0#32 → s.divisible n b (s.cur.pkt + o.2) [fall] → m = s.active → s.active ≠ 0#32 →
      ∃ u, s.completes (.split k t j) u ∧ s.divided u n b taken []) ∧
    (o.2 ≠ 0#32 → s.divisible n b (s.cur.pkt + o.2) [fall] → s.active ≠ 0#32 → fall.pkt = taken.pkt → fall.wpos = 0 →
      ∃ u, s.completes (.split k t j) u ∧ s.divided u n b { fall with lanes := s.active } []) ∧
    (o.2 ≠ 0#32 → s.divisible n b (s.cur.pkt + o.2) [fall, taken] → m ≠ 0#32 → m ≠ s.active → (fall.pkt ≠ taken.pkt ∨ fall.wpos ≠ 0) →
      ∃ u, s.completes (.split k t j) u ∧
        if laneCount fall.lanes < laneCount taken.lanes then s.divided u n b taken [fall] else s.divided u n b fall [taken])

/-- R123: BRT divides its path by the destinations of its table, its default for an index past the table; a malformed table is
ILLEGAL. -/
def Obligations.BrtDividesThePath : Prop :=
  ∀ (s : State) (a : BitVec 6) (n : BitVec 8) (w : Nat) (b : Bool) (ws : List Word) (u : State),
    let k := n.toNat
    let t := ws.take (k + 1)
    let join := s.cur.pkt + t.headD 0#32
    let dflt := s.cur.pkt + BitVec.ofNat 32 (1 + (k + 3) / 3)
    let offs := t.tail.map fun x => BitVec.ofInt 32 (x.extractLsb' 0 20).toInt
    let dest (l : Nat) : BitVec 32 := (offs[(lane (u.vr a) l).toNat]?).elim dflt (s.cur.pkt + ·)
    let cands := orderCands (brtCands s.cur.pkt offs dflt u.active (u.vr a))
    s.tableWords ((k + 3) / 3) (s.cur.pkt + 1#32) = (.ok ws, u) →
      ((k = 0 ∨ t.headD 0#32 = 0#32 ∨ ∃ x ∈ t, 1048576 ≤ x.toNat) → s.completes (.brt a n) u.illegal) ∧
      (∀ c ∈ cands, c.wpos = 0 ∧ ∀ l, l < 32 → c.lanes.getLsbD l = (u.active.getLsbD l && decide (dest l = c.pkt))) ∧
      (∀ first rest, k ≠ 0 → t.headD 0#32 ≠ 0#32 → (∀ x ∈ t, x.toNat < 1048576) → cands = first :: rest →
        u.divisible w b join cands → ∃ v, s.completes (.brt a n) v ∧ u.divided v w b first rest)

/-- R119, R120, R121, R127, R194, R195: where %ejt is above 0, each further candidate of a SPLIT or BRT, in order, is ejected when it has at
most %ejt lanes and that many contexts are free, whole or not at all, and is otherwise placed on the core; every ejected lane takes a free
context of its own with a copy of its registers, of the path's banks and of the candidate's place, the first of them the lowest free one of
the gleaner with the most; running contexts stay as they are. A division opens a region, in a free frame, under the next epoch, with the
path's lanes and banks, unless its join packet is that of the path's own region, whose token it then shares; and with too few frames free
it traps DIVERGE_DEPTH and does nothing else. -/
def Obligations.DivisionsEjectAndOpenRegions : Prop :=
  ∀ (s u : State) (i : Instr) (join : BitVec 32) (first : Cand) (rest : List Cand) (es : List Bool) (n : Nat) (b : Bool),
    let ejt := u.warp.ejt.toNat
    let gone (k : Nat) : List Cand := ((rest.zip es).take k).filterMap fun e => if e.2 then some e.1 else none
    let kept := (rest.zip es).filterMap fun e => if e.2 then none else some e.1
    let shares := decide (u.path.token.map (·.join) = some join)
    let need := (if shares then 0 else 1) + (kept.length - if u.otherSlot b = none then 1 else 0)
    s.divisionBy u i join (first :: rest) → u.cur.who = .warp n b → u.ownTx = none → u.bankWait true = none →
    (u.here.group u.warp.entry).leaving = false → (∀ c ∈ first :: rest, c.wpos < 3) → es.length = rest.length →
    (∀ k c, rest[k]? = some c →
      (es[k]? = some true ↔ 0 < ejt ∧ laneCount c.lanes ≤ ejt ∧ laneCount c.lanes + lanesOfCands (gone k) ≤ u.here.freeContexts.length)) →
    (u.stack.freeFrames.length < need → s.completes i (u.trap .divergeDepth)) ∧
    (need ≤ u.stack.freeFrames.length → ∃ v, s.completes i v ∧ u.divided v n b first kept ∧
      let k := (v.here.warp n).stack
      let t : Token := ⟨join, if shares then (u.path.token.map (·.epoch)).getD 0#16 else u.stack.epoch⟩
      (∃ q, (v.here.warp n).a = some q ∧ q.token = some t) ∧
      (shares = true → k.epoch = u.stack.epoch ∧
        ∀ f, (u.stack.frame f).kind = 1#8 → { k.frame f with out := (u.stack.frame f).out } = u.stack.frame f) ∧
      (shares = false → k.epoch ∉ k.epochs ∧ (u.stack.epoch + 1#16 ∉ k.epochs → k.epoch = u.stack.epoch + 1#16) ∧
        ∃ f ∈ u.stack.freeFrames, let x := k.frame f
          x.kind = 1#8 ∧ x.join = join ∧ x.epoch = u.stack.epoch ∧ x.lanes = u.active ∧ x.aux = 0#32 ∧ x.bank = u.path.bank ∧
          x.c = u.path.c ∧ (u.path.token = none → x.link = 0xFF#8) ∧
          ∀ p g, u.path.token = some p → u.stack.region p = some g → x.link.toNat = g) ∧
      (∀ c ∈ gone rest.length, ∀ l, l < 32 → c.lanes.getLsbD l = true → ∃ j ∈ u.here.freeContexts, u.handedOver n t c l (v.here.ctx j)) ∧
      (∀ c cs, gone rest.length = c :: cs → ∃ j ∈ u.here.freeContexts, u.handedOver n t c (lowLane c.lanes) (v.here.ctx j) ∧
        (∀ g, g < 8 → u.here.freeOf g ≤ u.here.freeOf (j / 4) ∧ (g < j / 4 → u.here.freeOf g < u.here.freeOf (j / 4))) ∧
        ∀ i ∈ u.here.freeContexts, i / 4 = j / 4 → j ≤ i) ∧
      (∀ j, (u.here.ctx j).live = true → v.here.ctx j = u.here.ctx j) ∧
      v.here.freeContexts.length + lanesOfCands (gone rest.length) = u.here.freeContexts.length)

/-- R124: outside its region's packet a JOIN does nothing; at it, a warp's path leaves its slot with its lanes recorded as arrived, and
the last arrival makes one path of the arrived lanes, in slot A, at the word after the JOIN, with the banks of the region's opening. That
the merged path goes on after the last arriver's JOIN, where the lanes arrived at different JOIN words of the packet, is the model's choice
(log 91). -/
def Obligations.JoinClosesItsRegion : Prop :=
  ∀ (s : State),
    ((∀ t, s.path.token = some t → t.join ≠ s.cur.pkt) → s.completes .join s) ∧
    ∀ t, s.path.token = some t → t.join = s.cur.pkt → s.bankWait false = none →
      (∀ i, s.cur.who = .lane i → t = (s.here.ctx i).home →
        ∃ u, s.completes .join u ∧ (u.here.ctx i).leaving = true ∧ s.sameRegisters u) ∧
      (∀ f, (∀ n b, s.cur.who ≠ .warp n b) → (∀ i, s.cur.who = .lane i → t ≠ (s.here.ctx i).home) → s.stack.region t = some f →
        ∃ u, s.completes .join u ∧ u.path.bank = (s.stack.frame f).bank ∧ u.path.c = (s.stack.frame f).c ∧
          (u.stack.frame f).kind = 0#8) ∧
      (∀ n b f, s.cur.who = .warp n b → s.stack.region t = some f → s.active ≠ 0#32 → f ∉ s.stack.order →
        (∀ g, g < 5 → g ≠ f → (s.stack.frame g).complete = false) →
        let fr := s.stack.frame f
        let arrived := fr.aux ||| s.active
        ∃ u, s.completes .join u ∧
          (fr.lanes &&& ~~~arrived ≠ 0#32 → (u.here.warp n).stack.frame f = { fr with aux := arrived, jpos := s.cur.wpos }) ∧
          (fr.lanes &&& ~~~arrived = 0#32 → ∃ q, (u.here.warp n).a = some q ∧ q.lanes = arrived ∧ q.bank = fr.bank ∧ q.c = fr.c ∧
            (s.cur.wpos < 2 → q.pkt = t.join ∧ q.wpos = s.cur.wpos + 1) ∧
            (2 ≤ s.cur.wpos → q.pkt = t.join + 1#32 ∧ q.wpos = 0)))

/-- R125, R164, R179, R342: EXIT ends the lanes of a warp's path, ends an ejected lane through its release, and stops the tinker; it waits
while its warp's deferred queue holds words, the last lane's while anything that the warp has issued is not performed, and traps the error
of a pending write that it waits for. That it stands at its word meanwhile is the model's reading (log 101). -/
def Obligations.ExitEndsItsLanes : Prop :=
  ∀ (s : State),
    (∀ n b, s.cur.who = .warp n b → s.ownTx = none → s.warp.exited ||| s.active ≠ 0xFFFFFFFF#32 → s.warp.deferred = [] →
      ∃ u, s.completes .exit u ∧ (u.here.warp n).exited = s.warp.exited ||| s.active ∧ s.sameRegisters u) ∧
    (∀ n b, s.cur.who = .warp n b → s.ownTx = none → s.warp.exited ||| s.active = 0xFFFFFFFF#32 → s.here.slotQuiet n = true →
      s.holdsToken s.cur.col n = false → ∃ u, s.completes .exit u ∧ (u.here.warp n).exited = 0xFFFFFFFF#32) ∧
    (∀ i, s.cur.who = .lane i → s.quiet = true → s.thread.vpend = [] → (s.lastExit = true → s.here.slotQuiet s.slot = true) →
      ∃ u, s.completes .exit u ∧ (u.here.ctx i).leaving = true ∧ (u.here.ctx i).exiting = true) ∧
    (s.cur.who = .tinker → ∃ u, s.completes .exit u ∧ u.path = { s.path with lanes := 0#32 }) ∧
    (∀ n b, s.cur.who = .warp n b → s.ownTx = none → s.exitErred = none →
      (s.warp.deferred ≠ [] → s.completes .exit (s.blockAt .exit)) ∧
      (s.warp.deferred = [] → s.warp.exited ||| s.active = 0xFFFFFFFF#32 → s.here.slotQuiet n = false → s.completes .exit (s.holdAt .exit))) ∧
    (∀ n b v why x, s.cur.who = .warp n b → s.ownTx = none → s.warp.exited ||| s.active = 0xFFFFFFFF#32 →
      s.thread.vpend.find? (·.error.isSome) = some v → v.error = some (why, x) →
      ∃ u, s.completes .exit u ∧ (u.here.warp n).stop.map (·.cause) = some why ∧ ∀ q ∈ (u.here.warp n).th.vpend, q.id ≠ v.id)

/-! ## Memory words -/

/-- R143, R144, R148, R149: a load whose lanes pass their checks completes by leaving its destination pending and beginning a memory word
with its lanes' physical addresses and its hints; SLD makes one access of 64 bits. -/
def Obligations.LoadsComplete : Prop :=
  ∀ (s u : State) (d a b : BitVec 6) (d4 : BitVec 4) (d5 : BitVec 5) (z : BitVec 2) (i : BitVec 8) (pas : List (Nat × Nat)) (shg : Bool),
    let vector (size : Nat) (signed : Bool) (dest : List Nat) (acq : Option Nat) : State :=
      u.beginsLoad (.load signed) size (dest.map fun r => .v r u.writeLanes) dest u.writeLanes pas acq (u.laneAddrs a b)
    let fits (size : Nat) : Prop := s.passes { size := size, r := true } (s.laneAddrs a b) u pas shg
    (fits (2 ^ z.toNat) → s.completes (.ld d a b z)
      (vector (2 ^ z.toNat) false (if z = 3#2 then [d.toNat, d.toNat + 1] else [d.toNat]) none)) ∧
    (fits 1 → s.completes (.ldsB d a b) (vector 1 true [d.toNat] none)) ∧
    (fits 2 → s.completes (.ldsH d a b) (vector 2 true [d.toNat] none)) ∧
    (fits 16 → s.completes (.ldQ d4 a b)
      (vector 16 false [4 * d4.toNat, 4 * d4.toNat + 1, 4 * d4.toNat + 2, 4 * d4.toNat + 3] none)) ∧
    (fits 4 → s.completes (.ldAcqW d a b) (vector 4 false [d.toNat] (some (s.scopeOr 2)))) ∧
    (fits 8 → s.completes (.ldAcqD d5 a b) (vector 8 false [2 * d5.toNat, 2 * d5.toNat + 1] (some (s.scopeOr 2)))) ∧
    (s.mayWriteS d.toNat = true → s.passes { size := 8, r := true } [(lowLane s.active, s.sr a + s.scalarOffset i)] u pas shg →
      s.completes (.sld d a i) (u.beginsLoad .scalarLoad 8 [.s u.path.uid d.toNat] [d.toNat] 0#32 pas none
        [(lowLane u.active, u.sr a + u.scalarOffset i)] true))

/-- R143, R145, R148, R150: a store whose lanes pass their checks completes by beginning a memory word with its lanes' physical addresses
and the low bytes of its data registers, a release store after its release; SST makes one access of 64 bits. -/
def Obligations.StoresComplete : Prop :=
  ∀ (s r u : State) (d a b : BitVec 6) (d4 : BitVec 4) (d5 : BitVec 5) (z : BitVec 2) (i : BitVec 8) (pas : List (Nat × Nat)) (shg : Bool),
    let store (size : Nat) (data : Nat → Nat) : State := u.beginsStore (pas.map fun p => ⟨p.1, p.2, size, data p.1, 0⟩) (u.laneAddrs a b)
    let reg (r l : Nat) : Nat := (lane (u.readV r) l).toNat
    let fits (s : State) (size : Nat) : Prop := s.passes { size := size, w := true } (s.laneAddrs a b) u pas shg
    (shg = false ∨ u.isDet = false) →
    (z ≠ 3#2 → fits s (2 ^ z.toNat) → s.completes (.st d a b z) (store (2 ^ z.toNat) fun l => reg d.toNat l % 2 ^ (8 * 2 ^ z.toNat))) ∧
    (z = 3#2 → fits s 8 → s.completes (.st d a b z) (store 8 fun l => reg d.toNat l + 4294967296 * reg (d.toNat + 1) l)) ∧
    (fits s 16 → s.completes (.stQ d4 a b) (store 16 fun l => reg (4 * d4.toNat) l + 4294967296 * (reg (4 * d4.toNat + 1) l +
      4294967296 * (reg (4 * d4.toNat + 2) l + 4294967296 * reg (4 * d4.toNat + 3) l)))) ∧
    (s.ownTx = none → s.releaseFrom s.cur.wait (s.scopeOr 2) = (none, r) → fits r 4 →
      s.completes (.stRelW d a b) (store 4 fun l => reg d.toNat l)) ∧
    (s.ownTx = none → s.releaseFrom s.cur.wait (s.scopeOr 2) = (none, r) → fits r 8 →
      s.completes (.stRelD d5 a b) (store 8 fun l => reg (2 * d5.toNat) l + 4294967296 * reg (2 * d5.toNat + 1) l)) ∧
    (s.passes { size := 8, w := true } [(lowLane s.active, s.sr a + s.scalarOffset i)] u pas shg →
      s.completes (.sst d a i) (u.beginsStore (pas.map fun p => ⟨p.1, p.2, 8, (u.sr d).toNat, 0⟩)
        [(lowLane u.active, u.sr a + u.scalarOffset i)] true))

/-- R25, R142, R163: the address of a lane is its base plus its zero-extended index, for the participating lanes alone and in ascending order; SLD
and SST add eight times their offset, widened by a prefix with E. A lane is checked for CROSS, ALIGN, PAGE_FAULT, PROT, PA_HOLE and ATOM_TARGET in
this order, and a word with failing lanes raises the cause of highest priority, with every failing lane and the address of the lowest, and does
nothing else. -/
def Obligations.AddressesAreFormedAndChecked : Prop :=
  (∀ (s : State) (a b : BitVec 6) (i : BitVec 8),
    (s.laneAddrs a b).map Prod.fst = (List.range 32).filter (fun l => s.active.getLsbD l && (s.readK s.pfx.k.toNat).getLsbD l) ∧
    (∀ l x, (l, x) ∈ s.laneAddrs a b → x.toNat = ((s.sr a).toNat + (lane (s.vr b) l).toNat) % 18446744073709551616) ∧
    (s.scalarOffset i).toNat = 8 * (i.toNat + if s.pfx.e then 256 * s.pfx.x.toNat else 0)) ∧
  ((∀ (s u : State) (n : Need) (a : Dword) (off : Nat) (e : TlbEntry),
    (offsetIn s.gcol a = none → s.checkAddr n a = (.bad .cross 0, s)) ∧
    (offsetIn s.gcol a = some off →
      (off % n.size ≠ 0 → s.checkAddr n a = (.bad .align 0, s)) ∧
      (off % n.size = 0 →
        (s.pageOf off = (none, u) → s.checkAddr n a = (.bad .pageFault 0, u)) ∧
        (s.pageOf off = (some e, u) →
          let denied := e.kind ≠ 0 ∨ (n.r = true ∧ e.r = false) ∨ (n.w = true ∧ (e.w = false ∨
            (u.inCode u.cur.col u.ctxNum off = true ∧ ¬ (u.cur.who = .tinker ∧ tinkerRange off = true))))
          (denied → s.checkAddr n a = (.bad .prot 0, u)) ∧
          (¬ denied → u.here.bay.openKind u.ctxNum (e.at_ off) = .hole → (s.checkAddr n a).1 = .bad .paHole (e.at_ off)) ∧
          (¬ denied → n.atom = true → (∃ k, u.here.bay.openKind u.ctxNum (e.at_ off) = .aliased k) →
            (s.checkAddr n a).1 = .bad .atomTarget (e.at_ off)) ∧
          (¬ denied → u.here.bay.openKind u.ctxNum (e.at_ off) = .hbm → (s.checkAddr n a).1 = .ok (e.at_ off) e.shg))))) ∧
  ∀ (s u : State) (d a b : BitVec 6) (z : BitVec 2) (r : List (Nat × Dword × Checked)),
    (∀ f, s.cur.who ≠ .factor f) → s.ownTx = none →
    (s.checkLanes { size := 2 ^ z.toNat, r := true } (s.laneAddrs a b) = (r, u) → ∀ c m x, worst r = some (c, m, x) →
      s.completes (.ld d a b z) (u.raise c { lanes := m, detail := x }) ∧
      (∀ l, l < 32 → (m.getLsbD l = true ↔ ∃ y c' pa, (l, y, .bad c' pa) ∈ r)) ∧
      (∀ l y c' pa, (l, y, .bad c' pa) ∈ r → c.code ≤ c'.code) ∧ (∃ l y pa, (l, y, .bad c pa) ∈ r) ∧
      (∃ l c' pa, (l, x, .bad c' pa) ∈ r ∧ ∀ l' y c'' pa', (l', y, .bad c'' pa') ∈ r → l ≤ l')))

/-- R146, R151, R152, R164: PF begins a memory word that returns nothing; FENCE completes at once when its release does, its acquire made, and
otherwise stays behind as a hold that says what its release waits for, and traps an error that it would wait for; CCLEAN and CINV send the
dirty bytes of their lines to the bay one by one, and at host scope and wider, where one is of the host tier, wait for those to stand there
and for the host link's acknowledgement, which is the model's reading (log 102). -/
def Obligations.CacheAndFenceWordsComplete : Prop :=
  ∀ (s r u : State) (a b : BitVec 6) (l : List (Nat × Dword × Checked)), (∀ f, s.cur.who ≠ .factor f) → s.ownTx = none →
    let sc := s.scopeOr 2
    let h : Hold := .fence sc s.cur.pkt s.cur.wpos .none
    let near (e : Nat × Dword × Checked) : Prop := ∀ pa, e.2.2 ≠ .bad .cross pa
    let pas := (passed l).filter fun p => decide (p.2 / 4294967296 ≠ 1)
    (s.checkLanes { size := 1, r := true } (s.laneAddrs a b) = (l, u) → (∀ e ∈ l, near e) → u.lineDeferred pas = false →
      s.completes (.pf a b) (u.beginsOp .prefetch (pas.map fun p => ⟨p.1, p.2, 1, 0, 0⟩) (u.laneAddrs a b))) ∧
    (sc = 0 → s.completes .fence s) ∧
    (∀ v, s.fenceErred sc = some v → s.completes .fence (s.raiseErred v)) ∧
    (sc ≠ 0 → s.fenceErred sc = none → (s.addHold h).releaseFrom .none sc = (none, r) →
      s.completes .fence ((r.acquire sc).putHold h none)) ∧
    (∀ w, sc ≠ 0 → s.fenceErred sc = none → (s.addHold h).releaseFrom .none sc = (some w, r) →
      s.completes .fence (r.putHold h (some (.fence sc s.cur.pkt s.cur.wpos w)))) ∧
    (s.checkLanes { size := 1 } (s.laneAddrs a b) = (l, u) → (∀ e ∈ l, near e) → ∀ drop : Bool,
      let i : Instr := if drop then .cinv a b else .cclean a b
      let cache := u.cur.who.cache
      let lines := linesOf (pas.map Prod.snd)
      let far := if 8 ≤ u.scopeOr 4 then lines.filter hostLine else []
      let away (t : State) : Prop := ∃ ln ∈ far, ∃ h ∈ t.here.bay.hostOut, h.2.1 = true ∧ h.1 = ln
      (u.cur.wait = .hosted → (away u → s.completes i (u.blockAt .hosted)) ∧ (¬ away u → s.completes i u)) ∧
      (u.cur.wait ≠ .hosted → u.lineDeferred pas = false → (∀ ln ∈ lines, u.here.claimed u.ctxNum ln = false) →
        (∀ m ∈ u.here.mops, m.mine u = true → ∀ c ∈ m.accs, c.pa / 128 ∉ lines) →
        let v := u.updHere fun x => lines.foldl (fun x ln => x.cleanLine drop cache ln) x
        (far = [] → s.completes i v) ∧
        ((∃ ln ∈ far, v.here.puts cache ln ≠ []) → s.completes i (v.blockAt (.release v.here.bay.nextReq))) ∧
        (far ≠ [] → (∀ ln ∈ far, v.here.puts cache ln = []) →
          let w := v.updHere fun x => x.updBay fun b => far.foldl (fun b ln => b.cleanHost drop ln) b
          (away w → s.completes i (w.blockAt .hosted)) ∧ (¬ away w → s.completes i w))))

/-- R153 to R157: an atomic whose lanes pass their checks leaves its destination pending and begins a memory word that is performed at the slice;
a reduction begins one that returns nothing, RED in the agent's own copy and RED.BAY at the slice; and the operations of both on the value that
stands before. -/
def Obligations.AtomicsAndReductionsCompleteAndCompute : Prop :=
  (∀ (s u : State) (d a b : BitVec 6) (p : BitVec 5) (pas : List (Nat × Nat)) (shg : Bool),
    let fits (size : Nat) : Prop := s.passes { size := size, r := true, w := true, atom := true } (s.laneAddrs a b) u pas shg
    (shg = false ∨ u.isDet = false) →
    (∀ e ∈ [(Instr.atomAdd d a b, 0), (.atomMin d a b, 1), (.atomMax d a b, 2), (.atomAnd d a b, 3), (.atomOr d a b, 4),
        (.atomXor d a b, 5), (.atomXchg d a b, 6), (.atomMinu d a b, 8), (.atomMaxu d a b, 9), (.atomInc d a b, 10),
        (.atomDec d a b, 11), (.atomFadd d a b, 12), (.atomFmin d a b, 13), (.atomFmax d a b, 14)],
      fits 4 → s.completes e.1 (u.beginsAtom e.2 4 d.toNat pas (u.laneAddrs a b))) ∧
    (fits 4 → s.completes (.atomCas p a b) (u.beginsAtom 7 4 (2 * p.toNat) pas (u.laneAddrs a b))) ∧
    (fits 8 → s.completes (.atomAdd64 p a b) (u.beginsAtom 15 8 (2 * p.toNat) pas (u.laneAddrs a b))) ∧
    (∀ e ∈ [(Instr.redAdd d a b, Instr.redBayAdd d a b, 0), (.redMin d a b, .redBayMin d a b, 1), (.redMax d a b, .redBayMax d a b, 2),
        (.redFadd d a b, .redBayFadd d a b, 3)],
      let accs : List Acc := pas.map fun q => ⟨q.1, q.2, 4, (lane (u.vr d) q.1).toNat, 0⟩
      fits 4 →
        s.completes e.1 (u.beginsOp (.red e.2.2) accs (u.laneAddrs a b)) ∧ s.completes e.2.1 (u.beginsAtBay (.redBay e.2.2) accs (u.laneAddrs a b)))) ∧
  (∀ (old v w : Word) (a : Acc) (m : Nat),
    let op (k : Nat) : Word := atomOp k old v w
    op 0 = BitVec.ofNat 32 (old.toNat + v.toNat) ∧
    op 1 = (if old.toInt ≤ v.toInt then old else v) ∧ op 2 = (if old.toInt ≤ v.toInt then v else old) ∧
    op 3 = old &&& v ∧ op 4 = old ||| v ∧ op 5 = old ^^^ v ∧ op 6 = v ∧ op 7 = (if old = v then w else old) ∧
    op 8 = (if old.toNat ≤ v.toNat then old else v) ∧ op 9 = (if old.toNat ≤ v.toNat then v else old) ∧
    op 10 = (if v.toNat ≤ old.toNat then 0#32 else BitVec.ofNat 32 (old.toNat + 1)) ∧
    op 11 = (if old.toNat = 0 ∨ v.toNat < old.toNat then v else BitVec.ofInt 32 (old.toNat - 1)) ∧
    op 12 = r32 .rne ((f32 old).add .rne (f32 v)) ∧
    op 13 = BitVec.ofNat 32 (fp32.minMax false old.toNat v.toNat) ∧ op 14 = BitVec.ofNat 32 (fp32.minMax true old.toNat v.toNat) ∧
    a.apply 15 m = (m + a.x) % 18446744073709551616 ∧
    redCombine 0 old v = op 0 ∧ redCombine 1 old v = op 1 ∧ redCombine 2 old v = op 2 ∧ redCombine 3 old v = op 12)

/-- R50, R83, R85, R144, R145: a load that hits its L1 is performed as it issues, every lane receiving the bytes of the held line at its address,
extended as the load says, and no byte at the home changes; a store that hits merges its bytes into the held line as it issues, the highest
lane's where lanes meet, and changes no other byte of the line, no other line and no byte at the home. -/
def Obligations.HitsAreExact : Prop :=
  (∀ (s : State) (c : Nat) (m : MemOp) (signed : Bool) (line k : Nat) (v : VPend),
    let x := s.col c
    m.kind = .load signed → m.accs ≠ [] → (∀ a ∈ m.accs, lineOf a.pa = line ∧ x.isBad a = false) → (∀ q ∈ x.mops, q.id ≠ m.id) →
    x.hitsNow m line = true → x.l1Find m.cache line = some k → m.acquire = none → m.lu = false → m.bad = 0#32 → m.vid ≠ 0 →
    v ∈ (s.threadOf c m.who).vpend → v.id = m.vid →
    let value (a : Acc) : Nat := extendLoad signed a.size (natOfBytes ((x.l1Line k).bytes (a.pa % 128) a.size))
    { v with value := some ({ m with got := m.got ++ m.accs.map fun a => (a.lane, value a) } : MemOp).writes } ∈
        ((s.startOp c m).threadOf c m.who).vpend ∧
      s.sameMemory (s.startOp c m) ∧ s.sameRegisters (s.startOp c m)) ∧
  ∀ (s : State) (c : Nat) (m : MemOp) (line k : Nat),
    let x := s.col c
    m.kind = .store → m.accs ≠ [] → m.fetched = [] → (∀ a ∈ m.accs, lineOf a.pa = line ∧ x.isBad a = false ∧ a.pa % 128 + a.size ≤ 128) →
    (∀ q ∈ x.mops, q.id ≠ m.id) → x.hitsNow m line = true → x.l1Find m.cache line = some k → m.acquire = none → m.lu = false →
    let t := (s.startOp c m).col c
    let covers (a : Acc) (o : Nat) : Prop := a.pa % 128 ≤ o ∧ o < a.pa % 128 + a.size
    (∀ o, o < 128 → (∀ a ∈ m.accs, ¬ covers a o) → (t.l1Line k).bytes o 1 = (x.l1Line k).bytes o 1) ∧
      (∀ o before a after, o < 128 → m.accs = before ++ a :: after → covers a o → (∀ e ∈ after, ¬ covers e o) →
        (t.l1Line k).bytes o 1 = [BitVec.ofNat 8 (a.x / 2 ^ (8 * (o - a.pa % 128)))] ∧ (t.l1Line k).dirty.getLsbD o = true) ∧
      (∀ j, j ≠ k → t.l1Line j = x.l1Line j) ∧ s.sameMemory (s.startOp c m) ∧ s.sameRegisters (s.startOp c m)

/-- R83, R85, R144, R145, R153 to R156, R319: a request of a load or store that missed brings its sectors, with the bytes at the home, into
its L1, with the insertion value of the access, and there the load takes the line's bytes and the store merges its own, a store miss leaving V at
2; dirty bytes that an L1 has sent are written at the home, and a partial folded into it; RED begins or continues a partial in its agent's L1,
each word combined from the identity with its lanes' operands in ascending order, and changes no byte at the home; and an ATOM or a RED.BAY is
performed at the slice, lane by lane in ascending order, the ATOM's lanes taking the values that they find. No other byte changes. -/
def Obligations.MissesAndBayWordsArePerformed : Prop :=
  (∀ (s : State) (c : Nat) (r : Req) (m : MemOp),
    let x := s.col c
    let line := r.line
    (x.servable s.clk r m .hbm → x.bypasses m line = false → x.uncached line → (∀ op, m.kind ≠ .red op) → r.cache < 9 → r.sectors &&& ~~~x.badOf line ≠ 0#4 →
      s.answers (.sliceRequest c r.id) fun t => s.sameMemory t ∧ s.sameRegisters t ∧ ∃ k, (t.col c).l1Find r.cache line = some k ∧
        let l := (t.col c).l1Line k
        l.valid = r.sectors &&& ~~~x.badOf line ∧ l.dirty = 0#128 ∧ l.u = none ∧ l.v = (if m.kind = .store then 2 else rdValue r.rd) ∧
          (∀ o, o < 128 → l.valid.getLsbD (o / 32) = true → l.bytes o 1 = [x.byteAt s.free (128 * line + o)]) ∧
          ∃ q ∈ (t.col c).bay.reqs, q.atL1 = true ∧ q.missed = r.missed ∧ q.op = r.op ∧ q.line = line ∧ q.due = r.due) ∧
    (∀ signed size k v, x.arrived s.clk r m → m.kind = .load signed → x.plainAccs m line size → x.l1Find m.cache line = some k →
      m.acquire = none → m.lu = false → m.bad = 0#32 → m.vid ≠ 0 → v ∈ (s.threadOf c m.who).vpend → v.id = m.vid →
      let value (a : Acc) : Nat := extendLoad signed a.size (natOfBytes ((x.l1Line k).bytes (a.pa % 128) a.size))
      s.answers (.sliceRequest c r.id) fun t => s.sameMemory t ∧ s.sameRegisters t ∧
        { v with value := some ({ m with got := m.got ++ m.accs.map fun a => (a.lane, value a) } : MemOp).writes } ∈ (t.threadOf c m.who).vpend) ∧
    (∀ size k, x.arrived s.clk r m → m.kind = .store → x.plainAccs m line size → x.bypasses m line = false → x.l1Find m.cache line = some k →
      (x.l1Line k).u = none → m.fetched = [] → m.acquire = none → m.lu = false →
      s.answers (.sliceRequest c r.id) fun t => (x.l1Line k).storedBy ((t.col c).l1Line k) m.accs ∧ ((t.col c).l1Line k).v = 2 ∧
        (∀ j, j ≠ k → (t.col c).l1Line j = x.l1Line j) ∧ s.sameMemory t ∧ s.sameRegisters t) ∧
    (∀ l, (x.bay.reqs.find? fun q => decide (q.id = r.id)) = some r → r.atL1 = false → r.stands = true → r.till ≠ 0 → r.till ≤ s.clk →
      r.eng = none → r.put = some l → l.line = line → x.claimed r.region line = false → x.bay.kindOf r.region (128 * line) = .hbm →
      (∀ c', c' < 9 → c' ≠ r.cache → x.l1Find c' line = none ∧ x.puts c' line = []) →
      s.answers (.sliceRequest c r.id) fun t => let y := t.col c
        s.sameRegisters t ∧ (∀ a, a / 128 ≠ line → y.byteAt s.free a = x.byteAt s.free a) ∧
        (l.u = none → ∀ o, o < 128 → y.byteAt s.free (128 * line + o) =
          if l.dirty.getLsbD o then l.data.extractLsb' (8 * o) 8 else x.byteAt s.free (128 * line + o)) ∧
        (∀ op, l.u = some op → ∀ i, i < 32 → y.wordAt s.free (128 * line + 4 * i) =
          if l.dirty.extractLsb' (4 * i) 4 = 0#4 then x.wordAt s.free (128 * line + 4 * i)
          else redCombine op (x.wordAt s.free (128 * line + 4 * i)) (lineWord l.data i))) ∧
    (∀ op before, m.kind = .red op → x.plainAccs m line 4 → (∀ q ∈ x.mops, q.id ≠ m.id) → x.bypasses m line = false → x.waitsTurn m line = false →
      m.lu = false → m.acquire = none → m.vid = 0 → m.cache < 9 →
      ((x.l1Find m.cache line = none ∧ before.dirty = 0#128 ∧ ∀ i, i < 32 → lineWord before.data i = redStart op) ∨
        ∃ k, x.l1Find m.cache line = some k ∧ (x.l1Line k).u = some op ∧ before = x.l1Line k) →
      let t := s.startOp c m
      s.sameMemory t ∧ s.sameRegisters t ∧ ∃ k, (t.col c).l1Find m.cache line = some k ∧
        let l := (t.col c).l1Line k
        l.u = some op ∧ ∀ i, i < 32 →
          let mine := m.accs.filter fun a => decide (a.pa % 128 / 4 = i)
          lineWord l.data i = mine.foldl (fun w a => redCombine op w (BitVec.ofNat 32 a.x)) (lineWord before.data i) ∧
            l.dirty.extractLsb' (4 * i) 4 = if mine.isEmpty then before.dirty.extractLsb' (4 * i) 4 else 15#4) ∧
    (∀ op size, (m.kind = .atom op ∨ ∃ k, m.kind = .redBay k ∧ k < 4 ∧ op = if k = 3 then 12 else k) → size = (if op = 15 then 8 else 4) →
      x.servable s.clk r m .hbm → m.bypass = true → m.ctx = r.region → x.plainAccs m line size → x.uncached line → m.cache < 9 →
      m.lu = false → m.acquire = none → m.bad = 0#32 →
      let cell (l : List Acc) (w : Nat) : Nat :=
        (l.filter fun a => decide (a.pa = w)).foldl (fun v a => a.apply op v) (natOfBytes (x.bytesAt s.free w size))
      s.answers (.sliceRequest c r.id) fun t => let y := t.col c
        (∀ a ∈ m.accs, natOfBytes (y.bytesAt s.free a.pa size) = cell m.accs a.pa) ∧
        (∀ b, (∀ a ∈ m.accs, b < a.pa ∨ a.pa + size ≤ b) → y.byteAt s.free b = x.byteAt s.free b) ∧ s.sameRegisters t ∧
        ∀ v, m.kind = .atom op → m.vid ≠ 0 → v ∈ (s.threadOf c m.who).vpend → v.id = m.vid → ∃ got : List (Nat × Nat),
          got.map Prod.fst = m.accs.map (·.lane) ∧ (∀ i a, m.accs[i]? = some a → (got.map Prod.snd)[i]? = some (cell (m.accs.take i) a.pa)) ∧
          { v with value := some ({ m with got := m.got ++ got } : MemOp).writes } ∈ (t.threadOf c m.who).vpend)) ∧
  (∀ (x : Column) (free : Nat) (m : MemOp) (op line : Nat) (a : Acc),
    m.kind = .atom op → m.accs = [a] → lineOf a.pa = line → x.isBad a = false → (∀ c, c < 9 → x.l1Find c line = none ∧ x.puts c line = []) → m.cache < 9 →
    x.bay.kindOf m.ctx (128 * line) = .hbm → (op = 15 → a.size = 8) → (op ≠ 15 → a.size = 4) →
    let old := natOfBytes (x.bytesAt free a.pa a.size)
    let r := x.performBay free m line
    r.2.got = m.got ++ [(a.lane, old)] ∧ natOfBytes (r.1.bytesAt free a.pa a.size) = a.apply op old ∧
      ∀ b, (b < a.pa ∨ a.pa + a.size ≤ b) → r.1.byteAt free b = x.byteAt free b)

/-- R212, R214, R216, R218, R219, R220: a load of the alias window takes, for each byte, that of the BF16 image, rounded to nearest even, of its
element's value as the backing block stands. A store requantizes each block that it touches, whole: its written elements, a byte of one merged
into its image, and the others at their exact values give the scale of the largest magnitude and 32 codes under it, or 0xFF and zero codes with
a NaN or an infinity among them; every other byte keeps its value. -/
def Obligations.WindowAccessesConvert : Prop :=
  ∀ (s : State) (c : Nat) (r : Req) (m : MemOp) (n size : Nat),
    let x := s.col c
    let win := Tab.get 0#64 x.bay.aliasWin n
    let back := Tab.get 0#64 x.bay.aliasBack n
    let fmt := (back.extractLsb' 52 4).toNat
    let base := 4294967296 + 65536 * (win.extractLsb' 16 16).toNat
    let tile (j : Nat) : Nat := 128 * (back.extractLsb' 7 27).toNat + j / 4096 * if fmt = 2 then 2176 else 4224
    let scaleAt (j : Nat) : Nat := tile j + j % 4096 / 32
    let elemAt (j : Nat) : Nat := tile j + 128 + if fmt = 2 then j % 4096 / 2 else j % 4096
    let scale (y : Column) (j : Nat) : Nat := (y.byteAt s.free (scaleAt j)).toNat
    let code (y : Column) (j : Nat) : Nat := codeIn fmt j (y.byteAt s.free (elemAt j)).toNat
    let value (j : Nat) : FVal := blockValue fmt (scale x j) (code x j)
    let image (j : Nat) : Nat := bf16.rnd .rne (value j)
    let shown (a : Nat) : Byte := BitVec.ofNat 8 (image ((a - base) / 2) / 256 ^ ((a - base) % 2))
    fmt < 4 → x.servable s.clk r m (.aliased n) → m.ctx = r.region → x.plainAccs m r.line size → (∀ l ∈ r.line :: x.backOf n r.line, x.uncached l) →
    m.cache < 9 → m.lu = false → m.acquire = none → m.bad = 0#32 →
    (value 0 = .nan → image 0 = 0x7FC0) ∧ (∀ neg, value 0 = .inf neg → image 0 = if neg then 0xFF80 else 0x7F80) ∧
    (∀ signed v, m.kind = .load signed → (∀ a ∈ m.accs, x.aliasBad n a = false) → m.vid ≠ 0 → v ∈ (s.threadOf c m.who).vpend → v.id = m.vid →
      let read (a : Acc) : Nat := extendLoad signed size (natOfBytes ((List.range size).map fun i => shown (a.pa + i)))
      s.answers (.sliceRequest c r.id) fun t => s.sameMemory t ∧ s.sameRegisters t ∧
        { v with value := some ({ m with got := m.got ++ m.accs.map fun a => (a.lane, read a) } : MemOp).writes } ∈ (t.threadOf c m.who).vpend) ∧
    (m.kind = .store →
      let written (a : Nat) : Option Byte :=
        (m.accs.reverse.find? fun e => decide (e.pa ≤ a) && decide (a < e.pa + size)).map fun e => BitVec.ofNat 8 (e.x / 256 ^ (a - e.pa))
      let touched (b : Nat) : Prop := ∃ e ∈ m.accs, ∃ i, i < size ∧ (e.pa + i - base) / 64 = b
      let new (j : Nat) : FVal :=
        let lo := written (base + 2 * j)
        let hi := written (base + 2 * j + 1)
        if lo = none ∧ hi = none then value j
        else bf16.decode ((lo.map (·.toNat)).getD (image j % 256) + 256 * (hi.map (·.toNat)).getD (image j / 256))
      s.answers (.sliceRequest c r.id) fun t =>
        let y := t.col c
        s.sameRegisters t ∧
        (∀ p, (∀ j, touched (j / 32) → p ≠ scaleAt j ∧ p ≠ elemAt j) → y.byteAt s.free p = x.byteAt s.free p) ∧
        ∀ b, touched b →
          requantizes fmt (fun _ => True) (fun k => new (32 * b + k)) (scale y (32 * b)) (fun k => code y (32 * b + k)))

/-- R25, R50, R147, R158: LDL and STL act on the group's local store at base plus index, little-endian, the highest lane's byte standing where
lanes meet; a lane beyond the group's declared bytes traps LOCAL_RANGE and one misaligned ALIGN, with nothing done. ATOML acts on local store as
ATOM.ADD, MIN, MAX and CAS, in ascending lane order: a lane finds what the lane before it at its location left, and the last one's result stands. -/
def Obligations.LocalMemoryWordsComplete : Prop :=
  (∀ (s : State) (d a b : BitVec 6) (z : BitVec 2), (∀ f, s.cur.who ≠ .factor f) →
    let size := 2 ^ z.toNat
    let off (l : Nat) : Nat := ((s.sr a).toNat + (lane (s.vr b) l).toNat) % 18446744073709551616
    let regs := if z = 3#2 then [d.toNat, d.toNat + 1] else [d.toNat]
    let data (l : Nat) : Nat := (lane (s.readV d.toNat) l).toNat + if z = 3#2 then 4294967296 * (lane (s.readV (d.toNat + 1)) l).toNat else 0
    ((∀ l ∈ lanesIn s.part, off l % size = 0 ∧ off l + size ≤ s.group.size) →
      (∃ x : Nat → Vec, s.completes (.ldl d a b z) (s.vlResult (regs.map fun r => .v r s.part)
          ((regs.zip (List.range regs.length)).map fun e => .v e.1 s.part (x e.2)) true) ∧
        ∀ l ∈ lanesIn s.part, ∀ i, i < regs.length →
          (lane (x i) l).toNat = natOfBytes (Memory.readBytes s.group.store (off l) size) / 2 ^ (32 * i) % 4294967296) ∧
      (∃ m : List Host.Cell, s.completes (.stl d a b z) (s.updStore fun _ => m) ∧
        (∀ o, (∀ l ∈ lanesIn s.part, o < off l ∨ off l + size ≤ o) → Memory.read m o = Memory.read s.group.store o) ∧
        ∀ l ∈ lanesIn s.part, (∀ k ∈ lanesIn s.part, l < k → off k ≠ off l) →
          ∀ i, i < size → Memory.read m (off l + i) = BitVec.ofNat 8 (data l / 2 ^ (8 * i)))) ∧
    (s.ownTx = none → ∀ l ∈ lanesIn s.part,
      (off l % size = 0 → s.group.size < off l + size → (∀ k ∈ lanesIn s.part, off k % size = 0) →
        ∃ m x, s.completes (.ldl d a b z) (s.raise .localRange { lanes := m, detail := x }) ∧
          s.completes (.stl d a b z) (s.raise .localRange { lanes := m, detail := x })) ∧
      (off l % size ≠ 0 → ∃ m x, s.completes (.ldl d a b z) (s.raise .align { lanes := m, detail := x }) ∧
          s.completes (.stl d a b z) (s.raise .align { lanes := m, detail := x })))) ∧
  (∀ (s : State) (d a b : BitVec 6) (p : BitVec 5), (∀ f, s.cur.who ≠ .factor f) →
    let off (l : Nat) : Nat := ((s.sr a).toNat + (lane (s.vr b) l).toNat) % 18446744073709551616
    let word (m : List Host.Cell) (o : Nat) : Word := BitVec.ofNat 32 (natOfBytes (Memory.readBytes m o 4))
    (∀ l ∈ lanesIn s.part, off l % 4 = 0 ∧ off l + 4 ≤ s.group.size) →
    ∀ e ∈ [(Instr.atomlAdd d a b, 0, d.toNat), (.atomlMin d a b, 1, d.toNat), (.atomlMax d a b, 2, d.toNat), (.atomlCas p a b, 7, 2 * p.toNat)],
      let left (x : Vec) (l : Nat) : Word := atomOp e.2.1 (lane x l) (lane (s.readV e.2.2) l) (lane (s.readV (e.2.2 + 1)) l)
      ∃ (m : List Host.Cell) (x : Vec),
        s.completes e.1 ((s.updStore fun _ => m).vlResult [.v e.2.2 s.part] [.v e.2.2 s.part x] true) ∧
        (∀ o, (∀ l ∈ lanesIn s.part, o < off l ∨ off l + 4 ≤ o) → Memory.read m o = Memory.read s.group.store o) ∧
        (∀ l ∈ lanesIn s.part, (∀ k ∈ lanesIn s.part, k < l → off k ≠ off l) → lane x l = word s.group.store (off l)) ∧
        (∀ l ∈ lanesIn s.part, ∀ k ∈ lanesIn s.part, k < l → off k = off l →
          (∀ j ∈ lanesIn s.part, k < j → j < l → off j ≠ off l) → lane x l = left x k) ∧
        (∀ l ∈ lanesIn s.part, (∀ k ∈ lanesIn s.part, l < k → off k ≠ off l) → word m (off l) = left x l))

/-! ## Transactions -/

/-- R159, R160, R161, R162, R197, R345: TBEGIN opens the warp's one transaction and writes 1 to its condition by a variable-latency write; where
one is open, or by an ejected lane or the tinker, it opens none, aborts what is open or records TX_FLOW, and writes 0 the same way where its path goes on;
TEND waits for the commit token where R158 says so and for its release, and then commits the path's own transaction, and is ILLEGAL without
one; TABORT aborts it, and does nothing without one; TSTAT reads the status. What becomes of a transaction whose path has merged at a JOIN is
the model's choice (log 95). -/
def Obligations.TransactionWordsComplete : Prop :=
  ∀ (s u r : State) (k : BitVec 3) (a d : BitVec 6) (n i : Nat) (b : Bool) (t : Tx),
    let ready : Prop := t.shared = false ∨ u.isDet = false ∨ (u.holdsToken u.cur.col u.slot = true ∧ u.warp.deferred = [])
    let zero (v : State) : State := v.vlResult [.c v.path.uid k.toNat] [.c v.path.uid k.toNat false]
    (s.cur.who = .warp n b → s.warp.tx = none → ∃ v, s.completes (.tbegin k) v ∧
      v.warp.tx = some
        { path := s.path.uid, pkt := s.path.pkt, wpos := s.path.wpos, cond := k.toNat, lanes := s.active, token := s.path.token, id := s.nextId } ∧
      v.thread.vpend = s.thread.vpend ++ [{ id := s.nextId, regs := [.c s.path.uid k.toNat], value := some [.c s.path.uid k.toNat true] }]) ∧
    (s.ownTx = some t → s.completes (.tbegin k) (s.abortTx .nest 0 0#64)) ∧
    (s.cur.who = .warp n b → s.ownTx = none → s.warp.tx = some t → s.completes (.tbegin k) (zero (s.abortTx .nest 0 0#64))) ∧
    (s.cur.who = .lane i → s.warp.tx = some t → s.completes (.tbegin k) (zero (s.abortTx .flow 0 0#64))) ∧
    (s.cur.who = .lane i → s.warp.tx = none → s.completes (.tbegin k) (zero (s.updWarp fun w => { w with tstat := 8#64 }))) ∧
    (s.cur.who = .tinker → s.completes (.tbegin k) (zero (s.updHere fun x => { x with tinker := { x.tinker with tstat := 8#64 } }))) ∧
    (s.ownTx = none → s.completes .tend s.illegal) ∧
    (s.ownTx = some t → u = s.performDeferred s.cur.col s.slot → ¬ ready → s.completes .tend (u.holdAt .commit)) ∧
    (∀ w, s.ownTx = some t → u = s.performDeferred s.cur.col s.slot → ready → u.releaseFrom u.cur.wait 4 = (some w, r) →
      s.completes .tend (r.blockAt w)) ∧
    (s.ownTx = some t → u = s.performDeferred s.cur.col s.slot → ready → u.releaseFrom u.cur.wait 4 = (none, r) →
      (∀ ln ∈ t.lines ++ addLines [] (t.writes.map fun w => (w.1, w.2.1)), r.here.claimed r.ctxNum ln = false) →
      s.completes .tend (r.commit t)) ∧
    (s.ownTx = some t → s.completes (.tabort a) (s.abortTx .user a.toNat 0#64)) ∧
    (s.ownTx = none → s.completes (.tabort a) s) ∧
    (s.mayWriteS d.toNat = true → (s.cur.who = .warp n b ∨ s.cur.who = .lane i) → s.completes (.tstat d) (s.willWriteS d s.warp.tstat)) ∧
    (s.mayWriteS d.toNat = true → s.cur.who = .tinker → s.completes (.tstat d) (s.willWriteS d s.here.tinker.tstat))

/-- R160, R163: inside its path's transaction a load or store aborts TX_CROSS, TX_TIER or TX_FAULT by the lane whose outcome comes first (log 42),
with TX_CAPACITY_READ past 64 lines read and TX_CAPACITY_WRITE past 32 lines written. A load reads each byte from its lane's own last write of
it, from the read set, or from the bay, and its lines and bytes join the read set; a store's bytes join the write set, and neither changes
memory. PF is ignored; the words of R160's list abort TX_UNSUPPORTED, and SPLIT, BRT and EXIT TX_FLOW, EXIT before the exit. That crib words
and MRD count as engine commands there is the model's reading (log 141). -/
def Obligations.TransactionalAccessesComplete : Prop :=
  ∀ (s u : State) (t : Tx) (d a b : BitVec 6) (d4 : BitVec 4) (z : BitVec 2) (r : List (Nat × Dword × Checked)), s.ownTx = some t →
    let pas := passed r
    let lines := addLines t.lines pas
    let written := addLines (addLines [] (t.writes.map fun w => (w.1, w.2.1))) pas
    let fits : Prop := ∀ e ∈ r, e.2.2.txRank = none
    let own (l x : Nat) := t.writes.reverse.find? fun w => decide (w.1 = l) && decide (w.2.1 = x)
    let seen (l x : Nat) : Byte :=
      (own l x).elim (((t.reads.find? fun w => decide (w.1 = x)).map Prod.snd).getD (u.here.byteAt u.free x)) fun w => w.2.2
    let waits : Prop := ∃ p ∈ pas, u.here.claimed u.ctxNum (p.2 / 128) = true ∨ ∃ m ∈ u.here.mops, m.mine u = true ∧ ∃ c ∈ m.accs, c.pa / 128 = p.2 / 128
    (∀ x l, (∀ p : Nat × Nat, p ∈ pas → p.2 / 128 ≠ l) → (l ∈ addLines x pas ↔ l ∈ x)) ∧ (∀ x, ∀ p ∈ pas, p.2 / 128 ∈ addLines x pas) ∧
    (∀ e ∈ [(Instr.ld d a b z, 2 ^ z.toNat, false, d.toNat), (.ldsB d a b, 1, true, d.toNat), (.ldsH d a b, 2, true, d.toNat),
        (.ldQ d4 a b, 16, false, 4 * d4.toNat)],
      let size := e.2.1
      let words := max 1 (size / 4)
      s.checkLanes { size := size, r := true } (s.laneAddrs a b) = (r, u) →
      (∀ k q, txFirst r k q → s.completes e.1 (u.abortsAt k q)) ∧
      (fits → 64 < lines.length → s.completes e.1 (u.abortTx .capacityRead 0 0#64)) ∧
      (fits → lines.length ≤ 64 → (u.lineDeferred pas = true ∨ waits) → s.completes e.1 (u.blockAt .earlier)) ∧
      (fits → lines.length ≤ 64 → u.lineDeferred pas = false → ¬ waits →
        (∀ p x, pas.find? (fun p => u.here.badSectors.contains (p.2 / 32)) = some p → (p.1, x) ∈ u.laneAddrs a b →
          s.completes e.1 (u.abortTx .fault 0 x)) ∧
        ((∀ p ∈ pas, p.2 / 32 ∉ u.here.badSectors) → (∀ c l, c < 9 → u.here.l1Find c l = none ∧ u.here.puts c l = []) →
          ∃ v t', s.completes e.1 v ∧ v.warp.tx = some t' ∧ t'.writes = t.writes ∧ t'.lines = lines ∧ (∀ x ∈ t.reads, x ∈ t'.reads) ∧
            (∀ p ∈ pas, ∀ j, j < size → own p.1 (p.2 + j) = none → (p.2 + j, seen p.1 (p.2 + j)) ∈ t'.reads) ∧
            u.sameMemory v ∧ u.sameRegisters v ∧
            ∃ f : Nat → Vec, v.thread.vpend = u.thread.vpend ++ [{ id := u.nextId, mem := true
                                                                   regs := (List.range words).map fun i => .v (e.2.2.2 + i) u.writeLanes
                                                                   value := some ((List.range words).map fun i => .v (e.2.2.2 + i) u.writeLanes (f i)) }] ∧
              ∀ p ∈ pas, ∀ i, i < words →
                let x := extendLoad e.2.2.1 size (natOfBytes ((List.range size).map fun j => seen p.1 (p.2 + j)))
                (lane (f i) p.1).toNat = x / 4294967296 ^ i % 4294967296))) ∧
    (∀ e ∈ [(Instr.st d a b z, 2 ^ z.toNat, d.toNat), (.stQ d4 a b, 16, 4 * d4.toNat)],
      let size := e.2.1
      s.checkLanes { size := size, w := true } (s.laneAddrs a b) = (r, u) →
      (∀ k q, txFirst r k q → s.completes e.1 (u.abortsAt k q)) ∧
      (fits → u.lineDeferred pas = true → s.completes e.1 (u.blockAt .earlier)) ∧
      (fits → u.lineDeferred pas = false → 32 < written.length → s.completes e.1 (u.abortTx .capacityWrite 0 0#64)) ∧
      (fits → u.lineDeferred pas = false → written.length ≤ 32 →
        ∃ v t', s.completes e.1 v ∧ v = u.updWarp (fun w => { w with tx := some t' }) ∧ t'.reads = t.reads ∧ t'.lines = t.lines ∧
          t'.shared = (t.shared || anyShg r) ∧
          t'.writes = t.writes ++ pas.flatMap fun p => (List.range size).map fun j =>
            (p.1, p.2 + j, BitVec.ofNat 8 ((lane (u.readV (e.2.2 + j / 4)) p.1).toNat / 256 ^ (j % 4))))) ∧
    s.completes (.pf a b) s ∧
    (∀ i, i.unsupportedInTx = true → s.completes i (s.abortTx .unsupported 0 0#64)) ∧
    (∀ k x j, (s.splitOffsets x j).2 ≠ 0#32 → s.completes (.split k x j) (s.abortTx .flow 0 0#64)) ∧
    (∀ n ws, n ≠ 0#8 → s.tableWords ((n.toNat + 3) / 3) (s.cur.pkt + 1#32) = (.ok ws, u) → ws.headD 0#32 ≠ 0#32 →
      (∀ x ∈ ws.take (n.toNat + 1), x.toNat < 1048576) → s.completes (.brt a n) (u.abortTx .flow 0 0#64)) ∧
    (s.takes .exit → exec .exit s = exec .exit (s.abortTx .flow 0 0#64))

/-- R62, R63, R161, R162: an abort discards the transaction, leaves no byte of memory changed, records its code, operand and address, and puts its
path at the word after TBEGIN with the condition cleared; where its path has left its slot at a JOIN, every lane of the transaction that has not
exited is active again. That it is so in the free slot A is the model's choice, as R162 names no place (log 95). A commit whose every byte read
still stands writes the write set, the lowest lane's last write to a byte standing, and no other byte; otherwise it aborts TX_CONFLICT and writes
nothing. -/
def Obligations.TransactionsAbortOrCommitWhole : Prop :=
  ((∀ (w : Warp) (t : Tx) (p : Path) (a : Abort) (user : Nat) (x : Dword), w.tx = some t → t.left = some { p with uid := t.path } → w.a = none →
    ∃ q, (w.abort a user x).a = some q ∧ q.lanes = t.lanes &&& ~~~w.exited ∧ q.pkt = t.pkt ∧ q.wpos = t.wpos ∧ q.c.getLsbD t.cond = false ∧
      q.bank = p.bank) ∧
  ∀ (s : State) (n : Nat) (b : Bool) (t : Tx) (a : Abort) (user : Nat) (x : Dword), s.cur.who = .warp n b → s.ownTx = some t → user < 256 →
    s.otherSlot (!b) ≠ none →
    let u := s.abortTx a user x
    u.warp.tx = none ∧ u.warp.tstat.toNat = a.code + 256 * user + 65536 * (x.toNat % 281474976710656) ∧
      u.path.pkt = t.pkt ∧ u.path.wpos = t.wpos ∧ u.path.c.getLsbD t.cond = false ∧
      (∀ i, i ≠ t.cond → u.path.c.getLsbD i = s.path.c.getLsbD i) ∧ s.sameMemory u ∧ s.sameRegisters u) ∧
  (∀ (s : State) (n : Nat) (b : Bool) (t : Tx), s.cur.who = .warp n b → s.warp.tx = some t →
    (∀ c ln, c < 9 → s.here.l1Find c ln = none ∧ s.here.puts c ln = []) → (∀ h ∈ t.hints, h.2.2.1 = false) → (∀ w ∈ t.writes, w.1 < 32) →
    let u := s.commit t
    ((∀ r ∈ t.reads, s.here.byteAt s.free r.1 = r.2) → u.warp.tx = none ∧ u.warp.tstat = 0#64 ∧
      (∀ free a, (∀ w ∈ t.writes, w.2.1 ≠ a) → u.here.byteAt free a = s.here.byteAt free a) ∧
      ∀ free before l a x after, t.writes = before ++ (l, a, x) :: after → (∀ w ∈ after, ¬ (w.1 = l ∧ w.2.1 = a)) →
        (∀ w ∈ t.writes, w.2.1 = a → l ≤ w.1) → u.here.byteAt free a = x) ∧
    ((∃ r ∈ t.reads, s.here.byteAt s.free r.1 ≠ r.2) → u.warp.tx = none ∧ u.warp.tstat = 1#64 ∧ s.sameMemory u))

/-! ## Barriers, futures and the commit token -/

/-- R166, R168, R169: BNEW opens the lowest free entry under the next handle, or raises the first of its causes. -/
def Obligations.BarriersAreAllocated : Prop :=
  ∀ (s : State) (d a b : BitVec 6), s.ownTx = none → s.mayWriteS d.toNat = true →
    let off := (s.sr a).toNat
    let cfg := (s.sr b).toNat
    let one : TrapInfo := { lanes := 1#32 <<< lowLane s.active, detail := s.sr a }
    let used : Prop := ∃ i, i < 256 ∧ (s.here.barrier i).st ≠ .free ∧ (s.here.barrier i).entry = s.entry ∧ (s.here.barrier i).offset = off
    let wrong : Prop := cfg % 65536 = 0 ∨ 131072 ≤ cfg ∨ used
    (s.group.size < off + 16 → s.completes (.bnew d a b) (s.raise .localRange one)) ∧
    (off + 16 ≤ s.group.size → off % 16 ≠ 0 → s.completes (.bnew d a b) (s.raise .align one)) ∧
    (off + 16 ≤ s.group.size → off % 16 = 0 → wrong → s.completes (.bnew d a b) (s.trap .barConfig)) ∧
    (off + 16 ≤ s.group.size → off % 16 = 0 → ¬ wrong →
      ((∀ i, i < 256 → (s.here.barrier i).st ≠ .free) → s.completes (.bnew d a b) (s.trap .barFull)) ∧
      ∀ i, i < 256 → (s.here.barrier i).st = .free → (∀ j, j < i → (s.here.barrier j).st ≠ .free) →
        let g := (s.here.barrier i).g + 0x800000#24
        ∃ u, s.completes (.bnew d a b) u ∧ s.sameBarriersBut u i ∧
          u.here.barrier i = ⟨.opened, g, s.entry, off, decide (65536 ≤ cfg), !decide (65536 ≤ cfg), 0, cfg % 65536, 0, 0⟩ ∧
          u.thread.vpend = s.thread.vpend ++ [⟨s.nextId, [.s s.path.uid d.toNat],
            some [.s s.path.uid d.toNat (BitVec.ofNat 64 (256 * g.toNat + i))], none, 0#64, false⟩])

/-- R166, R168, R170 to R172: BFREE frees an open or broken entry once no engine command names it; on an open entry BEXP posts bytes and BARR
arrives, with the test of the entry after each, and BARR's ticket names the phase it arrived in; on a broken one they raise BAR_OVERSHOOT, and a
handle that is not current raises BAR_STALE. An ejected lane's BARR raises EJECT_COLLECTIVE; that the tinker's and a factor core's do so too is
the model's reading (log 57). -/
def Obligations.BarrierUpdatesComplete : Prop :=
  ∀ (s r : State) (d a b : BitVec 6), s.ownTx = none →
    let h := s.sr a
    let i := h.toNat % 256
    (s.here.barCurrent s.entry h = false → s.completes (.bfree a) (s.barTrap .barStale h) ∧ s.completes (.bexp a b) (s.barTrap .barStale h)) ∧
    (s.here.barCurrent s.entry h = true → (∃ k ∈ s.here.cmds, k.entry = s.entry ∧ ∃ y, k.bar = some y ∧ y.toNat % 256 = i ∧
        s.here.barCurrent s.entry y = true) → s.completes (.bfree a) (s.blockAt (.barrierIdle i))) ∧
    (s.here.barCurrent s.entry h = true →
      (∀ k ∈ s.here.cmds, k.entry = s.entry → ∀ y, k.bar = some y → y.toNat % 256 = i → s.here.barCurrent s.entry y = false) →
      ∃ u, s.completes (.bfree a) u ∧ u.barAt h = { s.barAt h with st := .free } ∧ s.sameBarriersBut u i ∧ s.sameRegisters u) ∧
    (s.openBar h → ((s.barAt h).xb = false ∨ 68719476736 ≤ (s.sr b).toNat) → s.completes (.bexp a b) (s.barTrap .barConfig h)) ∧
    (s.openBar h → (s.barAt h).xb = true → (s.sr b).toNat < 68719476736 →
      ∃ u, s.completes (.bexp a b) u ∧ s.sameBarriersBut u i ∧ s.sameRegisters u ∧
        u.barAt h = ({ s.barAt h with btgt := (s.barAt h).btgt + (s.sr b).toNat, p := true } : Barrier).tested) ∧
    (∀ n w, s.cur.who = .warp n w → s.mayWriteS d.toNat = true → s.openBar h → s.releaseFrom s.cur.wait 2 = (none, r) → r.barAt h = s.barAt h →
      r.path = s.path → r.cur = s.cur →
      ∃ u, s.completes (.barr d a) u ∧ r.sameBarriersBut u i ∧
        u.barAt h = ({ r.barAt h with arr := (r.barAt h).arr + 1 } : Barrier).tested ∧
        u.thread.vpend = r.thread.vpend ++ [⟨r.nextId, [.s s.path.uid d.toNat], some [.s s.path.uid d.toNat (BitVec.ofNat 64
          (i + 256 * (r.barAt h).g.toNat + if (r.barAt h).arr + 1 = (r.barAt h).atgt then 4294967296 else 0))], none, 0#64, false⟩]) ∧
    (s.here.barCurrent s.entry h = true → (s.barAt h).st = .broken → s.completes (.bexp a b) (s.barTrap .barOvershoot h) ∧
      ∀ n w, s.cur.who = .warp n w → s.mayWriteS d.toNat = true → s.completes (.barr d a) (s.barTrap .barOvershoot h)) ∧
    (∀ n w, s.cur.who = .warp n w → s.mayWriteS d.toNat = true → s.here.barCurrent s.entry h = false →
      s.completes (.barr d a) (s.barTrap .barStale h)) ∧
    ((∀ n w, s.cur.who ≠ .warp n w) → s.completes (.barr d a) (s.trap .ejectCollective))

/-- R168, R173, R341: BWAIT waits for the phase of its handle and BWAITG for its target, each ending in an acquire, or in the trap of the entry's
end; they pass the commit token on at issue, and block until the deferred words of the warp that holds it have been performed; BTEST reports
the entry and never waits. -/
def Obligations.BarrierWaitsComplete : Prop :=
  ∀ (s : State) (d a b : BitVec 6), s.ownTx = none →
    let h := s.sr a
    let i := h.toNat % 256
    let e := s.barAt h
    let gen := BitVec.ofNat 24 (h.toNat / 256)
    let target := BitVec.ofNat 24 (s.sr b).toNat
    let fresh : Prop := s.cur.wait ≠ .passed ∧ ∀ c, s.cur.wait ≠ .failed c
    let u := if s.slot < 64 then s.passToken s.cur.col s.slot else s
    let drained : Prop := ¬ (s.slot < 64 ∧ u.holdsToken u.cur.col u.slot = true ∧ u.warp.deferred ≠ [])
    (s.cur.wait = .passed → s.completes (.bwait a) (s.acquire 2).endRun ∧ s.completes (.bwaitg a b) (s.acquire 2).endRun) ∧
    (∀ c, s.cur.wait = .failed c → s.completes (.bwait a) (s.barTrap c h) ∧ s.completes (.bwaitg a b) (s.barTrap c h)) ∧
    (fresh → s.here.barCurrent s.entry h = false → s.completes (.bwait a) (s.barTrap .barStale h) ∧ s.completes (.bwaitg a b) (s.barTrap .barStale h)) ∧
    (fresh → s.here.barCurrent s.entry h = true → e.st = .broken →
      s.completes (.bwait a) (s.barTrap .barOvershoot h) ∧ s.completes (.bwaitg a b) (s.barTrap .barOvershoot h)) ∧
    (s.holdsToken s.cur.col s.slot = false → s.warp.deferred = [] → u = s ∧ drained) ∧
    (fresh → s.openBar h → u.cur = s.cur → u.barAt h = e → u.slot = s.slot →
      (¬ drained → s.completes (.bwait a) (u.blockAt .earlier) ∧ s.completes (.bwaitg a b) (u.blockAt .earlier)) ∧
      (drained → e.g ≠ gen → s.completes (.bwait a) (u.acquire 2).endRun) ∧
      (drained → e.g = gen → s.completes (.bwait a) (u.holdAt (.barrier i gen.toNat false))) ∧
      (drained → (e.g - target).toNat < 4194304 → s.completes (.bwaitg a b) (u.acquire 2).endRun) ∧
      (drained → 4194304 ≤ (e.g - target).toNat → s.completes (.bwaitg a b) (u.holdAt (.barrier i target.toNat true)))) ∧
    (s.mayWriteS d.toNat = true → s.completes (.btest d a) (s.willWriteS d (BitVec.ofNat 64
      (if s.here.barCurrent s.entry h = true then
        i + 256 * e.g.toNat + (if e.g = gen then 0 else 4294967296) + (if e.p then 8589934592 else 0) + (if e.st = .broken then 17179869184 else 0)
      else 34359738368))))

/-- R174 to R177, R346: HWAIT acts on the state it finds, HTEST reports it, HCANCEL stops the handle's command at its next pre-emption point and
then frees the handle, HGET frees it and HPUT installs what a token holds, its command known by that handle from then on. That HGET takes the
lowest free ticket, and waits while none is, is the model's choice (log 17). -/
def Obligations.FutureWordsComplete : Prop :=
  ∀ (s : State) (d : BitVec 6) (i : BitVec 4) (v : BitVec 6), s.ownTx = none →
    let h := s.handle i.toNat
    let x := s.sr v
    (h.st = .free → s.completes (.hwait i) s.endRun) ∧
    (h.st = .pending → s.completes (.hwait i) (s.holdAt (.handle i.toNat))) ∧
    (h.st = .done → s.completes (.hwait i) ((s.acquire (if h.unit = 3 then 7 else 4)).setHandle i.toNat {}).endRun) ∧
    (h.st = .faulted → s.completes (.hwait i) (s.raise .futureFault
      { lanes := s.active, detail := BitVec.ofNat 64 (i.toNat + 256 * h.unit + 65536 * h.code + 4294967296 * (h.record % 65536)) })) ∧
    (s.mayWriteS d.toNat = true → s.completes (.htest d i) (s.willWriteS d (BitVec.ofNat 64 (
      match h.st with
      | .free => 16 * h.unit
      | .pending => 1 + 16 * h.unit
      | .done => 2 + 16 * h.unit
      | .faulted => 3 + 16 * h.unit + 256 * h.code)))) ∧
    ((h.st = .free ∨ h.st = .done ∨ h.unit = 3) → (∀ c, s.cur.wait ≠ .command c) → s.completes (.hcancel i) (s.setHandle i.toNat {})) ∧
    ((h.st = .pending ∨ h.st = .faulted) → h.unit ≠ 3 → (∀ c, s.cur.wait ≠ .command c) → s.here.cmd h.cmd = none →
      s.completes (.hcancel i) ((s.setFuture s.cur.col h.cmd fun _ => {}).setHandle i.toNat {})) ∧
    (∀ k, (h.st = .pending ∨ h.st = .faulted) → h.unit ≠ 3 → (∀ c, s.cur.wait ≠ .command c) → s.here.cmd h.cmd = some k →
      (k.atStop = false → s.completes (.hcancel i)
        ((s.updHere fun c => { c with cmds := c.cmds.map fun q => if q.id = h.cmd then { k with cancel := true } else q }).blockAt (.command h.cmd))) ∧
      (k.atStop = true → ∃ t, s.completes (.hcancel i) t ∧ t.here.cmd h.cmd = none ∧ t.handle i.toNat = {} ∧ s.sameRegisters t ∧ s.sameMemory t ∧
        ∀ c, ∀ cl ∈ (t.col c).bay.claims, cl.cmd ≠ h.cmd)) ∧
    (∀ c, s.cur.wait = .command c → h.cmd ≠ c → s.completes (.hcancel i) s) ∧
    (s.mayWriteS d.toNat = true → h.st ≠ .free → (∀ n, n < 65536 → Tab.find? s.group.tickets n ≠ none) →
      s.completes (.hget d i) (s.blockAt .ticket)) ∧
    (s.mayWriteS d.toNat = true → h.st = .free → s.completes (.hget d i) (s.willWriteS d 0#64)) ∧
    (s.mayWriteS d.toNat = true → h.st ≠ .free → ∀ n, n < 65536 → Tab.find? s.group.tickets n = none →
      (∀ m, m < n → Tab.find? s.group.tickets m ≠ none) →
      s.completes (.hget d i) (((s.setHandle i.toNat {}).updHere fun c =>
        c.setGroup s.entry { c.group s.entry with tickets := Tab.put (c.group s.entry).tickets n h }).willWriteS d
          (BitVec.ofNat 64 (9223372036854775808 + n)))) ∧
    (h.st = .free ∨ h.st = .done → x = 0#64 → s.completes (.hput i v) (s.setHandle i.toNat {})) ∧
    (h.st = .free ∨ h.st = .done → ∀ n k, n < 65536 → x.toNat = 9223372036854775808 + n → Tab.find? s.group.tickets n = some k →
      s.completes (.hput i v) ((s.setHandle i.toNat k).updHere fun c =>
        let y := c.setGroup s.entry { c.group s.entry with tickets := Tab.erase (c.group s.entry).tickets n }
        { y with cmds := y.cmds.map fun (q : Command) => if q.id = k.cmd ∧ k.unit ≠ 3 then { q with slot := s.slot, handle := i.toNat } else q })) ∧
    (h.st ≠ .pending → x ≠ 0#64 → (∀ n, n < 65536 → x.toNat = 9223372036854775808 + n → Tab.find? s.group.tickets n = none) →
      s.completes (.hput i v) (s.trap .futureStale))

/-- R158, R178, R342: outside a deterministic launch TOKWAIT and TOKPASS do nothing; inside one, TOKWAIT waits for the token and acquires at
column scope, and TOKPASS releases at column scope and hands it on, or does nothing without it. There a store, an ATOM or a float reduction
to a page marked SHG enters its warp's deferred queue of 8, blocks when that is full, and is begun at once where the warp holds the token and
the queue is empty; another reduction is not deferred; and a word on a line that a queued entry addresses blocks. -/
def Obligations.TokenAndDeferredWordsComplete : Prop :=
  (∀ (s r : State), s.ownTx = none →
    (s.isDet = false → s.completes .tokwait s ∧ s.completes .tokpass s) ∧
    (s.isDet = true → s.holdsToken s.cur.col s.slot = true → s.completes .tokwait (s.acquire 4).endRun) ∧
    (s.isDet = true → s.holdsToken s.cur.col s.slot = false → s.completes .tokwait (s.holdAt .token) ∧ s.completes .tokpass s) ∧
    (s.isDet = true → s.holdsToken s.cur.col s.slot = true → s.releaseFrom s.cur.wait 4 = (none, r) →
      s.completes .tokpass (r.passToken r.cur.col r.slot))) ∧
  ∀ (s u : State) (d a b : BitVec 6) (d4 : BitVec 4) (p : BitVec 5) (z : BitVec 2) (i : BitVec 8) (pas : List (Nat × Nat)) (n : Nat) (w : Bool),
    let one (s : State) := [(lowLane s.active, s.sr a + s.scalarOffset i)]
    let accs (size r : Nat) : List Acc := pas.map fun q => ⟨q.1, q.2, size, u.laneData size r q.1, 0⟩
    let atBay (o : MemOp × State) : MemOp × State := ({ o.1 with bypass := true }, o.2)
    let float : Need := { size := 4, r := true, w := true, atom := true }
    let atom (op size r : Nat) : MemOp × State :=
      let regs := (List.range (size / 4)).map (r + ·)
      let v := u.pendVl (regs.map fun x => .v x u.writeLanes) none
      let o := v.2.newOp (.atom op) (pas.map fun q => ⟨q.1, q.2, size, u.laneData size r q.1, (lane (u.readV (r + 1)) q.1).toNat⟩) (u.laneAddrs a b)
      ({ o.1 with dest := regs, lanes := u.writeLanes, vid := v.1, bypass := true }, o.2)
    let words : List (Instr × Need × List (Nat × Dword) × (MemOp × State)) :=
      [(.st d a b z, { size := 2 ^ z.toNat, w := true }, s.laneAddrs a b, u.newOp .store (accs (2 ^ z.toNat) d.toNat) (u.laneAddrs a b)),
       (.stQ d4 a b, { size := 16, w := true }, s.laneAddrs a b, u.newOp .store (accs 16 (4 * d4.toNat)) (u.laneAddrs a b)),
       (.sst d a i, { size := 8, w := true }, one s,
         let o := u.newOp .store (pas.map fun q => ⟨q.1, q.2, 8, (u.sr d).toNat, 0⟩) (one u)
         ({ o.1 with scalar := true }, o.2)),
       (.redFadd d a b, float, s.laneAddrs a b, u.newOp (.red 3) (accs 4 d.toNat) (u.laneAddrs a b)),
       (.redBayFadd d a b, float, s.laneAddrs a b, atBay (u.newOp (.redBay 3) (accs 4 d.toNat) (u.laneAddrs a b)))] ++
      ([(Instr.atomAdd d a b, 0), (.atomMin d a b, 1), (.atomMax d a b, 2), (.atomAnd d a b, 3), (.atomOr d a b, 4), (.atomXor d a b, 5),
        (.atomXchg d a b, 6), (.atomMinu d a b, 8), (.atomMaxu d a b, 9), (.atomInc d a b, 10), (.atomDec d a b, 11),
        (.atomFadd d a b, 12), (.atomFmin d a b, 13), (.atomFmax d a b, 14)].map fun e => (e.1, float, s.laneAddrs a b, atom e.2 4 d.toNat)) ++
      [(.atomCas p a b, float, s.laneAddrs a b, atom 7 4 (2 * p.toNat)),
       (.atomAdd64 p a b, { float with size := 8 }, s.laneAddrs a b, atom 15 8 (2 * p.toNat))]
    s.cur.who = .warp n w →
    (∀ e ∈ words, s.passes e.2.1 e.2.2.1 u pas true → u.isDet = true →
      (8 ≤ u.warp.deferred.length → s.completes e.1 (u.blockAt .earlier)) ∧
      (u.warp.deferred.length < 8 → u.holdsToken u.cur.col n = false → s.completes e.1 (e.2.2.2.2.enters e.2.2.2.1)) ∧
      (u.warp.deferred = [] → u.holdsToken u.cur.col n = true → s.completes e.1 (e.2.2.2.2.entersAndBegins e.2.2.2.1))) ∧
    (∀ shg, s.passes float (s.laneAddrs a b) u pas shg →
      ∀ e ∈ [(Instr.redAdd d a b, Instr.redBayAdd d a b, 0), (.redMin d a b, .redBayMin d a b, 1), (.redMax d a b, .redBayMax d a b, 2)],
        s.completes e.1 (u.beginsOp (.red e.2.2) (accs 4 d.toNat) (u.laneAddrs a b)) ∧
        s.completes e.2.1 (u.beginsAtBay (.redBay e.2.2) (accs 4 d.toNat) (u.laneAddrs a b))) ∧
    (∀ (r : List (Nat × Dword × Checked)) (need : Need) (j : Instr) (addrs : List (Nat × Dword)),
      s.ownTx = none → (j, need, addrs) ∈ (words.map fun e => (e.1, e.2.1, e.2.2.1)) ++
        [(.ld d a b z, { size := 2 ^ z.toNat, r := true }, s.laneAddrs a b), (.ldsB d a b, { size := 1, r := true }, s.laneAddrs a b),
         (.ldsH d a b, { size := 2, r := true }, s.laneAddrs a b), (.ldQ d4 a b, { size := 16, r := true }, s.laneAddrs a b),
         (.ldAcqW d a b, { size := 4, r := true }, s.laneAddrs a b), (.ldAcqD p a b, { size := 8, r := true }, s.laneAddrs a b),
         (.redAdd d a b, float, s.laneAddrs a b), (.redMin d a b, float, s.laneAddrs a b), (.redMax d a b, float, s.laneAddrs a b),
         (.redBayAdd d a b, float, s.laneAddrs a b), (.redBayMin d a b, float, s.laneAddrs a b), (.redBayMax d a b, float, s.laneAddrs a b)] ++
        (if s.mayWriteS d.toNat then [(.sld d a i, { size := 8, r := true }, one s)] else []) →
      s.checkLanes need addrs = (r, u) → worst r = none → u.lineDeferred (passed r) = true → s.completes j (u.blockAt .earlier)) ∧
    (∀ (r : List (Nat × Dword × Checked)) (need : Need) (j : Instr), s.ownTx = none → u.cur.wait ≠ .hosted →
      (j, need) ∈ [(Instr.pf a b, { size := 1, r := true }), (.cclean a b, { size := 1 }), (.cinv a b, { size := 1 })] →
      s.checkLanes need (s.laneAddrs a b) = (r, u) → (∀ e ∈ r, ∀ pa, e.2.2 ≠ .bad .cross pa) →
      u.lineDeferred ((passed r).filter fun q => decide (q.2 / 4294967296 ≠ 1)) = true → s.completes j (u.blockAt .earlier))

/-! ## System words -/

/-- R181, R182, R183, R203: CLKR writes %time and %clk, PERF a counter, EJCTL the old ejection control while it takes the new one, its limit from the next
cycle on; SIGNAL
sends its vector after a release at host scope, and LAUNCH hands its record to the distributor after one at device scope. That EJCTL raises
ILLEGAL before DIVERGENT_SCALAR is the model's reading of R46 (log 38). -/
def Obligations.SystemWordsComplete : Prop :=
  ∀ (s r : State) (e : BitVec 5) (d a b : BitVec 6) (h : BitVec 4) (task rcb : Nat),
    (s.mayWriteS (2 * e.toNat) = true → s.completes (.clkr e)
      ((s.putS 2 (2 * e.toNat) (BitVec.ofNat 64 s.time)).putS 2 (2 * e.toNat + 1) (BitVec.ofNat 64 s.clk))) ∧
    (s.mayWriteS (2 * e.toNat) = false → s.completes (.clkr e) (s.trap .divergentScalar)) ∧
    (s.mayWriteS d.toNat = true → s.completes (.perf d b) (s.putS 2 d.toNat (BitVec.ofNat 64 (
      if b.toNat = 0 then s.clk
      else if b.toNat ≤ 8 then Tab.get 0 s.here.perf (16 * s.launchId + b.toNat)
      else if 32 ≤ b.toNat ∧ b.toNat ≤ 50 then Tab.get 0 s.here.bay.counts (64 * s.ctxNum + b.toNat)
      else if 51 ≤ b.toNat ∧ b.toNat ≤ 55 then Tab.get 0 s.here.bay.counts b.toNat
      else 0)))) ∧
    (let v := s.sr a
     let legal : Prop := v.toNat / 274877906944 = 0 ∧ v.toNat / 32 % 2048 = 0 ∧ v.toNat % 16 ≤ 8
     (¬ legal → s.completes (.ejctl d a) s.illegal) ∧
     (legal → s.mayWriteS d.toNat = false → s.completes (.ejctl d a) (s.trap .divergentScalar)) ∧
     (∀ n w, s.cur.who = .warp n w → legal → s.mayWriteS d.toNat = true → ∃ t, s.completes (.ejctl d a) t ∧
       t.warp.ejt.toNat = v.toNat % 16 ∧ t.warp.rt = decide (v.toNat / 16 % 2 = 1) ∧ t.warp.limitNext.map (·.toNat) = some (v.toNat / 65536 % 65536) ∧ t.warp.limit = s.warp.limit ∧
       t.thread.pend = s.thread.pend ++ [⟨.s s.path.uid d.toNat (BitVec.ofNat 64 (s.warp.ejt.toNat + (if s.warp.rt then 16 else 0) +
         65536 * (s.warp.limitNext.getD s.warp.limit).toNat + 4294967296 * (laneCount (s.here.lanesOut n) % 64))), s.clk + 2⟩])) ∧
    (s.releaseFrom s.cur.wait 8 = (none, r) →
      let region := r.regionOf r.launchId
      let f := (r.node region).fn
      ((r.host.fn f).region = some region → (r.sr a).toNat % 2048 < (r.host.fn f).msix → s.completes (.signal a)
        { r with host := { r.host with msix := r.host.msix ++ [(f, (r.sr a).toNat % 2048)] } }) ∧
      ((r.host.fn f).region ≠ some region ∨ (r.host.fn f).msix ≤ (r.sr a).toNat % 2048 → s.completes (.signal a) r)) ∧
    ((s.handle h.toNat).st = .pending → s.completes (.launch a b h) (s.blockAt (.handle h.toNat))) ∧
    ((s.handle h.toNat).st ≠ .pending → offsetIn s.gcol (s.sr a) = some task → offsetIn s.gcol (s.sr b) = some rcb →
      s.releaseFrom s.cur.wait 7 = (none, r) → (r.handle h.toNat).st ≠ .faulted → (∃ n w, r.cur.who = .warp n w) →
      ∃ t, s.completes (.launch a b h) t ∧
        t.dist.submits = r.dist.submits ++
          [⟨r.cur.col, r.nextId, r.ctxNum, r.launchId, task, r.cur.col, if r.sr b = 0#64 then none else some rcb, none⟩] ∧
        Tab.get {} t.warp.h h.toNat = { st := .pending, unit := 3, cmd := r.nextId } ∧ r.sameMemory t ∧ r.sameRegisters t)

/-! ## The tinker's words -/

/-- R46, R77, R184, R185, R186, R348: outside the tinker and the factor cores ERET, TLBI, WINR and WINW are ILLEGAL. In the tinker WINR reads
and WINW writes the state of a stopped or parked warp, and a write to another is dropped; ERET ends the handling of its event and lets the
agent go on; TLBI drops the entries that it names and waits. -/
def Obligations.PrivilegedWordsComplete : Prop :=
  ∀ (s : State) (d a b : BitVec 6),
    (s.cur.pfx = none → (∀ f, s.cur.who ≠ .factor f) → s.cur.who ≠ .tinker →
      exec (.eret a) s = .next s.illegal ∧ exec (.tlbi a b) s = .next s.illegal ∧ exec (.winr d a) s = .next s.illegal ∧
        exec (.winw a b) s = .next s.illegal) ∧
    (s.cur.who = .tinker →
      let x := s.here
      let win := s.sr a
      let slot := win.toNat / 70368744177664 % 64
      let i := win.toNat % 2199023255552
      let l := win.toNat / 2199023255552 % 32
      let space := win.toNat / 4503599627370496 % 16
      let w := x.warp slot
      let quiet : Prop := w.th.pend = [] ∧ w.th.vpend = []
      let mends : Prop := w.live = true ∧ (w.stop ≠ none ∨ w.rejoin = .parked)
      (quiet → s.mayWriteS d.toNat = true →
        (space = 0 → i < 64 → s.completes (.winr d a) (s.putS 2 d.toNat ((lane (Tab.get 0#1024 w.th.v i) l).setWidth 64))) ∧
        (space = 1 → i < 48 → s.completes (.winr d a) (s.putS 2 d.toNat (Tab.get 0#64 w.th.s i))) ∧
        (space = 2 → 8 < i → i < 16 → s.completes (.winr d a) (s.putS 2 d.toNat ((Tab.get 0#32 w.th.k (i - 8)).setWidth 64))) ∧
        (8 ≤ space → s.completes (.winr d a) (s.putS 2 d.toNat 0#64))) ∧
      (space ≠ 7 → ¬ mends → s.completes (.winw a b) s) ∧
      (quiet → mends → space = 0 → i < 64 → ∃ t, s.completes (.winw a b) t ∧
        (∀ j m, m < 32 → lane (Tab.get 0#1024 (t.here.warp slot).th.v j) m =
          if j = i ∧ m = l then (s.sr b).setWidth 32 else lane (Tab.get 0#1024 w.th.v j) m) ∧
        (t.here.warp slot).th.k = w.th.k ∧ (t.here.warp slot).th.s = w.th.s ∧ s.sameMemory t) ∧
      (quiet → mends → space = 1 → i < 48 → ∃ t, s.completes (.winw a b) t ∧
        (∀ j, Tab.get 0#64 (t.here.warp slot).th.s j = if j = i then s.sr b else Tab.get 0#64 w.th.s j) ∧
        (t.here.warp slot).th.v = w.th.v ∧ (t.here.warp slot).th.k = w.th.k ∧ s.sameMemory t) ∧
      (x.tinker.serving = none → ∃ t, s.completes (.eret a) t ∧ t.here.tinker.serving = none ∧ t.here.tinker.path.lanes = 0#32 ∧
        t.here.warps = x.warps) ∧
      (∀ e k after, x.tinker.serving = some e → s.eventHeld s.cur.col e = true → e.note = false → e.tier = 0 →
        (x.warp e.slot.toNat).stop = some k → k.slotB = false → (s.sr a).toNat % 4 = (if after then 1 else 0) →
        (x.resume e after).pathsOk e.slot.toNat = true →
        ∃ t, s.completes (.eret a) t ∧ t.here.tinker.serving = none ∧ (t.here.warp e.slot.toNat).stop = none ∧
          (t.here.warp e.slot.toNat).a = (x.warp e.slot.toNat).a.map fun p =>
            if after then { p with pkt := k.nextPkt, wpos := k.nextPos, fresh := decide (k.nextPos = 0) } else p) ∧
      ((s.sr b).toNat % 2 = 0 → ∃ t, s.completes (.tlbi a b) t ∧ t.path.wait = .tlbi ∧ s.sameMemory t ∧ s.sameRegisters t ∧
        ∀ e, (e ∈ t.here.l1tlb ↔ e ∈ x.l1tlb ∧ (e.ctx ≠ (s.sr b).toNat / 65536 % 65536 ∨ ((s.sr b).toNat / 2 % 2 = 0 ∧
            e.covers ((s.sr b).toNat / 65536 % 65536) ((s.sr a).toNat / 65536 % 4294967296 * 65536) = false))) ∧
          (e ∈ t.here.l2tlb ↔ e ∈ x.l2tlb ∧ (e.ctx ≠ (s.sr b).toNat / 65536 % 65536 ∨ ((s.sr b).toNat / 2 % 2 = 0 ∧
            e.covers ((s.sr b).toNat / 65536 % 65536) ((s.sr a).toNat / 65536 % 4294967296 * 65536) = false))))) ∧
    (∀ n, s.cur.who = .factor n → ∃ t, s.completes (.eret a) t ∧ (t.factor n).path.pkt = (s.factor n).saved.1 ∧
      (t.factor n).path.wpos = (s.factor n).saved.2 ∧ (t.factor n).cause = 0)

/-- R119, R184, R185, R256, R348, R349, R350: in the tinker, what the debug window's items of a warp's banks, handles, paths, path stack, local store,
barriers and lane contexts read, and what a write to each does to a warp or context that is stopped or parked; how a path stack lies in its
bytes; and ERET's actions on a notification, on a trap in slot B or of an ejected lane, on a group and on a launch, with the check of the path
state. The tinker's own commands restart and cancel through items too. What a PC slot without a path holds is the model's choice (log 115). -/
def Obligations.DebugWindowAndEretComplete : Prop :=
  (∀ (k : PathStack), k.bytes.length = 1024 ∧ fieldOf k.bytes 0x3C0 2 = k.epoch.toNat ∧
    (k.raw = none → fieldOf k.bytes 0x3C2 1 = ((List.range 5).filter fun f => decide ((k.frame f).kind ≠ 0#8)).length ∧
      fieldOf k.bytes 0x3C3 1 = k.order.headD 255 % 256) ∧ (∀ i, 0x3C4 ≤ i → i < 1024 → k.bytes[i]? = some 0#8) ∧
    ∀ f, f < 5 → let b := (k.bytes.drop (192 * f)).take 192
      let r := k.frame f
      fieldOf b 0 1 = r.kind.toNat ∧ fieldOf b 1 1 = r.c.toNat ∧ fieldOf b 2 2 = r.epoch.toNat ∧ fieldOf b 4 4 = r.join.toNat ∧
      fieldOf b 8 4 = r.lanes.toNat ∧ fieldOf b 0xC 4 = r.aux.toNat ∧ fieldOf b 0x10 1 = r.link.toNat ∧ fieldOf b 0x11 1 = r.wpos.toNat ∧
      fieldOf b 0x12 46 = 0 ∧ ∀ i, i < 16 → fieldOf b (0x40 + 8 * i) 8 = (Tab.get 0#64 r.bank (48 + i)).toNat) ∧
  (∀ (x : Column) (n : Nat), let w := x.warp n
    let opened (k : PathStack) (t : Token) : Prop := ∃ f, f < 5 ∧ (k.frame f).kind = 1#8 ∧ (k.frame f).join = t.join ∧ (k.frame f).epoch = t.epoch
    let linked (k : PathStack) : Prop := ∀ f, f < 5 → (k.frame f).kind ≠ 0#8 → (k.frame f).link = 0xFF#8 ∨ (k.frame (k.frame f).link.toNat).kind = 1#8
    let top := w.stack.control.2.toNat
    x.pathsOk n = true ↔
      (∀ l, l < 32 → (((w.a.toList ++ w.b.toList).map (·.lanes) ++ [x.lanesOut n] ++ ((List.range 5).filter fun f => decide ((w.stack.frame f).kind = 2#8)).map (fun f =>
          (w.stack.frame f).lanes) ++ ((List.range 5).filter fun f => decide ((w.stack.frame f).kind = 1#8)).map (fun f => (w.stack.frame f).aux)).filter
        fun m => m.getLsbD l).length = if w.exited.getLsbD l = true then 0 else 1) ∧
      linked w.stack ∧
      (if top = 255 then ∀ f, f < 5 → (w.stack.frame f).kind ≠ 2#8 else top < 5 ∧ (w.stack.frame top).kind = 2#8) ∧
      (∀ p ∈ w.a.toList ++ w.b.toList, ∀ t, p.token = some t → opened w.stack t) ∧
      ∀ i ∈ x.ctxsOut n, let k := x.ctx i
        opened w.stack k.home ∧ (∀ t, k.path.token = some t → t = k.home ∨ opened k.stack t) ∧ linked k.stack) ∧
  ∀ (s : State) (d a b : BitVec 6), s.cur.who = .tinker →
    let x := s.here
    let win := s.sr a
    let slot := win.toNat / 70368744177664 % 64
    let i := win.toNat % 2199023255552
    let space := win.toNat / 4503599627370496 % 16
    let w := x.warp slot
    let c := x.ctx slot
    let quiet : Prop := w.th.pend = [] ∧ w.th.vpend = []
    let quiet7 : Prop := c.th.pend = [] ∧ c.th.vpend = []
    let num (y : List Byte) (n : Nat) : Nat := natOfBytes ((y.drop (8 * n)).take 8)
    let pc (p : Path) : Nat := 9223372036854775808 + 4294967296 * (p.wpos % 4) + p.pkt.toNat
    let token (t : Option Token) : Nat := match t with | some t => 9223372036854775808 + 4294967296 * t.epoch.toNat + t.join.toNat | none => 0
    let reads (v : Nat) : Prop := s.completes (.winr d a) (s.putS 2 d.toNat (BitVec.ofNat 64 v))
    let v := s.sr b
    let pos := v.toNat / 4294967296 % 4
    let asToken : Option Token := if 9223372036854775808 ≤ v.toNat then some ⟨v.setWidth 32, BitVec.ofNat 16 (v.toNat / 4294967296)⟩ else none
    let stored (old new : PathStack) (n : Nat) : Prop := ∀ m, m < 128 → num new.bytes m = if m = n then
        (if 120 < n ∨ (n < 120 ∧ 3 ≤ n % 24 ∧ n % 24 < 8) then 0 else if n = 120 then v.toNat % 4294967296
         else if n % 24 = 2 then v.toNat % 65536 else v.toNat) else num old.bytes m
    let mends : Prop := w.live = true ∧ (w.stop ≠ none ∨ w.rejoin = .parked)
    let mends7 : Prop := slot < 32 ∧ c.live = true ∧ (c.stop ≠ none ∨ (x.warp c.slot).rejoin = .parked)
    (quiet → s.mayWriteS d.toNat = true →
      (∀ p, w.a = some p → (space = 1 → 48 ≤ i → i < 64 → reads (Tab.get 0#64 p.bank i).toNat) ∧ (space = 2 → i = 0 → reads p.c.toNat) ∧
        (space = 4 → i = 0 → reads (pc p)) ∧ (space = 4 → i = 2 → reads p.lanes.toNat) ∧ (space = 4 → i = 4 → reads (token p.token))) ∧
      (∀ p, w.b = some p → (space = 1 → 64 ≤ i → i < 80 → reads (Tab.get 0#64 p.bank (i - 16)).toNat) ∧ (space = 2 → i = 1 → reads p.c.toNat) ∧
        (space = 4 → i = 1 → reads (pc p)) ∧ (space = 4 → i = 3 → reads p.lanes.toNat) ∧ (space = 4 → i = 5 → reads (token p.token))) ∧
      (∀ p, (w.a = none → space = 4 → i = 0 → p = w.idleA → reads (pc p - 9223372036854775808)) ∧
        (w.b = none → space = 4 → i = 1 → p = w.idleB → reads (pc p - 9223372036854775808))) ∧
      (space = 3 → i < 16 → let h := Tab.get ({} : Handle) w.h i
        reads (match h.st with | .free => 16 * h.unit | .pending => 1 + 16 * h.unit | .done => 2 + 16 * h.unit | .faulted => 3 + 16 * h.unit + 256 * h.code)) ∧
      (space = 3 → 16 ≤ i → i < 32 → reads 0) ∧
      (space = 4 → i = 6 → reads (4294967296 * ((if w.rejoin = .waiting then ((s.clk : Int) - w.timerFrom).toNat else w.timer) % 4294967296) +
        match w.rejoin with | .running => 0 | .waiting => 1 | .parked => 2)) ∧
      (space = 4 → i = 7 → reads (w.ejt.toNat + (if w.rt then 16 else 0) + 65536 * (w.limitNext.getD w.limit).toNat + 4294967296 * (laneCount (x.lanesOut slot) % 64))) ∧
      (space = 4 → i = 8 → (x.tinker.serving.any (·.note)) = false →
        reads ((if w.stop ≠ none then 1 else 0) + (if w.rejoin = .parked then 2 else 0) + (if w.stop.any (·.served) = true then 4 else 0) +
          256 * ((w.stop.map (·.cause.code)).getD 0))) ∧
      (space = 4 → 64 ≤ i → i < 192 → reads (num w.stack.bytes (i - 64))) ∧
      (space = 5 → w.live = true → i % 8 = 0 → i < (x.group w.entry).size → reads (natOfBytes (Memory.readBytes (x.group w.entry).store i 8))) ∧
      (∀ n, space = 5 → w.live = true → (x.warp n).live = true → (x.warp n).entry = w.entry → (∀ m, m < 64 → (x.warp m).live = true → (x.warp m).entry = w.entry →
          (x.warp m).index = (x.warp n).index → m = n) → n < 64 → (x.warp n).index < (x.group w.entry).warps →
        ∀ j, j < 128 → (x.group w.entry).size % 8 = 0 → i = (x.group w.entry).size + 1024 * (x.warp n).index + 8 * j → reads (num (x.warp n).stack.bytes j)) ∧
      (space = 6 → i < 512 → let e := x.barrier (i / 2)
        reads (if i % 2 = 1 then e.offset else (match e.st with | .free => 0 | .opened => 1 | .broken => 2) + 256 * e.g.toNat +
          (if e.xb then 4294967296 else 0) + if e.p then 8589934592 else 0))) ∧
    (quiet7 → s.mayWriteS d.toNat = true → space = 7 → slot < 32 →
      (i < 64 → reads (lane (Tab.get 0#1024 c.th.v i) c.lane).toNat) ∧ (64 ≤ i → i < 80 → reads (Tab.get 0#64 c.path.bank (i - 16)).toNat) ∧
      (i = 80 → ∃ y, reads y ∧ y < 32768 ∧ y % 256 = c.path.c.toNat ∧
        ∀ k, 1 ≤ k → k < 8 → y.testBit (7 + k) = (Tab.get 0#32 c.th.k k).getLsbD c.lane) ∧
      (i = 81 → c.live = true → reads (pc c.path)) ∧ (i = 82 → reads (token c.path.token)) ∧ (i = 83 → c.lane < 256 → reads (c.lane + 256 * c.slot)) ∧
      (i = 84 → reads c.stack.epoch.toNat) ∧ (128 ≤ i → i < 248 → reads (num c.stack.bytes (i - 128)))) ∧
    (let wrote (p : State → Prop) : Prop := ∃ t, s.completes (.winw a b) t ∧ (∀ n, n ≠ slot → t.here.warp n = x.warp n) ∧ t.here.ctxs = x.ctxs ∧ p t
     let becomes (k : Warp) : Prop := wrote fun t => t.here.warp slot = k ∧ s.sameMemory t
     quiet → mends →
      (∀ p, w.a = some p → (space = 1 → 48 ≤ i → i < 64 → wrote fun t => ∃ q, t.here.warp slot = { w with a := some { p with bank := q } } ∧
          ∀ j, Tab.get 0#64 q j = if j = i then v else Tab.get 0#64 p.bank j) ∧
        (space = 2 → i = 0 → becomes { w with a := some { p with c := v.setWidth 8 } }) ∧
        (space = 4 → i = 2 → becomes { w with a := some { p with lanes := v.setWidth 32 } }) ∧
        (space = 4 → i = 4 → becomes { w with a := some { p with token := asToken } }) ∧
        (space = 4 → i = 0 → pos ≠ 3 → wrote fun t => (t.here.warp slot).b = w.b ∧ (t.here.warp slot).stack = w.stack ∧ (t.here.warp slot).a =
          if 9223372036854775808 ≤ v.toNat then some { p with pkt := v.setWidth 32, wpos := pos, fresh := decide (pos = 0) } else none)) ∧
      (∀ p, w.b = some p → (space = 1 → 64 ≤ i → i < 80 → wrote fun t => ∃ q, t.here.warp slot = { w with b := some { p with bank := q } } ∧
          ∀ j, Tab.get 0#64 q j = if j + 16 = i then v else Tab.get 0#64 p.bank j) ∧
        (space = 2 → i = 1 → becomes { w with b := some { p with c := v.setWidth 8 } }) ∧
        (space = 4 → i = 3 → becomes { w with b := some { p with lanes := v.setWidth 32 } }) ∧
        (space = 4 → i = 5 → becomes { w with b := some { p with token := asToken } }) ∧
        (space = 4 → i = 1 → pos ≠ 3 → wrote fun t => (t.here.warp slot).a = w.a ∧ (t.here.warp slot).stack = w.stack ∧ (t.here.warp slot).b =
          if 9223372036854775808 ≤ v.toNat then some { p with pkt := v.setWidth 32, wpos := pos, fresh := decide (pos = 0) } else none)) ∧
      (space = 4 → i < 2 → (if i = 0 then w.a else w.b) = none → 9223372036854775808 ≤ v.toNat → pos ≠ 3 → wrote fun t =>
        (if i = 0 then (t.here.warp slot).a else (t.here.warp slot).b).map (fun q => (q.pkt, q.wpos, q.lanes, q.token)) =
          some (v.setWidth 32, pos, (if i = 0 then w.idleA else w.idleB).lanes, (if i = 0 then w.idleA else w.idleB).token)) ∧
      (space = 2 → 8 < i → i < 16 → wrote fun t => (t.here.warp slot).a = w.a ∧ (t.here.warp slot).b = w.b ∧ (t.here.warp slot).th.v = w.th.v ∧
        (t.here.warp slot).th.s = w.th.s ∧
        ∀ j, Tab.get 0#32 (t.here.warp slot).th.k j = if j + 8 = i then v.setWidth 32 else Tab.get 0#32 w.th.k j) ∧
      (space = 4 → i = 6 → v.toNat % 4 ≠ 3 → wrote fun t => let k := t.here.warp slot
        k.rejoin = (if v.toNat % 4 = 0 then .running else if v.toNat % 4 = 1 then .waiting else .parked) ∧ k.timerAt t.clk = v.toNat / 4294967296 ∧
          k.a = w.a ∧ k.b = w.b ∧ k.stack = w.stack) ∧
      (space = 4 → i = 7 → v.toNat / 274877906944 = 0 → v.toNat / 32 % 2048 = 0 → v.toNat % 16 ≤ 8 →
        becomes { w with ejt := v.setWidth 4, rt := decide (v.toNat / 16 % 2 = 1), limitNext := some (BitVec.ofNat 16 (v.toNat / 65536)) }) ∧
      (space = 4 → 64 ≤ i → i < 192 → wrote fun t => stored w.stack (t.here.warp slot).stack (i - 64) ∧ (t.here.warp slot).a = w.a ∧
        (t.here.warp slot).b = w.b) ∧
      (space = 5 → i % 8 = 0 → i < (x.group w.entry).size → ∃ t, s.completes (.winw a b) t ∧ t.here.warp slot = w ∧
        ∀ m, Memory.read (t.here.group w.entry).store m = if i ≤ m ∧ m < i + 8 then BitVec.ofNat 8 (v.toNat / 256 ^ (m - i)) else
          Memory.read (x.group w.entry).store m) ∧
      (((space = 2 ∧ i = 8) ∨ (space = 3 ∧ i < 16) ∨ (space = 4 ∧ i = 8) ∨ space = 6) → becomes w) ∧
      (space = 3 → 16 ≤ i → i < 32 → let h := Tab.get ({} : Handle) w.h (i - 16)
        let after (t : State) : Handle := Tab.get ({} : Handle) (t.here.warp slot).h (i - 16)
        (v = 2#64 → (h.st = .free ∨ h.st = .done ∨ h.unit = 3) → ∃ t, s.completes (.winw a b) t ∧ after t = {} ∧ s.sameMemory t) ∧
        (∀ k, v = 2#64 → (h.st = .pending ∨ h.st = .faulted) → h.unit ≠ 3 → x.cmd h.cmd = some k → ∃ t, s.completes (.winw a b) t ∧ s.sameMemory t ∧
          if k.atStop = true then t.here.cmd h.cmd = none ∧ after t = {} else t.here.cmd h.cmd = some { k with cancel := true } ∧ after t = h) ∧
        (∀ k, v = 1#64 → h.st = .faulted → h.unit ≤ 2 → x.cmd h.cmd = some k →
          (h.unit ≠ 2 → let rep := (recOf k.kind.gathers (Memory.readBytes (x.group k.entry).store k.offset (recSize k.kind.gathers))).rep
            fieldOf (Memory.readBytes (x.group k.entry).store k.offset (recSize k.kind.gathers)) (rep + 0x0D) 1 = 1) →
          ∃ t, s.completes (.winw a b) t ∧ (t.here.cmd h.cmd).map (·.st) = some .queued ∧ (after t).st = .pending ∧ (after t).code = 0 ∧
            (after t).cmd = h.cmd))) ∧
    (space = 7 → ¬ mends7 → s.completes (.winw a b) s) ∧
    (let wrote (p : LaneCtx → Prop) : Prop := ∃ t, s.completes (.winw a b) t ∧ (∀ n, n ≠ slot → t.here.ctx n = x.ctx n) ∧ t.here.warps = x.warps ∧
       s.sameMemory t ∧ p (t.here.ctx slot)
     quiet7 → mends7 → space = 7 →
      (i < 64 → wrote fun k => k.path = c.path ∧ ∀ j m, m < 32 → lane (Tab.get 0#1024 k.th.v j) m =
        if j = i ∧ m = c.lane then v.setWidth 32 else lane (Tab.get 0#1024 c.th.v j) m) ∧
      (64 ≤ i → i < 80 → wrote fun k => k.th.v = c.th.v ∧ ∀ j, Tab.get 0#64 k.path.bank j = if j + 16 = i then v else Tab.get 0#64 c.path.bank j) ∧
      (i = 80 → wrote fun k => k.path.c = v.setWidth 8 ∧ k.th.v = c.th.v ∧ ∀ j m, 1 ≤ j → j < 8 → m < 32 → (Tab.get 0#32 k.th.k j).getLsbD m =
        if m = c.lane then v.getLsbD (7 + j) else (Tab.get 0#32 c.th.k j).getLsbD m) ∧
      (i = 81 → pos ≠ 3 → wrote fun k => k.path = { c.path with pkt := v.setWidth 32, wpos := pos, fresh := decide (pos = 0) }) ∧
      (i = 82 → wrote fun k => k.path = { c.path with token := asToken }) ∧ (i = 83 → wrote fun k => k = c) ∧
      (i = 84 → wrote fun k => k.stack = { c.stack with epoch := v.setWidth 16 } ∧ k.path = c.path) ∧
      (128 ≤ i → i < 248 → wrote fun k => stored c.stack k.stack (i - 128) ∧ k.path = c.path)) ∧
    ∀ e, x.tinker.serving = some e →
      let idle := s.updHere fun y => { y with tinker := { y.tinker with serving := none, path := { y.tinker.path with lanes := 0#32 } } }
      let g := x.group (x.warp e.slot.toNat).entry
      let act := (s.sr a).toNat % 4
      let again (after : Bool) (k : Stop) (p : Path) : Path :=
        if after then { p with pkt := k.nextPkt, wpos := k.nextPos, fresh := decide (k.nextPos = 0) } else p
      (s.eventHeld s.cur.col e = false → s.completes (.eret a) idle) ∧
      (s.eventHeld s.cur.col e = true →
        (act = 2 → s.completes (.eret a) (idle.killGroup g.launch g.gid)) ∧ (act = 3 → s.completes (.eret a) (idle.killLaunch g.launch)) ∧
        (e.note = true → act < 2 → s.completes (.eret a) idle) ∧
        (∀ after, e.note = false → act = (if after then 1 else 0) →
          let nd := s.node g.launch
          ((x.resume e after).pathsOk e.slot.toNat = false → s.completes (.eret a) (((idle.updHere fun y => y.resume e after).report nd.eff.fdom
            { kind := 5, node := g.launch, group := g.gid, runtime := nd.runtime, ended := 1 }).killGroup g.launch g.gid)) ∧
          ((x.resume e after).pathsOk e.slot.toNat = true →
            (∀ k, e.tier = 0 → (x.warp e.slot.toNat).stop = some k → k.slotB = true → ∃ t, s.completes (.eret a) t ∧ t.here.tinker.serving = none ∧
              t.here.warp e.slot.toNat = { x.warp e.slot.toNat with stop := none, b := (x.warp e.slot.toNat).b.map (again after k) }) ∧
            (∀ k, e.tier = 1 → (x.ctx e.ctx.toNat).stop = some k → ∃ t, s.completes (.eret a) t ∧ t.here.tinker.serving = none ∧
              t.here.warps = x.warps ∧ t.here.ctx e.ctx.toNat = { x.ctx e.ctx.toNat with stop := none, path := again after k (x.ctx e.ctx.toNat).path })))) ∧
      ∀ node gid f, (s.node node).launch.tokens = [] → ((s.node node).launch.groupOf gid).place = .resident f →
        (∀ n, (x.warp n).live = true → (x.warp n).entry = f → n < 64 → (s.node node).launch.columnOf gid = s.cur.col →
          (((idle.killGroup node gid).col s.cur.col).warp n).live = false ∧ (((idle.killLaunch node).col s.cur.col).warp n).live = false)

/-! ## Engine words -/

/-- R221, R229, R232, R241, R255: COPY, GATH and SCAT read their record at issue, raise at the word what is wrong there, and after a release
at column scope join their queue with a PENDING handle and a claim; COPY.RST queues a FAULTED command again, or raises FUTURE_STALE. -/
def Obligations.EngineWordsIssue : Prop :=
  ∀ (s r : State) (a b : BitVec 6) (h : BitVec 4) (q : BitVec 2), s.ownTx = none →
    let off := (s.sr a).toNat
    let bytes (kind : CmdKind) : List Byte := Memory.readBytes s.group.store off (if kind.gathers then 400 else 320)
    let coords (n : Nat) : List Int := (List.range n).map fun i => (lane (s.readV (b.toNat + i)) (lowLane s.active)).toInt
    let bar (img : Rec) : Option Dword := if img.bar then some (s.readS (a.toNat + 1)) else none
    (∀ p ∈ ([(.copy a b h q, .copy, q.toNat), (.gath a b h, .gath, 4), (.scat a b h, .scat, 4)] : List (Instr × CmdKind × Nat)),
      let img := recOf p.2.1.gathers (bytes p.2.1)
      let n := img.coords.getD 0
      let size := if p.2.1.gathers then 400 else 320
      ((s.handle h.toNat).st = .pending → s.completes p.1 (s.blockAt (.handle h.toNat))) ∧
      ((s.handle h.toNat).st ≠ .pending →
        (s.group.size < off + size → s.completes p.1 (s.raise .localRange (s.oneLane a))) ∧
        (off + size ≤ s.group.size → off % 16 ≠ 0 → s.completes p.1 (s.raise .align (s.oneLane a))) ∧
        (off + size ≤ s.group.size → off % 16 = 0 →
          ((img.bar = true ∧ a = 63#6) ∨ 64 < b.toNat + n → s.completes p.1 s.illegal) ∧
          (¬ ((img.bar = true ∧ a = 63#6) ∨ 64 < b.toNat + n) → s.settledRegs → s.releaseFrom s.cur.wait 4 = (none, r) → (r.handle h.toNat).st ≠ .faulted →
            (r.here.queueRoom r.entry p.2.2 = false → s.completes p.1 (r.blockAt (.queue p.2.2))) ∧
            (r.here.queueRoom r.entry p.2.2 = true → r.byWarp → ∃ t, s.completes p.1 t ∧
              r.queues t h (r.issued { id := 0, kind := p.2.1, record := bytes p.2.1, offset := off, coords := coords n, bar := bar img } p.2.2 h) ∧
              t.here.holds r.cur.who = r.here.holds r.cur.who ++ [.claim r.nextId]))))) ∧
    (((s.handle h.toNat).st ≠ .faulted ∨ 1 < (s.handle h.toNat).unit ∨ s.here.cmd (s.handle h.toNat).cmd = none) →
      s.completes (.copyRst a b h) (s.trap .futureStale)) ∧
    (∀ k, (s.handle h.toNat).st = .faulted → (s.handle h.toNat).unit ≤ 1 → s.here.cmd (s.handle h.toNat).cmd = some k →
      let img := recOf k.kind.gathers (bytes k.kind)
      let n := img.coords.getD 0
      off + (if k.kind.gathers then 400 else 320) ≤ s.group.size → off % 16 = 0 → ¬ ((img.bar = true ∧ a = 63#6) ∨ 64 < b.toNat + n) →
      s.settledRegs → s.releaseFrom s.cur.wait 4 = (none, r) → fieldOf (bytes k.kind) (img.rep + 13) 1 = 1 → r.here.cmd k.id ≠ none →
      ∃ t k', s.completes (.copyRst a b h) t ∧ t.here.cmd k.id = some k' ∧ k'.st = .queued ∧ k'.restarted = true ∧
        k'.record = bytes k.kind ∧ k'.offset = off ∧ k'.coords = coords n ∧ k'.bar = bar img ∧
        k'.iter = (List.range img.bounds.length).map fun j => fieldOf (bytes k.kind) (img.rep + 2 * j) 2)

/-! ## Thresher words -/

/-- R197, R270, R272, R275, R280: MLDW, MSWAP, MZERO, MLOOP and MSTR, after a release at column scope, join their launch's queue with a
PENDING handle, or wait while it holds 16; MLOOP and MSTR raise at the word what is wrong with the place of their records, and an ejected
lane's thresher word raises EJECT_COLLECTIVE. That the tinker's and a factor core's do so too is the model's reading (log 57). -/
def Obligations.ThresherWordsIssue : Prop :=
  ∀ (s r : State) (a b : BitVec 6) (h : BitVec 4) (m : BitVec 2),
    let off := (s.sr a).toNat
    let img (kind : CmdKind) : List Byte := Memory.readBytes s.group.store off (if kind = .mloop then 64 else 128)
    let bar (kind : CmdKind) : Bool := decide (fieldOf (img kind) (if kind = .mloop then 35 else 105) 1 / 2 % 2 = 1)
    let handle (kind : CmdKind) : Option Dword := if bar kind then some (s.readS (a.toNat + 1)) else none
    let words : List (Instr × Command) :=
      [(.mldw a b h, { id := 0, kind := .mldw, x := s.sr a, y := s.sr b }), (.mswap h, { id := 0, kind := .mswap }),
       (.mzero m h, { id := 0, kind := .mzero, tile := m.toNat }),
       (.mloop a b h m, { id := 0, kind := .mloop, record := img .mloop, offset := off, bar := handle .mloop, y := s.sr b, tile := m.toNat }),
       (.mstr a m h, { id := 0, kind := .mstr, record := img .mstr, offset := off, bar := handle .mstr, tile := m.toNat })]
    (∀ p ∈ words, (∀ n w, s.cur.who ≠ .warp n w) → s.completes p.1 (s.trap .ejectCollective)) ∧
    (∀ p ∈ words, (∃ n w, s.cur.who = .warp n w) → s.ownTx = none →
      let size := if p.2.kind = .mloop then 64 else if p.2.kind = .mstr then 128 else 0
      ((s.handle h.toNat).st = .pending → s.completes p.1 (s.blockAt (.handle h.toNat))) ∧
      ((s.handle h.toNat).st ≠ .pending →
        (0 < size → s.group.size < off + size → s.completes p.1 (s.raise .localRange (s.oneLane a))) ∧
        (0 < size → off + size ≤ s.group.size → off % 16 ≠ 0 → s.completes p.1 (s.raise .align (s.oneLane a))) ∧
        (0 < size → off + size ≤ s.group.size → off % 16 = 0 → bar p.2.kind = true → a = 63#6 → s.completes p.1 s.illegal) ∧
        ((0 < size → off + size ≤ s.group.size ∧ off % 16 = 0 ∧ ¬ (bar p.2.kind = true ∧ a = 63#6)) → s.settledRegs →
          s.releaseFrom s.cur.wait 4 = (none, r) → (r.handle h.toNat).st ≠ .faulted →
          let queued := (r.here.cmds.filter fun k => decide (k.launch = r.launchId) && decide (k.queue = 5)).length
          (16 ≤ queued → s.completes p.1 (r.blockAt (.queue 5))) ∧
          (queued < 16 → (∃ n w, r.cur.who = .warp n w) → ∃ t, s.completes p.1 t ∧ r.queues t h (r.issued p.2 5 h)))))

/-- R197, R264, R265, R279: CRES takes the lowest free grant under its next handle, or raises CRIB_CONFIG, then GRANT_FULL; CREL frees a grant
that no command names; CSTAT gives its pointer; and MRD reads 128 values of a row into four registers. In an ejected lane they raise
EJECT_COLLECTIVE; that they do so in the tinker and a factor core too is the model's reading (log 57). -/
def Obligations.CribWordsComplete : Prop :=
  (∀ (s : State) (a b c : BitVec 6) (q : BitVec 4) (m : BitVec 2), (∀ n w, s.cur.who ≠ .warp n w) →
    ∀ i ∈ [Instr.cres a b c, .crel a, .cstat a b, .mrd q b m], s.completes i (s.trap .ejectCollective)) ∧
  ∀ (s : State) (a b c : BitVec 6) (q : BitVec 4) (m : BitVec 2), (∃ n w, s.cur.who = .warp n w) → s.ownTx = none →
    let x := s.here
    let ext := (s.sr b).toNat
    let form := (s.sr c).toNat
    let off := ext % 1024
    let size := ext / 65536 % 2048
    let sh := x.share s.launchId
    let row := sh.row m.toNat ((s.sr b).toNat % 128)
    let wrong : Prop := ext / 134217728 ≠ 0 ∨ ext / 1024 % 64 ≠ 0 ∨ form / 16777216 ≠ 0 ∨ size = 0 ∨ form / 256 % 256 ≠ 32 ∨
      form % 256 ∉ [1, 3, 4, 5, 6, 7, 16, 17, 18, 19] ∨ sh.kib < off + size ∨
      ∃ i, i < 16 ∧ (x.grant i).live = true ∧ (x.grant i).launch = s.launchId ∧ off < (x.grant i).off + (x.grant i).size ∧ (x.grant i).off < off + size
    let names (h : Dword) (g : Grant) : Prop := h.toNat / 4294967296 = 0 ∧ h.toNat / 16 % 16 = 0 ∧ g = x.grant (h.toNat % 16) ∧ g.live = true ∧
      g.launch = s.launchId ∧ g.gen.toNat = h.toNat / 256 % 16777216
    (s.mayWriteS a.toNat = true → wrong → s.completes (.cres a b c) (s.trap .cribConfig)) ∧
    (s.mayWriteS a.toNat = true → ¬ wrong → (∀ i, i < 16 → (x.grant i).live = true) → s.completes (.cres a b c) (s.trap .grantFull)) ∧
    (s.mayWriteS a.toNat = true → ¬ wrong → ∀ i, i < 16 → (x.grant i).live = false → (∀ j, j < i → (x.grant j).live = true) →
      let gen := (x.grant i).gen + 1#24
      ∃ t, s.completes (.cres a b c) t ∧ (∀ j, j ≠ i → t.here.grant j = x.grant j) ∧
        t.here.grant i = ⟨true, s.launchId, gen, off, size, form % 256, ((s.sr c).extractLsb' 16 8).toInt⟩ ∧
        t.thread.vpend = s.thread.vpend ++ [⟨s.nextId, [.s s.path.uid a.toNat],
          some [.s s.path.uid a.toNat (BitVec.ofNat 64 (256 * gen.toNat + i))], none, 0#64, false⟩]) ∧
    ((∀ g, ¬ names (s.sr a) g) → s.completes (.crel a) (s.trap .grantStale)) ∧
    (∀ g, names (s.sr a) g → s.grantNamed s.cur.col s.launchId (s.sr a) = true → s.completes (.crel a) (s.blockAt (.grant ((s.sr a).toNat % 16)))) ∧
    (∀ g, names (s.sr a) g → s.grantNamed s.cur.col s.launchId (s.sr a) = false → ∃ t, s.completes (.crel a) t ∧
      t.here.grant ((s.sr a).toNat % 16) = { g with live := false } ∧ (∀ j, j ≠ (s.sr a).toNat % 16 → t.here.grant j = x.grant j) ∧
      t.here.cribs = x.cribs ∧ s.sameRegisters t) ∧
    (s.mayWriteS a.toNat = true →
      (∀ g, names (s.sr b) g → s.completes (.cstat a b) (s.willWriteS a (BitVec.ofNat 64 (sh.window + g.off * 1024)))) ∧
      ((∀ g, ¬ names (s.sr b) g) → s.completes (.cstat a b) (s.willWriteS a 0x8000000000000000#64))) ∧
    (sh.tiles ≤ m.toNat → s.completes (.mrd q b m) (s.trap .accumRange)) ∧
    (m.toNat < sh.tiles → ∃ x0 x1 x2 x3 : Vec, s.completes (.mrd q b m)
        (s.vlResult ((List.range 4).map fun i => .v (4 * q.toNat + i) s.active)
          [.v (4 * q.toNat) s.active x0, .v (4 * q.toNat + 1) s.active x1, .v (4 * q.toNat + 2) s.active x2, .v (4 * q.toNat + 3) s.active x3]) ∧
      ∀ l, l < 32 → lane x0 l = row.extractLsb' (32 * l) 32 ∧ lane x1 l = row.extractLsb' (1024 + 32 * l) 32 ∧
        lane x2 l = row.extractLsb' (2048 + 32 * l) 32 ∧ lane x3 l = row.extractLsb' (3072 + 32 * l) 32)

/-! ## Exchange words -/

/-- R197, R297 to R304: an exchange word raises XCH_PARAM where R299 is broken, blocks while its warp's earlier exchange is not complete,
and otherwise begins the exchange that its rule gives, its message in two flits on the way to each partner; XBAR does so after a release at
gang scope, with an arrival for gcol 0's bay. In an ejected lane they raise EJECT_COLLECTIVE; that they do so in the tinker and a factor core
too is the model's reading (log 57). -/
def Obligations.ExchangeWordsComplete : Prop :=
  (∀ (s : State) (d a b : BitVec 6), (∀ n w, s.cur.who ≠ .warp n w) →
    ∀ i ∈ [Instr.xchXor d a b, .xchRot d a b, .xchBc d a b, .xchGath a b, .xred d a b, .xbar], s.completes i (s.trap .ejectCollective)) ∧
  ∀ (s r : State) (d a b : BitVec 6) (mid : Nat), (∃ n w, s.cur.who = .warp n w) → s.ownTx = none → s.thread.vpend = [] →
    let c := s.gcol
    let n := s.launch.map.length
    let v := (s.sr b).toNat
    let low := v % 256
    let others := (List.range n).filter (· ≠ c)
    let out : List Nat := if c = low then [] else [low]
    let into : List Nat := if c = low then others else []
    let words : List (Instr × Nat × List Nat × List Nat × Prop) :=
      [(.xchXor d a b, 0, [c ^^^ low], [c ^^^ low], v < 256 ∧ (∃ i, i < 9 ∧ n = 2 ^ i) ∧ low < n),
       (.xchRot d a b, 1, [(c + low) % n], [(c + n - low) % n], v < 256 ∧ low < n),
       (.xchBc d a b, 2, if c = low then others else [], out, v < 256 ∧ low < n),
       (.xchGath a b, 3, out, into, v / 256 % 16777216 = 0 ∧ v / 4294967296 % 128 = 0 ∧ low < n),
       (.xred d a b, 4, out, into, v / 4096 = 0 ∧ v / 256 ≤ 10 ∧ low < n)]
    (∀ p ∈ words, (¬ p.2.2.2.2 ∨ 16 ≤ s.group.localGroup → s.completes p.1 (s.trap .xchParam)) ∧
      (p.2.2.2.2 → s.group.localGroup < 16 →
        let unroomy : Prop := p.2.1 = 3 ∧ low = c ∧ s.group.size < v / 4294967296 + 128 * n
        (unroomy → s.completes p.1 (s.raise .localRange { lanes := 1#32 <<< lowLane s.active, detail := BitVec.ofNat 64 (v / 4294967296) })) ∧
        (¬ unroomy → s.warp.xch ≠ none → s.completes p.1 (s.blockAt .exchange)) ∧
        (¬ unroomy → s.warp.xch = none → s.freeMid s.cur.col = some mid → s.here.nifCore.backlog.length + 2 * p.2.2.1.length ≤ 512 →
          s.here.mail = [] → ∃ t, s.completes p.1 t ∧ s.exchanges t p.2.1 p.2.2.1 p.2.2.2.1 (s.vr a) ∧ s.sameRegisters t ∧
            ∀ g ∈ p.2.2.1, ∃ f0 f1 : Flit, f0 ∈ t.here.nifCore.backlog ++ t.here.ejected ∧ f1 ∈ t.here.nifCore.backlog ++ t.here.ejected ∧
              f0.type = 5 ∧ f1.type = 5 ∧ f0.dst = 256 + s.launch.map.getD g 0 ∧ f1.dst = f0.dst ∧ f0.mid = mid ∧ f1.mid = mid ∧
              f0.payload = bytesOf 64 (s.vr a).toNat ∧ f1.payload = bytesOf 64 ((s.vr a).toNat / 2 ^ 512)))) ∧
    (16 ≤ s.group.localGroup → s.completes .xbar (s.trap .xchParam)) ∧
    (s.group.localGroup < 16 → s.warp.xch ≠ none → s.completes .xbar (s.blockAt .exchange)) ∧
    (s.group.localGroup < 16 → s.warp.xch = none → s.releaseFrom s.cur.wait 5 = (none, r) → (∃ k w, r.cur.who = .warp k w) → r.holdsToken r.cur.col r.slot = false →
      r.freeMid r.cur.col = some mid → r.here.nifCore.backlog.length < 512 →
      ∃ t, s.completes .xbar t ∧ r.exchanges t 5 [] [] 0#1024 ∧ .xbar ∈ t.here.holds r.cur.who ∧
        ∃ f : Flit, f ∈ t.here.nifCore.backlog ++ t.here.ejected ∧ f.type = 6 ∧ f.dst = 256 + r.launch.map.getD 0 0 ∧ f.mid = mid)

/-! ## Traps and decoding -/

/-- R46, R345, R346: a trap stops its agent precisely at its word, changes no register and no byte of memory, and puts one record with its
cause, its place and its lanes into the column's queue; the tinker's own stops the tinker, and a factor core starts its handler. That a
trap stops both PC slots of its warp is the model's reading (log 15), and where a factor core's handler stands is a free value (log 78). -/
def Obligations.TrapsAreTaken : Prop :=
  ∀ (s : State) (c : Cause) (x : TrapInfo),
    let t := s.raise c x
    let k := s.cur
    let stop (b : Bool) : Stop := ⟨c, b, k.pkt, k.wpos, k.after.1, k.after.2, false⟩
    let told (e : Event) : Prop := e.cause = c ∧ e.note = false ∧ e.detail = x.detail ∧ e.info = x.info ∧ e.lanes = x.lanes ∧
      e.pc = (x.pc.getD (k.pkt, k.wpos)).1 ∧ e.wpos = BitVec.ofNat 2 (x.pc.getD (k.pkt, k.wpos)).2 ∧ e.slot = BitVec.ofNat 6 s.slot ∧ e.group = BitVec.ofNat 32 s.group.gid ∧
      e.context = BitVec.ofNat 16 s.ctxNum ∧ e.cycle = s.clk
    let back (p : Path) : Prop := p.pkt = k.pkt ∧ p.wpos = k.wpos ∧ p.lanes = s.path.lanes ∧ p.c = s.path.c ∧ p.bank = s.path.bank ∧
      p.token = s.path.token
    let queued := t.here.tinker.queue
    s.sameRegisters t ∧ s.sameMemory t ∧
    (∀ n b, k.who = .warp n b → (t.here.warp n).stop = some (stop b) ∧ back t.path ∧ (∀ m, m ≠ n → t.here.warp m = s.here.warp m) ∧
      queued.length = s.here.tinker.queue.length + 1 ∧ ∃ e ∈ queued, told e ∧ e.tier = 0 ∧ e.path = x.path.getD (if b then 1#2 else 0#2)) ∧
    (∀ i, k.who = .lane i → (t.here.ctx i).stop = some (stop false) ∧ back t.path ∧ t.here.warps = s.here.warps ∧
      queued.length = s.here.tinker.queue.length + 1 ∧ ∃ e ∈ queued, told e ∧ e.tier = 1 ∧ e.path = 2#2 ∧ e.ctx = BitVec.ofNat 5 i) ∧
    (k.who = .tinker → t.here.tinker.stop = some (stop false) ∧ back t.path ∧ queued = s.here.tinker.queue ∧ t.here.warps = s.here.warps) ∧
    (∀ n, k.who = .factor n → (t.factor n).saved = (k.pkt, k.wpos) ∧ (t.factor n).cause = c.code ∧
      (t.factor n).path.pkt = Config.factorHandler n ∧ (t.factor n).path.wpos = 0)

/-- R42, R43, R46, R77: a prefix word puts its fields in force for its base word. Every other word is checked before it has any effect: OP 0x79
outside the tinker and the factor cores, and a prefix field that the word does not accept, raise ILLEGAL; a role that may not issue the word
raises ROLE, but an ejected lane's matrix and accumulator words are left to their own cause. -/
def Obligations.DecodingIsCheckedFirst : Prop :=
  (∀ (s : State) (k : BitVec 3) (z : BitVec 1) (r : BitVec 3) (x : BitVec 6) (p e : BitVec 2) (u y t : BitVec 1),
    let f : Pfx := ⟨k, decide (z = 1#1), r, x, p, e, decide (u = 1#1), decide (y = 1#1), decide (t = 1#1)⟩
    exec (.pfx k z r x p e u y t) s = .next { s with cur := { s.cur with pfx := some f } }) ∧
  ∀ (s : State) (i : Instr), i.isWord = true → i.asPfx = none →
    let privileged : Prop := s.cur.who = .tinker ∨ ∃ n, s.cur.who = .factor n
    let barred : Prop := (i.cls.tinkerOnly = true ∧ ¬ privileged) ∨ ∃ p, s.cur.pfx = some p ∧ i.cls.admits p = false
    let own : Prop := (∃ n, s.cur.who = .lane n) ∧ (i.cls.role = .matrix ∨ i.cls.role = .accum)
    (barred → exec i s = .next s.illegal) ∧
    (¬ barred → i.cls.role.allows s.warp.role = false → ¬ own → exec i s = .next (s.trap .role)) ∧
    (¬ barred → (i.cls.role.allows s.warp.role = true ∨ own) → s.takes i)

/-! ## Frames -/

/-- R10, R47, R87: a word that only computes traps, or leaves every register, every byte of memory and every path as they are, and what it
has pending is writes of the registers that it names; a write that lands changes its register alone, and of a vector or a mask only the
lanes that it writes. -/
def Obligations.ComputingWordsWriteTheirRegisters : Prop :=
  (∀ (s : State) (i : Instr), i.computes = true → s.takes i →
    ∃ t, exec i s = .next t ∧ (t = s.illegal ∨ t = s.trap .divergentScalar ∨ s.onlyWrites t i.writes)) ∧
  ∀ (s : State) (c : Nat) (who : Who) (w : Write),
    let t := s.landWrite c who w
    s.sameMemory t ∧ t.clk = s.clk ∧ t.host = s.host ∧ t.dist = s.dist ∧
    (∀ d v, (v.base ≠ who.base ∨ (d ≠ c ∧ ∀ n, who ≠ .factor n)) → t.threadOf d v = s.threadOf d v) ∧
    (∀ r m x, w = .v r m x → (t.threadOf c who).k = (s.threadOf c who).k ∧ (t.threadOf c who).s = (s.threadOf c who).s ∧
      ∀ q l, l < 32 → lane (Tab.get 0#1024 (t.threadOf c who).v q) l =
        if q = r ∧ m.getLsbD l = true then lane x l else lane (Tab.get 0#1024 (s.threadOf c who).v q) l) ∧
    (∀ r m x, w = .k r m x → (t.threadOf c who).v = (s.threadOf c who).v ∧ (t.threadOf c who).s = (s.threadOf c who).s ∧
      ∀ q l, l < 32 → (Tab.get 0#32 (t.threadOf c who).k q).getLsbD l =
        if q = r ∧ m.getLsbD l = true then x.getLsbD l else (Tab.get 0#32 (s.threadOf c who).k q).getLsbD l) ∧
    (∀ p r x, w = .s p r x → (t.threadOf c who).v = (s.threadOf c who).v ∧ (t.threadOf c who).k = (s.threadOf c who).k ∧
      (r < 48 → ∀ q, Tab.get 0#64 (t.threadOf c who).s q = if q = r then x else Tab.get 0#64 (s.threadOf c who).s q) ∧
      (48 ≤ r → (t.threadOf c who).s = (s.threadOf c who).s)) ∧
    (∀ p i x, w = .c p i x → t.threadOf c who = s.threadOf c who)

/-! ## A step -/

/-- R34, R39, R43, R191: when the packet at an agent's position fetches and its issue unit is one member that decodes, a step executes the
decoded instruction, its prefix word first, in a state where the path stands past the member, and then counts the packet, begins the word's
stall count and closes the run that ends there, unless the word trapped or stands held; an ejected lane whose gleaner does not hold
the packet's words fetches them first (R191). That an
issue unit is one step, and that padding words of zeros pass with it, is the model's choice (logs 1 and 32). -/
def Obligations.StepRunsTheDecodedInstruction : Prop :=
  ∀ (s u : State) (c : Nat) (who : Who) (ts : List Turn) (ws : List Word) (m : Member) (i : Instr),
    s.agenda = .issue c who :: ts → s.clocksStopped = false → (∀ n, who ≠ .factor n) →
    let s0 : State := { s with free := s.free + 1, agenda := ts }
    let a := s0.beginTurn c who
    let v := u.settleHolds
    let info := v.unitInfo ws [m]
    let w := (v.occupy [m]).toMember info m m.pos
    let closes (o : Host.Outcome State Fault Refusal) : Host.Outcome State Fault Refusal :=
      match o with
      | .next t => .next (t.afterUnit info v.path.fresh (ctlOf m.word).b)
      | o => o
    s0.mayIssue c who = true →
    (a.codeMisses a.path.pkt ≠ [] → step s = .next (a.startFetch (a.codeMisses a.path.pkt))) ∧
    (a.codeMisses a.path.pkt = [] → a.fetchPacket a.path.pkt = (.ok ws, u) → misplaced {} (membersOf 0 ws) = none → u.unitIn ws = [m] →
      v.stoppedAt c who = false → v.tableMisses [m] = [] → v.holdsUnit [m] = false → v.blocks [m] 0 = false → m.pos = v.path.wpos →
      w.decodeMember m = .run i → w.checking = false → (∀ x ∈ w.meets i (m.pfx.bind pfxOf), x.error = none) →
      (m.pfx = none → step s = closes (exec i w)) ∧
      (∀ x k p w', m.pfx = some x → decodeWord x = .ok (k, p) → exec p w = .next w' → step s = closes (exec i w')) ∧
      w.cur.word = m.word ∧ w.cur.col = v.cur.col ∧ w.cur.who = v.cur.who ∧ v.sameRegisters w ∧ v.sameMemory w ∧
      (if info.ends = true ∨ 2 ≤ m.base then w.path.pkt = v.path.pkt + 1#32 ∧ w.path.wpos = 0 else w.path.pkt = v.path.pkt ∧ w.path.wpos = m.base + 1))

/-! ## Encodings -/

/-- R12, R34, R41 to R46: words written out from the encoding tables decode to the instructions they stand for, with their C, B and S fields,
and reserved encodings to none. -/
def Obligations.WordsDecode : Prop :=
  decodeWord 0x00000000#32 = .ok (⟨false, false, 0#3⟩, .nop) ∧ decodeWord 0x40000002#32 = .ok (⟨false, true, 0#3⟩, .exit) ∧
    decodeWord 0x18714401#32 = .ok (⟨false, false, 3#3⟩, .saddi 5#6 4#6 1#8) ∧
    decodeWord 0x81D44008#32 = .ok (⟨true, false, 0#3⟩, .icmpi 2#3 1#3 0#6 8#8) ∧
    decodeWord 0x2C418210#32 = .ok (⟨false, false, 5#3⟩, .packE4m3 6#6 1#5 2#5) ∧
    decodeWord 0x05400083#32 = .ok (⟨false, false, 0#3⟩, .split 0#3 1#10 3#7) ∧ decodeWord 0x05A0C00A#32 = .ok (⟨false, false, 0#3⟩, .st 3#6 0#6 2#6 2#2) ∧
    decodeWord 0x05F10100#32 = .ok (⟨false, false, 0#3⟩, .atomAdd 4#6 1#6 0#6) ∧ decodeWord 0x0742060C#32 = .ok (⟨false, false, 0#3⟩, .mrd 2#4 6#6 3#2) ∧
    decodeWord 0x06914418#32 = .ok (⟨false, false, 0#3⟩, .xred 5#6 4#6 6#6) ∧ decodeWord 0x07B10508#32 = .ok (⟨false, false, 0#3⟩, .launch 4#6 5#6 2#4) ∧
    decodeWord 0x07E20000#32 = .ok (⟨false, false, 0#3⟩, .pfx 1#3 0#1 0#3 0#6 0#2 0#2 0#1 0#1 0#1) ∧
    decodeWord 0x00F00000#32 = .error (.opcode 0x0F#7) ∧ decodeWord 0x07F00000#32 = .error (.opcode 0x7F#7) ∧ decodeWord 0x06700005#32 = .error .reserved

/-- R34, R41, R45, R46: decoding the word of a well-formed instruction gives the instruction back, with its control fields; and a word that
decodes is the word of the instruction that it decodes to, which is well formed: so every bit of a word counts, and a word with a reserved bit set
decodes to nothing. -/
def Obligations.EncodingsRoundTrip : Prop :=
  (∀ (k : Ctl) (i : Instr), i.isWord = true → i.wf = true → i.ctlOk k = true → ∃ w, encode k i = some w ∧ decodeWord w = .ok (k, i)) ∧
  (∀ (w : Word) (k : Ctl) (i : Instr), decodeWord w = .ok (k, i) → i.isWord = true ∧ i.wf = true ∧ i.ctlOk k = true ∧ encode k i = some w)

/-! ## Time and reset -/

/-- R10, R48, R367: no step takes %clk or %time back, and %clk advances by at most one cycle. That a correction is slewed as log 73 says
is the model's choice. -/
def Obligations.TimeNeverRunsBackward : Prop :=
  ∀ (s t : State) (clk time : Nat), clk ≤ s.clk → time ≤ s.time → step s = .next t → clk ≤ t.clk ∧ time ≤ t.time ∧ t.clk ≤ s.clk + 1

/-- R30: no step leaves the memory of a column, or what the host holds, in another than its one canonical form: addresses strictly rising, and no
byte listed that an unlisted address reads as, so that equal memories are equal data. The form is the model's own, and what an unlisted address
reads as is its choice (log 2). -/
def Obligations.MemoryStaysCanonical : Prop :=
  ∀ s t : State, (∀ c, Memory.wf (s.col c).mem = true) → Memory.wf s.host.mem = true → step s = .next t →
    (∀ c, Memory.wf (t.col c).mem = true) ∧ Memory.wf t.host.mem = true

/-- R309, R363, R365, R368, R372: what reset leaves in every column and for every function: nothing runs, nothing is mapped, no cycle has
passed, the bays' registers and the duty map hold their reset values, and the module has not booted. That %time, RING_CFG and FRING_CFG are 0
is the model's choice, since the spec gives them no reset value (log 3). -/
def Obligations.ResetLeaves : Prop :=
  let s := State.reset
  s.clk = 0 ∧ s.time = 0 ∧ s.booted = 0 ∧ s.clocksStopped = false ∧ s.host.fctBoot = 0#64 ∧ s.host.dutyMap = 63#64 ∧ s.host.clockStep = 0 ∧
    s.host.powerCap = 2400 ∧ s.dist.nodes = [] ∧ s.dist.roots = [] ∧ s.flits = [] ∧
    (∀ f, (s.host.fn f).ringCfg = 0#64 ∧ (s.host.fn f).fringCfg = 0#64 ∧ (s.host.fn f).region = none) ∧
    ∀ c, let x := s.col c
      (∀ n, (x.warp n).live = false ∧ (x.warp n).stop = none) ∧ (∀ n, (x.ctx n).live = false) ∧ (∀ e, (x.group e).live = false) ∧
      (∀ i, (x.barrier i).st = .free) ∧ (∀ i, (x.grant i).live = false) ∧ x.cmds = [] ∧ x.mops = [] ∧ x.tinker.queue = [] ∧
      x.tinker.serving = none ∧ x.l1 = [] ∧ x.l1tlb = [] ∧ x.l2tlb = [] ∧ Memory.wf x.mem = true ∧ x.bay.ctl = 0#64 ∧ x.bay.stat = 0#64 ∧
      (∀ n, (x.bay.entry n).ctl = if n = 0 then 0x8000000000000001#64 else 1#64) ∧
      (∀ n, (x.bay.entry n).way = List.replicate 4 0xFFFFFFFFFFFFFFFF#64) ∧ ∀ n, (x.bay.aliasReg n false).getLsbD 63 = false

/-! ## Steps that no word encodes -/

/-- R37, R79 to R82, R129, R195, R196, R199, R309, R312, R346, R348, R349, R356: the steps of a core, its gleaners, its tinker and its
slices, each where the rule enables it: arbitration starts the run of the one eligible warp, a pending result lands, a sleeping path may
go on, a waiting warp parks at its limit, an ejected lane starts and returns, a refused request waits and is sent again, a line lands, and
the tinker takes its next event with its record in s0 to s3. Which of these steps comes when is the agenda's (log 1), and that the tinker's
event being served stands first in the queue again after a restart is the model's choice (log 26). -/
def Obligations.CoreStepsHappen : Prop :=
  ∀ (s : State) (c n i : Nat),
    (∀ (q : Nat) (b : Bool), q < 4 → ((s.col c).quarter q).run = none → ((s.col c).quarter q).arb ≤ s.clk →
      let u := s.readyQuarter c q
      u.liveIn c q = [n] → (u.eligible c n b).1 = true → (u.eligible c n (!b)).1 = false →
      s.answers (.runArbitration c q) fun t =>
        ((t.col c).quarter q).run = some { slot := n, b := b } ∧ ((t.col c).quarter q).arb = u.clk + 1 ∧ ((t.col c).warp n).lastIssue = u.clk ∧
          ((t.col c).warp n).lastB = b ∧ t.cur = s.cur) ∧
    (let who := agentOf n;
      ∀ (v : VPend) (w : Write), (n < 64 → ((s.col c).warp n).xch = none) → (s.threadOf c who).pend = [] →
      (s.threadOf c who).vpend.find? (fun v => decide (v.id = i)) = some v → v.value = some [w] → v.error = none →
      s.answers (.variableLatencyLand c n i) fun t =>
        let u := s.landWrite c who w
        t.threadOf c who = { u.threadOf c who with vpend := (u.threadOf c who).vpend.filter fun x => decide (x.id ≠ i) } ∧
          t.pathOf c who = u.pathOf c who) ∧
    (∀ (b : Bool) (k : Nat), let who := if n < 64 then .warp n b else agentOf n
      (s.pathOf c who).wait = .until k → k ≤ s.clk →
      s.answers (.sleepExpire c n b) fun t =>
        t.pathOf c who = { s.pathOf c who with wait := .none } ∧ s.sameRegisters t ∧ s.sameMemory t) ∧
    (((s.col c).warp n).live = true → ((s.col c).warp n).rejoin = .waiting →
      ((s.col c).warp n).limit.toNat * 1024 ≤ ((s.col c).warp n).timerAt s.clk →
      s.answers (.rejoinTimeout c n) fun t =>
        (t.col c).warp n = { (s.col c).warp n with rejoin := .parked, timer := ((s.col c).warp n).timerAt s.clk } ∧ s.sameMemory t) ∧
    (let k := (s.col c).ctx i;
      k.live = true → k.starting = true → ((s.col c).warp k.slot).deferred = [] →
      (k.drain = none → (∃ m ∈ (s.col c).mops, m.who.base = .warp k.slot false ∧ m.id < k.path.uid) → (s.col c).handOver i = (none, s.col c)) ∧
      ∀ d x, (s.col c).handOver i = (d, x) →
        (d = some 0 → x.portDone i false s.clk = true → s.answers (.laneContextStart c i) fun t =>
          (t.col c).ctx i = { x.ctx i with starting := false, drain := none, path := { (x.ctx i).path with ready := s.clk + 1 } } ∧
            (t.col c).portDone i false s.clk = false) ∧
        (d ≠ some 0 ∨ x.portDone i false s.clk = false → s.answers (.laneContextStart c i) fun t => (t.col c).ctx i = { x.ctx i with drain := d })) ∧
    (let u := s.landDue c (.lane i);
      ((u.col c).ctx i).live = true → ((u.col c).ctx i).leaving = true → ((u.col c).ctx i).starting = false → (u.col c).portDone i true u.clk = true →
      s.answers (.laneReturn c i) fun t =>
        t = (u.setCol c ((u.col c).mergeLane i)).afterLane c ((u.col c).ctx i).slot ∧ ((t.col c).ctx i).live = false) ∧
    (∀ r : Req, (s.col c).bay.reqs.find? (fun r => decide (r.id = i)) = some r →
      (r.held = true → r.foreign = false → r.due ≤ s.clk → s.answers (.nackRetry c i) fun t =>
        (t.col c).bay.reqs = (s.col c).bay.reqs.map fun q => if q.id = r.id then { r with held := false } else q) ∧
      (∀ hint, r.stands = false → (s.col c).requestReady s.clk r = true → (s.col c).bay.refusal s.clk r = some hint →
        (s.col c).answerRoom c 1 r = true → s.answers (.sliceRequest c i) fun t => ∃ q ∈ (t.col c).bay.reqs,
          q.id = i ∧ q.held = true ∧ q.due = s.clk + 8 * hint ∧ q.refused = r.refused + 1) ∧
      (∀ b, r.stands = false → (s.col c).requestReady s.clk r = true → (s.col c).bay.refusal s.clk r = none →
        ((s.col c).bay.slice ((s.col c).bay.sliceFor r)).next ≤ s.clk →
        (s.col c).admitFrom s.clk ((s.col c).bay.sliceFor r) = some (r.id, b) →
        s.answers (.sliceRequest c i) fun t => t = (s.setCol c { s.col c with bay := b }).admitReq c r) ∧
      let waits : Prop := (r.eng = none ∧ (s.col c).claimed r.region r.line = true) ∨ (s.col c).answerRoom c 2 r = false
      (r.atL1 = false → r.stands = true → waits → s.answers (.sliceRequest c i) fun t => t = s) ∧
      (r.atL1 = false → r.stands = true → ¬ waits → r.till = 0 → s.answers (.sliceRequest c i) fun t => t = s.send c r) ∧
      (r.atL1 = false → r.stands = true → ¬ waits → 0 < r.till → r.till ≤ s.clk →
        ((s.col c).bay.kindOf r.region (128 * r.line) ≠ .host ∨ (s.col c).bay.hits r.region r.line r.sectors = true) →
        s.answers (.sliceRequest c i) fun t => t = s.serve c r)) ∧
    (∀ (line : Nat) (f : Flight), s.host.untrained.getLsbD c = false → ((s.col c).bay.flights.find? fun f => decide (f.line = line) && decide (f.lands ≤ s.clk)) = some f →
      (∀ r ∈ (s.col c).bay.reqs, (r.admitted && !r.stands && decide (r.line = line) && decide ((s.col c).bay.sliceFor r = f.slice)) = false) →
      s.answers (.hbmFill c line) fun t => s.sameMemory t ∧
        (t.col c).bay.flights = (s.col c).bay.flights.filter fun g => !(decide (g.line = line) && decide (g.slice = f.slice))) ∧
    (let u := (s.landAll c .tinker).updCol c (·.takeUpdate);
      ∀ (e : Event) (rest : List Event), u.host.hardware 1 = true → (u.col c).tinker.queue = e :: rest → (u.col c).tinker.serving = none →
      (u.col c).tinker.stop = none →
      s.answers (.tinkerEvent c) fun t =>
        let k := (t.col c).tinker
        let r (n : Nat) : Dword := Tab.get 0#64 k.th.s n
        k.serving = some { e with lost := (u.col c).tinker.lost } ∧ k.queue = rest ∧ k.lost = false ∧
          k.path.pkt = (u.col c).tinker.entry ∧ k.path.wpos = 0 ∧ k.path.lanes = 1#32 ∧ k.path.ready = u.clk + 1 ∧ k.path.wait = .none ∧
          (r 0).extractLsb' 56 8 = BitVec.ofNat 8 e.cause.code ∧ (r 0).getLsbD 55 = e.note ∧ (r 0).getLsbD 54 = (u.col c).tinker.lost ∧
          (r 0).extractLsb' 52 2 = e.path ∧ (r 0).extractLsb' 47 5 = e.ctx ∧ (r 0).extractLsb' 41 6 = e.slot ∧ (r 0).extractLsb' 32 9 = 0#9 ∧
          (r 0).extractLsb' 0 32 = e.group ∧ (r 1).extractLsb' 48 16 = e.context ∧ (r 1).extractLsb' 34 14 = 0#14 ∧
          (r 1).extractLsb' 32 2 = e.wpos ∧ (r 1).extractLsb' 0 32 = e.pc ∧ (r 2).extractLsb' 32 32 = e.info ∧
          (r 2).extractLsb' 0 32 = e.lanes ∧ r 3 = e.detail) ∧
    (∀ (why : Stop), (s.col c).tinker.stop = some why → s.answers (.tinkerRestart c) fun t =>
      let k := (t.col c).tinker
      k.stop = none ∧ k.serving = none ∧ k.queue = (s.col c).tinker.serving.toList ++ (s.col c).tinker.queue ∧ k.path.lanes = 0#32) ∧
    (∀ (cols : List Nat) (ctx id : Nat), c < 256 → (s.col c).tinker.tlbi = some (cols, ctx, id) → s.tlbiDone cols ctx id = true →
      s.answers (.tlbiComplete c) fun t => (t.col c).tinker.tlbi = none ∧ (t.col c).tinker.path = { (s.col c).tinker.path with wait := .none }) ∧
    (∀ (h : BitVec 4) (k : Command), (s.col c).mayMend n = true →
      let hd := Tab.get ({} : Handle) ((s.col c).warp n).h h.toNat
      (hd.st = .faulted → hd.unit = 2 → (s.col c).cmd hd.cmd = some k → s.answers (.debugRestart c n h) fun t => t = s.restartThresher c k) ∧
      (hd.st = .faulted → hd.unit < 2 → (s.col c).cmd hd.cmd = some k → s.answers (.debugRestart c n h) fun t =>
        t = s.restartCmd c k (Memory.readBytes ((s.col c).group k.entry).store k.offset (if k.kind.gathers then 400 else 320)) k.offset k.coords k.bar) ∧
      (hd.st = .done → s.answers (.debugCancel c n h) fun t => Tab.get ({} : Handle) ((t.col c).warp n).h h.toNat = {} ∧ s.sameMemory t) ∧
      (hd.st = .faulted → hd.unit < 3 → s.answers (.debugCancel c n h) fun t => t = s.cancelCommand c hd.cmd))

/-! ## Steps of the engines and of the thresher -/

/-- R168, R237, R238, R241 to R243, R252, R257: a command of the copy or gather engine is checked in R241's order and faults with the code
of the first check that fails, else its destination is claimed in every bay that holds part of it, or nothing is for an identity copy; it
starts behind its queue's earlier commands with its loops at 0; a transfer whose bytes are all there is performed, and a fault stops it;
its count reaches its barrier; what a peer answers is taken; and the future is DONE once nothing is left. That a faulting transfer writes
nothing, and that claims are recorded together, is the model's choice (logs 46 and 50). -/
def Obligations.EngineStepsHappen : Prop :=
  ∀ (s : State) (c id : Nat) (k : Command), (s.col c).cmd id = some k →
    let r := recOf k.kind.gathers k.record
    let l := (s.node k.launch).launch
    let spans := k.spans (s.gcols k).2.1 l.map.length (s.gcols k).1
    let bases := ∀ t ∈ (if r.gather then [r.a, r.b, r.r] else [r.a, r.b]), t.baseOk l.map.length = true
    let current := ∀ b, k.bar = some b → (s.col c).barCurrent k.entry b = true
    let overlap := ∃ a ∈ spans.1, ∃ b ∈ spans.2, a.meets b = true
    (k.st = .queued → k.queue ≠ 5 → k.cancel = false →
      (r.valid = false → s.answers (.claimSpan c id) fun t => s.commandFaulted t c k 1) ∧
      (r.valid = true → ¬ current → s.answers (.claimSpan c id) fun t => s.commandFaulted t c k 11) ∧
      (r.valid = true → current → ¬ bases → s.answers (.claimSpan c id) fun t => s.commandFaulted t c k 2) ∧
      (r.valid = true → current → bases → k.identity = true →
        s.answers (.claimSpan c id) fun t => (t.col c).cmd id = some { k with st := .claimed } ∧ ∀ d, (t.col d).bay.claims = (s.col d).bay.claims) ∧
      (r.valid = true → current → bases → k.identity = false → overlap → s.answers (.claimSpan c id) fun t => s.commandFaulted t c k 9) ∧
      (r.valid = true → current → bases → k.identity = false → ¬ overlap → l.det = true → s.races k spans.1 spans.2 = true →
        s.answers (.claimSpan c id) fun t => s.commandFaulted t c k 10) ∧
      (r.valid = true → current → bases → k.identity = false → ¬ overlap → (l.det = true → s.races k spans.1 spans.2 = false) →
        ((s.recordClaims k l.det spans.1 spans.2).1 = true →
          s.answers (.claimSpan c id) fun t => (t.col c).cmd id = some { k with st := .claimed } ∧
            ∀ p ∈ spans.2, ∃ cl ∈ (t.col p.col).bay.claims, cl.cmd = id ∧ cl.ctx = k.ctx ∧ cl.lo = p.lo ∧ cl.hi = p.hi ∧ cl.source = false) ∧
        ((s.recordClaims k l.det spans.1 spans.2).1 = false → s.answers (.claimSpan c id) fun t => (t.col c).cmd id = some k))) ∧
    (∀ (det : Bool) (src dst : List Span), (∀ p ∈ dst ++ (if det then src else []), (s.col p.col).bay.claimants < 64) →
      (s.col k.col).l1 = [] → (∀ q ∈ (s.col k.col).bay.reqs, q.put = none) → (s.recordClaims k det src dst).1 = true) ∧
    (k.st = .claimed → ((s.col c).queueOf k.entry k.queue).head?.map (·.id) = some id → (s.col c).mayGoOn k = true →
      s.answers (.copyCommandStart c id) fun t =>
        (t.col c).cmd id = some { k with st := .moving, iter := if k.restarted then k.iter else r.bounds.map fun _ => 0 }) ∧
    (k.st = .moving → k.finished = false → k.atStop = true → k.cancel = false → (s.col c).engineIsFree k s.clk = true →
      (s.col c).mayGoOn k = true → s.gateClosed c k.launch 2 = false → s.marked k = false →
      (∀ i, (k.kind = .copy ∧ i = .copyTransfer c id) ∨ (k.kind.gathers = true ∧ i = .gatherTransfer c id) →
        (k.identity = true → s.answers i fun t => t = s.walkIdentity k r) ∧
        (k.identity = false → ∀ u,
          (∀ f, s.plan k r = (.fault f, u) → s.answers i fun t => t = u.faultCmd c k f k.iter) ∧
          (∀ ms, s.plan k r = (.ready ms, u) → s.answers i fun t => t = u.perform k r ms)))) ∧
    (∀ part rest, k.st = .moving → k.finished = false → k.cribOut = part :: rest →
      ∀ i, (k.kind = .copy ∧ i = .copyTransfer c id) ∨ (k.kind.gathers = true ∧ i = .gatherTransfer c id) → s.answers i fun t => t = s.pourCrib k) ∧
    (k.finished = true → k.st = .moving → k.queue ≠ 5 → (s.col c).engineIsFree k s.clk = true → k.unacked = 0 →
      (∀ n ∈ (s.col c).counts, n.cmd ≠ id) →
      s.answers (.engineCommandDone c id) fun t => s.commandDone t c id ∧ ∀ cl ∈ (t.col c).bay.claims, cl.cmd ≠ id) ∧
    (∀ (n : Count) (rest : List Count) (e : Nat × Group), (s.col c).counts = n :: rest → n.due ≤ s.clk →
      ((s.col c).groups.find? fun e => e.2.live && decide (e.2.launch = n.launch) && decide (e.2.gid = n.gid)) = some e →
      let i := n.bar.toNat % 256
      ((s.col c).barCurrent e.1 n.bar = true → ((s.col c).barrier i).st = .opened → s.answers (.barBytesDelivered c) fun t =>
        let b := { (s.col c).barrier i with bytes := ((s.col c).barrier i).bytes + n.bytes }
        (t.col c).counts = rest ∧ (t.col c).barrier i = if b.p then b.tested else b) ∧
      ((s.col c).barCurrent e.1 n.bar = false → s.answers (.barBytesDelivered c) fun t =>
        (t.col c).counts = rest ∧ ∀ j, (t.col c).barrier j = (s.col c).barrier j)) ∧
    (∀ (n : Count) (rest : List Count) (v : Saved) (b : Barrier), (s.col c).counts = n :: rest → n.due ≤ s.clk →
      (∀ e ∈ (s.col c).groups, ¬ (e.2.live = true ∧ e.2.launch = n.launch ∧ e.2.gid = n.gid)) →
      ((s.node n.launch).launch.groupOf n.gid).saved = some v → v.barriers = [(n.bar.toNat % 256, b)] → b.st = .opened →
      n.bar.toNat / 8589934592 = 0 → (b.g - BitVec.ofNat 24 (n.bar.toNat / 256)).toNat < 4194304 →
      s.answers (.barBytesDelivered c) fun t => (t.col c).counts = rest ∧
        (((t.node n.launch).launch.groupOf n.gid).saved.map (·.barriers)) = some [(n.bar.toNat % 256, { b with bytes := b.bytes + n.bytes })]) ∧
    (∀ (q : PeerReq) (j : Nat) (data : List Byte),
      (s.host.peerReqs.find? fun q => decide (q.col = c) && decide (q.id = j)) = some q → q.cmd = id →
      (q.write = true → s.answers (.peerAcknowledge c j data) fun t => (t.col c).cmd id = some { k with unacked := k.unacked - 1 } ∧
        (∀ p ∈ t.host.peerReqs, p.id ≠ j) ∧ Tab.get 0 t.host.peerTraffic k.ctx = Tab.get 0 s.host.peerTraffic k.ctx + q.len) ∧
      (q.write = false → s.answers (.peerAcknowledge c j data) fun t =>
        (t.col c).cmd id = some { k with asked := k.asked - 1, peerGot := k.peerGot ++ [(qpName q.port q.qpn q.key, q.addr, data)] } ∧
        (∀ p ∈ t.host.peerReqs, p.id ≠ j) ∧ Tab.get 0 t.host.peerTraffic k.ctx = Tab.get 0 s.host.peerTraffic k.ctx + q.len) ∧
      s.answers (.peerLink c j) fun t => ((t.col c).cmd id).map (fun k => k.broken.map Prod.fst) = some (some 13) ∧
        (∀ p ∈ t.host.peerReqs, p.id ≠ j))

/-- R32, R214, R215, R225, R227, R230, R231, R232, R247, R248: the elements of a transfer and the places that they lie at. Boxes and loops run with
their first dimension fastest; a copy reads at its start, moved by its loops, plus the box's offset, and writes at its own start plus the offset
permuted; a gather's rows run over the table's other dimensions at the index, and over the row's coordinates plus the position. An element's
owner and offset follow its descriptor's distribution and layout, and coordinates out of bounds their modes. Which mode wins where several
coordinates are out of bounds is the model's choice (log 128). -/
def Obligations.TransferElementsAreLocated : Prop :=
  (∀ bs o, below bs o → (grid bs)[placeIn bs o]? = some o) ∧ (∀ bs, (grid bs).length = bs.foldr (· * ·) 1) ∧
  (∀ bs v, below bs v → (∀ w, nextVec bs v = some w → below bs w ∧ placeIn bs w = placeIn bs v + 1) ∧
    (nextVec bs v = none → placeIn bs v + 1 = bs.foldr (· * ·) 1)) ∧
  (∀ (t : TD) (own n : Nat) (i : List Nat), 1 ≤ t.rank → i.length = t.rank →
    let last := i.getD (t.rank - 1) 0
    let l := t.locate own n i
    let near (x : Nat) : List Nat := i.set (t.rank - 1) x
    (t.dist = 0 → l.g = (if t.base.getLsbD 63 then (t.base.extractLsb' 55 8).toNat else own) ∧ l.e = t.element i) ∧
    (t.dist = 1 → l.g = last / t.block ∧ l.e = t.element (near (last % t.block))) ∧
    (t.dist = 2 → l.g = last / t.block % n ∧ l.e = t.element (near (last / (t.block * n) * t.block + last % t.block))) ∧
    (isMx t.format = false → l.off = t.base.toNat % 281474976710656 + l.e * fmtBytes t.format) ∧
    (isMx t.format = true →
      let tile := t.base.toNat % 281474976710656 + l.e / 4096 * if t.format = 0x12 then 2176 else 4224
      l.scale = tile + l.e % 4096 / 32 ∧ l.off = tile + 128 + if t.format = 0x12 then l.e % 4096 / 2 else l.e % 4096)) ∧
  (∀ (t : TD) (i : List Nat), i.length = t.rank →
    let c (d : Nat) : Nat := i.getD d 0
    let sum (from_ : Nat) : Nat := (((List.range t.rank).drop from_).map fun d => c d * t.strideOf d).sum
    (t.layout = 0 → t.element i = sum 0) ∧
    (t.layout = 1 → 2 ≤ t.rank →
      let a0 := c 0 / t.tile0
      let a1 := c 1 / t.tile1
      t.element i = a1 / t.super1 * t.strideOf 1 + a0 / t.super0 * (t.tile0 * t.tile1 * t.super0 * t.super1) +
        (a1 % t.super1 * t.super0 + a0 % t.super0) * (t.tile0 * t.tile1) + (c 1 % t.tile1 * t.tile0 + c 0 % t.tile0) + sum 2)) ∧
  (∀ (bytes : List Byte) (gather : Bool) (coords : List Int) (it : List Nat),
    let r := recOf gather bytes
    r.valid = true → coords.length = r.a.rank + r.r.rank →
    (∀ d, d < r.a.rank → (r.starts coords it).1.getD d 0 = coords.getD d 0 + r.moved it fun l => decide (l.side ≠ 1) && decide (l.dim = d)) ∧
    (∀ d, d < r.r.rank → (r.starts coords it).2.getD d 0 = coords.getD (r.a.rank + d) 0 + r.moved it fun l =>
      (decide (l.side = 1) && decide (l.dim = d)) || (decide (l.side = 2) && decide ((if gather then l.dim else r.perm.getD l.dim l.dim) = d))) ∧
    ∀ p d, d < r.a.rank → (r.indexAt coords it p).getD d 0 = (r.starts coords it).1.getD d 0 + if d = 0 then (p : Int) else 0) ∧
  (∀ (bytes : List Byte) (own n : Nat) (coords : List Int) (it : List Nat) (j : Nat),
    let r := recOf false bytes
    let s0 := (r.starts coords it).1
    let d0 := (r.starts coords it).2
    r.valid = true → coords.length = 2 * r.a.rank →
    (r.copyPairs own n coords it).length = (r.box.take r.a.rank).foldr (· * ·) 1 ∧
    ∀ o, (grid (r.box.take r.a.rank))[j]? = some o → ∃ sc dc : List Int, sc.length = r.a.rank ∧ dc.length = r.a.rank ∧
      (∀ d, d < r.a.rank → sc.getD d 0 = s0.getD d 0 + (o.getD d 0 : Int) ∧
        dc.getD (r.perm.getD d d) 0 = d0.getD (r.perm.getD d d) 0 + (o.getD d 0 : Int)) ∧
      (∀ p, (r.copyPairs own n coords it)[j]? = some (.ok p) → p.sc = sc ∧ p.dc = dc ∧ r.a.reads own n sc p.src ∧ r.b.takes own n dc p.dst) ∧
      ∀ f, (r.copyPairs own n coords it)[j]? = some (.error f) → f.code = 3 ∧
        ((f.side = 0 ∧ f.coords = sc ∧ ¬ r.a.inBounds n sc f.dim ∧ r.a.mode f.dim = 0) ∨
          (f.side = 1 ∧ f.coords = dc ∧ ¬ r.b.inBounds n dc f.dim ∧ r.b.mode f.dim = 0))) ∧
  ∀ (bytes : List Byte) (scat : Bool) (own n : Nat) (coords : List Int) (it : List Nat) (p : Nat) (k : Int),
    let r := recOf true bytes
    let last := r.b.rank - 1
    let index : List Int := List.replicate last 0 ++ [k]
    let row0 := (r.starts coords it).2
    let ps := r.rowPairs scat own n coords it p k
    let table (o : List Nat) : Option Loc :=
      if r.b.mode last = 2 ∧ ¬ (0 ≤ k ∧ k < (r.b.limit n last : Nat)) then none else some (r.b.locate own n (o ++ [r.b.nearest n index last]))
    r.valid = true → coords.length = r.a.rank + r.r.rank →
    (r.b.mode last = 0 → ¬ r.b.inBounds n index last → ps = [.error { code := 4, dim := last, side := 3, coords := index, ipos := p }]) ∧
    ((r.b.mode last = 0 → r.b.inBounds n index last) → ps.length = ((List.range last).map r.b.sizeOf).foldr (· * ·) 1 ∧
      ∀ (j : Nat) (o : List Nat) (x : Pair), (grid ((List.range last).map r.b.sizeOf))[j]? = some o → ps[j]? = some (.ok x) → x.ipos = p ∧
        ∃ rc : List Int, rc.length = r.b.rank ∧ (∀ d, d < last → rc.getD d 0 = row0.getD d 0 + (o.getD d 0 : Int)) ∧
          rc.getD last 0 = row0.getD last 0 + (p : Int) ∧
          if scat then x.dst = table o ∧ r.r.reads own n rc x.src else x.src = table o ∧ r.r.takes own n rc x.dst)

/-- R33, R226, R230, R232, R236, R244, R245, R247, R251, R262: the bytes that a transfer of COPY, GATH or SCAT writes. Each element is read at its
place or is its descriptor's fill; it keeps its code, or is converted, and a block of an MX destination is requantized once with the transfer's
elements in it; the transfer's messages name, line by line, exactly its writes in transfer order, at its own bay, at others, and in the crib;
and what a message writes at a bay is what its writes give in their order, a later one over an earlier, and no other byte. -/
def Obligations.TransfersWriteTheirBytes : Prop :=
  (∀ c s : Nat, codeVal 1 c s = FVal.ofInt (BitVec.ofNat 8 c).toInt ∧ codeVal 2 c s = FVal.ofInt (BitVec.ofNat 32 c).toInt ∧
    codeVal 3 c s = fp32.decode c ∧ codeVal 4 c s = fp16.decode c ∧ codeVal 5 c s = bf16.decode c ∧ codeVal 6 c s = e4m3.decode c ∧
    codeVal 7 c s = e5m2.decode c ∧ ∀ f, f < 4 → codeVal (16 + f) c s = blockValue f s c) ∧
  (∀ (sat : Bool) (x : FVal),
    let fp (g : FpFmt) : Nat := g.encode (if sat then g.sat (g.round .rne x) else g.round .rne x)
    convCode 3 sat x = fp fp32 ∧ convCode 4 sat x = fp fp16 ∧ convCode 5 sat x = fp bf16 ∧ convCode 7 sat x = fp e5m2 ∧
    convCode 6 sat x = e4m3.encode (e4m3.sat (e4m3.round .rne x)) ∧
    ∀ f w, (f, w) ∈ [(1, 8), (2, 32)] → convCode f sat x =
      match x with
      | .nan => if sat then 0 else 2 ^ (w - 1)
      | .inf neg => if sat = true ∧ neg = false then 2 ^ (w - 1) - 1 else 2 ^ (w - 1)
      | .fin neg m e =>
        let v : Int := if neg then -(roundInt .rne neg m e : Int) else roundInt .rne neg m e
        if -(2 ^ (w - 1) : Nat) ≤ v ∧ v < (2 ^ (w - 1) : Nat) then (v % (2 ^ w : Nat)).toNat
        else if sat = true ∧ 0 ≤ v then 2 ^ (w - 1) - 1 else 2 ^ (w - 1)) ∧
  (∀ (s : State) (k : Command) (t : TD) (scale : Bool) (m : Move),
    let w := windowOf (decide (k.kind = .gath)) m.pair.ipos
    (m.src = none → isMx t.format = false → s.element k t scale m = .ok { fmt := t.format, code := t.fill.toNat, scale := t.fill.toNat / 256 % 256 }) ∧
    (m.src = none → isMx t.format = true →
      s.element k t scale m = .ok { fmt := t.format, code := t.fill.toNat % (if t.format = 0x12 then 16 else 256), scale := t.fill.toNat / 256 % 256 }) ∧
    (∀ p e b, m.src = some (p, none, e) → isMx t.format = false → s.got k p (fmtBytes t.format) w = some b → b ≠ [] →
      s.element k t scale m = .ok { fmt := t.format, code := natOfBytes b }) ∧
    (∀ p q e b sb, m.src = some (p, some q, e) → isMx t.format = true → s.got k p 1 w = some [b] → s.got k q 1 = some [sb] →
      s.element k t scale m = .ok { fmt := t.format, code := codeIn (t.format - 16) e b.toNat, scale := if scale then sb.toNat else 127 })) ∧
  (∀ (s : State) (k : Command) (r : Rec) (ms : List Move) (vs : List (Move × EltSrc)),
    let ends := r.ends (decide (k.kind = .scat))
    let td := ends.2.1
    let al := r.aligned k.coords k.iter
    let ws := vs.foldl (fun l v => v.1.writes td (s.gcols k).2.2 r.sat al v.2 l) []
    let raw (v : Move × EltSrc) (d : Place × Option Place × Nat) : StoreWrite :=
      (d.1.store, if td.format = 0x12 then .nibble d.1.addr (decide (d.2.2 % 2 = 1)) v.2.code else .bytes d.1.addr [BitVec.ofNat 8 v.2.code])
    s.values k r ends.1 ends.2.2.1 ms = .ok vs →
    vs.map Prod.fst = ms ∧ (∀ v ∈ vs, s.element k ends.1 (r.needsScale al) v.1 = .ok v.2) ∧
    (isMx td.format = false → ws = vs.filterMap fun v => v.1.dst.map fun d => (d.1.store, .bytes d.1.addr
      (bytesOf (fmtBytes td.format) (if v.2.fmt = td.format then v.2.code else convCode td.format r.sat v.2.val)))) ∧
    (isMx td.format = true → (∀ v ∈ vs, v.2.fmt = td.format) → al = false → ws = vs.filterMap fun v => v.1.dst.map (raw v)) ∧
    (isMx td.format = true → (∀ v ∈ vs, v.2.fmt = td.format) → al = true → ∀ v ∈ vs, ∀ p q e, v.1.dst = some (p, some q, e) →
      raw v (p, some q, e) ∈ ws ∧ (v.1.src ≠ none → (q.store, .bytes q.addr [BitVec.ofNat 8 v.2.scale]) ∈ ws) ∧
        ∃ x, (q.store, .bytes q.addr [x]) ∈ ws) ∧
    (isMx td.format = true → (∀ v ∈ vs, v.2.fmt ≠ td.format) →
      let start (d : Place × Option Place × Nat) : Nat := d.1.addr - if td.format = 0x12 then d.2.2 % 32 / 2 else d.2.2 % 32
      (∀ v ∈ vs, ∀ d, v.1.dst = some d → ∃ w ∈ ws, w.1 = d.1.store ∧ ∃ sc own l, w.2 = .block (td.format - 16) (start d) sc own l) ∧
      ∀ w ∈ ws, ∃ a sc own l, w.2 = .block (td.format - 16) a sc own l ∧ l = vs.filterMap fun v => v.1.dst.bind fun d =>
        if d.1.store = w.1 ∧ start d = a then some (d.2.2 % 32, v.2) else none) ∧
    ((s.col k.col).cmd k.id = some k → ws ≠ [] → k.toSend = [] → k.cribOut = [] → k.unacked = 0 → (∀ w ∈ ws, w.1 = (0, k.col)) →
      let t := s.perform k r ms
      s.sameMemory t ∧ ∃ new : List Req, (t.col k.col).bay.reqs = (s.col k.col).bay.reqs ++ new ∧ (new.map (·.line)).Nodup ∧
        (∀ l, l ∈ new.map (·.line) ↔ ∃ w ∈ ws, w.2.line = l) ∧ ((t.col k.col).cmd k.id).map (·.unacked) = some new.length ∧
        ∀ q ∈ new, q.cmd = k.id ∧ q.put = none ∧ ∃ f, q.eng = some f ∧ f.type = 2 ∧ f.ctx = k.ctx ∧ f.hint = r.epd ∧
          f.ops = (ws.filter fun w => decide (w.2.line = q.line)).map Prod.snd)) ∧
  (∀ (s : State) (k : Command) (ep c : Nat) (ws : List StoreWrite), ws ≠ [] →
    (c ≠ k.col → (∀ w ∈ ws, w.1 = (0, c)) → ∃ new : List Flit, (s.postWrites k ep ws).1.toSend = k.toSend ++ new ∧
      (s.postWrites k ep ws).1.unacked = k.unacked + new.length ∧ (new.map (·.addr)).Nodup ∧ (∀ l, 128 * l ∈ new.map (·.addr) ↔ ∃ w ∈ ws, w.2.line = l) ∧
      ∀ f ∈ new, f.type = 2 ∧ f.dst = 256 + c ∧ f.ctx = k.ctx ∧ f.hint = ep ∧ f.ops = (ws.filter fun w => decide (128 * w.2.line = f.addr)).map Prod.snd) ∧
    ((∀ w ∈ ws, w.1 = (1, c)) → (∀ w ∈ ws, ∃ a b, w.2 = .bytes a b) → ∃ new : List (List (Nat × Byte)), (s.postWrites k ep ws).1.cribOut = k.cribOut ++ (new.map fun u => (c, u)) ∧
      (new.flatMap fun u => u.map Prod.fst).Nodup ∧ (∀ u ∈ new, ∃ a, ∀ p ∈ u, p.1 / 16 = a) ∧
      (∀ before a b after i, ws = before ++ ((1, c), .bytes a b) :: after → i < b.length → (b.length = 1 ∨ a % b.length = 0) → 128 % b.length = 0 →
        (∀ w ∈ after, ∀ a' b', w.2 = .bytes a' b' → a + i < a' ∨ a' + b'.length ≤ a + i) → (a + i, b.getD i 0#8) ∈ new.flatMap id) ∧
      ∀ p ∈ new.flatMap id, ∃ w ∈ ws, ∃ a b, w.2 = .bytes a b ∧ a ≤ p.1 ∧ p.1 < a + b.length)) ∧
  (∀ (s : State) (k : Command) (launch : Nat) (bs : List (Nat × Byte)) (rest : List (Nat × List (Nat × Byte))), k.cribOut = (launch, bs) :: rest →
    (bs.map Prod.fst).Nodup →
    let y := (s.pourCrib k).col k.col
    let crib (x : Column) (a : Nat) := Memory.read (Tab.get {} x.cribs launch).bytes a
    (∀ p ∈ bs, crib y p.1 = p.2) ∧ ∀ a, (∀ p ∈ bs, p.1 ≠ a) → crib y a = crib (s.col k.col) a) ∧
  ∀ (x : Column) (free ctx ep : Nat) (ops : List BayWrite) (w : BayWrite), (∀ l, x.uncached l) → (∀ o ∈ w :: ops, o.inHbm) →
    let y := x.bayWrites free ctx ep [w]
    (∀ a, (x.bayWrites free ctx ep []).byteAt free a = x.byteAt free a) ∧
    (∀ a, (x.bayWrites free ctx ep (ops ++ [w])).byteAt free a = ((x.bayWrites free ctx ep ops).bayWrites free ctx ep [w]).byteAt free a) ∧
    (∀ pa b, w = .bytes pa b → (∀ i, i < b.length → some (y.byteAt free (pa + i)) = b[i]?) ∧
      ∀ a, (a < pa ∨ pa + b.length ≤ a) → y.byteAt free a = x.byteAt free a) ∧
    (∀ pa hi v, w = .nibble pa hi v → (∀ a, a ≠ pa → y.byteAt free a = x.byteAt free a) ∧
      let old := (x.byteAt free pa).toNat
      (y.byteAt free pa).toNat = if hi then old % 16 + 16 * (v % 16) else old / 16 * 16 + v % 16) ∧
    ∀ fmt elems scale own elts, w = .block fmt elems scale own elts → fmt < 4 → (scale < elems ∨ elems + 32 ≤ scale) →
      let at_ (k : Nat) : Nat := elems + if fmt = 2 then k / 2 else k
      let code (z : Column) (k : Nat) : Nat := codeIn fmt k (z.byteAt free (at_ k)).toNat
      let last (k : Nat) := elts.reverse.find? fun e => decide (e.1 = k)
      let new (k : Nat) : FVal := (last k).elim
        (if own.getLsbD k then blockValue fmt (x.byteAt free scale).toNat (code x k) else .fin false 0 0) fun e => e.2.val
      requantizes fmt (fun k => own.getLsbD k = true) new (y.byteAt free scale).toNat (code y) ∧
      (∀ k, k < 32 → own.getLsbD k = false → code y k = code x k) ∧
      ∀ a, a ≠ scale → (∀ k, k < 32 → a ≠ at_ k) → y.byteAt free a = x.byteAt free a

/-- R213, R266, R267, R269, R275, R276, R280, R281, R283: the codes of the checks that fail at the head of the thresher's queue, command by
command; the tile that each weight format takes, the activation formats that it pairs with, and where an element of a tile lies; and a row of
MSTR, which writes each value of the tile's row scaled by 2^exp at its coordinates, converted, in ascending order, or stops at the first element
that faults, with the lowest code of its two bytes. -/
def Obligations.ThresherChecksAndRows : Prop :=
  (∀ (s : State) (k : Command) (code : Nat),
    let x := s.col k.col
    let sh := x.share k.launch
    let m := k.mloop
    let within (g : Grant) (size : Nat) (off : Int) : Prop := off % 128 = 0 ∧ 0 ≤ off ∧ off + size ≤ g.size * 1024
    let stale : Prop := ∃ b, k.bar = some b ∧ x.barCurrent k.entry b = false
    (k.kind = .mldw → (code ∈ s.headCodes k ↔ (code = 2 ∧ x.currentGrant k.launch k.x = none) ∨ ∃ g, x.currentGrant k.launch k.x = some g ∧
      ((code = 3 ∧ ¬ within g (tileBytes g.fmt (weightKt g.fmt)) (k.y.toNat % 4294967296 : Nat)) ∨ (code = 4 ∧ g.fmt ∉ [1, 5, 6, 7, 0x10, 0x11, 0x12, 0x13])))) ∧
    (k.kind = .mswap → s.headCodes k = []) ∧
    (k.kind = .mzero → (code ∈ s.headCodes k ↔ code = 5 ∧ sh.tiles ≤ k.tile)) ∧
    (k.kind = .mloop →
      let plane := if m.swap then sh.shadow else sh.active
      let wg := x.currentGrant k.launch m.wgrant
      let ag := x.currentGrant k.launch m.agrant
      let f := if plane.tile ≠ [] then some plane.fmt else if m.swap then wg.map (·.fmt) else none
      let kt := weightKt (f.getD 0)
      (code ∈ s.headCodes k ↔ (code = 1 ∧ m.ok = false) ∨ (code = 2 ∧ (ag = none ∨ (m.swap = true ∧ wg = none))) ∨
        (code = 3 ∧ ((∃ g i, ag = some g ∧ i < m.ksteps ∧ ¬ within g (tileBytes g.fmt kt) (m.aoff + i * m.ainc)) ∨
          ∃ g i, m.swap = true ∧ wg = some g ∧ 0 < i ∧ i < m.ksteps ∧ ¬ within g (tileBytes g.fmt (weightKt g.fmt)) (m.woff + i * m.winc))) ∨
        (code = 4 ∧ ∃ w, f = some w ∧ ((∃ g, ag = some g ∧ pairLegal w g.fmt = false) ∨ ∃ g, m.swap = true ∧ wg = some g ∧ w ≠ g.fmt)) ∨
        (code = 5 ∧ sh.tiles ≤ k.tile) ∨ (code = 6 ∧ plane.tile = []) ∨ (code = 7 ∧ stale))) ∧
    (k.kind = .mstr →
      let t := k.dst
      let l := (s.node k.launch).launch
      let ok : Prop := t.valid = true ∧ t.rank = 2 ∧ t.dist = 0 ∧ t.format ∉ [0, 8, 9] ∧ 1 ≤ k.rows ∧ k.rows ≤ 128 ∧ fieldOf k.record 0x69 1 < 8 ∧
        fieldOf k.record 0x6C 4 = 0
      let base : Prop := t.base.toNat < 2 ^ 48 ∨
        (2 ^ 63 ≤ t.base.toNat ∧ t.base.toNat / 2 ^ 48 % 128 = 0 ∧ t.base.toNat / 2 ^ 55 % 256 < l.map.length)
      (code ∈ s.headCodes k ↔ (code = 1 ∧ ¬ ok) ∨ (code = 5 ∧ sh.tiles ≤ k.tile) ∨ (code = 7 ∧ stale) ∨ (code = 9 ∧ ¬ base) ∨
        (code = 13 ∧ ok ∧ base ∧ l.det = true ∧ s.races k [] (s.mstrSpans k) = true)))) ∧
  (∀ e ∈ [(1, 128, 16384, [1]), (5, 64, 16384, [5]), (6, 128, 16384, [6, 7, 0x10, 0x11]), (7, 128, 16384, [6, 7, 0x10, 0x11]),
      (0x10, 128, 16896, [6, 7, 0x10, 0x11]), (0x11, 128, 16896, [6, 7, 0x10, 0x11]), (0x12, 256, 17408, [6, 7, 0x10, 0x11]),
      (0x13, 512, 67584, [6, 7, 0x10, 0x11])],
    weightKt e.1 = e.2.1 ∧ tileBytes e.1 e.2.1 = e.2.2.1 ∧ (∀ a, pairLegal e.1 a = true ↔ a ∈ e.2.2.2) ∧
      tileBytes 6 e.2.1 = 128 * e.2.1 ∧ tileBytes 7 e.2.1 = 128 * e.2.1 ∧
      (128 ≤ e.2.1 → tileBytes 0x10 e.2.1 = 132 * e.2.1 ∧ tileBytes 0x11 e.2.1 = 132 * e.2.1) ∧
      ∀ (f : Nat) (b : Array Byte) (r i : Nat), (f = e.1 ∨ f ∈ e.2.2.2) → i < e.2.1 →
        (isMx f = false → tileElem f e.2.1 b r i =
          codeVal f (natOfBytes ((List.range (fmtBytes f)).map fun j => b.getD ((r * e.2.1 + i) * fmtBytes f + j) 0#8)) 0 ∧
          ∀ j, tileScale f e.2.1 b r j = 127) ∧
        (isMx f = true →
          let q := 4096 / e.2.1
          let base := r / q * (if f = 0x12 then 2176 else 4224)
          let j := r % q * e.2.1 + i
          let decoded (c : Nat) : FVal :=
            if f = 0x10 then e4m3.decode c else if f = 0x11 then e5m2.decode c else if f = 0x12 then e2m1.decode c else ts8Decode c
          tileElem f e.2.1 b r i = decoded (codeIn (f - 16) j (b.getD (base + 128 + if f = 0x12 then j / 2 else j) 0#8).toNat) ∧
          tileScale f e.2.1 b r (i / 32) = (b.getD (base + j / 32) 0#8).toNat)) ∧
  ∀ (s : State) (k : Command),
    let own := (s.gcols k).2.1
    let gang := (s.gcols k).2.2
    let row := ((s.col k.col).share k.launch).row k.tile k.step
    let coords (n : Nat) : List Int :=
      [(BitVec.ofNat 32 (fieldOf k.record 0x60 4)).toInt + (n : Int), (BitVec.ofNat 32 (fieldOf k.record 0x64 4)).toInt + (k.step : Int)]
    let exp : Int := (BitVec.ofNat 16 (fieldOf k.record 0x6A 2)).toInt
    let found := s.mstrMoves k row own ((List.range 128).zip (k.mstrRow own gang k.step))
    let t := k.dst
    k.kind = .mstr → k.mstrOk = true → (s.col k.col).cmd k.id = some k →
    (∀ f n, found.1 = .error (f, n) → n < 128 ∧ (k.cancel = false → found.2.commandFaulted (s.mstrCarry k) k.col k (mstrCode f.code)) ∧
      ((f.code = 3 ∧ ∃ d, ¬ t.inBounds gang (coords n) d ∧ t.mode d = 0) ∨ ∃ (v w : State) (l : Loc), t.takes own gang (coords n) (some l) ∧
        v.placeOf k t 1 (coords n) 0 true l = (.error f, w)) ∧
      ∀ m, m < n → ∀ d, d < 2 → ¬ t.inBounds gang (coords m) d → t.mode d ≠ 0) ∧
    (∀ (l : Loc) (n : Nat) (f : CmdFault) (w : State), s.placeOf k t 1 (coords n) 0 true l = (.error f, w) →
      (∀ a c, (s.place k l.g l.off true) = (.error c, a) → mstrCode f.code ≤ mstrCode c) ∧
      (isMx t.format = true → ∀ a c b d, (s.place k l.g l.off true) = (.error c, a) → a.place k l.g l.scale true = (.error d, b) →
        mstrCode f.code = min (mstrCode c) (mstrCode d))) ∧
    (∀ ms, found.1 = .ok ms →
      (∃ xs : List (Option Loc), xs.length = 128 ∧ (∀ n, n < 128 → t.takes own gang (coords n) (xs.getD n none)) ∧
        ms.map (fun v => (v.1.src, v.1.pair.dc, v.1.pair.dst, v.2)) = ((List.range 128).zip xs).filterMap fun e =>
          e.2.map fun l => (none, coords e.1, some l, ({ fmt := 3, code := (rowValue row e.1).toNat, exp := exp } : EltSrc))) ∧
      (let ws := ms.foldl (fun l v => v.1.writes t gang (k.mstrFlag 0) false v.2 l) [];
        (isMx t.format = false → ws = ms.filterMap fun v => v.1.dst.map fun d => (d.1.store, .bytes d.1.addr (bytesOf (fmtBytes t.format)
          (if t.format = 3 ∧ exp = 0 then v.2.code else convCode t.format (k.mstrFlag 0) ((fp32.decode v.2.code).scale exp))))) ∧
        (isMx t.format = true →
          let start (d : Place × Option Place × Nat) : Nat := d.1.addr - if t.format = 0x12 then d.2.2 % 32 / 2 else d.2.2 % 32
          (∀ v ∈ ms, ∀ d, v.1.dst = some d → ∃ w ∈ ws, w.1 = d.1.store ∧ ∃ sc o l, w.2 = .block (t.format - 16) (start d) sc o l) ∧
          ∀ w ∈ ws, ∃ a sc o l, w.2 = .block (t.format - 16) a sc o l ∧ l = ms.filterMap fun v => v.1.dst.bind fun d =>
            if d.1.store = w.1 ∧ start d = a then some (d.2.2 % 32, v.2) else none) ∧
        (found.2.mstrNeeds k ms = {} →
          let p := found.2.postWrites { k with written := true, bytes := countBytes t (ms.map Prod.fst) } 0 ws
          let u := p.2.updCol k.col fun x => (x.setCmd p.1).sendEngine p.1
          s.mstrCarry k = if p.1.unacked = 0 ∧ p.1.toSend = [] ∧ p.1.cribOut = [] then u.endRow p.1 else u)))

/-- R270 to R278, R280, R283: the command at the head of the queue of the launch that the thresher serves. The lowest code of the checks that
fail faults it; MSWAP exchanges the planes, MZERO zeroes its tile, MLDW, MLOOP and MSTR begin; a K-step adds its products to the rows of its
tile, and the last one of a command with ARR adds an arrival to its barrier; what has landed makes the future DONE; and MSTR goes on row by row,
clearing the tile at its end where ZERO asks. When the planes change places is the model's choice (log 51). -/
def Obligations.ThresherStepsHappen : Prop :=
  ∀ (s : State) (c node : Nat) (k : Command), (s.col c).thresherNext node = some k → (s.col c).cmd k.id = some k → k.col = c → k.cancel = false →
    (s.col c).holdsLaunch node = true →
    (s.thresherChoice c = some node → k.st = .queued →
      let u := s.updCol c fun x => x.served_ node s.clk
      (∀ code more, u.headCodes k = code :: more →
        s.answers (.thresherCommandStart c node) fun t => s.commandFaulted t c k (more.foldl min code)) ∧
      (u.headCodes k = [] →
        (k.kind = .mswap → s.answers (.thresherCommandStart c node) fun t => s.commandDone t c k.id ∧
          ((t.col c).share node).active = ((s.col c).share node).shadow ∧ ((t.col c).share node).shadow = ((s.col c).share node).active) ∧
        (k.kind = .mzero → s.answers (.thresherCommandStart c node) fun t => s.commandDone t c k.id ∧
          ∀ r < 128, ((t.col c).share node).row k.tile r = 0#4096) ∧
        (k.kind = .mldw ∨ k.kind = .mloop → s.answers (.thresherCommandStart c node) fun t =>
          ((t.col c).cmd k.id).map (fun q => (q.st, q.step)) = some (.moving, 0)) ∧
        (k.kind = .mstr → (u.recordClaims k (s.node node).launch.det [] (u.mstrSpans k)).1 = true →
          s.answers (.thresherCommandStart c node) fun t => ((t.col c).cmd k.id).map (fun q => (q.st, q.step)) = some (.moving, 0)))) ∧
    (s.thresherChoice c = some node → k.kind = .mloop → k.st = .moving → k.finished = false → k.mloop.rows ≤ 128 →
      s.answers (.thresherKstep c node) fun t =>
        let m := k.mloop
        let sh := (s.col c).share node
        let w := if m.swap then sh.shadow else sh.active
        let ag := ((s.col c).currentGrant node m.agrant).getD {}
        let a := sh.bytesAt ag (m.aoff + (k.step : Int) * m.ainc).toNat (tileBytes ag.fmt (weightKt w.fmt))
        ((t.col c).cmd k.id).map (fun q => (q.step, q.finished, q.lands)) =
          some (k.step + 1, decide (m.ksteps ≤ k.step + 1), s.clk + m.rows + 20) ∧
        ((t.col c).share node).active = w ∧
        (∀ b, k.bar = some b → m.ksteps ≤ k.step + 1 → ((s.col c).barrier (barIndex b)).st = .opened →
          (t.col c).barrier (barIndex b) = ({ (s.col c).barrier (barIndex b) with arr := ((s.col c).barrier (barIndex b)).arr + 1 } : Barrier).tested) ∧
        (∀ i, (∀ b, k.bar = some b → m.ksteps ≤ k.step + 1 → barIndex b ≠ i) → (t.col c).barrier i = (s.col c).barrier i) ∧
        (∀ r < m.rows, ∀ n < 128, rowValue (((t.col c).share node).row k.tile r) n =
          stepValue ag.fmt w.fmt (weightKt w.fmt) (ag.sadj + w.sadj) a.toArray w.tile.toArray r n (rowValue (sh.row k.tile r) n)) ∧
        ∀ r, m.rows ≤ r → r < 128 → ((t.col c).share node).row k.tile r = sh.row k.tile r) ∧
    (k.kind = .mloop → k.st = .moving → k.finished = true → k.lands ≤ s.clk →
      s.answers (.mloopRowsLanded c node) fun t => s.commandDone t c k.id) ∧
    (∀ g, k.kind = .mldw → k.st = .moving → k.lands ≤ s.clk → (s.col c).currentGrant node k.x = some g →
      s.answers (.shadowPlaneLoaded c node) fun t => s.commandDone t c k.id ∧
        ((t.col c).share node).shadow = { tile := ((s.col c).share node).bytesAt g (k.y.extractLsb' 0 32).toNat (tileBytes g.fmt (weightKt g.fmt)),
                                          fmt := g.fmt, sadj := g.sadj } ∧
        ((t.col c).share node).active = ((s.col c).share node).active) ∧
    (k.kind = .mstr → k.st = .moving →
      (k.finished = true → (∀ n ∈ (s.col c).counts, n.cmd ≠ k.id) → s.answers (.mstrTransfer c node) fun t => s.commandDone t c k.id) ∧
      (k.finished = false → k.cribOut ≠ [] → s.answers (.mstrTransfer c node) fun t => t = s.pourCrib k) ∧
      (k.finished = false → k.broken = none → k.cribOut = [] → k.toSend = [] → k.written = true → k.unacked = 0 →
        s.answers (.mstrTransfer c node) fun t => ((t.col c).cmd k.id).map (fun q => (q.step, q.finished)) =
          some (k.step + 1, decide (k.rows ≤ k.step + 1)) ∧
          ∀ tile r, k.rows ≤ 128 → r < 128 → ((t.col c).share node).row tile r =
            if tile = k.tile ∧ r < k.rows ∧ k.rows ≤ k.step + 1 ∧ k.mstrFlag 2 = true then 0#4096 else ((s.col c).share node).row tile r) ∧
      (k.finished = false → k.broken = none → k.cribOut = [] → k.toSend = [] → k.written = false → k.waiting = [] → s.gateClosed c k.launch 2 = false →
        s.marked k = false → s.answers (.mstrTransfer c node) fun t => t = s.mstrCarry k))

/-! ## Steps of the fabric -/

/-- R288, R290, R291, R295 to R297, R301 to R304, R164, R236, R251: a flit that is alone leaves at its destination, or hops on its first
productive port in the order X, Y, Z and is a hop older; several at one router are placed by key and then by rank, each on its first free
productive port or deflected to the first free one, and flits of TYPE 8 to 15 are dropped and counted; a window's counts start again; a
reduction combines in ascending gcol; and every message type does at its interface what
its rule says: a mailbox message is written and acknowledged or refused, an acknowledgement and a refusal reach their entry, an arrival at
the barrier waits or releases all, the bay combines a reduction, a read is answered by its line in two halves, and a write is performed
and acknowledged. What happens between the two interfaces of one column, and how injections are counted, is the model's choice (logs 55,
56 and 58). -/
def Obligations.FabricStepsHappen : Prop :=
  ∀ (s : State) (c : Nat),
    let out (t : State) : List Flit := (t.col c).ejected ++ (t.col c).nifBay.backlog
    (∀ f : Flit, s.flits = [f] → f.type < 8 → f.due ≤ s.clk → s.routeAt ≤ s.clk → f.at_ < 512 → f.dst < 512 → s.deadLinks = [] →
      (∀ e ∈ s.cols, e.2.nifCore.backlog = [] ∧ e.2.nifBay.backlog = [] ∧ ∀ w ∈ e.2.warps, w.2.xch = none) →
      (f.at_ = f.dst → s.answers .routerCycle fun t =>
        t.flits = [] ∧ (t.col (f.dst % 256)).ejected = (s.col (f.dst % 256)).ejected ++ [f] ∧ t.routeAt = s.clk + 1) ∧
      (f.at_ ≠ f.dst → s.answers .routerCycle fun t =>
        let x := f.at_ % 16
        let y := f.at_ / 16 % 16
        let next := if x < f.dst % 16 then f.at_ + 1 else if f.dst % 16 < x then f.at_ - 1
          else if y < f.dst / 16 % 16 then f.at_ + 16 else if f.dst / 16 % 16 < y then f.at_ - 16 else (f.at_ + 256) % 512
        t.flits = [{ f with at_ := next, due := s.clk + 2, age := min 1023 (f.age + 1) }] ∧ t.routeAt = s.clk + 1)) ∧
    (s.routeAt ≤ s.clk → let u := (Tab.keys s.cols).foldl State.resendExchanges s
      s.answers .routerCycle fun t => ∃ rs : List Nat, rs.Nodup ∧ t = { rs.foldl State.routerStep u with routeAt := u.clk + 1 } ∧
        ∀ r, r ∈ rs ↔ (∃ f ∈ u.flits, f.at_ = r ∧ f.due ≤ u.clk) ∨
          ∃ e ∈ u.cols, (r = e.1 ∧ e.2.nifCore.backlog ≠ []) ∨ (r = 256 + e.1 ∧ e.2.nifBay.backlog ≠ [])) ∧
    (∀ (r : Nat) (order : List Flit), r < 512 →
      let here (f : Flit) : Bool := decide (f.at_ = r) && decide (f.due ≤ s.clk)
      let key (f : Flit) : Nat := min 1023 (f.age + (s.node 0).eff.bonus.getD f.tc 0)
      let rank (f : Flit) : Int := ((f.src : Int) - (s.clk : Int)) % 512
      let exists_ (q : Nat) : Bool := !s.deadLinks.contains (r, q) && ((decide (q = 0) && decide (r / 16 % 16 < 15)) || (decide (q = 1) && decide (r % 16 < 15)) ||
        (decide (q = 2) && decide (0 < r / 16 % 16)) || (decide (q = 3) && decide (0 < r % 16)) || decide (q = 4))
      let wants (f : Flit) : List Nat :=
        (if r % 16 < f.dst % 16 then [1] else if f.dst % 16 < r % 16 then [3] else []) ++
        (if r / 16 % 16 < f.dst / 16 % 16 then [0] else if f.dst / 16 % 16 < r / 16 % 16 then [2] else []) ++ (if r / 256 = f.dst / 256 then [] else [4])
      (if r < 256 then (s.col (r % 256)).nifCore else (s.col (r % 256)).nifBay).backlog = [] →
      order.Perm (s.flits.filter fun f => here f && decide (f.type < 8)) →
      order.Pairwise (fun f g => key g < key f ∨ (key f = key g ∧ rank f < rank g)) → order.length ≤ ((List.range 5).filter exists_).length →
      let t := s.routerStep r
      (∃ out : List (Option Nat), out.length = order.length ∧
        (∀ (i : Nat) (f : Flit), order[i]? = some f →
          let free (q : Nat) : Prop := exists_ q = true ∧ ∀ j, j < i → out[j]? ≠ some (some q)
          let local_ : Prop := f.dst = r ∧ ∀ j, j < i → out[j]? ≠ some none
          (local_ → out[i]? = some none) ∧
          (¬ local_ → ∃ q : Nat, out[i]? = some (some q) ∧ free q ∧ ((∃ p ∈ wants f, free p) → ∃ u v, wants f = u ++ q :: v ∧ ∀ p ∈ u, ¬ free p) ∧
            ((∀ p ∈ wants f, ¬ free p) → ∀ p : Nat, p < q → ¬ free p))) ∧
        t.flits = (s.flits.filter fun f => !here f) ++ (order.zip out).filterMap (fun e => e.2.map fun q =>
          { e.1 with at_ := (if q = 0 then r + 16 else if q = 1 then r + 1 else if q = 2 then r - 16 else if q = 3 then r - 1 else (r + 256) % 512),
                     due := s.clk + 2, age := min 1023 (e.1.age + 1) }) ∧
        (t.col (r % 256)).ejected = (s.col (r % 256)).ejected ++ (order.zip out).filterMap fun e => if e.2 = none then some e.1 else none) ∧
      Tab.get 0 (t.col (r % 256)).bay.counts 55 =
        Tab.get 0 (s.col (r % 256)).bay.counts 55 + (s.flits.filter fun f => here f && decide (8 ≤ f.type)).length) ∧
    (∀ (op g l : Nat) (v : Vec) (vs : Tab Vec), l < 32 → lane (combineAll op ((g, v) :: vs)) l =
      canonNan op (vs.foldl (fun acc e => if op = 8 then r32 .rne ((f32 acc).add .rne (f32 (lane e.2 l))) else redOp op acc (lane e.2 l)) (lane v l))) ∧
    (s.answers .injectionWindow fun t => ∀ x, Tab.find? s.cols c = some x →
      (t.col c).nifCore = (if x.nifCore.window = s.clk / 1024 then x.nifCore else { x.nifCore with window := s.clk / 1024, counts := [] }) ∧
      (t.col c).nifBay = if x.nifBay.window = s.clk / 1024 then x.nifBay else { x.nifBay with window := s.clk / 1024, counts := [] }) ∧
    (∀ (f : Flit) (y : Column) (nd : Nat) (l : Launch), (s.col c).takeFlit (fun f => decide (f.type = 5)) = some (f, y) →
      s.gangLaunch (f.tag / 1024) = some (nd, l) → (s.col c).replyRoom c 1 f = true →
      let key := mailKey f.tag (l.gcolOf (f.src % 256))
      let m := Tab.get ({} : Mail) (s.col c).mail key
      let live := l.liveLocal (l.gcolOf c) (f.tag / 64 % 16)
      (∀ a b, (f.seq % 2 = 1 ∧ m.lo = some a ∧ b = f.payload) ∨ (f.seq % 2 = 0 ∧ m.hi = some b ∧ a = f.payload) →
        (live = false → s.answers (.xdata c) fun t => Tab.get ({} : Mail) (t.col c).mail key = { m with lo := none, hi := none } ∧
          ∃ g ∈ out t, g.type = 4 ∧ g.partner = true ∧ g.dst = f.src ∧ g.mid = f.mid) ∧
        (live = true → m.full = false → s.answers (.xdata c) fun t =>
          Tab.get ({} : Mail) (t.col c).mail key = { full := true, kind := f.seq / 2, data := vecOfBytes (a ++ b) } ∧
            ∃ g ∈ out t, g.type = 3 ∧ g.dst = f.src ∧ g.mid = f.mid) ∧
        (live = true → m.full = true → s.answers (.xdata c) fun t => Tab.get ({} : Mail) (t.col c).mail key = { m with lo := none, hi := none } ∧
          ∃ g ∈ out t, g.type = 4 ∧ g.hint = 1 ∧ g.partner = false ∧ g.dst = f.src ∧ g.mid = f.mid)) ∧
      (f.seq % 2 = 0 → m.hi = none → s.answers (.xdata c) fun t => Tab.get ({} : Mail) (t.col c).mail key = { m with lo := some f.payload }) ∧
      (f.seq % 2 = 1 → m.lo = none → s.answers (.xdata c) fun t => Tab.get ({} : Mail) (t.col c).mail key = { m with hi := some f.payload })) ∧
    (∀ (f : Flit) (y : Column), (s.col c).takeFlit (fun f => decide (f.type = 3)) = some (f, y) →
      (∀ n e, f.dst < 256 → (s.setCol c y).keepFlit c f = none → (s.col c).exchangeOf f.mid = some (n, e) → e.sources ≠ [] →
        s.answers (.ack c) fun t => ((t.col c).warp n).xch = some { e with unacked := e.unacked - 1 }) ∧
      (∀ n e, f.dst < 256 → (s.setCol c y).keepFlit c f = none → (s.col c).exchangeOf f.mid = some (n, e) → e.sources = [] → e.unacked = 1 → e.resend = [] → e.kind ≠ 5 →
        (∀ v ∈ ((s.col c).warp n).th.vpend, v.id ≠ e.vid) → s.answers (.ack c) fun t => ((t.col c).warp n).xch = none) ∧
      (∀ u, f.dst < 256 → (s.setCol c y).keepFlit c f = some u → s.answers (.ack c) fun t => t = u) ∧
      (∀ m k, 256 ≤ f.dst → Tab.find? (s.col c).msgs f.mid = some m → m.cmd ≠ 0 → (s.col c).cmd m.cmd = some k →
        s.answers (.ack c) fun t => (t.col c).cmd m.cmd = some { k with unacked := k.unacked - 1 } ∧ Tab.find? (t.col c).msgs f.mid = none)) ∧
    (∀ (f : Flit) (y : Column) (n : Nat) (e : Exchange), (s.col c).takeFlit (fun f => decide (f.type = 4)) = some (f, y) →
      f.dst < 256 → (s.setCol c y).keepFlit c f = none → (s.col c).exchangeOf f.mid = some (n, e) →
      (f.partner = false → s.answers (.nack c) fun t => ∃ g, ((t.col c).warp n).xch = some { e with resend := e.resend ++ [(g, s.clk + 8 * f.hint)] }) ∧
      (f.partner = true → s.answers (.nack c) fun t =>
        ∃ v ∈ ((t.col c).warp n).th.vpend, v.id = e.vid ∧ v.error.map Prod.fst = some .xchPartner)) ∧
    (∀ (f : Flit) (y : Column) (m : EngineMsg), (s.col c).takeFlit (fun f => decide (f.type = 4)) = some (f, y) → 256 ≤ f.dst →
      Tab.find? (s.col c).msgs f.mid = some m → s.answers (.nack c) fun t =>
        Tab.find? (t.col c).msgs f.mid = some { m with again := some (s.clk + 8 * f.hint) }) ∧
    (∀ (f : Flit) (y : Column) (nd : Nat) (l : Launch),
      (s.col c).takeFlit (fun f => decide (f.type = 6) && decide (256 ≤ f.dst)) = some (f, y) → s.gangLaunch (f.tag / 1024) = some (nd, l) →
      let all := (s.col c).xbar ++ [(f.tag, l.gcolOf (f.src % 256), f.mid)]
      let members := (List.range l.map.length).filter fun g => l.hasLocal g (f.tag / 64 % 16)
      ((∃ g ∈ members, ∀ a ∈ all, a.1 = f.tag → a.2.1 ≠ g) → s.answers (.xctlArrival c) fun t => (t.col c).xbar = all) ∧
      ((∀ g ∈ members, ∃ a ∈ all, a.1 = f.tag ∧ a.2.1 = g) → (s.col c).nifBay.backlog.length + members.length ≤ 512 →
        s.answers (.xctlArrival c) fun t => (t.col c).xbar = all.filter (fun a => decide (a.1 ≠ f.tag)) ∧
          ∀ a ∈ all, a.1 = f.tag → ∃ g ∈ out t, g.type = 6 ∧ g.dst = l.map.getD a.2.1 0 ∧ g.mid = a.2.2)) ∧
    (∀ (f : Flit) (y : Column) (n : Nat) (e : Exchange),
      (s.col c).takeFlit (fun f => decide (f.type = 6) && decide (f.dst < 256)) = some (f, y) → (s.setCol c y).keepFlit c f = none →
      (s.col c).exchangeOf f.mid = some (n, e) → e.kind = 5 → e.sources = [] → e.unacked = 0 → e.resend = [] →
      s.answers (.xctlRelease c) fun t => ((t.col c).warp n).xch = none ∧ Hold.xbar ∉ ((t.col c).warp n).holds) ∧
    (∀ (n : Nat) (e : Exchange), ((s.col c).warp n).xch = some e → e.kind = 4 → e.sources ≠ [] → e.sources.Nodup → e.unacked = 0 → e.resend = [] →
      let mail (g : Nat) : Mail := Tab.get ({} : Mail) (s.col c).mail (mailKey (s.tagOf c n e.parity) g)
      (∀ g ∈ e.sources, (mail g).full = true ∧ (mail g).kind = 4) →
      (∀ v ∈ ((s.col c).warp n).th.vpend, v.id = e.vid → v.error = none ∧ v.value = none) →
      s.answers (.xredCombine c n) fun t =>
        let got := e.sources.foldl (fun (r : Tab Vec) g => Tab.put r g (mail g).data) e.got
        (∀ v ∈ ((t.col c).warp n).th.vpend, v.id = e.vid → v.value = some [.v e.dest e.lanes (combineAll e.op got)]) ∧
          ((e.got.map Prod.fst).Pairwise (· < ·) → (got.map Prod.fst).Pairwise (· < ·) ∧
            ∀ g, Tab.get 0#1024 got g = if g ∈ e.sources then (mail g).data else Tab.get 0#1024 e.got g) ∧
          ∀ g ∈ e.sources, (Tab.get ({} : Mail) (t.col c).mail (mailKey (s.tagOf c n e.parity) g)).full = false) ∧
    (∀ (f : Flit) (y : Column), (s.col c).takeFlit (fun f => decide (f.type = 0)) = some (f, y) →
      let same (r : Req) : Prop := r.held = true ∧ r.foreign = true ∧ ∃ g, r.eng = some g ∧ g.type = f.type ∧ g.src = f.src ∧ g.mid = f.mid
      ((∀ r ∈ (s.col c).bay.reqs, ¬ same r) → s.answers (.rd c) fun t => ∃ q, (t.col c).bay.reqs = (s.col c).bay.reqs ++ [q] ∧
        q.eng = some f ∧ q.cmd = 0 ∧ q.line = lineOf f.addr ∧ q.region = f.ctx ∧ q.held = false ∧ q.admitted = false ∧ q.due = s.clk)) ∧
    (∀ (r : Req) (f : Flit), (s.col c).bay.reqs.find? (fun q => decide (q.id = r.id)) = some r → r.eng = some f → r.cmd = 0 → r.put = none →
      r.atL1 = false → r.stands = true → 0 < r.till → r.till ≤ s.clk → (s.col c).answerRoom c 2 r = true → (s.col c).cmd 0 = none →
      (s.col c).bay.kindOf f.ctx (128 * r.line) = .hbm → r.region = f.ctx →
      (f.type = 0 → s.answers (.sliceRequest c r.id) fun t => ∀ i < 2, ∃ g ∈ out t, g.type = 1 ∧ g.dst = f.src ∧ g.seq = i ∧ g.mid = f.mid ∧
        ((s.col c).l1 = [] → (∀ q ∈ (s.col c).bay.reqs, q.put = none) → (∀ j < 4, 4 * r.line + j ∉ (s.col c).badSectors) →
          g.payload = (s.col c).bytesAt s.free (128 * r.line + 64 * i) 64)) ∧
      (f.type = 2 → s.answers (.sliceRequest c r.id) fun t => (∃ g ∈ out t, g.type = 3 ∧ g.dst = f.src ∧ g.mid = f.mid) ∧
        ∀ q ∈ (t.col c).bay.reqs, q.id ≠ r.id)) ∧
    (∀ (f : Flit) (y : Column), (s.col c).takeFlit (fun f => decide (f.type = 1)) = some (f, y) →
      ((s.col c).mateOf f = none → s.answers (.rdata c) fun t => (t.col c).parts = (s.col c).parts ++ [f]) ∧
      (∀ g m k, (s.col c).mateOf f = some g → Tab.find? (s.col c).msgs f.mid = some m → m.cmd ≠ 0 → (s.col c).cmd m.cmd = some k →
        let line := if f.seq = 0 then f.payload ++ g.payload else g.payload ++ f.payload
        s.answers (.rdata c) fun t => Tab.find? (t.col c).msgs f.mid = none ∧ ∃ q, (t.col c).cmd m.cmd = some q ∧
          q.waiting = k.waiting.filter (· ≠ (m.col, m.line)) ∧ q.fetched = k.fetched ++ (List.range 4).map fun i =>
            (m.col, 4 * m.line + i, if f.hint / 2 ^ i % 2 = 1 then [] else (line.drop (32 * i)).take 32))) ∧
    (∀ (f : Flit) (y : Column), (s.col c).takeFlit (fun f => decide (f.type = 2)) = some (f, y) →
      let before := (s.col c).parts.filter fun g => decide (g.type = 2) && decide (g.src = f.src) && decide (g.mid = f.mid)
      (before.length + 1 < f.count → s.answers (.wdata c) fun t => (t.col c).parts = (s.col c).parts ++ [f] ∧ (t.col c).bay = (s.col c).bay ∧
        (t.col c).mem = (s.col c).mem) ∧
      (f.count ≤ before.length + 1 →
        (∀ r ∈ (s.col c).bay.reqs, ¬ (r.held = true ∧ r.foreign = true ∧ ∃ g, r.eng = some g ∧ g.type = 2 ∧ g.src = f.src ∧ g.mid = f.mid)) →
        s.answers (.wdata c) fun t => (t.col c).mem = (s.col c).mem ∧
          (∀ g ∈ (t.col c).parts, ¬ (g.type = 2 ∧ g.src = f.src ∧ g.mid = f.mid)) ∧
          ∃ q g, (t.col c).bay.reqs = (s.col c).bay.reqs ++ [q] ∧ q.eng = some g ∧ q.cmd = 0 ∧ q.line = lineOf f.addr ∧ g.src = f.src ∧
            g.mid = f.mid ∧ (before = [] → g.ops = joinWrites f.ops))) ∧
    (∀ (f : Flit) (y : Column), (s.col c).takeFlit (fun f => decide (f.type = 7)) = some (f, y) → s.answers (.mgmt c) fun t => t = s.setCol c y)

/-! ## Steps of the distributor -/

/-- R322, R325, R326, R328 to R333, R335, R336, R339, R351, R352, R363: the distributor refuses a launch with the code of its check or
creates it with its groups, takes the next ring entry, opens groups whose start time has come, and finishes a launch whose groups have
ended; a waiter that fits becomes resident with its warps at packet 0 or restored; a group that must leave is saved once it is settled, or
deferred and counted while its save does not fit; a quantum restarts or pre-empts, a wait raises, and a spent budget ends its launches.
The codes of a record, RCB or dtab that cannot be read, the room kept for a waiter, the effective values taken again at a quantum, the end of
a launch that waits for all that runs of it, and the save as a record of the group, are the model's reading or choice (logs 22, 24, 25, 33 to
36, 40, 72 and 118). -/
def Obligations.LaunchStepsHappen : Prop :=
  ∀ (s : State) (c node : Nat),
    (∀ (u : Submit) (rest : List Submit) (v : State), s.dist.submits = u :: rest →
      (∀ code, ({ s with dist := { s.dist with submits := rest } } : State).checkLaunch u = (.error code, v) →
        s.answers .taskRecordCheck fun t => t = v.refuseLaunch u code ∧
          (u.future ≠ 0 → v.futuresBecome t u.col u.future fun h => { h with st := .faulted, code := code })) ∧
      (∀ a, ({ s with dist := { s.dist with submits := rest } } : State).checkLaunch u = (.ok a, v) →
        s.answers .taskRecordCheck fun t =>
          let nd := t.node a.node
          nd.kind = .launch ∧ nd.parent = u.parent ∧ nd.eff = a.eff ∧ nd.launch.task = a.task ∧ nd.launch.map = a.map ∧
            nd.launch.future = u.future ∧ nd.launch.ring = u.ring ∧
            nd.launch.groups = numberGroups (if bitOf a.task.tflags 4 then .held else .waiting v.clk) a.gcols ∧
            nd.launch.det = (bitOf a.task.tflags 0 || a.eff.det))) ∧
    (∀ fn r, (s.host.fn fn).region = some r → (s.host.fn fn).ringCfg.getLsbD 63 = true → (s.node r).steward = true →
      ((s.host.fn fn).ringTaken + 4294967296 - (s.host.fn fn).ringHead) % 4294967296 <
        ((s.host.fn fn).ringTail + 4294967296 - (s.host.fn fn).ringHead) % 4294967296 → s.answers (.launchRingEntry fn) fun t =>
        let f := s.host.fn fn
        let b := s.host.read fn (f.ringBase.toNat + 64 * (f.ringTaken % 2 ^ (f.ringCfg.toNat % 32))) 64
        let task := natOfBytes (b.take 8)
        (t.host.fn fn).ringTaken = (f.ringTaken + 1) % 4294967296 ∧
          ∃ u, t.dist.submits = s.dist.submits ++ [u] ∧ u.parent = r ∧ u.col = task / 72057594037927936 % 256 ∧ u.task = task % 281474976710656 ∧
            u.ring = some (fn, f.ringTaken, natOfBytes ((b.drop 16).take 2)) ∧ (u.rcb = none ↔ natOfBytes ((b.drop 8).take 8) = 0)) ∧
    ((s.node node).kind = .launch → (s.node node).launch.task.start ≤ s.time → s.answers (.startTimeReached node) fun t =>
      ∀ gid g, Tab.find? (s.node node).launch.groups gid = some g →
        (t.node node).launch.groupOf gid = if g.place = .held then { g with place := .waiting s.clk } else g) ∧
    ((s.node node).kind = .launch → (s.node node).launch.over = true → s.running node = false → s.answers (.launchComplete node) fun t =>
      let l := (s.node node).launch
      (t.node node).kind = .free ∧
        (l.future ≠ 0 → s.futuresBecome t l.col l.future fun h =>
          match l.ending with | some code => { h with st := .faulted, code := code } | none => { h with st := .done }) ∧
        ∀ g ∈ l.map, ∀ key, key / 262144 = l.gang → Tab.get ({} : Mail) (t.col g).mail key = {}) ∧
    (let u := s.promoteAll c;
      ∀ (w : Nat × Nat) (lay : List (Nat × Nat)), u.headWaiter c = some w → (u.col c).coreOffline = false → u.fits c w [] = true →
      (u.col c).layout [] (u.liveIndices w) = some lay → (lay.map Prod.snd).Nodup →
      (∀ v, (u.waiter w).2.saved = some v → s.answers (.makeResident c) fun t =>
        (∃ e, ((t.node w.1).launch.groupOf w.2).place = .resident e) ∧ (t.col c).roomFor = none) ∧
      (∀ d image x y, let t := (u.waiter w).1.launch.task
        (u.waiter w).2.saved = none →
        u.ctxBytes (u.waiter w).1.launch.col (u.waiter w).1.parent 1 (t.dtab + 8 * w.2) = (some d, x) →
        x.ctxBytes (u.waiter w).1.launch.col (u.waiter w).1.parent ((if t.limg = 0 then 0 else t.limglen) / 8) t.limg = (some image, y) →
        s.answers (.makeResident c) fun t =>
          (∃ e, ((t.node w.1).launch.groupOf w.2).place = .resident e) ∧ (t.col c).roomFor = none ∧
          ∀ p ∈ lay, let k := (t.col c).warp p.2
            k.live = true ∧ k.index = p.1 ∧ k.a.map (fun q => (q.pkt, q.wpos, q.lanes, q.token)) = some (0#32, 0, 0xFFFFFFFF#32, none) ∧ k.b = none ∧
              Tab.get 0#64 k.th.s 0 = BitVec.ofNat 64 (natOfBytes d % 281474976710656) ∧ k.th.v = [] ∧ k.th.k = [])) ∧
    (∀ e, let u := s.promoteAll c
      ((u.col c).group e).leaving = false → u.mustLeave c e = true → ((u.col c).group e).live = true → (u.col c).served e = false →
      (u.sysFree c < u.saveNeed c e → ∀ head, head = some ((u.headWaiter c).getD (0, 0)) → s.answers (.preemptGroup c e) fun t =>
        ((t.col c).group e).deferred = head ∧
          t.dist.deferrals = if ((u.col c).group e).deferred = head then u.dist.deferrals else u.dist.deferrals + 1) ∧
      (u.saveNeed c e ≤ u.sysFree c →
        let v := u.beginLeave c e
        ∀ x, ((v.col c).group e).live = true → v.settled c e = true → (v.col c).drainLanes e = (true, x) →
          let y := v.setCol c x
          s.answers (.preemptGroup c e) fun t => ((t.col c).group e).live = false ∧
            let g := (t.node (x.group e).launch).launch.groupOf (x.group e).gid
            g.place = .waiting (x.group e).leftAt ∧ g.saved = some (y.savedOf c e) ∧ g.rises = 0)) ∧
    (∀ e, let g := (s.col c).group e
      g.live = true → g.leaving = false → g.since + (s.node g.launch).eff.cycles ≤ s.clk →
      let u := (((s.promoteAll c).updCol c fun x => x.setGroup e { x.group e with promoted := false }).refreshEff g.launch).allotDue
        (s.node g.launch).parent (1#256 <<< c)
      ((∀ w ∈ u.waiters c, u.waiterRank w < (u.node g.launch).eff.prio) → s.answers (.quantumExpire c e) fun t =>
        (t.col c).group e = { (u.col c).group e with since := u.clk }) ∧
      ((∃ w ∈ u.waiters c, (u.node g.launch).eff.prio ≤ u.waiterRank w) →
        let v := (u.updCol c fun x => x.setGroup e { x.group e with deferred := none }).preempt c e
        s.answers (.quantumExpire c e) fun t =>
          if ((v.col c).group e).deferred = none then t = v else (t.col c).group e = { (v.col c).group e with since := v.clk, deferred := none })) ∧
    (∀ gid t₀, ((s.node node).launch.groupOf gid).place = .waiting t₀ →
      t₀ + (((s.node node).launch.groupOf gid).rises + 1) * (s.node node).eff.cycles ≤ s.clk →
      (s.node node).effPrio ((s.node node).launch.groupOf gid) < 15 → s.answers (.waitPriorityRise node gid) fun t =>
        ((t.node node).launch.groupOf gid).rises = ((s.node node).launch.groupOf gid).rises + 1) ∧
    ((s.node node).eff.budget ≠ 0 → (s.node node).eff.budget ≤ (s.node node).runtime →
      let r : Report := { kind := 1, code := 16, scope := 1, node := node, runtime := (s.node node).runtime, ended := (s.node node).launch.living }
      let goesOn (n : Nat) : Bool := !(s.node n).launch.over
      ((s.node node).kind = .launch → (s.node (s.node node).parent).spent = false → goesOn node = true → s.answers (.watchdog node) fun t =>
        t = (s.report (s.node node).eff.fdom r).endLaunch node 16) ∧
      ((s.node node).kind = .launch → goesOn node = false → s.answers (.watchdog node) fun t => t = s) ∧
      ((s.node node).kind = .service → (s.launchesOf node).filter goesOn ≠ [] → s.answers (.watchdog node) fun t =>
        let ls := (s.launchesOf node).filter goesOn
        let n := (ls.map fun l => (s.node l).launch.living).foldl (· + ·) 0
        t = ls.foldl (fun s l => s.endLaunch l 16) (s.report (s.node node).eff.fdom { r with scope := 2, ended := n })))

/-! ## Steps of the bays -/

/-- R164, R216, R217, R309, R311, R314, R315, R317, R357 to R361, R365: writes of a bay's registers that are refused set ERR and change
nothing else, and the others take effect: a mode switch empties every slice, and is applied once what it wrote back has arrived; a
carve-out shrinks at once and grows when its ways are
clean, an alias range is set; the host link ends its requests; a page is marked and then moved; a scrub is due each 24 hours; a beat or a
flit is resent, and a strand or a link that fails again is retired; and a lost core or memory goes offline. That a retirement or a
containment is one step, that a completion of the host link names its request by its place and waits for an earlier one of its line, how a
closing alias range takes a repeated write, and what a reserved bit does, are the model's choice (logs 27, 61 to 64, 69 and 74). -/
def Obligations.BayStepsHappen : Prop :=
  ∀ (s : State) (c n : Nat) (v : BitVec 64),
    let b := (s.col c).bay
    let refused (t : State) : Prop := (t.col c).bay = { b with stat := b.stat ||| 0x40000#64 }
    let cur := b.ctl.toNat / 4294967296 % 32
    (∀ m : BitVec 2,
      (m = 3#2 ∨ (s.col c).modeFree = false → s.answers (.bayModeSwitch c m) refused) ∧
      (m ≠ 3#2 → (s.col c).modeFree = true → s.answers (.bayModeSwitch c m) fun t =>
        let y := (t.col c).bay
        (∀ sl < 16, (y.slice sl).lines = []) ∧ y.ctl.extractLsb' 2 62 = b.ctl.extractLsb' 2 62 ∧ s.sameMemory t ∧
          if y.writeQ = [] ∧ y.flights = [] ∧ ∀ h ∈ y.hostOut, h.2.1 = false then
            y.ctl.extractLsb' 0 2 = m ∧ y.stat.getLsbD 16 = false ∧ y.modeTo = none
          else y.ctl = b.ctl ∧ y.stat.getLsbD 16 = true ∧ y.modeTo = some m.toNat)) ∧
    (16 < n ∨ b.stat.getLsbD 17 = true → s.answers (.carveChange c n) refused) ∧
    (n ≤ 16 → b.stat.getLsbD 17 = false → cur < n → s.answers (.carveChange c n) fun t =>
      (t.col c).bay.stat.getLsbD 17 = true ∧ (t.col c).bay.ctl.extractLsb' 16 5 = BitVec.ofNat 5 n ∧
        (t.col c).bay.ctl.extractLsb' 32 5 = b.ctl.extractLsb' 32 5 ∧ (t.col c).bay.carveTo = n ∧ s.sameMemory t) ∧
    (n ≤ 16 → b.stat.getLsbD 17 = false → n ≤ cur → s.answers (.carveChange c n) fun t =>
      (t.col c).bay.stat.getLsbD 17 = false ∧ (t.col c).bay.ctl.extractLsb' 32 5 = BitVec.ofNat 5 n ∧
        (∀ pa, pa < 0x200000000 + n * 16384 * b.surviving ∨ 0x300000000 ≤ pa → Memory.read (t.col c).mem pa = Memory.read (s.col c).mem pa) ∧
        ∀ pa, 0x200000000 + n * 16384 * b.surviving ≤ pa → pa < 0x300000000 → Memory.read (t.col c).mem pa = 0#8) ∧
    (let y := b.flushWays (List.range 16) fun k => decide (16 ≤ k % 16 + b.carveTo)
     b.stat.getLsbD 17 = true → b.carveTo ≤ 16 →
      (y.writeQ = [] → (∀ f ∈ y.flights, f.wb = false) → s.answers (.carveGrowDone c) fun t =>
        (t.col c).bay.stat.getLsbD 17 = false ∧ (t.col c).bay.ctl.extractLsb' 32 5 = BitVec.ofNat 5 b.carveTo ∧
          (∀ pa, pa < 0x200000000 + b.carveSize → Memory.read (t.col c).mem pa = Memory.read (s.col c).mem pa) ∧
          (∀ pa, 0x200000000 + b.carveSize ≤ pa → pa < 0x300000000 → Memory.read (t.col c).mem pa = 0#8) ∧
          t.host.carved = s.host.carved ++ [c]) ∧
      (y.writeQ ≠ [] ∨ (∃ f ∈ y.flights, f.wb = true) → s.answers (.carveGrowDone c) fun t => (t.col c).bay = y ∧ s.sameMemory t)) ∧
    (n < 16 → v.extractLsb' 1 31 = 0#31 → (b.hostLines n = false ∨ v = (b.entry n).ht) → s.answers (.bayRgnHtWrite c n v) fun t =>
      ((t.col c).bay.entry n).ht = v ∧ ∀ m, m ≠ n → (t.col c).bay.entry m = b.entry m) ∧
    (16 ≤ n ∨ v.extractLsb' 1 31 ≠ 0#31 ∨ (b.hostLines n = true ∧ v ≠ (b.entry n).ht) → s.answers (.bayRgnHtWrite c n v) refused) ∧
    (4 ≤ n → ∀ back, s.answers (.bayAliasWrite c n back v) refused) ∧
    (n < 4 → (b.aliasReg n false).getLsbD 63 = false →
      (v.getLsbD 63 = true → v.extractLsb' 48 15 &&& 0x3FFF#15 = 0#15 → v.extractLsb' 0 16 = 0#16 →
        b.aliasOk n (v &&& ~~~0x4000000000000000#64) (b.aliasReg n true) = true → s.answers (.bayAliasWrite c n false v) fun t =>
          (t.col c).bay.aliasReg n false = v &&& ~~~0x4000000000000000#64 ∧ (t.col c).bay.aliasReg n true = b.aliasReg n true) ∧
      (v.extractLsb' 56 8 = 0#8 → v.extractLsb' 34 18 = 0#18 → v.extractLsb' 0 7 = 0#7 → s.answers (.bayAliasWrite c n true v) fun t =>
        (t.col c).bay.aliasReg n true = v ∧ (t.col c).bay.aliasReg n false = b.aliasReg n false &&& ~~~0x4000000000000000#64)) ∧
    (n < 4 → (b.aliasReg n false).getLsbD 63 = true →
      let refuses (t : State) : Prop :=
        (t.col c).bay.aliasReg n false = b.aliasReg n false ||| 0x4000000000000000#64 ∧ (t.col c).bay.aliasReg n true = b.aliasReg n true
      (v ≠ b.aliasReg n true → s.answers (.bayAliasWrite c n true v) refuses) ∧
      (v.getLsbD 63 = true → v &&& ~~~0x4000000000000000#64 ≠ b.aliasReg n false &&& ~~~0x4000000000000000#64 →
        s.answers (.bayAliasWrite c n false v) refuses) ∧
      (v.getLsbD 63 = false → v.extractLsb' 48 14 = 0#14 → v.extractLsb' 0 16 = 0#16 →
        (s.aliasBusy c n = false → Tab.find? b.aliasOff n = none → s.answers (.bayAliasWrite c n false v) fun t =>
          (t.col c).bay.aliasReg n false = v &&& ~~~0x4000000000000000#64 ∧ (t.col c).bay.aliasReg n true = b.aliasReg n true) ∧
        (s.aliasBusy c n = true ∨ (∃ w, Tab.find? b.aliasOff n = some w) → s.answers (.bayAliasWrite c n false v) fun t =>
          (t.col c).bay.aliasReg n false = b.aliasReg n false &&& ~~~0x4000000000000000#64 ∧ Tab.find? (t.col c).bay.aliasOff n = some v))) ∧
    (n < 16 → s.answers (.slstatRead c n) fun t => t.host.regRead = (s.col c).slstat n ∧
      ((t.col c).bay.slice n).peak = 0 ∧ ((t.col c).bay.slice n).lines = (b.slice n).lines ∧ s.sameMemory t) ∧
    (∀ line region (data : List Byte), (∀ h ∈ b.hostOut.take n, h.1 ≠ line) → (s.col c).lineReqs line = [] →
      (region = 0 ∨ (s.node region).kind ≠ .free) →
      (b.hostOut[n]? = some (line, true, region) → s.host.posted = [] → s.answers (.hostLinkCompletion c n false data) fun t =>
        (t.col c).bay.hostOut = b.hostOut.eraseIdx n ∧
          t.host.mem = (s.host.write (s.fnOf region) (b.hostAddr region line) ((s.col c).bytesAt s.free (128 * line) 128)).mem) ∧
      (b.hostOut[n]? = some (line, false, region) → data.length = 128 → s.answers (.hostLinkCompletion c n false data) fun t =>
        let held := ((b.holder line).map fun h => (Tab.get ({} : SliceLine) (b.slice h.1).lines h.2).valid).getD 0#4
        (∀ h ∈ b.hostOut.eraseIdx n, h ∈ (t.col c).bay.hostOut) ∧
          t.host.mem = (s.host.write (s.fnOf region) (b.hostAddr region line) data).mem ∧
          ∀ f i, i < 128 → (t.col c).byteAt f (128 * line + i) =
            if held.getLsbD (i / 32) then (s.col c).byteAt f (128 * line + i) else data.getD i 0#8) ∧
      (b.hostOut[n]? = some (line, true, region) → s.answers (.hostLinkRetriesExhausted c n) fun t =>
        (∀ h ∈ b.hostOut.eraseIdx n, h ∈ (t.col c).bay.hostOut) ∧ s.sameMemory t) ∧
      (b.hostOut[n]? = some (line, false, region) → s.answers (.hostLinkRetriesExhausted c n) fun t =>
        (t.col c).bay.hostOut = b.hostOut.eraseIdx n ∧ s.sameMemory t)) ∧
    (∀ h (data : List Byte) (error : Bool), b.hostOut[n]? = some h → (∃ g ∈ b.hostOut.take n, g.1 = h.1) →
      s.answers (.hostLinkCompletion c n error data) fun t => t = s) ∧
    (∀ ctx va dest l, (s.leaves c ctx).find? (fun l => decide (l.va ≤ va) && decide (va < l.va + l.size)) = some l → dest % l.size = 0 →
      l.frame + l.size ≤ 0x100000000 → inSystem s.dist.sysMib l.frame l.size = false → b.kindOf ctx dest = .host →
      (∀ o ∈ s.allLeaves c, ¬ (o.frame < dest + l.size ∧ dest < o.frame + o.size)) →
      ((l.frame, l.size) ∉ b.migrating → (s.col c).l1 = [] → s.answers (.migratePage ctx c va dest) fun t =>
        (t.col c).bay.migrating = b.migrating ++ [(l.frame, l.size)] ∧
          (t.col c).bytesAt s.free l.pte 8 = bytesOf 8 (pteWith l.entry l.frame true)) ∧
      ((l.frame, l.size) ∈ b.migrating → b.claimedRange l.frame l.size = false →
        ((s.col c).sentOf l.frame l.size = true → s.answers (.migratePage ctx c va dest) fun t => t = s.recallFrame c l.frame l.size) ∧
        ((s.col c).sentOf l.frame l.size = false → s.answers (.migratePage ctx c va dest) fun t =>
          (t.col c).bay.migrating = b.migrating.filter (· ≠ (l.frame, l.size)) ∧ (t.col c).mem = ((s.movePage c l dest).col c).mem))) ∧
    (s.host.dutyMap.getLsbD 3 = true → s.host.lastScrub + 86400000000000 ≤ s.time → s.host.restartAt ≤ s.clk → s.host.duties = [] →
      ((∀ d, (s.col d).weak = []) → s.answers .eccScrub fun t => t = { s with host := { s.host with lastScrub := s.time } }) ∧
      s.answers .eccScrub fun t => t.host.lastScrub = s.time ∧ s.sameMemory t ∧ ∀ x, Tab.find? s.cols c = some x →
        (t.col c).weak = [] ∧ (∀ e ∈ x.weak, e.2 = true → e.1 ∈ (t.col c).badSectors) ∧ (x.weak = [] → t.col c = x)) ∧
    (s.host.dutyMap.getLsbD 3 = true → (s.clk < s.host.restartAt ∨ s.host.duties ≠ []) → s.answers .eccScrub fun t =>
      t = { s with host := { s.host with duties := s.host.duties ++ [.scrub] } }) ∧
    (∀ beat, n < 8 → b.stat.getLsbD n = false →
      (s.answers (.strandBeatError c n beat false) fun t => t = { s with host := { s.host with corrected := s.host.corrected + 1 } }) ∧
      s.answers (.strandBeatError c n beat true) fun t => (t.col c).bay.failing = b.failing ||| (1#8 <<< n) ∧ (t.col c).bay.stat = b.stat) ∧
    (n < 8 → b.failing.getLsbD n = true → s.answers (.strandRetire c n) fun t =>
      (t.col c).bay.stat.getLsbD n = true ∧ (t.col c).bay.failing.getLsbD n = false ∧ t.host.nextTag = s.host.nextTag + 1) ∧
    (∀ r p, neighbour n p = some r → (n, p) ∉ s.deadLinks →
      (s.answers (.linkCheckError n p false) fun t => t = { s with host := { s.host with corrected := s.host.corrected + 1 } }) ∧
      s.answers (.linkCheckError n p true) fun t =>
        (n, p) ∈ t.deadLinks ∧ (∀ q < 5, neighbour r q = some n → (r, q) ∈ t.deadLinks) ∧ t.host.nextTag = s.host.nextTag + 1) ∧
    ((s.col c).coreOffline = false → s.answers (.containment c false) fun t => (t.col c).coreOffline = true) ∧
    ((s.col c).memOffline = false → s.answers (.containment c true) fun t => (t.col c).memOffline = true)

/-! ## Steps of the host, the peers and the factor complex -/

/-- R322, R355, R364 to R366, R369 to R372: a request of the host that its op's step serves is answered, and the host's head moves past
it: malformed when its payload is too short, unknown for an op that no host may send, and else with what the op does. The layout of an
attestation report, a refused removal, the packing of payloads and the requests taken in hardware mode are the model's choice (logs 28,
29, 66 and 68). -/
def Obligations.RequestsAreServed : Prop :=
  ∀ (s : State) (q : Request), s.host.request = some q →
    let p := q.payload
    let byte (i : Nat) : Nat := natOfBytes ((p.drop i).take 1)
    let ends (i : Instr) (status : Nat) (f : State → Prop) : Prop := s.answers i fun t =>
      t.host.h2dHead = nextCount s.host.h2dHead ∧ (∃ h body, t.host = HostSide.send h (message q.op 1 q.tag status body)) ∧ f t
    (∀ i n op, (i, n, op) ∈ [(Instr.attest, 32, 1), (.pfaultDone, 9, 3), (.train, 2, 4), (.scrub, 18, 5), (.eth, 1, 6), (.thermal, 3, 7), (.service, 130, 8),
        (.qp, 6, 9), (.fwupdate, 12, 10)] → q.op = op → p.length < n →
      ends i 3 fun t => t = { s with host := s.host.answer q 3 [] }) ∧
    (q.op ∉ [1, 3, 4, 5, 6, 7, 8, 9, 10] → ends .unknownOp 2 fun t => t = { s with host := s.host.answer q 2 [] }) ∧
    (q.op = 1 → 32 ≤ p.length → ends .attest 0 fun t =>
      let r := s.attestReport (p.take 32)
      t = { s with host := s.host.answer q 0 (r ++ Config.signature 0 r ++ Config.signature 1 r) }) ∧
    (∀ c e (f : Nat × Nat × Who), q.op = 3 → 9 ≤ p.length → byte 8 ≤ 2 → s.host.pfaults.find? (fun f => decide (f.1 = natOfBytes (p.take 8))) = some f →
      f.2.1 = c → (s.col c).tinker.serving = some e → ends .pfaultDone 0 fun t => (∀ g ∈ t.host.pfaults, g.1 ≠ f.1)) ∧
    (q.op = 4 → 2 ≤ p.length → natOfBytes (p.take 2) < 256 → ends .train 0 fun t =>
      Tab.find? t.host.train (natOfBytes (p.take 2)) = some (p.drop 2) ∧ t.host.untrained.getLsbD (natOfBytes (p.take 2)) = false ∧
        t.cols = s.cols) ∧
    (let c := natOfBytes (p.take 2)
      let lo := natOfBytes ((p.drop 2).take 8)
      let hi := lo + natOfBytes ((p.drop 10).take 8)
      q.op = 5 → 18 ≤ p.length → c < 256 → hi ≤ 0x100000000 → ends .scrub 0 fun t => t.dist = s.dist ∧ s.sameMemory t ∧
        ((s.col c).weak = [] → t.cols = s.cols) ∧
        ∀ e ∈ (s.col c).weak, lo < 128 * (e.1 / 4) + 128 → 128 * (e.1 / 4) < hi → e ∉ (t.col c).weak ∧ (e.2 = true → e.1 ∈ (t.col c).badSectors)) ∧
    (q.op = 6 → 1 ≤ p.length → byte 0 ≤ 1 → ends .eth 0 fun t => Tab.find? t.host.eth (byte 0) = some (p.drop 1) ∧ t.cols = s.cols) ∧
    (q.op = 7 → 3 ≤ p.length → byte 0 ≤ 3 → ends .thermal 0 fun t =>
      t.host.powerCap = min 2400 (natOfBytes ((p.drop 1).take 2)) ∧
        t.host.clockStep = (if s.host.dutyMap.getLsbD 5 then s.host.clockStep else byte 0) ∧ t.cols = s.cols) ∧
    (q.op = 8 → 130 ≤ p.length →
      let rcb := (p.drop 2).take 128
      (∀ n, byte 0 = 0 → s.freeNode = some n → byte 1 < 64 → s.serviceFor (byte 1) = none → rcbValid rcb = true → natOfBytes ((rcb.drop 4).take 1) = 1 →
        (natOfBytes (rcb.take 4)).testBit 10 = false → (s.dist.nodes.filter fun e => decide (e.2.kind = .service)).length < 64 →
        s.contradicts n (s.serviceEff rcb) = false → ends .service 0 fun t =>
          (t.host.fn (byte 1)).region = some n ∧ (t.node n).kind = .service ∧ (t.node n).fn = byte 1 ∧ (t.node n).eff = s.serviceEff rcb ∧
            (s.host.dutyMap.getLsbD 0 = false → ∃ u ∈ t.dist.submits, u.parent = n)) ∧
      (∀ n, byte 0 = 2 → s.serviceFor (byte 1) = some n → s.launchesOf n = [] → ends .service 0 fun t =>
        (t.host.fn (byte 1)).region = none ∧ (t.node n).kind = .free)) ∧
    (let qpn := natOfBytes ((p.drop 2).take 4);
      q.op = 9 → 6 ≤ p.length → byte 1 ≤ 1 → qpn < 16777216 →
      (byte 0 = 0 → Tab.find? s.host.qps qpn = none → (s.host.qps.filter fun e => decide (e.2.home = byte 1)).length < 4096 →
        ends .qp 0 fun t => Tab.find? t.host.qps qpn = some { home := byte 1, params := p.drop 6 }) ∧
      (∀ k, byte 0 = 1 → Tab.find? s.host.qps qpn = some k → k.home = byte 1 →
        ends .qp 0 fun t => Tab.find? t.host.qps qpn = some { k with port := some (byte 1), params := p.drop 6 }) ∧
      (∀ k, byte 0 = 2 → Tab.find? s.host.qps qpn = some k → k.home = byte 1 → ends .qp 0 fun t => Tab.find? t.host.qps qpn = none)) ∧
    (q.op = 10 → 12 ≤ p.length →
      let image := s.host.read 0 (natOfBytes (p.take 8)) (natOfBytes ((p.drop 8).take 4))
      let accepted : Prop := Config.imageDigest image = Config.sha384 (Config.imageBody image) ∧ Config.imageVerifies 0 image = true ∧
        Config.imageVerifies 1 image = true ∧ s.host.minVersion ≤ Config.imageVersion image
      (accepted → Config.imageTinker image = false → ends .fwupdate 0 fun t => (∀ n, n = 1 ∨ n = 2 ∨ n = 3 → t.factor n = {}) ∧
        t.host.firmware = image ∧ t.host.restartAt = s.clk + Config.restartCycles ∧ t.dist = s.dist ∧ t.cols = s.cols) ∧
      (accepted → Config.imageTinker image = true → Config.imageBody image ≠ [] → ends .fwupdate 0 fun t => t.factors = s.factors ∧
        ∀ c < 256, (t.col c).tinker.serving = (s.col c).tinker.serving ∧
          (t.col c).tinker.update = if (s.col c).tinker.serving = none then none else some image) ∧
      (¬ accepted → ends .fwupdate 1 fun t => t.factors = s.factors ∧ t.cols = s.cols ∧ t.host.firmware = s.host.firmware))

/-- R339, R355, R362, R363, R365 to R368, R372: writes of the host's registers, boot, a function's reset, time, power and the clocks,
peers' requests, a link's state and a forwarded page fault each have the effect that the rule gives. The root's values, a failed boot's
code, the ring registers' refusals, the clocks' restart, the slew and the numbers of the register spaces are the model's choice (logs 30,
65, 70, 71, 73 and 74). -/
def Obligations.HostStepsHappen : Prop :=
  ∀ (s : State) (n m : Nat) (v : BitVec 64),
    (s.host.ready = true →
      (v.extractLsb' 6 58 = 0#58 → s.answers (.dutyMapWrite v) fun t => t = { s with host := { s.host with dutyMap := v } }) ∧
      (v.extractLsb' 6 58 ≠ 0#58 → s.answers (.dutyMapWrite v) fun t => t = s)) ∧
    (n < 64 → s.host.ready = true → v.extractLsb' 5 58 = 0#58 → v.getLsbD 63 = true → 4 ≤ v.toNat % 32 →
      (v.toNat % 32 ≤ 16 → (s.host.fn n).ringCfg.getLsbD 63 = false → s.answers (.ringCfgWrite n false v) fun t =>
        t.host.fn n = { s.host.fn n with ringCfg := v, ringHead := 0, ringTail := 0, ringTaken := 0, finished := [] }) ∧
      (v.toNat % 32 ≤ 12 → (s.host.fn n).fringCfg.getLsbD 63 = false →
        ((s.host.fn n).kept = [] → s.answers (.ringCfgWrite n true v) fun t =>
          t.host.fn n = { s.host.fn n with fringCfg := v, fringHead := 0, fringTail := 0 }) ∧
        (∀ report, (s.host.fn n).kept = [report] → s.answers (.ringCfgWrite n true v) fun t =>
          t.host.fn n = { s.host.fn n with fringCfg := v, fringHead := 0, fringTail := 1, kept := [] }))) ∧
    (let f := s.host.fn n;
      let x := v.toNat % 4294967296;
      n < 64 → (x + 4294967296 - f.fringHead) % 4294967296 ≤ (f.fringTail + 4294967296 - f.fringHead) % 4294967296 →
      s.answers (.fringHead n v) fun t => (t.host.fn n).fringHead = x ∧ t.cols = s.cols) ∧
    (n < 256 → s.answers (.registerWrite n 8 0x40000#64) fun t => (t.col n).bay.stat = (s.col n).bay.stat &&& ~~~0x40000#64 ∧ s.sameMemory t) ∧
    (let f := s.host.fn n;
      n < 64 → s.host.ready = true → f.ringCfg.getLsbD 63 = true →
      (v.toNat % 4294967296 + 4294967296 - f.ringHead) % 4294967296 ≤ 2 ^ (f.ringCfg.toNat % 32) →
      s.answers (.registerWrite (257 + n) 0 v) fun t => t.host.fn n = { f with ringTail := v.toNat % 4294967296 } ∧ t.cols = s.cols) ∧
    (∀ fail net, s.booted = 0 →
      let image := s.host.bootImage net
      let stops (k : Nat) : Prop := s.answers (.boot fail net) fun t => t.booted = k ∧ t.host.fctBoot.extractLsb' 0 8 = BitVec.ofNat 8 k ∧
        t.host.ready = false ∧ t.host.fctBoot.extractLsb' 8 8 ≠ 0#8
      let some1 : Prop := image 1 = none ∨ image 2 = none
      (fail = 1 ∨ fail = 2 → stops fail) ∧
      (fail ≠ 1 → fail ≠ 2 → (fail = 3 ∨ image 0 = none) → stops 3) ∧
      (fail = 4 → image 0 ≠ none → stops 4) ∧
      (fail = 0 ∨ 4 < fail → image 0 ≠ none → some1 → stops 4) ∧
      (fail = 5 ∨ fail = 6 → image 0 ≠ none → ¬ some1 → stops fail) ∧
      (∀ a b d, fail = 0 → image 0 = some a → image 1 = some b → image 2 = some d → s.answers (.boot fail net) fun t =>
        t.booted = 6 ∧ t.host.fctBoot = 0x8000000000000006#64 ∧ (t.node 0).kind = .root ∧ t.host.firmware = b ∧
          t.host.stages.take 3 = [a, b, d].map (fun i => (natOfBytes (Config.sha384 i), Config.imageVersion i)) ∧
          (s.host.flashTrain = true → t.host.dutyMap.getLsbD 2 = false) ∧
          ∀ x, Tab.find? s.cols n = some x → (t.col n).bay.ctl.extractLsb' 0 2 = 0#2)) ∧
    (∀ r, n ≠ 0 → s.serviceFor n = some r → s.answers (.functionLevelReset n) fun t => (t.host.fn n).region = none ∧ (t.node r).kind = .free) ∧
    (∀ off : Int,
      (n ≠ s.host.ptpPort → s.answers (.ptpSync n off) fun t => t = s) ∧
      (n = s.host.ptpPort → 1000000 < off → s.answers (.ptpSync n off) fun t => t.time = s.time + off.toNat ∧ t.host.slew = 0) ∧
      (n = s.host.ptpPort → off ≤ 1000000 → s.answers (.ptpSync n off) fun t => t.time = s.time ∧ t.host.slew = off)) ∧
    (∀ qpn pa (data : List Byte), (Tab.get ({} : QueuePair) s.host.qps qpn).port = some n → s.host.linkUp.getD n false = true → m < 256 →
      (s.col m).memOffline = false → (s.col m).bay.modeTo = none → pa + data.length ≤ 0x100000000 →
      (s.answers (.peerRdmaRequest n qpn 0 m pa data) fun t =>
        (∀ f i, i < data.length → (t.col m).byteAt f (pa + i) = data.getD i 0#8) ∧ t.host.peerAnswers = s.host.peerAnswers ++ [(n, qpn, 0, [])]) ∧
      ((s.col m).l1 = [] → (∀ r ∈ (s.col m).bay.reqs, r.put = none) → s.answers (.peerRdmaRequest n qpn 1 m pa data) fun t =>
        t.host.peerAnswers = s.host.peerAnswers ++ [(n, qpn, 1, (s.col m).bytesAt s.free pa data.length)] ∧ s.sameMemory t)) ∧
    (∀ qpn kind pa (data : List Byte), (Tab.get ({} : QueuePair) s.host.qps qpn).port ≠ some n ∨ 2 ≤ kind →
      s.answers (.peerRdmaRequest n qpn kind m pa data) fun t => t.host.peerAnswers = s.host.peerAnswers ++ [(n, qpn, 2, [])] ∧ t.cols = s.cols) ∧
    (let now : Prop := s.host.restartAt ≤ s.clk ∧ s.host.duties = [];
      (∀ up, n ≤ 1 → s.host.linkUp.length = 2 →
        (up = true → (s.host.dutyMap.getLsbD 4 = true ∧ now) ∨ (s.host.dutyMap.getLsbD 4 = false ∧ (Tab.find? s.host.eth n).isSome = true)) →
        s.answers (.ethernetLinkBringUp n up) fun t => t.host.linkUp.getD n (!up) = up ∧ t.cols = s.cols) ∧
      (n ≤ 1 → s.host.dutyMap.getLsbD 4 = true → ¬ now → s.answers (.ethernetLinkBringUp n true) fun t =>
        t = { s with host := { s.host with duties := s.host.duties ++ [.linkUp n] } }) ∧
      (n ≤ 1 → s.host.dutyMap.getLsbD 4 = false → Tab.find? s.host.eth n = none → s.answers (.ethernetLinkBringUp n true) fun t => t = s) ∧
      (∀ power avg10 junction, s.clocksStopped = false →
        (110 ≤ junction → s.answers (.thermalSample power m avg10 junction) fun t => t.clocksStopped = true ∧ t.host.tripped = true) ∧
        (junction < 110 → s.host.dutyMap.getLsbD 5 = true → now →
          let free : Prop := ∀ x, s.host.lastStep = some x → x + 1000000 ≤ s.time
          (free → s.host.powerCap < m ∨ 100 ≤ junction → s.answers (.thermalSample power m avg10 junction) fun t =>
            t.host.clockStep = min 3 (s.host.clockStep + 1) ∧ t.host.lastStep = some s.time) ∧
          (free → m ≤ s.host.powerCap → junction < 95 → 100 * avg10 < 92 * s.host.powerCap → s.host.lastHot + 10000000 ≤ s.time →
            0 < s.host.clockStep → s.answers (.thermalSample power m avg10 junction) fun t => t.host.clockStep = s.host.clockStep - 1) ∧
          (¬ free → s.answers (.thermalSample power m avg10 junction) fun t => t.host.clockStep = s.host.clockStep)) ∧
        (junction < 110 → s.host.dutyMap.getLsbD 5 = false → s.answers (.thermalSample power m avg10 junction) fun t => t = s))) ∧
    (s.answers .emergencyTrip fun t => t.clocksStopped = true ∧ t.host.tripped = true ∧ t.flits = [] ∧ (∀ k, (t.node k).kind ≠ .launch) ∧
      (t.col n).warps = [] ∧ (∀ a, Memory.read (t.col n).mem a = Memory.read (s.col n).mem a)) ∧
    (s.host.tripped = true → s.answers .tripPointCleared fun t => t.clocksStopped = false ∧ t.host.tripped = false ∧
      (s.host.posted = [] → t.host.nextTag = s.host.nextTag + 1)) ∧
    (let u := (s.landAll n .tinker).updCol n (·.takeUpdate);
      ∀ (e : Event) (rest : List Event) (acc va : Nat), u.host.dutyMap.getLsbD 1 = false → (u.col n).tinker.queue = e :: rest →
      (u.col n).tinker.serving = none → (u.col n).tinker.stop = none → u.faultOf n { e with lost := (u.col n).tinker.lost } = some (acc, va) →
      s.answers (.tinkerEvent n) fun t => t.host.nextTag = u.host.nextTag + 1 ∧ (t.col n).tinker.path.lanes = 0#32 ∧
        t.host.pfaults = u.host.pfaults ++ [(u.host.nextTag, n, Event.who { e with lost := (u.col n).tinker.lost })])
end

