-- ==== Sys2Proof/Laws/Tab.lean ====
section
/-! SUPPORT. Sparse tables: reading after writing, and that writing keeps the canonical form. -/

namespace Sys2Proof.Machine

variable {α : Type}

@[simp] theorem Tab.find_nil (n : Nat) : Tab.find? ([] : Tab α) n = none := rfl

@[simp] theorem Tab.get_nil (d : α) (n : Nat) : Tab.get d [] n = d := rfl

/-- Reading any key after one is set. -/
theorem Tab.find_put (t : Tab α) (n m : Nat) (x : α) :
    Tab.find? (Tab.put t n x) m = if m = n then some x else Tab.find? t m := by
  induction t with
  | nil => by_cases h : n = m <;> simp [Tab.put, Tab.find?, h, eq_comm]
  | cons e t ih =>
    obtain ⟨k, y⟩ := e
    simp only [Tab.put]
    split
    · by_cases h : m = n <;> by_cases hk : k = m <;> simp_all [Tab.find?, eq_comm]
    · split
      · rename_i h; subst h; by_cases h : m = n <;> simp_all [Tab.find?, eq_comm]
      · by_cases h : m = n <;> by_cases hk : k = m <;> simp_all [Tab.find?, eq_comm]

@[simp] theorem Tab.get_put (d : α) (t : Tab α) (n m : Nat) (x : α) :
    Tab.get d (Tab.put t n x) m = if m = n then x else Tab.get d t m := by
  simp only [Tab.get, Tab.find_put]; split <;> rfl

/-- Of two values set at one key the later stands. -/
@[simp] theorem Tab.put_put (t : Tab α) (n : Nat) (x y : α) : Tab.put (Tab.put t n x) n y = Tab.put t n y := by
  induction t with
  | nil => simp [Tab.put]
  | cons e t ih =>
    obtain ⟨k, z⟩ := e
    by_cases h : n < k
    · simp [Tab.put, h]
    · by_cases hk : n = k <;> simp [Tab.put, h, hk, ih]

theorem Tab.find_erase (t : Tab α) (n m : Nat) :
    Tab.find? (Tab.erase t n) m = if m = n then none else Tab.find? t m := by
  induction t with
  | nil => simp [Tab.erase, Tab.find?]
  | cons e t ih =>
    obtain ⟨k, y⟩ := e
    simp only [Tab.erase, List.filter_cons, Tab.find?] at ih ⊢
    by_cases hk : k = n <;> by_cases h : m = n <;> by_cases hm : k = m <;> simp_all [Tab.find?]

@[simp] theorem Tab.get_erase (d : α) (t : Tab α) (n m : Nat) :
    Tab.get d (Tab.erase t n) m = if m = n then d else Tab.get d t m := by
  simp only [Tab.get, Tab.find_erase]; split <;> rfl

@[simp] theorem Tab.get_store [DecidableEq α] (d : α) (t : Tab α) (n m : Nat) (x : α) :
    Tab.get d (Tab.store d t n x) m = if m = n then x else Tab.get d t m := by
  simp only [Tab.store]; split <;> simp_all

theorem Tab.sortedFrom_mono {t : Tab α} : ∀ {a b : Nat}, a ≤ b → Tab.sortedFrom b t = true → Tab.sortedFrom a t = true := by
  cases t with
  | nil => intros; rfl
  | cons e t => intro a b h; simp only [Tab.sortedFrom, Bool.and_eq_true, decide_eq_true_eq]; exact fun p => ⟨by omega, p.2⟩

theorem Tab.sortedFrom_put {t : Tab α} {n : Nat} {x : α} :
    ∀ {b : Nat}, b ≤ n → Tab.sortedFrom b t = true → Tab.sortedFrom b (Tab.put t n x) = true := by
  induction t with
  | nil => intro b hb _; simp [Tab.put, Tab.sortedFrom, hb]
  | cons e t ih =>
    obtain ⟨k, y⟩ := e
    intro b hb hs
    simp only [Tab.sortedFrom, Bool.and_eq_true, decide_eq_true_eq] at hs
    simp only [Tab.put]
    split
    · rename_i h
      simp only [Tab.sortedFrom, Bool.and_eq_true, decide_eq_true_eq]
      exact ⟨hb, by omega, hs.2⟩
    · split
      · subst_vars; simp only [Tab.sortedFrom, Bool.and_eq_true, decide_eq_true_eq]; exact ⟨hb, hs.2⟩
      · simp only [Tab.sortedFrom, Bool.and_eq_true, decide_eq_true_eq]; exact ⟨hs.1, ih (by omega) hs.2⟩

theorem Tab.sortedFrom_filter {t : Tab α} (f : Nat × α → Bool) :
    ∀ {b : Nat}, Tab.sortedFrom b t = true → Tab.sortedFrom b (t.filter f) = true := by
  induction t with
  | nil => intro b h; rfl
  | cons e t ih =>
    obtain ⟨k, y⟩ := e
    intro b hs
    simp only [Tab.sortedFrom, Bool.and_eq_true, decide_eq_true_eq] at hs
    simp only [List.filter_cons]
    split
    · simp only [Tab.sortedFrom, Bool.and_eq_true, decide_eq_true_eq]; exact ⟨hs.1, ih hs.2⟩
    · exact Tab.sortedFrom_mono (by omega) (ih hs.2)

theorem Tab.mem_put {t : Tab α} {n : Nat} {x : α} {e : Nat × α} (h : e ∈ Tab.put t n x) : e = (n, x) ∨ e ∈ t := by
  induction t with
  | nil => simpa [Tab.put] using h
  | cons f t ih =>
    obtain ⟨k, y⟩ := f
    simp only [Tab.put] at h
    split at h
    · simpa using h
    · split at h
      · simp only [List.mem_cons] at h ⊢; tauto
      · simp only [List.mem_cons] at h ⊢; rcases h with h | h
        · tauto
        · rcases ih h with h | h <;> tauto

/-- Writing keeps the canonical form. -/
theorem Tab.wf_store [DecidableEq α] {d : α} {t : Tab α} {n : Nat} {x : α} (h : Tab.wf d t = true) : Tab.wf d (Tab.store d t n x) = true := by
  simp only [Tab.wf, Bool.and_eq_true, List.all_eq_true, decide_eq_true_eq] at h ⊢
  simp only [Tab.store]
  split
  · exact ⟨Tab.sortedFrom_filter _ h.1, fun e he => h.2 e (List.mem_of_mem_filter he)⟩
  · rename_i hx
    refine ⟨Tab.sortedFrom_put (Nat.zero_le _) h.1, fun e he => ?_⟩
    rcases Tab.mem_put he with rfl | he
    · exact hx
    · exact h.2 e he

theorem Tab.sortedFrom_find_none {t : Tab α} : ∀ {b n : Nat}, Tab.sortedFrom b t = true → n < b → Tab.find? t n = none := by
  induction t with
  | nil => intros; rfl
  | cons e t ih =>
    obtain ⟨k, y⟩ := e
    intro b n hs h
    simp only [Tab.sortedFrom, Bool.and_eq_true, decide_eq_true_eq] at hs
    simp only [Tab.find?]
    rw [if_neg (by omega)]
    exact ih hs.2 (by omega)

theorem Tab.sorted_ext {t u : Tab α} : ∀ {b : Nat}, Tab.sortedFrom b t = true → Tab.sortedFrom b u = true →
    (∀ n, Tab.find? t n = Tab.find? u n) → t = u := by
  induction t generalizing u with
  | nil =>
    intro b _ hu h
    cases u with
    | nil => rfl
    | cons e u => obtain ⟨k, y⟩ := e; have := h k; simp [Tab.find?] at this
  | cons e t ih =>
    obtain ⟨k, y⟩ := e
    intro b ht hu h
    cases u with
    | nil => have := h k; simp [Tab.find?] at this
    | cons f u =>
      obtain ⟨j, z⟩ := f
      simp only [Tab.sortedFrom, Bool.and_eq_true, decide_eq_true_eq] at ht hu
      have hkj : k = j := by
        rcases Nat.lt_trichotomy k j with hl | hl | hl
        · have := h k
          simp only [Tab.find?, if_true] at this
          rw [if_neg (by omega), Tab.sortedFrom_find_none hu.2 (by omega)] at this
          cases this
        · exact hl
        · have := h j
          simp only [Tab.find?, if_true] at this
          rw [if_neg (by omega), Tab.sortedFrom_find_none ht.2 (by omega)] at this
          cases this
      subst hkj
      have hy : y = z := by have := h k; simpa [Tab.find?] using this
      subst hy
      congr 1
      refine ih ht.2 hu.2 fun n => ?_
      have := h n
      simp only [Tab.find?] at this
      by_cases hn : k = n
      · subst hn; rw [Tab.sortedFrom_find_none ht.2 (by omega), Tab.sortedFrom_find_none hu.2 (by omega)]
      · simpa [hn] using this

/-- Two canonical tables that read the same are the same. -/
theorem Tab.wf_ext [DecidableEq α] {d : α} {t u : Tab α} (ht : Tab.wf d t = true) (hu : Tab.wf d u = true)
    (h : ∀ n, Tab.get d t n = Tab.get d u n) : t = u := by
  simp only [Tab.wf, Bool.and_eq_true, List.all_eq_true, decide_eq_true_eq] at ht hu
  have mem {v : Tab α} {n : Nat} {x : α} (hf : Tab.find? v n = some x) : (n, x) ∈ v := by
    induction v with
    | nil => simp at hf
    | cons e v ih =>
      obtain ⟨k, y⟩ := e
      simp only [Tab.find?] at hf
      split at hf
      · simp_all
      · exact List.mem_cons_of_mem _ (ih hf)
  refine Tab.sorted_ext ht.1 hu.1 fun n => ?_
  have hn := h n
  simp only [Tab.get] at hn
  cases ht' : Tab.find? t n with
  | none =>
    cases hu' : Tab.find? u n with
    | none => rfl
    | some y => rw [ht', hu'] at hn; exact absurd hn.symm (hu.2 _ (mem hu'))
  | some x =>
    cases hu' : Tab.find? u n with
    | none => rw [ht', hu'] at hn; exact absurd hn (ht.2 _ (mem ht'))
    | some y => rw [ht', hu'] at hn; simpa using hn

end Sys2Proof.Machine
end

