-- ==== Sys2Proof/Laws/State.lean ====
section
/-! SUPPORT. The small lemmas of the state: one for every field under every named update, and reading a part after it is replaced. -/

namespace Sys2Proof.Machine

/-! ## Columns -/

@[simp] theorem State.setCol_dist (s : State) (c : Nat) (x : Column) : (s.setCol c x).dist = s.dist := rfl
@[simp] theorem State.setCol_flits (s : State) (c : Nat) (x : Column) : (s.setCol c x).flits = s.flits := rfl
@[simp] theorem State.setCol_routeAt (s : State) (c : Nat) (x : Column) : (s.setCol c x).routeAt = s.routeAt := rfl
@[simp] theorem State.setCol_deadLinks (s : State) (c : Nat) (x : Column) : (s.setCol c x).deadLinks = s.deadLinks := rfl
@[simp] theorem State.setCol_host (s : State) (c : Nat) (x : Column) : (s.setCol c x).host = s.host := rfl
@[simp] theorem State.setCol_factors (s : State) (c : Nat) (x : Column) : (s.setCol c x).factors = s.factors := rfl
@[simp] theorem State.setCol_clk (s : State) (c : Nat) (x : Column) : (s.setCol c x).clk = s.clk := rfl
@[simp] theorem State.setCol_time (s : State) (c : Nat) (x : Column) : (s.setCol c x).time = s.time := rfl
@[simp] theorem State.setCol_timeFrac (s : State) (c : Nat) (x : Column) : (s.setCol c x).timeFrac = s.timeFrac := rfl
@[simp] theorem State.setCol_clocksStopped (s : State) (c : Nat) (x : Column) : (s.setCol c x).clocksStopped = s.clocksStopped := rfl
@[simp] theorem State.setCol_booted (s : State) (c : Nat) (x : Column) : (s.setCol c x).booted = s.booted := rfl
@[simp] theorem State.setCol_cur (s : State) (c : Nat) (x : Column) : (s.setCol c x).cur = s.cur := rfl
@[simp] theorem State.setCol_agenda (s : State) (c : Nat) (x : Column) : (s.setCol c x).agenda = s.agenda := rfl
@[simp] theorem State.setCol_nextId (s : State) (c : Nat) (x : Column) : (s.setCol c x).nextId = s.nextId := rfl
@[simp] theorem State.setCol_free (s : State) (c : Nat) (x : Column) : (s.setCol c x).free = s.free := rfl
@[simp] theorem State.updCol_dist (s : State) (c : Nat) (g : Column → Column) : (s.updCol c g).dist = s.dist := rfl
@[simp] theorem State.updCol_flits (s : State) (c : Nat) (g : Column → Column) : (s.updCol c g).flits = s.flits := rfl
@[simp] theorem State.updCol_routeAt (s : State) (c : Nat) (g : Column → Column) : (s.updCol c g).routeAt = s.routeAt := rfl
@[simp] theorem State.updCol_deadLinks (s : State) (c : Nat) (g : Column → Column) : (s.updCol c g).deadLinks = s.deadLinks := rfl
@[simp] theorem State.updCol_host (s : State) (c : Nat) (g : Column → Column) : (s.updCol c g).host = s.host := rfl
@[simp] theorem State.updCol_factors (s : State) (c : Nat) (g : Column → Column) : (s.updCol c g).factors = s.factors := rfl
@[simp] theorem State.updCol_clk (s : State) (c : Nat) (g : Column → Column) : (s.updCol c g).clk = s.clk := rfl
@[simp] theorem State.updCol_time (s : State) (c : Nat) (g : Column → Column) : (s.updCol c g).time = s.time := rfl
@[simp] theorem State.updCol_timeFrac (s : State) (c : Nat) (g : Column → Column) : (s.updCol c g).timeFrac = s.timeFrac := rfl
@[simp] theorem State.updCol_clocksStopped (s : State) (c : Nat) (g : Column → Column) : (s.updCol c g).clocksStopped = s.clocksStopped := rfl
@[simp] theorem State.updCol_booted (s : State) (c : Nat) (g : Column → Column) : (s.updCol c g).booted = s.booted := rfl
@[simp] theorem State.updCol_cur (s : State) (c : Nat) (g : Column → Column) : (s.updCol c g).cur = s.cur := rfl
@[simp] theorem State.updCol_agenda (s : State) (c : Nat) (g : Column → Column) : (s.updCol c g).agenda = s.agenda := rfl
@[simp] theorem State.updCol_nextId (s : State) (c : Nat) (g : Column → Column) : (s.updCol c g).nextId = s.nextId := rfl
@[simp] theorem State.updCol_free (s : State) (c : Nat) (g : Column → Column) : (s.updCol c g).free = s.free := rfl
@[simp] theorem State.updHere_dist (s : State) (g : Column → Column) : (s.updHere g).dist = s.dist := rfl
@[simp] theorem State.updHere_flits (s : State) (g : Column → Column) : (s.updHere g).flits = s.flits := rfl
@[simp] theorem State.updHere_routeAt (s : State) (g : Column → Column) : (s.updHere g).routeAt = s.routeAt := rfl
@[simp] theorem State.updHere_deadLinks (s : State) (g : Column → Column) : (s.updHere g).deadLinks = s.deadLinks := rfl
@[simp] theorem State.updHere_host (s : State) (g : Column → Column) : (s.updHere g).host = s.host := rfl
@[simp] theorem State.updHere_factors (s : State) (g : Column → Column) : (s.updHere g).factors = s.factors := rfl
@[simp] theorem State.updHere_clk (s : State) (g : Column → Column) : (s.updHere g).clk = s.clk := rfl
@[simp] theorem State.updHere_time (s : State) (g : Column → Column) : (s.updHere g).time = s.time := rfl
@[simp] theorem State.updHere_timeFrac (s : State) (g : Column → Column) : (s.updHere g).timeFrac = s.timeFrac := rfl
@[simp] theorem State.updHere_clocksStopped (s : State) (g : Column → Column) : (s.updHere g).clocksStopped = s.clocksStopped := rfl
@[simp] theorem State.updHere_booted (s : State) (g : Column → Column) : (s.updHere g).booted = s.booted := rfl
@[simp] theorem State.updHere_cur (s : State) (g : Column → Column) : (s.updHere g).cur = s.cur := rfl
@[simp] theorem State.updHere_agenda (s : State) (g : Column → Column) : (s.updHere g).agenda = s.agenda := rfl
@[simp] theorem State.updHere_nextId (s : State) (g : Column → Column) : (s.updHere g).nextId = s.nextId := rfl
@[simp] theorem State.updHere_free (s : State) (g : Column → Column) : (s.updHere g).free = s.free := rfl

@[simp] theorem State.col_setCol (s : State) (c d : Nat) (x : Column) : (s.setCol c x).col d = if d = c then x else s.col d := by
  simp [State.setCol, State.col]
@[simp] theorem State.col_updCol (s : State) (c d : Nat) (f : Column → Column) :
    (s.updCol c f).col d = if d = c then f (s.col c) else s.col d := by
  simp [State.updCol]
@[simp] theorem State.col_updHere (s : State) (d : Nat) (f : Column → Column) :
    (s.updHere f).col d = if d = s.cur.col then f s.here else s.col d := by
  simp [State.updHere, State.here]
@[simp] theorem State.here_setCol (s : State) (x : Column) : (s.setCol s.cur.col x).here = x := by simp [State.here]
@[simp] theorem State.here_updHere (s : State) (f : Column → Column) : (s.updHere f).here = f s.here := by simp [State.here]

/-! ## Parts of a column -/

@[simp] theorem Column.setWarp_groups (x : Column) (n : Nat) (w : Warp) : (x.setWarp n w).groups = x.groups := rfl
@[simp] theorem Column.setWarp_barriers (x : Column) (n : Nat) (w : Warp) : (x.setWarp n w).barriers = x.barriers := rfl
@[simp] theorem Column.setWarp_quarters (x : Column) (n : Nat) (w : Warp) : (x.setWarp n w).quarters = x.quarters := rfl
@[simp] theorem Column.setWarp_l1 (x : Column) (n : Nat) (w : Warp) : (x.setWarp n w).l1 = x.l1 := rfl
@[simp] theorem Column.setWarp_l1tlb (x : Column) (n : Nat) (w : Warp) : (x.setWarp n w).l1tlb = x.l1tlb := rfl
@[simp] theorem Column.setWarp_l2tlb (x : Column) (n : Nat) (w : Warp) : (x.setWarp n w).l2tlb = x.l2tlb := rfl
@[simp] theorem Column.setWarp_ctxs (x : Column) (n : Nat) (w : Warp) : (x.setWarp n w).ctxs = x.ctxs := rfl
@[simp] theorem Column.setWarp_port (x : Column) (n : Nat) (w : Warp) : (x.setWarp n w).port = x.port := rfl
@[simp] theorem Column.setWarp_unitM (x : Column) (n : Nat) (w : Warp) : (x.setWarp n w).unitM = x.unitM := rfl
@[simp] theorem Column.setWarp_unitE (x : Column) (n : Nat) (w : Warp) : (x.setWarp n w).unitE = x.unitE := rfl
@[simp] theorem Column.setWarp_glean (x : Column) (n : Nat) (w : Warp) : (x.setWarp n w).glean = x.glean := rfl
@[simp] theorem Column.setWarp_tinker (x : Column) (n : Nat) (w : Warp) : (x.setWarp n w).tinker = x.tinker := rfl
@[simp] theorem Column.setWarp_mem (x : Column) (n : Nat) (w : Warp) : (x.setWarp n w).mem = x.mem := rfl
@[simp] theorem Column.setWarp_badSectors (x : Column) (n : Nat) (w : Warp) : (x.setWarp n w).badSectors = x.badSectors := rfl
@[simp] theorem Column.setWarp_weak (x : Column) (n : Nat) (w : Warp) : (x.setWarp n w).weak = x.weak := rfl
@[simp] theorem Column.setWarp_undefined (x : Column) (n : Nat) (w : Warp) : (x.setWarp n w).undefined = x.undefined := rfl
@[simp] theorem Column.setWarp_bay (x : Column) (n : Nat) (w : Warp) : (x.setWarp n w).bay = x.bay := rfl
@[simp] theorem Column.setWarp_mops (x : Column) (n : Nat) (w : Warp) : (x.setWarp n w).mops = x.mops := rfl
@[simp] theorem Column.setWarp_cmds (x : Column) (n : Nat) (w : Warp) : (x.setWarp n w).cmds = x.cmds := rfl
@[simp] theorem Column.setWarp_counts (x : Column) (n : Nat) (w : Warp) : (x.setWarp n w).counts = x.counts := rfl
@[simp] theorem Column.setWarp_engineFree (x : Column) (n : Nat) (w : Warp) : (x.setWarp n w).engineFree = x.engineFree := rfl
@[simp] theorem Column.setWarp_roomFor (x : Column) (n : Nat) (w : Warp) : (x.setWarp n w).roomFor = x.roomFor := rfl
@[simp] theorem Column.setWarp_hwq (x : Column) (n : Nat) (w : Warp) : (x.setWarp n w).hwq = x.hwq := rfl
@[simp] theorem Column.setWarp_cribs (x : Column) (n : Nat) (w : Warp) : (x.setWarp n w).cribs = x.cribs := rfl
@[simp] theorem Column.setWarp_grants (x : Column) (n : Nat) (w : Warp) : (x.setWarp n w).grants = x.grants := rfl
@[simp] theorem Column.setWarp_mail (x : Column) (n : Nat) (w : Warp) : (x.setWarp n w).mail = x.mail := rfl
@[simp] theorem Column.setWarp_xbar (x : Column) (n : Nat) (w : Warp) : (x.setWarp n w).xbar = x.xbar := rfl
@[simp] theorem Column.setWarp_nifCore (x : Column) (n : Nat) (w : Warp) : (x.setWarp n w).nifCore = x.nifCore := rfl
@[simp] theorem Column.setWarp_nifBay (x : Column) (n : Nat) (w : Warp) : (x.setWarp n w).nifBay = x.nifBay := rfl
@[simp] theorem Column.setWarp_ejected (x : Column) (n : Nat) (w : Warp) : (x.setWarp n w).ejected = x.ejected := rfl
@[simp] theorem Column.setWarp_parts (x : Column) (n : Nat) (w : Warp) : (x.setWarp n w).parts = x.parts := rfl
@[simp] theorem Column.setWarp_msgs (x : Column) (n : Nat) (w : Warp) : (x.setWarp n w).msgs = x.msgs := rfl
@[simp] theorem Column.setWarp_l1Port (x : Column) (n : Nat) (w : Warp) : (x.setWarp n w).l1Port = x.l1Port := rfl
@[simp] theorem Column.setWarp_coreOffline (x : Column) (n : Nat) (w : Warp) : (x.setWarp n w).coreOffline = x.coreOffline := rfl
@[simp] theorem Column.setWarp_memOffline (x : Column) (n : Nat) (w : Warp) : (x.setWarp n w).memOffline = x.memOffline := rfl
@[simp] theorem Column.setWarp_perf (x : Column) (n : Nat) (w : Warp) : (x.setWarp n w).perf = x.perf := rfl
@[simp] theorem Column.setWarp_sysUsed (x : Column) (n : Nat) (w : Warp) : (x.setWarp n w).sysUsed = x.sysUsed := rfl
@[simp] theorem Column.warp_setWarp (x : Column) (n : Nat) (w : Warp) (m : Nat) : (x.setWarp n w).warp m = if m = n then w else x.warp m := by
  simp [Column.setWarp, Column.warp]
@[simp] theorem Column.ctx_setWarp (x : Column) (n : Nat) (w : Warp) (m : Nat) : (x.setWarp n w).ctx m = x.ctx m := rfl
@[simp] theorem Column.group_setWarp (x : Column) (n : Nat) (w : Warp) (m : Nat) : (x.setWarp n w).group m = x.group m := rfl
@[simp] theorem Column.quarter_setWarp (x : Column) (n : Nat) (w : Warp) (m : Nat) : (x.setWarp n w).quarter m = x.quarter m := rfl
@[simp] theorem Column.setCtx_warps (x : Column) (n : Nat) (w : LaneCtx) : (x.setCtx n w).warps = x.warps := rfl
@[simp] theorem Column.setCtx_groups (x : Column) (n : Nat) (w : LaneCtx) : (x.setCtx n w).groups = x.groups := rfl
@[simp] theorem Column.setCtx_barriers (x : Column) (n : Nat) (w : LaneCtx) : (x.setCtx n w).barriers = x.barriers := rfl
@[simp] theorem Column.setCtx_quarters (x : Column) (n : Nat) (w : LaneCtx) : (x.setCtx n w).quarters = x.quarters := rfl
@[simp] theorem Column.setCtx_l1 (x : Column) (n : Nat) (w : LaneCtx) : (x.setCtx n w).l1 = x.l1 := rfl
@[simp] theorem Column.setCtx_l1tlb (x : Column) (n : Nat) (w : LaneCtx) : (x.setCtx n w).l1tlb = x.l1tlb := rfl
@[simp] theorem Column.setCtx_l2tlb (x : Column) (n : Nat) (w : LaneCtx) : (x.setCtx n w).l2tlb = x.l2tlb := rfl
@[simp] theorem Column.setCtx_port (x : Column) (n : Nat) (w : LaneCtx) : (x.setCtx n w).port = x.port := rfl
@[simp] theorem Column.setCtx_unitM (x : Column) (n : Nat) (w : LaneCtx) : (x.setCtx n w).unitM = x.unitM := rfl
@[simp] theorem Column.setCtx_unitE (x : Column) (n : Nat) (w : LaneCtx) : (x.setCtx n w).unitE = x.unitE := rfl
@[simp] theorem Column.setCtx_glean (x : Column) (n : Nat) (w : LaneCtx) : (x.setCtx n w).glean = x.glean := rfl
@[simp] theorem Column.setCtx_tinker (x : Column) (n : Nat) (w : LaneCtx) : (x.setCtx n w).tinker = x.tinker := rfl
@[simp] theorem Column.setCtx_mem (x : Column) (n : Nat) (w : LaneCtx) : (x.setCtx n w).mem = x.mem := rfl
@[simp] theorem Column.setCtx_badSectors (x : Column) (n : Nat) (w : LaneCtx) : (x.setCtx n w).badSectors = x.badSectors := rfl
@[simp] theorem Column.setCtx_weak (x : Column) (n : Nat) (w : LaneCtx) : (x.setCtx n w).weak = x.weak := rfl
@[simp] theorem Column.setCtx_undefined (x : Column) (n : Nat) (w : LaneCtx) : (x.setCtx n w).undefined = x.undefined := rfl
@[simp] theorem Column.setCtx_bay (x : Column) (n : Nat) (w : LaneCtx) : (x.setCtx n w).bay = x.bay := rfl
@[simp] theorem Column.setCtx_mops (x : Column) (n : Nat) (w : LaneCtx) : (x.setCtx n w).mops = x.mops := rfl
@[simp] theorem Column.setCtx_cmds (x : Column) (n : Nat) (w : LaneCtx) : (x.setCtx n w).cmds = x.cmds := rfl
@[simp] theorem Column.setCtx_counts (x : Column) (n : Nat) (w : LaneCtx) : (x.setCtx n w).counts = x.counts := rfl
@[simp] theorem Column.setCtx_engineFree (x : Column) (n : Nat) (w : LaneCtx) : (x.setCtx n w).engineFree = x.engineFree := rfl
@[simp] theorem Column.setCtx_roomFor (x : Column) (n : Nat) (w : LaneCtx) : (x.setCtx n w).roomFor = x.roomFor := rfl
@[simp] theorem Column.setCtx_hwq (x : Column) (n : Nat) (w : LaneCtx) : (x.setCtx n w).hwq = x.hwq := rfl
@[simp] theorem Column.setCtx_cribs (x : Column) (n : Nat) (w : LaneCtx) : (x.setCtx n w).cribs = x.cribs := rfl
@[simp] theorem Column.setCtx_grants (x : Column) (n : Nat) (w : LaneCtx) : (x.setCtx n w).grants = x.grants := rfl
@[simp] theorem Column.setCtx_mail (x : Column) (n : Nat) (w : LaneCtx) : (x.setCtx n w).mail = x.mail := rfl
@[simp] theorem Column.setCtx_xbar (x : Column) (n : Nat) (w : LaneCtx) : (x.setCtx n w).xbar = x.xbar := rfl
@[simp] theorem Column.setCtx_nifCore (x : Column) (n : Nat) (w : LaneCtx) : (x.setCtx n w).nifCore = x.nifCore := rfl
@[simp] theorem Column.setCtx_nifBay (x : Column) (n : Nat) (w : LaneCtx) : (x.setCtx n w).nifBay = x.nifBay := rfl
@[simp] theorem Column.setCtx_ejected (x : Column) (n : Nat) (w : LaneCtx) : (x.setCtx n w).ejected = x.ejected := rfl
@[simp] theorem Column.setCtx_parts (x : Column) (n : Nat) (w : LaneCtx) : (x.setCtx n w).parts = x.parts := rfl
@[simp] theorem Column.setCtx_msgs (x : Column) (n : Nat) (w : LaneCtx) : (x.setCtx n w).msgs = x.msgs := rfl
@[simp] theorem Column.setCtx_l1Port (x : Column) (n : Nat) (w : LaneCtx) : (x.setCtx n w).l1Port = x.l1Port := rfl
@[simp] theorem Column.setCtx_coreOffline (x : Column) (n : Nat) (w : LaneCtx) : (x.setCtx n w).coreOffline = x.coreOffline := rfl
@[simp] theorem Column.setCtx_memOffline (x : Column) (n : Nat) (w : LaneCtx) : (x.setCtx n w).memOffline = x.memOffline := rfl
@[simp] theorem Column.setCtx_perf (x : Column) (n : Nat) (w : LaneCtx) : (x.setCtx n w).perf = x.perf := rfl
@[simp] theorem Column.setCtx_sysUsed (x : Column) (n : Nat) (w : LaneCtx) : (x.setCtx n w).sysUsed = x.sysUsed := rfl
@[simp] theorem Column.ctx_setCtx (x : Column) (n : Nat) (w : LaneCtx) (m : Nat) : (x.setCtx n w).ctx m = if m = n then w else x.ctx m := by
  simp [Column.setCtx, Column.ctx]
@[simp] theorem Column.warp_setCtx (x : Column) (n : Nat) (w : LaneCtx) (m : Nat) : (x.setCtx n w).warp m = x.warp m := rfl
@[simp] theorem Column.group_setCtx (x : Column) (n : Nat) (w : LaneCtx) (m : Nat) : (x.setCtx n w).group m = x.group m := rfl
@[simp] theorem Column.quarter_setCtx (x : Column) (n : Nat) (w : LaneCtx) (m : Nat) : (x.setCtx n w).quarter m = x.quarter m := rfl
@[simp] theorem Column.setGroup_warps (x : Column) (n : Nat) (w : Group) : (x.setGroup n w).warps = x.warps := rfl
@[simp] theorem Column.setGroup_barriers (x : Column) (n : Nat) (w : Group) : (x.setGroup n w).barriers = x.barriers := rfl
@[simp] theorem Column.setGroup_quarters (x : Column) (n : Nat) (w : Group) : (x.setGroup n w).quarters = x.quarters := rfl
@[simp] theorem Column.setGroup_l1 (x : Column) (n : Nat) (w : Group) : (x.setGroup n w).l1 = x.l1 := rfl
@[simp] theorem Column.setGroup_l1tlb (x : Column) (n : Nat) (w : Group) : (x.setGroup n w).l1tlb = x.l1tlb := rfl
@[simp] theorem Column.setGroup_l2tlb (x : Column) (n : Nat) (w : Group) : (x.setGroup n w).l2tlb = x.l2tlb := rfl
@[simp] theorem Column.setGroup_ctxs (x : Column) (n : Nat) (w : Group) : (x.setGroup n w).ctxs = x.ctxs := rfl
@[simp] theorem Column.setGroup_port (x : Column) (n : Nat) (w : Group) : (x.setGroup n w).port = x.port := rfl
@[simp] theorem Column.setGroup_unitM (x : Column) (n : Nat) (w : Group) : (x.setGroup n w).unitM = x.unitM := rfl
@[simp] theorem Column.setGroup_unitE (x : Column) (n : Nat) (w : Group) : (x.setGroup n w).unitE = x.unitE := rfl
@[simp] theorem Column.setGroup_glean (x : Column) (n : Nat) (w : Group) : (x.setGroup n w).glean = x.glean := rfl
@[simp] theorem Column.setGroup_tinker (x : Column) (n : Nat) (w : Group) : (x.setGroup n w).tinker = x.tinker := rfl
@[simp] theorem Column.setGroup_mem (x : Column) (n : Nat) (w : Group) : (x.setGroup n w).mem = x.mem := rfl
@[simp] theorem Column.setGroup_badSectors (x : Column) (n : Nat) (w : Group) : (x.setGroup n w).badSectors = x.badSectors := rfl
@[simp] theorem Column.setGroup_weak (x : Column) (n : Nat) (w : Group) : (x.setGroup n w).weak = x.weak := rfl
@[simp] theorem Column.setGroup_undefined (x : Column) (n : Nat) (w : Group) : (x.setGroup n w).undefined = x.undefined := rfl
@[simp] theorem Column.setGroup_bay (x : Column) (n : Nat) (w : Group) : (x.setGroup n w).bay = x.bay := rfl
@[simp] theorem Column.setGroup_mops (x : Column) (n : Nat) (w : Group) : (x.setGroup n w).mops = x.mops := rfl
@[simp] theorem Column.setGroup_cmds (x : Column) (n : Nat) (w : Group) : (x.setGroup n w).cmds = x.cmds := rfl
@[simp] theorem Column.setGroup_counts (x : Column) (n : Nat) (w : Group) : (x.setGroup n w).counts = x.counts := rfl
@[simp] theorem Column.setGroup_engineFree (x : Column) (n : Nat) (w : Group) : (x.setGroup n w).engineFree = x.engineFree := rfl
@[simp] theorem Column.setGroup_roomFor (x : Column) (n : Nat) (w : Group) : (x.setGroup n w).roomFor = x.roomFor := rfl
@[simp] theorem Column.setGroup_hwq (x : Column) (n : Nat) (w : Group) : (x.setGroup n w).hwq = x.hwq := rfl
@[simp] theorem Column.setGroup_cribs (x : Column) (n : Nat) (w : Group) : (x.setGroup n w).cribs = x.cribs := rfl
@[simp] theorem Column.setGroup_grants (x : Column) (n : Nat) (w : Group) : (x.setGroup n w).grants = x.grants := rfl
@[simp] theorem Column.setGroup_mail (x : Column) (n : Nat) (w : Group) : (x.setGroup n w).mail = x.mail := rfl
@[simp] theorem Column.setGroup_xbar (x : Column) (n : Nat) (w : Group) : (x.setGroup n w).xbar = x.xbar := rfl
@[simp] theorem Column.setGroup_nifCore (x : Column) (n : Nat) (w : Group) : (x.setGroup n w).nifCore = x.nifCore := rfl
@[simp] theorem Column.setGroup_nifBay (x : Column) (n : Nat) (w : Group) : (x.setGroup n w).nifBay = x.nifBay := rfl
@[simp] theorem Column.setGroup_ejected (x : Column) (n : Nat) (w : Group) : (x.setGroup n w).ejected = x.ejected := rfl
@[simp] theorem Column.setGroup_parts (x : Column) (n : Nat) (w : Group) : (x.setGroup n w).parts = x.parts := rfl
@[simp] theorem Column.setGroup_msgs (x : Column) (n : Nat) (w : Group) : (x.setGroup n w).msgs = x.msgs := rfl
@[simp] theorem Column.setGroup_l1Port (x : Column) (n : Nat) (w : Group) : (x.setGroup n w).l1Port = x.l1Port := rfl
@[simp] theorem Column.setGroup_coreOffline (x : Column) (n : Nat) (w : Group) : (x.setGroup n w).coreOffline = x.coreOffline := rfl
@[simp] theorem Column.setGroup_memOffline (x : Column) (n : Nat) (w : Group) : (x.setGroup n w).memOffline = x.memOffline := rfl
@[simp] theorem Column.setGroup_perf (x : Column) (n : Nat) (w : Group) : (x.setGroup n w).perf = x.perf := rfl
@[simp] theorem Column.setGroup_sysUsed (x : Column) (n : Nat) (w : Group) : (x.setGroup n w).sysUsed = x.sysUsed := rfl
@[simp] theorem Column.group_setGroup (x : Column) (n : Nat) (w : Group) (m : Nat) : (x.setGroup n w).group m = if m = n then w else x.group m := by
  simp [Column.setGroup, Column.group]
@[simp] theorem Column.warp_setGroup (x : Column) (n : Nat) (w : Group) (m : Nat) : (x.setGroup n w).warp m = x.warp m := rfl
@[simp] theorem Column.ctx_setGroup (x : Column) (n : Nat) (w : Group) (m : Nat) : (x.setGroup n w).ctx m = x.ctx m := rfl
@[simp] theorem Column.quarter_setGroup (x : Column) (n : Nat) (w : Group) (m : Nat) : (x.setGroup n w).quarter m = x.quarter m := rfl
@[simp] theorem Column.setQuarter_warps (x : Column) (n : Nat) (w : Quarter) : (x.setQuarter n w).warps = x.warps := rfl
@[simp] theorem Column.setQuarter_groups (x : Column) (n : Nat) (w : Quarter) : (x.setQuarter n w).groups = x.groups := rfl
@[simp] theorem Column.setQuarter_barriers (x : Column) (n : Nat) (w : Quarter) : (x.setQuarter n w).barriers = x.barriers := rfl
@[simp] theorem Column.setQuarter_l1 (x : Column) (n : Nat) (w : Quarter) : (x.setQuarter n w).l1 = x.l1 := rfl
@[simp] theorem Column.setQuarter_l1tlb (x : Column) (n : Nat) (w : Quarter) : (x.setQuarter n w).l1tlb = x.l1tlb := rfl
@[simp] theorem Column.setQuarter_l2tlb (x : Column) (n : Nat) (w : Quarter) : (x.setQuarter n w).l2tlb = x.l2tlb := rfl
@[simp] theorem Column.setQuarter_ctxs (x : Column) (n : Nat) (w : Quarter) : (x.setQuarter n w).ctxs = x.ctxs := rfl
@[simp] theorem Column.setQuarter_port (x : Column) (n : Nat) (w : Quarter) : (x.setQuarter n w).port = x.port := rfl
@[simp] theorem Column.setQuarter_unitM (x : Column) (n : Nat) (w : Quarter) : (x.setQuarter n w).unitM = x.unitM := rfl
@[simp] theorem Column.setQuarter_unitE (x : Column) (n : Nat) (w : Quarter) : (x.setQuarter n w).unitE = x.unitE := rfl
@[simp] theorem Column.setQuarter_glean (x : Column) (n : Nat) (w : Quarter) : (x.setQuarter n w).glean = x.glean := rfl
@[simp] theorem Column.setQuarter_tinker (x : Column) (n : Nat) (w : Quarter) : (x.setQuarter n w).tinker = x.tinker := rfl
@[simp] theorem Column.setQuarter_mem (x : Column) (n : Nat) (w : Quarter) : (x.setQuarter n w).mem = x.mem := rfl
@[simp] theorem Column.setQuarter_badSectors (x : Column) (n : Nat) (w : Quarter) : (x.setQuarter n w).badSectors = x.badSectors := rfl
@[simp] theorem Column.setQuarter_weak (x : Column) (n : Nat) (w : Quarter) : (x.setQuarter n w).weak = x.weak := rfl
@[simp] theorem Column.setQuarter_undefined (x : Column) (n : Nat) (w : Quarter) : (x.setQuarter n w).undefined = x.undefined := rfl
@[simp] theorem Column.setQuarter_bay (x : Column) (n : Nat) (w : Quarter) : (x.setQuarter n w).bay = x.bay := rfl
@[simp] theorem Column.setQuarter_mops (x : Column) (n : Nat) (w : Quarter) : (x.setQuarter n w).mops = x.mops := rfl
@[simp] theorem Column.setQuarter_cmds (x : Column) (n : Nat) (w : Quarter) : (x.setQuarter n w).cmds = x.cmds := rfl
@[simp] theorem Column.setQuarter_counts (x : Column) (n : Nat) (w : Quarter) : (x.setQuarter n w).counts = x.counts := rfl
@[simp] theorem Column.setQuarter_engineFree (x : Column) (n : Nat) (w : Quarter) : (x.setQuarter n w).engineFree = x.engineFree := rfl
@[simp] theorem Column.setQuarter_roomFor (x : Column) (n : Nat) (w : Quarter) : (x.setQuarter n w).roomFor = x.roomFor := rfl
@[simp] theorem Column.setQuarter_hwq (x : Column) (n : Nat) (w : Quarter) : (x.setQuarter n w).hwq = x.hwq := rfl
@[simp] theorem Column.setQuarter_cribs (x : Column) (n : Nat) (w : Quarter) : (x.setQuarter n w).cribs = x.cribs := rfl
@[simp] theorem Column.setQuarter_grants (x : Column) (n : Nat) (w : Quarter) : (x.setQuarter n w).grants = x.grants := rfl
@[simp] theorem Column.setQuarter_mail (x : Column) (n : Nat) (w : Quarter) : (x.setQuarter n w).mail = x.mail := rfl
@[simp] theorem Column.setQuarter_xbar (x : Column) (n : Nat) (w : Quarter) : (x.setQuarter n w).xbar = x.xbar := rfl
@[simp] theorem Column.setQuarter_nifCore (x : Column) (n : Nat) (w : Quarter) : (x.setQuarter n w).nifCore = x.nifCore := rfl
@[simp] theorem Column.setQuarter_nifBay (x : Column) (n : Nat) (w : Quarter) : (x.setQuarter n w).nifBay = x.nifBay := rfl
@[simp] theorem Column.setQuarter_ejected (x : Column) (n : Nat) (w : Quarter) : (x.setQuarter n w).ejected = x.ejected := rfl
@[simp] theorem Column.setQuarter_parts (x : Column) (n : Nat) (w : Quarter) : (x.setQuarter n w).parts = x.parts := rfl
@[simp] theorem Column.setQuarter_msgs (x : Column) (n : Nat) (w : Quarter) : (x.setQuarter n w).msgs = x.msgs := rfl
@[simp] theorem Column.setQuarter_l1Port (x : Column) (n : Nat) (w : Quarter) : (x.setQuarter n w).l1Port = x.l1Port := rfl
@[simp] theorem Column.setQuarter_coreOffline (x : Column) (n : Nat) (w : Quarter) : (x.setQuarter n w).coreOffline = x.coreOffline := rfl
@[simp] theorem Column.setQuarter_memOffline (x : Column) (n : Nat) (w : Quarter) : (x.setQuarter n w).memOffline = x.memOffline := rfl
@[simp] theorem Column.setQuarter_perf (x : Column) (n : Nat) (w : Quarter) : (x.setQuarter n w).perf = x.perf := rfl
@[simp] theorem Column.setQuarter_sysUsed (x : Column) (n : Nat) (w : Quarter) : (x.setQuarter n w).sysUsed = x.sysUsed := rfl
@[simp] theorem Column.quarter_setQuarter (x : Column) (n : Nat) (w : Quarter) (m : Nat) : (x.setQuarter n w).quarter m = if m = n then w else x.quarter m := by
  simp [Column.setQuarter, Column.quarter]
@[simp] theorem Column.warp_setQuarter (x : Column) (n : Nat) (w : Quarter) (m : Nat) : (x.setQuarter n w).warp m = x.warp m := rfl
@[simp] theorem Column.ctx_setQuarter (x : Column) (n : Nat) (w : Quarter) (m : Nat) : (x.setQuarter n w).ctx m = x.ctx m := rfl
@[simp] theorem Column.group_setQuarter (x : Column) (n : Nat) (w : Quarter) (m : Nat) : (x.setQuarter n w).group m = x.group m := rfl
@[simp] theorem Column.warp_tinker (x : Column) (t : Tinker) (n : Nat) : Column.warp { x with tinker := t } n = x.warp n := rfl
@[simp] theorem Column.ctx_tinker (x : Column) (t : Tinker) (n : Nat) : Column.ctx { x with tinker := t } n = x.ctx n := rfl
@[simp] theorem Column.group_tinker (x : Column) (t : Tinker) (n : Nat) : Column.group { x with tinker := t } n = x.group n := rfl
@[simp] theorem Column.quarter_tinker (x : Column) (t : Tinker) (n : Nat) : Column.quarter { x with tinker := t } n = x.quarter n := rfl
@[simp] theorem Column.barrier_tinker (x : Column) (t : Tinker) (n : Nat) : Column.barrier { x with tinker := t } n = x.barrier n := rfl
@[simp] theorem State.col_factors (s : State) (t : Tab FactorCore) (c : Nat) : State.col { s with factors := t } c = s.col c := rfl

/-! ## A warp's slots -/

@[simp] theorem Warp.setSlot_live (w : Warp) (b : Bool) (p : Option Path) : (w.setSlot b p).live = w.live := by
  cases b <;> rfl
@[simp] theorem Warp.setSlot_entry (w : Warp) (b : Bool) (p : Option Path) : (w.setSlot b p).entry = w.entry := by
  cases b <;> rfl
@[simp] theorem Warp.setSlot_index (w : Warp) (b : Bool) (p : Option Path) : (w.setSlot b p).index = w.index := by
  cases b <;> rfl
@[simp] theorem Warp.setSlot_role (w : Warp) (b : Bool) (p : Option Path) : (w.setSlot b p).role = w.role := by
  cases b <;> rfl
@[simp] theorem Warp.setSlot_th (w : Warp) (b : Bool) (p : Option Path) : (w.setSlot b p).th = w.th := by
  cases b <;> rfl
@[simp] theorem Warp.setSlot_h (w : Warp) (b : Bool) (p : Option Path) : (w.setSlot b p).h = w.h := by
  cases b <;> rfl
@[simp] theorem Warp.setSlot_stack (w : Warp) (b : Bool) (p : Option Path) : (w.setSlot b p).stack = w.stack := by
  cases b <;> rfl
@[simp] theorem Warp.setSlot_exited (w : Warp) (b : Bool) (p : Option Path) : (w.setSlot b p).exited = w.exited := by
  cases b <;> rfl
@[simp] theorem Warp.setSlot_ejt (w : Warp) (b : Bool) (p : Option Path) : (w.setSlot b p).ejt = w.ejt := by
  cases b <;> rfl
@[simp] theorem Warp.setSlot_limit (w : Warp) (b : Bool) (p : Option Path) : (w.setSlot b p).limit = w.limit := by
  cases b <;> rfl
@[simp] theorem Warp.setSlot_rt (w : Warp) (b : Bool) (p : Option Path) : (w.setSlot b p).rt = w.rt := by
  cases b <;> rfl
@[simp] theorem Warp.setSlot_rejoin (w : Warp) (b : Bool) (p : Option Path) : (w.setSlot b p).rejoin = w.rejoin := by
  cases b <;> rfl
@[simp] theorem Warp.setSlot_timerFrom (w : Warp) (b : Bool) (p : Option Path) : (w.setSlot b p).timerFrom = w.timerFrom := by
  cases b <;> rfl
@[simp] theorem Warp.setSlot_tx (w : Warp) (b : Bool) (p : Option Path) : (w.setSlot b p).tx = w.tx := by
  cases b <;> rfl
@[simp] theorem Warp.setSlot_tstat (w : Warp) (b : Bool) (p : Option Path) : (w.setSlot b p).tstat = w.tstat := by
  cases b <;> rfl
@[simp] theorem Warp.setSlot_deferred (w : Warp) (b : Bool) (p : Option Path) : (w.setSlot b p).deferred = w.deferred := by
  cases b <;> rfl
@[simp] theorem Warp.setSlot_holds (w : Warp) (b : Bool) (p : Option Path) : (w.setSlot b p).holds = w.holds := by
  cases b <;> rfl
@[simp] theorem Warp.setSlot_xch (w : Warp) (b : Bool) (p : Option Path) : (w.setSlot b p).xch = w.xch := by
  cases b <;> rfl
@[simp] theorem Warp.setSlot_xcount (w : Warp) (b : Bool) (p : Option Path) : (w.setSlot b p).xcount = w.xcount := by
  cases b <;> rfl
@[simp] theorem Warp.setSlot_stop (w : Warp) (b : Bool) (p : Option Path) : (w.setSlot b p).stop = w.stop := by
  cases b <;> rfl
@[simp] theorem Warp.setSlot_lastIssue (w : Warp) (b : Bool) (p : Option Path) : (w.setSlot b p).lastIssue = w.lastIssue := by
  cases b <;> rfl
@[simp] theorem Warp.setSlot_lastB (w : Warp) (b : Bool) (p : Option Path) : (w.setSlot b p).lastB = w.lastB := by
  cases b <;> rfl
@[simp] theorem Warp.setSlot_check (w : Warp) (b : Bool) (p : Option Path) : (w.setSlot b p).check = w.check := by
  cases b <;> rfl
@[simp] theorem Warp.setSlot_idleA (w : Warp) (b : Bool) (p : Option Path) : (w.setSlot b p).idleA = w.idleA := by
  cases b <;> rfl
@[simp] theorem Warp.setSlot_idleB (w : Warp) (b : Bool) (p : Option Path) : (w.setSlot b p).idleB = w.idleB := by
  cases b <;> rfl
@[simp] theorem Warp.setSlot_limitNext (w : Warp) (b : Bool) (p : Option Path) : (w.setSlot b p).limitNext = w.limitNext := by
  cases b <;> rfl
@[simp] theorem Warp.setSlot_timer (w : Warp) (b : Bool) (p : Option Path) : (w.setSlot b p).timer = w.timer := by
  cases b <;> rfl
@[simp] theorem Warp.setSlot_lastJoin (w : Warp) (b : Bool) (p : Option Path) : (w.setSlot b p).lastJoin = w.lastJoin := by
  cases b <;> rfl
@[simp] theorem Warp.setSlot_ready (w : Warp) (b : Bool) (p : Option Path) : (w.setSlot b p).ready = w.ready := by
  cases b <;> rfl
@[simp] theorem Warp.setSlot_drain (w : Warp) (b : Bool) (p : Option Path) : (w.setSlot b p).drain = w.drain := by
  cases b <;> rfl
@[simp] theorem Warp.slotPath_setSlot (w : Warp) (b : Bool) (p : Path) : (w.setSlot b (some p)).slotPath b = p := by
  cases b <;> rfl
@[simp] theorem Warp.slotPath_setSlot_other (w : Warp) (b : Bool) (p : Option Path) : (w.setSlot b p).slotPath (!b) = w.slotPath (!b) := by
  cases b <;> rfl

end Sys2Proof.Machine
end

