-- ==== Sys2Proof/Laws/Commands.lean ====
section
/-! SUPPORT. Commands and futures: what replacing, dropping, faulting and cancelling a command can do, each said once. -/

namespace Sys2Proof.Machine

/-! ## Mapped tables -/

variable {α : Type}

theorem Tab.find_mapVals (f : Nat → α → α) (t : Tab α) (n : Nat) : Tab.find? (Tab.mapVals f t) n = (Tab.find? t n).map (f n) := by
  induction t with
  | nil => rfl
  | cons e t ih =>
    obtain ⟨k, y⟩ := e
    by_cases h : k = n
    · subst h; simp [Tab.mapVals, Tab.find?]
    · simpa [Tab.mapVals, Tab.find?, h] using ih

/-- An unlisted key reads as its default before and after. -/
theorem Tab.get_mapVals (d : α) (f : Nat → α → α) (t : Tab α) (n : Nat) :
    Tab.get d (Tab.mapVals f t) n = if (Tab.find? t n).isSome then f n (Tab.get d t n) else d := by
  simp only [Tab.get, Tab.find_mapVals]
  cases Tab.find? t n <;> rfl

/-! ## One command replaced -/

theorem Column.cmd_id {x : Column} {id : Nat} {k : Command} (h : x.cmd id = some k) : k.id = id := by
  simpa using List.find?_some h

/-- Any command after one is replaced. -/
theorem Column.cmd_setCmd (x : Column) (k : Command) (id : Nat) :
    (x.setCmd k).cmd id = if id = k.id then (x.cmd id).map (fun _ => k) else x.cmd id := by
  simp only [Column.cmd, Column.setCmd, List.find?_map]
  induction x.cmds with
  | nil => by_cases h : id = k.id <;> simp [h]
  | cons j l ih =>
    by_cases hj : j.id = k.id <;> by_cases h : id = k.id <;> by_cases hi : j.id = id <;>
      simp_all

@[simp] theorem Column.setCmd_warps (x : Column) (k : Command) : (x.setCmd k).warps = x.warps := rfl
@[simp] theorem Column.setCmd_groups (x : Column) (k : Command) : (x.setCmd k).groups = x.groups := rfl
@[simp] theorem Column.setCmd_barriers (x : Column) (k : Command) : (x.setCmd k).barriers = x.barriers := rfl
@[simp] theorem Column.setCmd_bay (x : Column) (k : Command) : (x.setCmd k).bay = x.bay := rfl
@[simp] theorem Column.setCmd_cribs (x : Column) (k : Command) : (x.setCmd k).cribs = x.cribs := rfl
@[simp] theorem Column.setCmd_mem (x : Column) (k : Command) : (x.setCmd k).mem = x.mem := rfl
@[simp] theorem Column.setCmd_counts (x : Column) (k : Command) : (x.setCmd k).counts = x.counts := rfl

/-! ## Futures -/

/-- A handle after the futures of a command are changed: one that does not stand in its warp's table is not touched. -/
theorem Column.handle_mapHandles (x : Column) (f : Handle → Handle) (n i : Nat) :
    Tab.get ({} : Handle) ((x.mapHandles f).warp n).h i =
      if (Tab.find? (x.warp n).h i).isSome then f (Tab.get ({} : Handle) (x.warp n).h i) else {} := by
  simp only [Column.mapHandles, Column.warp, Tab.get_mapVals]
  split
  · exact Tab.get_mapVals _ (fun _ h => f h) _ _
  · rename_i h
    have h : Tab.find? x.warps n = none := by simpa using h
    simp [Tab.get, h]

@[simp] theorem State.col_mapSaved (s : State) (f : Saved → Saved) (c : Nat) : (s.mapSaved f).col c = s.col c := rfl

/-- The column of a future that is changed. -/
theorem State.col_setFuture (s : State) (c id : Nat) (f : Handle → Handle) :
    (s.setFuture c id f).col c = (s.col c).mapHandles fun h => if h.cmd = id then f h else h := by
  simp [State.setFuture]

/-- The futures of a command become what the function makes of them; nothing else of the column's commands, claims, shares or bytes
changes. -/
theorem State.setFuture_spec (s : State) (c id : Nat) (f : Handle → Handle) :
    s.futuresBecome (s.setFuture c id f) c id f ∧ ((s.setFuture c id f).col c).cmds = (s.col c).cmds ∧
      ((s.setFuture c id f).col c).bay = (s.col c).bay ∧ ((s.setFuture c id f).col c).cribs = (s.col c).cribs ∧
      ((s.setFuture c id f).col c).mem = (s.col c).mem := by
  rw [State.col_setFuture]
  refine ⟨?_, rfl, rfl, rfl, rfl⟩
  intro n i h hp hc
  rw [State.col_setFuture, Column.handle_mapHandles]
  have hs : (Tab.find? ((s.col c).warp n).h i).isSome := by
    cases hx : Tab.find? ((s.col c).warp n).h i with
    | some _ => rfl
    | none =>
      have : h = {} := by simp only [h, Tab.get, hx]; rfl
      rw [this] at hp; cases hp
  rw [if_pos hs, if_pos hc]

/-- A command dropped leaves its queue and its claims, and its futures become what the function makes of them. -/
theorem State.dropCommand_spec (s : State) (c id : Nat) (f : Handle → Handle) :
    ((s.dropCommand c id f).col c).cmd id = none ∧ (∀ cl ∈ ((s.dropCommand c id f).col c).bay.claims, cl.cmd ≠ id) := by
  have hx := State.setFuture_spec ((s.dropClaims id).updCol c fun x =>
    (({ x with cmds := x.cmds.filter fun k => decide (k.id ≠ id) }).unbindQueues).dropClaimHold id) c id f
  obtain ⟨-, h1, h2, -, -⟩ := hx
  refine ⟨?_, ?_⟩
  · simp only [State.dropCommand, Column.cmd, h1]
    simp [Column.dropClaimHold, Column.unbindQueues]
  · intro cl hcl
    simp only [State.dropCommand, h2] at hcl
    simp only [Column.dropClaimHold, Column.unbindQueues, State.col_updCol, if_true] at hcl
    simp only [State.dropClaims, State.col, Tab.get_mapVals] at hcl
    split at hcl
    · simp [Column.updBay] at hcl; exact hcl.2
    · cases hcl

end Sys2Proof.Machine
end

