-- ==== Sys2Proof/Laws/Exec.lean ====
section
/-! SUPPORT. The dispatch, constructor by constructor: exec at an instruction is that instruction's meaning. -/

namespace Sys2Proof.Machine

@[simp] theorem exec_brk (t) (s : State) : exec (.brk t) s = execBrk t s := rfl
@[simp] theorem exec_sli (d im) (s : State) : exec (.sli d im) s = execSli d im s := rfl
@[simp] theorem exec_slis (d im) (s : State) : exec (.slis d im) s = execSlis d im s := rfl
@[simp] theorem exec_sadd (d a b) (s : State) : exec (.sadd d a b) s = execSadd d a b s := rfl
@[simp] theorem exec_ssub (d a b) (s : State) : exec (.ssub d a b) s = execSsub d a b s := rfl
@[simp] theorem exec_smul (d a b) (s : State) : exec (.smul d a b) s = execSmul d a b s := rfl
@[simp] theorem exec_smulh (d a b) (s : State) : exec (.smulh d a b) s = execSmulh d a b s := rfl
@[simp] theorem exec_sand (d a b) (s : State) : exec (.sand d a b) s = execSand d a b s := rfl
@[simp] theorem exec_sor (d a b) (s : State) : exec (.sor d a b) s = execSor d a b s := rfl
@[simp] theorem exec_sxor (d a b) (s : State) : exec (.sxor d a b) s = execSxor d a b s := rfl
@[simp] theorem exec_sandn (d a b) (s : State) : exec (.sandn d a b) s = execSandn d a b s := rfl
@[simp] theorem exec_sshl (d a b) (s : State) : exec (.sshl d a b) s = execSshl d a b s := rfl
@[simp] theorem exec_sshr (d a b) (s : State) : exec (.sshr d a b) s = execSshr d a b s := rfl
@[simp] theorem exec_ssar (d a b) (s : State) : exec (.ssar d a b) s = execSsar d a b s := rfl
@[simp] theorem exec_srol (d a b) (s : State) : exec (.srol d a b) s = execSrol d a b s := rfl
@[simp] theorem exec_smin (d a b) (s : State) : exec (.smin d a b) s = execSmin d a b s := rfl
@[simp] theorem exec_smax (d a b) (s : State) : exec (.smax d a b) s = execSmax d a b s := rfl
@[simp] theorem exec_sminu (d a b) (s : State) : exec (.sminu d a b) s = execSminu d a b s := rfl
@[simp] theorem exec_smaxu (d a b) (s : State) : exec (.smaxu d a b) s = execSmaxu d a b s := rfl
@[simp] theorem exec_saddi (d a im) (s : State) : exec (.saddi d a im) s = execSaddi d a im s := rfl
@[simp] theorem exec_scmp (g d a b) (s : State) : exec (.scmp g d a b) s = execScmp g d a b s := rfl
@[simp] theorem exec_scmpU (g d a b) (s : State) : exec (.scmpU g d a b) s = execScmpU g d a b s := rfl
@[simp] theorem exec_scmpi (g d a im) (s : State) : exec (.scmpi g d a im) s = execScmpi g d a im s := rfl
@[simp] theorem exec_smov (d a) (s : State) : exec (.smov d a) s = execSmov d a s := rfl
@[simp] theorem exec_scsel (d a b) (s : State) : exec (.scsel d a b) s = execScsel d a b s := rfl
@[simp] theorem exec_spopc (d a) (s : State) : exec (.spopc d a) s = execSpopc d a s := rfl
@[simp] theorem exec_sclz (d a) (s : State) : exec (.sclz d a) s = execSclz d a s := rfl
@[simp] theorem exec_cand (d a b) (s : State) : exec (.cand d a b) s = execCand d a b s := rfl
@[simp] theorem exec_cor (d a b) (s : State) : exec (.cor d a b) s = execCor d a b s := rfl
@[simp] theorem exec_cxor (d a b) (s : State) : exec (.cxor d a b) s = execCxor d a b s := rfl
@[simp] theorem exec_candn (d a b) (s : State) : exec (.candn d a b) s = execCandn d a b s := rfl
@[simp] theorem exec_sread (d b) (s : State) : exec (.sread d b) s = execSread d b s := rfl
@[simp] theorem exec_swrite (a b) (s : State) : exec (.swrite a b) s = execSwrite a b s := rfl
@[simp] theorem exec_sld (d a im) (s : State) : exec (.sld d a im) s = execSld d a im s := rfl
@[simp] theorem exec_sst (d a im) (s : State) : exec (.sst d a im) s = execSst d a im s := rfl
@[simp] theorem exec_iadd (d a b) (s : State) : exec (.iadd d a b) s = execIadd d a b s := rfl
@[simp] theorem exec_isub (d a b) (s : State) : exec (.isub d a b) s = execIsub d a b s := rfl
@[simp] theorem exec_imin (d a b) (s : State) : exec (.imin d a b) s = execImin d a b s := rfl
@[simp] theorem exec_imax (d a b) (s : State) : exec (.imax d a b) s = execImax d a b s := rfl
@[simp] theorem exec_iabs (d a) (s : State) : exec (.iabs d a) s = execIabs d a s := rfl
@[simp] theorem exec_ineg (d a) (s : State) : exec (.ineg d a) s = execIneg d a s := rfl
@[simp] theorem exec_imul (d a b) (s : State) : exec (.imul d a b) s = execImul d a b s := rfl
@[simp] theorem exec_imulh (d a b) (s : State) : exec (.imulh d a b) s = execImulh d a b s := rfl
@[simp] theorem exec_imulhu (d a b) (s : State) : exec (.imulhu d a b) s = execImulhu d a b s := rfl
@[simp] theorem exec_imad (d a b) (s : State) : exec (.imad d a b) s = execImad d a b s := rfl
@[simp] theorem exec_and (d a b) (s : State) : exec (.and d a b) s = execAnd d a b s := rfl
@[simp] theorem exec_or (d a b) (s : State) : exec (.or d a b) s = execOr d a b s := rfl
@[simp] theorem exec_xor (d a b) (s : State) : exec (.xor d a b) s = execXor d a b s := rfl
@[simp] theorem exec_andn (d a b) (s : State) : exec (.andn d a b) s = execAndn d a b s := rfl
@[simp] theorem exec_shl (d a b) (s : State) : exec (.shl d a b) s = execShl d a b s := rfl
@[simp] theorem exec_shr (d a b) (s : State) : exec (.shr d a b) s = execShr d a b s := rfl
@[simp] theorem exec_sar (d a b) (s : State) : exec (.sar d a b) s = execSar d a b s := rfl
@[simp] theorem exec_rol (d a b) (s : State) : exec (.rol d a b) s = execRol d a b s := rfl
@[simp] theorem exec_popc (d a) (s : State) : exec (.popc d a) s = execPopc d a s := rfl
@[simp] theorem exec_clz (d a) (s : State) : exec (.clz d a) s = execClz d a s := rfl
@[simp] theorem exec_brev (d a) (s : State) : exec (.brev d a) s = execBrev d a s := rfl
@[simp] theorem exec_prmt (d a b) (s : State) : exec (.prmt d a b) s = execPrmt d a b s := rfl
@[simp] theorem exec_bfe (d a b) (s : State) : exec (.bfe d a b) s = execBfe d a b s := rfl
@[simp] theorem exec_bfeu (d a b) (s : State) : exec (.bfeu d a b) s = execBfeu d a b s := rfl
@[simp] theorem exec_bfi (d a b) (s : State) : exec (.bfi d a b) s = execBfi d a b s := rfl
@[simp] theorem exec_idot4 (d a b) (s : State) : exec (.idot4 d a b) s = execIdot4 d a b s := rfl
@[simp] theorem exec_iaddi (d a im) (s : State) : exec (.iaddi d a im) s = execIaddi d a im s := rfl
@[simp] theorem exec_andi (d a im) (s : State) : exec (.andi d a im) s = execAndi d a im s := rfl
@[simp] theorem exec_ori (d a im) (s : State) : exec (.ori d a im) s = execOri d a im s := rfl
@[simp] theorem exec_xori (d a im) (s : State) : exec (.xori d a im) s = execXori d a im s := rfl
@[simp] theorem exec_shli (d a n) (s : State) : exec (.shli d a n) s = execShli d a n s := rfl
@[simp] theorem exec_shri (d a n) (s : State) : exec (.shri d a n) s = execShri d a n s := rfl
@[simp] theorem exec_sari (d a n) (s : State) : exec (.sari d a n) s = execSari d a n s := rfl
@[simp] theorem exec_roli (d a n) (s : State) : exec (.roli d a n) s = execRoli d a n s := rfl
@[simp] theorem exec_icmp (g d a b) (s : State) : exec (.icmp g d a b) s = execIcmp g d a b s := rfl
@[simp] theorem exec_icmpU (g d a b) (s : State) : exec (.icmpU g d a b) s = execIcmpU g d a b s := rfl
@[simp] theorem exec_icmpi (g d a im) (s : State) : exec (.icmpi g d a im) s = execIcmpi g d a im s := rfl
@[simp] theorem exec_sel (d a b) (s : State) : exec (.sel d a b) s = execSel d a b s := rfl
@[simp] theorem exec_vmov (d a) (s : State) : exec (.vmov d a) s = execVmov d a s := rfl
@[simp] theorem exec_vbc (d a) (s : State) : exec (.vbc d a) s = execVbc d a s := rfl
@[simp] theorem exec_vgetl (d) (s : State) : exec (.vgetl d) s = execVgetl d s := rfl
@[simp] theorem exec_vli (d im) (s : State) : exec (.vli d im) s = execVli d im s := rfl
@[simp] theorem exec_vsetl (d a b) (s : State) : exec (.vsetl d a b) s = execVsetl d a b s := rfl
@[simp] theorem exec_vlis (d im) (s : State) : exec (.vlis d im) s = execVlis d im s := rfl
@[simp] theorem exec_iaddc (d a b) (s : State) : exec (.iaddc d a b) s = execIaddc d a b s := rfl
@[simp] theorem exec_isubb (d a b) (s : State) : exec (.isubb d a b) s = execIsubb d a b s := rfl
@[simp] theorem exec_fadd (d a b) (s : State) : exec (.fadd d a b) s = execFadd d a b s := rfl
@[simp] theorem exec_fsub (d a b) (s : State) : exec (.fsub d a b) s = execFsub d a b s := rfl
@[simp] theorem exec_fmul (d a b) (s : State) : exec (.fmul d a b) s = execFmul d a b s := rfl
@[simp] theorem exec_ffma (d a b) (s : State) : exec (.ffma d a b) s = execFfma d a b s := rfl
@[simp] theorem exec_fmin (d a b) (s : State) : exec (.fmin d a b) s = execFmin d a b s := rfl
@[simp] theorem exec_fmax (d a b) (s : State) : exec (.fmax d a b) s = execFmax d a b s := rfl
@[simp] theorem exec_fabs (d a) (s : State) : exec (.fabs d a) s = execFabs d a s := rfl
@[simp] theorem exec_fneg (d a) (s : State) : exec (.fneg d a) s = execFneg d a s := rfl
@[simp] theorem exec_fcmp (g d a b) (s : State) : exec (.fcmp g d a b) s = execFcmp g d a b s := rfl
@[simp] theorem exec_fcmpU (g d a b) (s : State) : exec (.fcmpU g d a b) s = execFcmpU g d a b s := rfl
@[simp] theorem exec_frnd (d a) (s : State) : exec (.frnd d a) s = execFrnd d a s := rfl
@[simp] theorem exec_fscale (d a b) (s : State) : exec (.fscale d a b) s = execFscale d a b s := rfl
@[simp] theorem exec_fgetexp (d a) (s : State) : exec (.fgetexp d a) s = execFgetexp d a s := rfl
@[simp] theorem exec_fclass (d a) (s : State) : exec (.fclass d a) s = execFclass d a s := rfl
@[simp] theorem exec_bfma2 (d a b) (s : State) : exec (.bfma2 d a b) s = execBfma2 d a b s := rfl
@[simp] theorem exec_frcp (d a) (s : State) : exec (.frcp d a) s = execFrcp d a s := rfl
@[simp] theorem exec_frsq (d a) (s : State) : exec (.frsq d a) s = execFrsq d a s := rfl
@[simp] theorem exec_fsqrt (d a) (s : State) : exec (.fsqrt d a) s = execFsqrt d a s := rfl
@[simp] theorem exec_ftanh (d a) (s : State) : exec (.ftanh d a) s = execFtanh d a s := rfl
@[simp] theorem exec_fexp2 (d a) (s : State) : exec (.fexp2 d a) s = execFexp2 d a s := rfl
@[simp] theorem exec_flog2 (d a) (s : State) : exec (.flog2 d a) s = execFlog2 d a s := rfl
@[simp] theorem exec_fsin (d a) (s : State) : exec (.fsin d a) s = execFsin d a s := rfl
@[simp] theorem exec_fcos (d a) (s : State) : exec (.fcos d a) s = execFcos d a s := rfl
@[simp] theorem exec_cvtF2i (d a) (s : State) : exec (.cvtF2i d a) s = execCvtF2i d a s := rfl
@[simp] theorem exec_cvtF2u (d a) (s : State) : exec (.cvtF2u d a) s = execCvtF2u d a s := rfl
@[simp] theorem exec_cvtI2f (d a) (s : State) : exec (.cvtI2f d a) s = execCvtI2f d a s := rfl
@[simp] theorem exec_cvtU2f (d a) (s : State) : exec (.cvtU2f d a) s = execCvtU2f d a s := rfl
@[simp] theorem exec_cvtF2b (d a b) (s : State) : exec (.cvtF2b d a b) s = execCvtF2b d a b s := rfl
@[simp] theorem exec_cvtF2h (d a b) (s : State) : exec (.cvtF2h d a b) s = execCvtF2h d a b s := rfl
@[simp] theorem exec_cvtB2f (d a b) (s : State) : exec (.cvtB2f d a b) s = execCvtB2f d a b s := rfl
@[simp] theorem exec_cvtH2f (d a b) (s : State) : exec (.cvtH2f d a b) s = execCvtH2f d a b s := rfl
@[simp] theorem exec_packE4m3 (d a b) (s : State) : exec (.packE4m3 d a b) s = execPackE4m3 d a b s := rfl
@[simp] theorem exec_packE5m2 (d a b) (s : State) : exec (.packE5m2 d a b) s = execPackE5m2 d a b s := rfl
@[simp] theorem exec_unpkE4m3 (d a b) (s : State) : exec (.unpkE4m3 d a b) s = execUnpkE4m3 d a b s := rfl
@[simp] theorem exec_unpkE5m2 (d a b) (s : State) : exec (.unpkE5m2 d a b) s = execUnpkE5m2 d a b s := rfl
@[simp] theorem exec_packTs8 (d a b) (s : State) : exec (.packTs8 d a b) s = execPackTs8 d a b s := rfl
@[simp] theorem exec_unpkTs8 (d a b) (s : State) : exec (.unpkTs8 d a b) s = execUnpkTs8 d a b s := rfl
@[simp] theorem exec_mxscale (d a b) (s : State) : exec (.mxscale d a b) s = execMxscale d a b s := rfl
@[simp] theorem exec_mxapply (d a b) (s : State) : exec (.mxapply d a b) s = execMxapply d a b s := rfl
@[simp] theorem exec_lpick (d a b) (s : State) : exec (.lpick d a b) s = execLpick d a b s := rfl
@[simp] theorem exec_lrot (d a b) (s : State) : exec (.lrot d a b) s = execLrot d a b s := rfl
@[simp] theorem exec_lxor (d a b) (s : State) : exec (.lxor d a b) s = execLxor d a b s := rfl
@[simp] theorem exec_lspan (d a b) (s : State) : exec (.lspan d a b) s = execLspan d a b s := rfl
@[simp] theorem exec_ksome (d a) (s : State) : exec (.ksome d a) s = execKsome d a s := rfl
@[simp] theorem exec_kevery (d a) (s : State) : exec (.kevery d a) s = execKevery d a s := rfl
@[simp] theorem exec_kone (d a) (s : State) : exec (.kone d a) s = execKone d a s := rfl
@[simp] theorem exec_ksame (d a) (s : State) : exec (.ksame d a) s = execKsame d a s := rfl
@[simp] theorem exec_lpeers (d a) (s : State) : exec (.lpeers d a) s = execLpeers d a s := rfl
@[simp] theorem exec_lfirst (d a) (s : State) : exec (.lfirst d a) s = execLfirst d a s := rfl
@[simp] theorem exec_kpopc (d a) (s : State) : exec (.kpopc d a) s = execKpopc d a s := rfl
@[simp] theorem exec_kffs (d a) (s : State) : exec (.kffs d a) s = execKffs d a s := rfl
@[simp] theorem exec_fold (d a b) (s : State) : exec (.fold d a b) s = execFold d a b s := rfl
@[simp] theorem exec_foldBc (d a b) (s : State) : exec (.foldBc d a b) s = execFoldBc d a b s := rfl
@[simp] theorem exec_scanInc (d a b) (s : State) : exec (.scanInc d a b) s = execScanInc d a b s := rfl
@[simp] theorem exec_scanExc (d a b) (s : State) : exec (.scanExc d a b) s = execScanExc d a b s := rfl
@[simp] theorem exec_segred (d a k p) (s : State) : exec (.segred d a k p) s = execSegred d a k p s := rfl
@[simp] theorem exec_segscan (d a k p) (s : State) : exec (.segscan d a k p) s = execSegscan d a k p s := rfl
@[simp] theorem exec_kand (d a b) (s : State) : exec (.kand d a b) s = execKand d a b s := rfl
@[simp] theorem exec_kor (d a b) (s : State) : exec (.kor d a b) s = execKor d a b s := rfl
@[simp] theorem exec_kxor (d a b) (s : State) : exec (.kxor d a b) s = execKxor d a b s := rfl
@[simp] theorem exec_kandn (d a b) (s : State) : exec (.kandn d a b) s = execKandn d a b s := rfl
@[simp] theorem exec_kld (d a) (s : State) : exec (.kld d a) s = execKld d a s := rfl
@[simp] theorem exec_kst (d a) (s : State) : exec (.kst d a) s = execKst d a s := rfl
@[simp] theorem exec_knot (d a) (s : State) : exec (.knot d a) s = execKnot d a s := rfl
@[simp] theorem exec_kact (d a) (s : State) : exec (.kact d a) s = execKact d a s := rfl
@[simp] theorem exec_br (k o) (s : State) : exec (.br k o) s = execBr k o s := rfl
@[simp] theorem exec_brF (k o) (s : State) : exec (.brF k o) s = execBrF k o s := rfl
@[simp] theorem exec_jmp (o) (s : State) : exec (.jmp o) s = execJmp o s := rfl
@[simp] theorem exec_call (o) (s : State) : exec (.call o) s = execCall o s := rfl
@[simp] theorem exec_jmpi (a) (s : State) : exec (.jmpi a) s = execJmpi a s := rfl
@[simp] theorem exec_calli (a) (s : State) : exec (.calli a) s = execCalli a s := rfl
@[simp] theorem exec_split (k t j) (s : State) : exec (.split k t j) s = execSplit k t j s := rfl
@[simp] theorem exec_brt (a n) (s : State) : exec (.brt a n) s = execBrt a n s := rfl
@[simp] theorem exec_waitL (a) (s : State) : exec (.waitL a) s = execWaitL a s := rfl
@[simp] theorem exec_waitM (a) (s : State) : exec (.waitM a) s = execWaitM a s := rfl
@[simp] theorem exec_sleep (a) (s : State) : exec (.sleep a) s = execSleep a s := rfl
@[simp] theorem exec_ld (d a b z) (s : State) : exec (.ld d a b z) s = execLd d a b z s := rfl
@[simp] theorem exec_ldsB (d a b) (s : State) : exec (.ldsB d a b) s = execLdsB d a b s := rfl
@[simp] theorem exec_ldsH (d a b) (s : State) : exec (.ldsH d a b) s = execLdsH d a b s := rfl
@[simp] theorem exec_ldQ (d a b) (s : State) : exec (.ldQ d a b) s = execLdQ d a b s := rfl
@[simp] theorem exec_pf (a b) (s : State) : exec (.pf a b) s = execPf a b s := rfl
@[simp] theorem exec_st (d a b z) (s : State) : exec (.st d a b z) s = execSt d a b z s := rfl
@[simp] theorem exec_stQ (d a b) (s : State) : exec (.stQ d a b) s = execStQ d a b s := rfl
@[simp] theorem exec_ldl (d a b z) (s : State) : exec (.ldl d a b z) s = execLdl d a b z s := rfl
@[simp] theorem exec_stl (d a b z) (s : State) : exec (.stl d a b z) s = execStl d a b z s := rfl
@[simp] theorem exec_ldAcqW (d a b) (s : State) : exec (.ldAcqW d a b) s = execLdAcqW d a b s := rfl
@[simp] theorem exec_ldAcqD (d a b) (s : State) : exec (.ldAcqD d a b) s = execLdAcqD d a b s := rfl
@[simp] theorem exec_stRelW (d a b) (s : State) : exec (.stRelW d a b) s = execStRelW d a b s := rfl
@[simp] theorem exec_stRelD (d a b) (s : State) : exec (.stRelD d a b) s = execStRelD d a b s := rfl
@[simp] theorem exec_atomAdd (d a b) (s : State) : exec (.atomAdd d a b) s = execAtomAdd d a b s := rfl
@[simp] theorem exec_atomMin (d a b) (s : State) : exec (.atomMin d a b) s = execAtomMin d a b s := rfl
@[simp] theorem exec_atomMax (d a b) (s : State) : exec (.atomMax d a b) s = execAtomMax d a b s := rfl
@[simp] theorem exec_atomAnd (d a b) (s : State) : exec (.atomAnd d a b) s = execAtomAnd d a b s := rfl
@[simp] theorem exec_atomOr (d a b) (s : State) : exec (.atomOr d a b) s = execAtomOr d a b s := rfl
@[simp] theorem exec_atomXor (d a b) (s : State) : exec (.atomXor d a b) s = execAtomXor d a b s := rfl
@[simp] theorem exec_atomXchg (d a b) (s : State) : exec (.atomXchg d a b) s = execAtomXchg d a b s := rfl
@[simp] theorem exec_atomCas (d a b) (s : State) : exec (.atomCas d a b) s = execAtomCas d a b s := rfl
@[simp] theorem exec_atomMinu (d a b) (s : State) : exec (.atomMinu d a b) s = execAtomMinu d a b s := rfl
@[simp] theorem exec_atomMaxu (d a b) (s : State) : exec (.atomMaxu d a b) s = execAtomMaxu d a b s := rfl
@[simp] theorem exec_atomInc (d a b) (s : State) : exec (.atomInc d a b) s = execAtomInc d a b s := rfl
@[simp] theorem exec_atomDec (d a b) (s : State) : exec (.atomDec d a b) s = execAtomDec d a b s := rfl
@[simp] theorem exec_atomFadd (d a b) (s : State) : exec (.atomFadd d a b) s = execAtomFadd d a b s := rfl
@[simp] theorem exec_atomFmin (d a b) (s : State) : exec (.atomFmin d a b) s = execAtomFmin d a b s := rfl
@[simp] theorem exec_atomFmax (d a b) (s : State) : exec (.atomFmax d a b) s = execAtomFmax d a b s := rfl
@[simp] theorem exec_atomAdd64 (d a b) (s : State) : exec (.atomAdd64 d a b) s = execAtomAdd64 d a b s := rfl
@[simp] theorem exec_atomlAdd (d a b) (s : State) : exec (.atomlAdd d a b) s = execAtomlAdd d a b s := rfl
@[simp] theorem exec_atomlMin (d a b) (s : State) : exec (.atomlMin d a b) s = execAtomlMin d a b s := rfl
@[simp] theorem exec_atomlMax (d a b) (s : State) : exec (.atomlMax d a b) s = execAtomlMax d a b s := rfl
@[simp] theorem exec_atomlCas (d a b) (s : State) : exec (.atomlCas d a b) s = execAtomlCas d a b s := rfl
@[simp] theorem exec_redAdd (d a b) (s : State) : exec (.redAdd d a b) s = execRedAdd d a b s := rfl
@[simp] theorem exec_redMin (d a b) (s : State) : exec (.redMin d a b) s = execRedMin d a b s := rfl
@[simp] theorem exec_redMax (d a b) (s : State) : exec (.redMax d a b) s = execRedMax d a b s := rfl
@[simp] theorem exec_redFadd (d a b) (s : State) : exec (.redFadd d a b) s = execRedFadd d a b s := rfl
@[simp] theorem exec_redBayAdd (d a b) (s : State) : exec (.redBayAdd d a b) s = execRedBayAdd d a b s := rfl
@[simp] theorem exec_redBayMin (d a b) (s : State) : exec (.redBayMin d a b) s = execRedBayMin d a b s := rfl
@[simp] theorem exec_redBayMax (d a b) (s : State) : exec (.redBayMax d a b) s = execRedBayMax d a b s := rfl
@[simp] theorem exec_redBayFadd (d a b) (s : State) : exec (.redBayFadd d a b) s = execRedBayFadd d a b s := rfl
@[simp] theorem exec_cclean (a b) (s : State) : exec (.cclean a b) s = execCclean a b s := rfl
@[simp] theorem exec_cinv (a b) (s : State) : exec (.cinv a b) s = execCinv a b s := rfl
@[simp] theorem exec_tbegin (d) (s : State) : exec (.tbegin d) s = execTbegin d s := rfl
@[simp] theorem exec_tabort (a) (s : State) : exec (.tabort a) s = execTabort a s := rfl
@[simp] theorem exec_tstat (d) (s : State) : exec (.tstat d) s = execTstat d s := rfl
@[simp] theorem exec_xchXor (d a b) (s : State) : exec (.xchXor d a b) s = execXchXor d a b s := rfl
@[simp] theorem exec_xchRot (d a b) (s : State) : exec (.xchRot d a b) s = execXchRot d a b s := rfl
@[simp] theorem exec_xchBc (d a b) (s : State) : exec (.xchBc d a b) s = execXchBc d a b s := rfl
@[simp] theorem exec_xchGath (a b) (s : State) : exec (.xchGath a b) s = execXchGath a b s := rfl
@[simp] theorem exec_xred (d a b) (s : State) : exec (.xred d a b) s = execXred d a b s := rfl
@[simp] theorem exec_bnew (d a b) (s : State) : exec (.bnew d a b) s = execBnew d a b s := rfl
@[simp] theorem exec_bfree (a) (s : State) : exec (.bfree a) s = execBfree a s := rfl
@[simp] theorem exec_bexp (a b) (s : State) : exec (.bexp a b) s = execBexp a b s := rfl
@[simp] theorem exec_barr (d a) (s : State) : exec (.barr d a) s = execBarr d a s := rfl
@[simp] theorem exec_bwait (a) (s : State) : exec (.bwait a) s = execBwait a s := rfl
@[simp] theorem exec_bwaitg (a b) (s : State) : exec (.bwaitg a b) s = execBwaitg a b s := rfl
@[simp] theorem exec_btest (d a) (s : State) : exec (.btest d a) s = execBtest d a s := rfl
@[simp] theorem exec_hwait (a) (s : State) : exec (.hwait a) s = execHwait a s := rfl
@[simp] theorem exec_htest (d a) (s : State) : exec (.htest d a) s = execHtest d a s := rfl
@[simp] theorem exec_hcancel (a) (s : State) : exec (.hcancel a) s = execHcancel a s := rfl
@[simp] theorem exec_hget (d a) (s : State) : exec (.hget d a) s = execHget d a s := rfl
@[simp] theorem exec_hput (d a) (s : State) : exec (.hput d a) s = execHput d a s := rfl
@[simp] theorem exec_copy (a b h q) (s : State) : exec (.copy a b h q) s = execCopy a b h q s := rfl
@[simp] theorem exec_gath (a b h) (s : State) : exec (.gath a b h) s = execGath a b h s := rfl
@[simp] theorem exec_scat (a b h) (s : State) : exec (.scat a b h) s = execScat a b h s := rfl
@[simp] theorem exec_copyRst (a b h) (s : State) : exec (.copyRst a b h) s = execCopyRst a b h s := rfl
@[simp] theorem exec_mldw (a b h) (s : State) : exec (.mldw a b h) s = execMldw a b h s := rfl
@[simp] theorem exec_mswap (h) (s : State) : exec (.mswap h) s = execMswap h s := rfl
@[simp] theorem exec_mzero (m h) (s : State) : exec (.mzero m h) s = execMzero m h s := rfl
@[simp] theorem exec_mloop (a b h m) (s : State) : exec (.mloop a b h m) s = execMloop a b h m s := rfl
@[simp] theorem exec_mrd (a b m) (s : State) : exec (.mrd a b m) s = execMrd a b m s := rfl
@[simp] theorem exec_mstr (a m h) (s : State) : exec (.mstr a m h) s = execMstr a m h s := rfl
@[simp] theorem exec_cres (a b c) (s : State) : exec (.cres a b c) s = execCres a b c s := rfl
@[simp] theorem exec_crel (a) (s : State) : exec (.crel a) s = execCrel a s := rfl
@[simp] theorem exec_cstat (a b) (s : State) : exec (.cstat a b) s = execCstat a b s := rfl
@[simp] theorem exec_trap (im) (s : State) : exec (.trap im) s = execTrap im s := rfl
@[simp] theorem exec_eret (a) (s : State) : exec (.eret a) s = execEret a s := rfl
@[simp] theorem exec_tlbi (a b) (s : State) : exec (.tlbi a b) s = execTlbi a b s := rfl
@[simp] theorem exec_winr (d a) (s : State) : exec (.winr d a) s = execWinr d a s := rfl
@[simp] theorem exec_winw (a b) (s : State) : exec (.winw a b) s = execWinw a b s := rfl
@[simp] theorem exec_clkr (d) (s : State) : exec (.clkr d) s = execClkr d s := rfl
@[simp] theorem exec_perf (d b) (s : State) : exec (.perf d b) s = execPerf d b s := rfl
@[simp] theorem exec_ejctl (d a) (s : State) : exec (.ejctl d a) s = execEjctl d a s := rfl
@[simp] theorem exec_signal (a) (s : State) : exec (.signal a) s = execSignal a s := rfl
@[simp] theorem exec_launch (a b h) (s : State) : exec (.launch a b h) s = execLaunch a b h s := rfl
@[simp] theorem exec_pfx (k z r x p e u y t) (s : State) : exec (.pfx k z r x p e u y t) s = execPfx k z r x p e u y t s := rfl
@[simp] theorem exec_iminu (d a b) (s : State) : exec (.iminu d a b) s = execIminu d a b s := rfl
@[simp] theorem exec_imaxu (d a b) (s : State) : exec (.imaxu d a b) s = execImaxu d a b s := rfl
@[simp] theorem exec_badd2 (d a b) (s : State) : exec (.badd2 d a b) s = execBadd2 d a b s := rfl
@[simp] theorem exec_bsub2 (d a b) (s : State) : exec (.bsub2 d a b) s = execBsub2 d a b s := rfl
@[simp] theorem exec_bmul2 (d a b) (s : State) : exec (.bmul2 d a b) s = execBmul2 d a b s := rfl
@[simp] theorem exec_hadd2 (d a b) (s : State) : exec (.hadd2 d a b) s = execHadd2 d a b s := rfl
@[simp] theorem exec_hsub2 (d a b) (s : State) : exec (.hsub2 d a b) s = execHsub2 d a b s := rfl
@[simp] theorem exec_hmul2 (d a b) (s : State) : exec (.hmul2 d a b) s = execHmul2 d a b s := rfl
@[simp] theorem exec_hfma2 (d a b) (s : State) : exec (.hfma2 d a b) s = execHfma2 d a b s := rfl
@[simp] theorem exec_bmin2 (d a b) (s : State) : exec (.bmin2 d a b) s = execBmin2 d a b s := rfl
@[simp] theorem exec_bmax2 (d a b) (s : State) : exec (.bmax2 d a b) s = execBmax2 d a b s := rfl
@[simp] theorem exec_hmin2 (d a b) (s : State) : exec (.hmin2 d a b) s = execHmin2 d a b s := rfl
@[simp] theorem exec_hmax2 (d a b) (s : State) : exec (.hmax2 d a b) s = execHmax2 d a b s := rfl
@[simp] theorem exec_nop (s : State) : exec .nop s = execNop s := rfl
@[simp] theorem exec_yield (s : State) : exec .yield s = execYield s := rfl
@[simp] theorem exec_exit (s : State) : exec .exit s = execExit s := rfl
@[simp] theorem exec_ret (s : State) : exec .ret s = execRet s := rfl
@[simp] theorem exec_join (s : State) : exec .join s = execJoin s := rfl
@[simp] theorem exec_fence (s : State) : exec .fence s = execFence s := rfl
@[simp] theorem exec_tend (s : State) : exec .tend s = execTend s := rfl
@[simp] theorem exec_xbar (s : State) : exec .xbar s = execXbar s := rfl
@[simp] theorem exec_tokwait (s : State) : exec .tokwait s = execTokwait s := rfl
@[simp] theorem exec_tokpass (s : State) : exec .tokpass s = execTokpass s := rfl
@[simp] theorem exec_runArbitration (col q) (s : State) : exec (.runArbitration col q) s = execRunArbitration col q s := rfl
@[simp] theorem exec_variableLatencyLand (col agent id) (s : State) : exec (.variableLatencyLand col agent id) s = execVariableLatencyLand col agent id s := rfl
@[simp] theorem exec_nackRetry (col rid) (s : State) : exec (.nackRetry col rid) s = execNackRetry col rid s := rfl
@[simp] theorem exec_sleepExpire (col agent slotB) (s : State) : exec (.sleepExpire col agent slotB) s = execSleepExpire col agent slotB s := rfl
@[simp] theorem exec_rejoinTimeout (col slot) (s : State) : exec (.rejoinTimeout col slot) s = execRejoinTimeout col slot s := rfl
@[simp] theorem exec_laneContextStart (col ctx) (s : State) : exec (.laneContextStart col ctx) s = execLaneContextStart col ctx s := rfl
@[simp] theorem exec_laneReturn (col ctx) (s : State) : exec (.laneReturn col ctx) s = execLaneReturn col ctx s := rfl
@[simp] theorem exec_taskRecordCheck (s : State) : exec .taskRecordCheck s = execTaskRecordCheck s := rfl
@[simp] theorem exec_launchRingEntry (fn) (s : State) : exec (.launchRingEntry fn) s = execLaunchRingEntry fn s := rfl
@[simp] theorem exec_launchComplete (node) (s : State) : exec (.launchComplete node) s = execLaunchComplete node s := rfl
@[simp] theorem exec_makeResident (col) (s : State) : exec (.makeResident col) s = execMakeResident col s := rfl
@[simp] theorem exec_preemptGroup (col entry) (s : State) : exec (.preemptGroup col entry) s = execPreemptGroup col entry s := rfl
@[simp] theorem exec_quantumExpire (col entry) (s : State) : exec (.quantumExpire col entry) s = execQuantumExpire col entry s := rfl
@[simp] theorem exec_waitPriorityRise (node group) (s : State) : exec (.waitPriorityRise node group) s = execWaitPriorityRise node group s := rfl
@[simp] theorem exec_startTimeReached (node) (s : State) : exec (.startTimeReached node) s = execStartTimeReached node s := rfl
@[simp] theorem exec_watchdog (node) (s : State) : exec (.watchdog node) s = execWatchdog node s := rfl
@[simp] theorem exec_claimSpan (col id) (s : State) : exec (.claimSpan col id) s = execClaimSpan col id s := rfl
@[simp] theorem exec_copyCommandStart (col id) (s : State) : exec (.copyCommandStart col id) s = execCopyCommandStart col id s := rfl
@[simp] theorem exec_copyTransfer (col id) (s : State) : exec (.copyTransfer col id) s = execCopyTransfer col id s := rfl
@[simp] theorem exec_gatherTransfer (col id) (s : State) : exec (.gatherTransfer col id) s = execGatherTransfer col id s := rfl
@[simp] theorem exec_engineCommandDone (col id) (s : State) : exec (.engineCommandDone col id) s = execEngineCommandDone col id s := rfl
@[simp] theorem exec_barBytesDelivered (col) (s : State) : exec (.barBytesDelivered col) s = execBarBytesDelivered col s := rfl
@[simp] theorem exec_thresherCommandStart (col node) (s : State) : exec (.thresherCommandStart col node) s = execThresherCommandStart col node s := rfl
@[simp] theorem exec_thresherKstep (col node) (s : State) : exec (.thresherKstep col node) s = execThresherKstep col node s := rfl
@[simp] theorem exec_mloopRowsLanded (col node) (s : State) : exec (.mloopRowsLanded col node) s = execMloopRowsLanded col node s := rfl
@[simp] theorem exec_routerCycle (s : State) : exec .routerCycle s = execRouterCycle s := rfl
@[simp] theorem exec_injectionWindow (s : State) : exec .injectionWindow s = execInjectionWindow s := rfl
@[simp] theorem exec_xdata (col) (s : State) : exec (.xdata col) s = execXdata col s := rfl
@[simp] theorem exec_ack (col) (s : State) : exec (.ack col) s = execAck col s := rfl
@[simp] theorem exec_nack (col) (s : State) : exec (.nack col) s = execNack col s := rfl
@[simp] theorem exec_xctlArrival (col) (s : State) : exec (.xctlArrival col) s = execXctlArrival col s := rfl
@[simp] theorem exec_xctlRelease (col) (s : State) : exec (.xctlRelease col) s = execXctlRelease col s := rfl
@[simp] theorem exec_xredCombine (col slot) (s : State) : exec (.xredCombine col slot) s = execXredCombine col slot s := rfl
@[simp] theorem exec_rd (col) (s : State) : exec (.rd col) s = execRd col s := rfl
@[simp] theorem exec_rdata (col) (s : State) : exec (.rdata col) s = execRdata col s := rfl
@[simp] theorem exec_wdata (col) (s : State) : exec (.wdata col) s = execWdata col s := rfl
@[simp] theorem exec_mgmt (col) (s : State) : exec (.mgmt col) s = execMgmt col s := rfl
@[simp] theorem exec_sliceRequest (col rid) (s : State) : exec (.sliceRequest col rid) s = execSliceRequest col rid s := rfl
@[simp] theorem exec_hbmFill (col line) (s : State) : exec (.hbmFill col line) s = execHbmFill col line s := rfl
@[simp] theorem exec_bayModeSwitch (col mode) (s : State) : exec (.bayModeSwitch col mode) s = execBayModeSwitch col mode s := rfl
@[simp] theorem exec_carveChange (col ways) (s : State) : exec (.carveChange col ways) s = execCarveChange col ways s := rfl
@[simp] theorem exec_carveGrowDone (col) (s : State) : exec (.carveGrowDone col) s = execCarveGrowDone col s := rfl
@[simp] theorem exec_bayRgnHtWrite (col n val) (s : State) : exec (.bayRgnHtWrite col n val) s = execBayRgnHtWrite col n val s := rfl
@[simp] theorem exec_bayAliasWrite (col n back val) (s : State) : exec (.bayAliasWrite col n back val) s = execBayAliasWrite col n back val s := rfl
@[simp] theorem exec_slstatRead (col sl) (s : State) : exec (.slstatRead col sl) s = execSlstatRead col sl s := rfl
@[simp] theorem exec_dutyMapWrite (val) (s : State) : exec (.dutyMapWrite val) s = execDutyMapWrite val s := rfl
@[simp] theorem exec_ringCfgWrite (fn fault val) (s : State) : exec (.ringCfgWrite fn fault val) s = execRingCfgWrite fn fault val s := rfl
@[simp] theorem exec_registerWrite (sp off val) (s : State) : exec (.registerWrite sp off val) s = execRegisterWrite sp off val s := rfl
@[simp] theorem exec_attest (s : State) : exec .attest s = execAttest s := rfl
@[simp] theorem exec_pfaultDone (s : State) : exec .pfaultDone s = execPfaultDone s := rfl
@[simp] theorem exec_train (s : State) : exec .train s = execTrain s := rfl
@[simp] theorem exec_scrub (s : State) : exec .scrub s = execScrub s := rfl
@[simp] theorem exec_eth (s : State) : exec .eth s = execEth s := rfl
@[simp] theorem exec_thermal (s : State) : exec .thermal s = execThermal s := rfl
@[simp] theorem exec_service (s : State) : exec .service s = execService s := rfl
@[simp] theorem exec_qp (s : State) : exec .qp s = execQp s := rfl
@[simp] theorem exec_fwupdate (s : State) : exec .fwupdate s = execFwupdate s := rfl
@[simp] theorem exec_eccScrub (s : State) : exec .eccScrub s = execEccScrub s := rfl
@[simp] theorem exec_thermalSample (power avg1 avg10 junction) (s : State) : exec (.thermalSample power avg1 avg10 junction) s = execThermalSample power avg1 avg10 junction s := rfl
@[simp] theorem exec_emergencyTrip (s : State) : exec .emergencyTrip s = execEmergencyTrip s := rfl
@[simp] theorem exec_boot (fail net) (s : State) : exec (.boot fail net) s = execBoot fail net s := rfl
@[simp] theorem exec_functionLevelReset (vf) (s : State) : exec (.functionLevelReset vf) s = execFunctionLevelReset vf s := rfl
@[simp] theorem exec_ptpSync (port offset) (s : State) : exec (.ptpSync port offset) s = execPtpSync port offset s := rfl
@[simp] theorem exec_peerRdmaRequest (port qpn kind col pa data) (s : State) : exec (.peerRdmaRequest port qpn kind col pa data) s = execPeerRdmaRequest port qpn kind col pa data s := rfl
@[simp] theorem exec_strandBeatError (col strand beat again) (s : State) : exec (.strandBeatError col strand beat again) s = execStrandBeatError col strand beat again s := rfl
@[simp] theorem exec_strandRetire (col strand) (s : State) : exec (.strandRetire col strand) s = execStrandRetire col strand s := rfl
@[simp] theorem exec_linkCheckError (router port again) (s : State) : exec (.linkCheckError router port again) s = execLinkCheckError router port again s := rfl
@[simp] theorem exec_containment (col memory) (s : State) : exec (.containment col memory) s = execContainment col memory s := rfl
@[simp] theorem exec_migratePage (ctx col va dest) (s : State) : exec (.migratePage ctx col va dest) s = execMigratePage ctx col va dest s := rfl
@[simp] theorem exec_tlbiComplete (col) (s : State) : exec (.tlbiComplete col) s = execTlbiComplete col s := rfl
@[simp] theorem exec_tinkerEvent (col) (s : State) : exec (.tinkerEvent col) s = execTinkerEvent col s := rfl
@[simp] theorem exec_debugRestart (col slot h) (s : State) : exec (.debugRestart col slot h) s = execDebugRestart col slot h s := rfl
@[simp] theorem exec_debugCancel (col slot h) (s : State) : exec (.debugCancel col slot h) s = execDebugCancel col slot h s := rfl
@[simp] theorem exec_peerAcknowledge (col id data) (s : State) : exec (.peerAcknowledge col id data) s = execPeerAcknowledge col id data s := rfl
@[simp] theorem exec_peerLink (col id) (s : State) : exec (.peerLink col id) s = execPeerLink col id s := rfl
@[simp] theorem exec_hostLinkCompletion (col rid error data) (s : State) : exec (.hostLinkCompletion col rid error data) s = execHostLinkCompletion col rid error data s := rfl
@[simp] theorem exec_hostLinkRetriesExhausted (col rid) (s : State) : exec (.hostLinkRetriesExhausted col rid) s = execHostLinkRetriesExhausted col rid s := rfl
@[simp] theorem exec_shadowPlaneLoaded (col node) (s : State) : exec (.shadowPlaneLoaded col node) s = execShadowPlaneLoaded col node s := rfl
@[simp] theorem exec_mstrTransfer (col node) (s : State) : exec (.mstrTransfer col node) s = execMstrTransfer col node s := rfl
@[simp] theorem exec_tinkerRestart (col) (s : State) : exec (.tinkerRestart col) s = execTinkerRestart col s := rfl
@[simp] theorem exec_fringHead (fn val) (s : State) : exec (.fringHead fn val) s = execFringHead fn val s := rfl
@[simp] theorem exec_unknownOp (s : State) : exec .unknownOp s = execUnknownOp s := rfl
@[simp] theorem exec_ethernetLinkBringUp (port up) (s : State) : exec (.ethernetLinkBringUp port up) s = execEthernetLinkBringUp port up s := rfl
@[simp] theorem exec_tripPointCleared (s : State) : exec .tripPointCleared s = execTripPointCleared s := rfl

end Sys2Proof.Machine
end

