-- ==== Sys2Proof/Laws/Ops.lean ====
section
/-! SUPPORT. What the shared operations over the issuing agent can do: its register files, its path, results that are pushed, transfers
and the end of a run, each said once. -/

namespace Sys2Proof.Machine

/-! ## Completion -/

theorem accept_of_takes {s : State} {k : Cls} {f : State → Host.Outcome State Fault Refusal} (h : s.decodeCause k = none) :
    accept k s f = f s := by
  simp [accept, h]

/-- A word whose meaning is guarded completes in the state that the guarded part answers. -/
theorem completes_of {s : State} {i : Instr} {t : State} (f : State → Host.Outcome State Fault Refusal)
    (he : exec i s = accept i.cls s f) (hf : f s = .next t) : s.completes i t :=
  fun h => by rw [he, accept_of_takes h, hf]

/-- A word that an agent does not take raises, and takes no other effect. -/
theorem accept_cause {s : State} {k : Cls} {f : State → Host.Outcome State Fault Refusal} {c : Cause} (h : s.decodeCause k = some c) :
    accept k s f = .next (if c = .illegal then s.illegal else s.trap c) := by
  cases c <;> simp [accept, h]

/-! ## Register files and paths -/

theorem Who.base_cases (w v : Who) (h : w.base = v.base) :
    w = v ∨ ∃ n b, w = .warp n b ∧ v = .warp n (!b) := by
  cases w <;> cases v <;> simp_all [Who.base]
  rename_i b _ b'
  cases b <;> cases b' <;> simp

@[simp] theorem State.setThreadOf_clk (s : State) (c : Nat) (w : Who) (t : Thread) : (s.setThreadOf c w t).clk = s.clk := by cases w <;> rfl
@[simp] theorem State.setThreadOf_cur (s : State) (c : Nat) (w : Who) (t : Thread) : (s.setThreadOf c w t).cur = s.cur := by cases w <;> rfl
@[simp] theorem State.setThreadOf_dist (s : State) (c : Nat) (w : Who) (t : Thread) : (s.setThreadOf c w t).dist = s.dist := by cases w <;> rfl
@[simp] theorem State.setThreadOf_host (s : State) (c : Nat) (w : Who) (t : Thread) : (s.setThreadOf c w t).host = s.host := by cases w <;> rfl
@[simp] theorem State.setThreadOf_time (s : State) (c : Nat) (w : Who) (t : Thread) : (s.setThreadOf c w t).time = s.time := by cases w <;> rfl
@[simp] theorem State.setPathOf_clk (s : State) (c : Nat) (w : Who) (p : Path) : (s.setPathOf c w p).clk = s.clk := by cases w <;> rfl
@[simp] theorem State.setPathOf_cur (s : State) (c : Nat) (w : Who) (p : Path) : (s.setPathOf c w p).cur = s.cur := by cases w <;> rfl
@[simp] theorem State.setPathOf_dist (s : State) (c : Nat) (w : Who) (p : Path) : (s.setPathOf c w p).dist = s.dist := by cases w <;> rfl
@[simp] theorem State.setPathOf_host (s : State) (c : Nat) (w : Who) (p : Path) : (s.setPathOf c w p).host = s.host := by cases w <;> rfl
@[simp] theorem State.setPathOf_time (s : State) (c : Nat) (w : Who) (p : Path) : (s.setPathOf c w p).time = s.time := by cases w <;> rfl


/-- The register files of an agent after they are replaced; both PC slots of a warp name one file. -/
theorem State.threadOf_setThreadOf (s : State) (c : Nat) (w v : Who) (t : Thread) (h : v.base = w.base) :
    (s.setThreadOf c w t).threadOf c v = t := by
  rcases Who.base_cases v w h with rfl | ⟨n, b, rfl, rfl⟩
  · cases v <;> simp [State.setThreadOf, State.threadOf, State.factor]
  · simp [State.setThreadOf, State.threadOf]

/-- The register files of every other agent stay. -/
theorem State.threadOf_setThreadOf_other (s : State) (c d : Nat) (w v : Who) (t : Thread)
    (h : v.base ≠ w.base ∨ (d ≠ c ∧ ∀ n, w ≠ .factor n)) : (s.setThreadOf c w t).threadOf d v = s.threadOf d v := by
  cases w <;> cases v <;> simp_all [State.setThreadOf, State.threadOf, State.factor, Who.base] <;>
    by_cases hd : d = c <;> simp_all

@[simp] theorem State.pathOf_setThreadOf (s : State) (c d : Nat) (w v : Who) (t : Thread) :
    (s.setThreadOf c w t).pathOf d v = s.pathOf d v := by
  cases w <;> cases v <;> simp [State.setThreadOf, State.pathOf, State.factor] <;>
    by_cases hd : d = c <;> (try simp_all) <;> (try split) <;> (try simp_all [Warp.slotPath])

@[simp] theorem State.pathOf_setPathOf (s : State) (c : Nat) (w : Who) (p : Path) : (s.setPathOf c w p).pathOf c w = p := by
  cases w <;> simp [State.setPathOf, State.pathOf, State.factor]

/-- The paths of every other agent stay. -/
theorem State.pathOf_setPathOf_other (s : State) (c d : Nat) (w v : Who) (p : Path) (h : v.base ≠ w.base) :
    (s.setPathOf c w p).pathOf d v = s.pathOf d v := by
  cases w <;> cases v <;> simp_all [State.setPathOf, State.pathOf, State.factor, Who.base] <;>
    by_cases hd : d = c <;> simp_all

@[simp] theorem State.threadOf_setPathOf (s : State) (c d : Nat) (w v : Who) (p : Path) :
    (s.setPathOf c w p).threadOf d v = s.threadOf d v := by
  cases w <;> cases v <;> simp [State.setPathOf, State.threadOf, State.factor] <;>
    by_cases hd : d = c <;> (try simp_all) <;> (try split) <;> (try simp_all)

/-! ## Memory -/

/-- An update of an agent's registers or path leaves a column's memory and groups alone. -/
theorem State.col_setThreadOf_mem (s : State) (c d : Nat) (w : Who) (t : Thread) :
    ((s.setThreadOf c w t).col d).mem = (s.col d).mem ∧ ((s.setThreadOf c w t).col d).undefined = (s.col d).undefined ∧
      ((s.setThreadOf c w t).col d).groups = (s.col d).groups := by
  cases w <;> by_cases hd : d = c <;> simp [State.setThreadOf, hd]

theorem State.col_setPathOf_mem (s : State) (c d : Nat) (w : Who) (p : Path) :
    ((s.setPathOf c w p).col d).mem = (s.col d).mem ∧ ((s.setPathOf c w p).col d).undefined = (s.col d).undefined ∧
      ((s.setPathOf c w p).col d).groups = (s.col d).groups := by
  cases w <;> by_cases hd : d = c <;> simp [State.setPathOf, hd]

/-- Columns that agree on memory and groups agree on every byte. -/
theorem State.sameMemory_of {s t : State} (h : ∀ c, (t.col c).mem = (s.col c).mem ∧ (t.col c).undefined = (s.col c).undefined ∧
    (t.col c).groups = (s.col c).groups) : s.sameMemory t := by
  intro c
  obtain ⟨h1, h2, h3⟩ := h c
  refine ⟨fun f a => by simp [Column.byteAt, h1, h2], fun e a => by simp [Column.group, h3]⟩

/-! ## Results -/

/-- A pushed result waits among the pending writes of its agent. -/
theorem State.push_thread (s : State) (n : Nat) (w : Write) (v : Who) (h : v.base = s.cur.who.base) :
    (s.push n w).threadOf s.cur.col v = { s.thread with pend := s.thread.pend ++ [{ write := w, due := s.clk + n }] } := by
  simp [State.push, State.updThread, State.threadOf_setThreadOf _ _ _ _ _ h]

/-! ## Releases -/

/-- A release whose scope the warp's slot makes 0 is complete at once and changes nothing (R31). -/
theorem State.releaseFrom_workgroup {s : State} {w : Wait} {sc : Nat} (h : s.here.effScope s.slot sc = 0) : s.releaseFrom w sc = (none, s) := by
  simp [State.releaseFrom, h]

/-- A release that stands with the host links changes nothing, and waits just while they hold write-backs of its bays (R31). -/
theorem State.releaseFrom_hosted {s : State} {sc : Nat} (h : s.here.effScope s.slot sc ≠ 0) :
    s.releaseFrom .hosted sc = (if s.hostBusy then some .hosted else none, s) := by
  simp [State.releaseFrom, h]

end Sys2Proof.Machine
end

