-- ==== Sys2Proof/Laws/Frame.lean ====
section
/-! SUPPORT. The frame of a computing word: what a pushed result changes, and that the shared result operations of such words change
nothing else. -/

namespace Sys2Proof.Machine

/-- Nothing done keeps the frame. -/
theorem State.onlyWrites_refl (s : State) (l) : s.onlyWrites s l :=
  ⟨fun _ _ => ⟨rfl, rfl, rfl⟩, fun _ => ⟨fun _ _ => rfl, fun _ _ => rfl⟩, fun _ _ => rfl, fun _ _ _ => rfl, ⟨[], by simp⟩,
    rfl, rfl, rfl, rfl, rfl, rfl⟩

/-- A pushed result of a named register, due later, keeps the frame. -/
theorem State.onlyWrites_push (s : State) (n : Nat) (w : Write) (l : List Opnd) (hw : w.opnd ∈ l) (hn : 0 < n) :
    s.onlyWrites (s.push n w) l := by
  refine ⟨fun c v => ?_, State.sameMemory_of fun c => State.col_setThreadOf_mem .., fun c v => by simp [State.push, State.updThread],
    fun c v h => State.threadOf_setThreadOf_other _ _ _ _ _ _ h, ⟨[⟨w, s.clk + n⟩], ?_, ?_⟩, ?_, ?_, ?_, ?_, ?_, ?_⟩
  · by_cases hv : v.base = s.cur.who.base
    · by_cases hc : c = s.cur.col
      · subst hc; rw [State.push_thread _ _ _ _ hv]
        rcases Who.base_cases _ _ hv with rfl | ⟨n, b, rfl, h2⟩
        · exact ⟨rfl, rfl, rfl⟩
        · simp [State.thread, State.threadOf, h2]
      · by_cases hf : ∃ n, s.cur.who = .factor n
        · obtain ⟨n, hf⟩ := hf
          cases v <;> simp [hf, Who.base] at hv
          subst hv
          simp [State.push, State.updThread, hf, State.setThreadOf, State.threadOf, State.factor, State.thread]
        · rw [State.push, State.updThread, State.threadOf_setThreadOf_other _ _ _ _ _ _ (.inr ⟨hc, fun n h => hf ⟨n, h⟩⟩)]
          exact ⟨rfl, rfl, rfl⟩
    · rw [State.push, State.updThread, State.threadOf_setThreadOf_other _ _ _ _ _ _ (.inl hv)]; exact ⟨rfl, rfl, rfl⟩
  · have := State.push_thread s n w s.cur.who rfl
    simp only [State.thread, State.push, State.updThread, State.setThreadOf_cur] at this ⊢
    rw [this]
  · simp [hw]; omega
  · have := State.push_thread s n w s.cur.who rfl
    simp only [State.thread, State.push, State.updThread, State.setThreadOf_cur] at this ⊢
    rw [this]
  all_goals simp [State.push, State.updThread]

/-- The frame of one change after another. -/
theorem State.onlyWrites_trans {s t u : State} {l : List Opnd} (h : s.onlyWrites t l) (g : t.onlyWrites u l) : s.onlyWrites u l := by
  obtain ⟨a1, a2, a3, a4, ⟨na, a5, a5'⟩, a6, a7, a8, a9, a10, a11⟩ := h
  obtain ⟨b1, b2, b3, b4, ⟨nb, b5, b5'⟩, b6, b7, b8, b9, b10, b11⟩ := g
  refine ⟨fun c v => ?_, fun c => ⟨fun f a => by rw [(b2 c).1, (a2 c).1], fun f a => by rw [(b2 c).2, (a2 c).2]⟩, fun c v => by rw [b3, a3],
    fun c v hv => by rw [b4 c v (by rw [a11]; exact hv), a4 c v hv], ⟨na ++ nb, by rw [b5, a5, List.append_assoc], ?_⟩,
    by rw [b6, a6], by rw [b7, a7], by rw [b8, a8], by rw [b9, a9], by rw [b10, a10], by rw [b11, a11]⟩
  · obtain ⟨x, y, z⟩ := a1 c v; obtain ⟨x', y', z'⟩ := b1 c v; exact ⟨x'.trans x, y'.trans y, z'.trans z⟩
  · intro p hp
    rcases List.mem_append.1 hp with hp | hp
    · exact a5' p hp
    · have := b5' p hp; rw [a7] at this; exact this

/-- An outcome of a computing word: it traps ILLEGAL or DIVERGENT_SCALAR, or keeps the frame. -/
def framed (s : State) (l : List Opnd) (o : Host.Outcome State Fault Refusal) : Prop :=
  ∃ t, o = .next t ∧ (t = s.illegal ∨ t = s.trap .divergentScalar ∨ s.onlyWrites t l)

theorem framed_accept {s : State} {i : Instr} {l} {f} (h : s.takes i) (hf : framed s l (f s)) : framed s l (accept i.cls s f) := by
  rw [accept_of_takes h]; exact hf

theorem framed_push {s : State} {l n w} (hn : 0 < n) (hw : w.opnd ∈ l) : framed s l (.next (s.push n w)) :=
  ⟨_, rfl, .inr (.inr (State.onlyWrites_push s n w l hw hn))⟩

theorem putV_only {s : State} {l n r x} (hn : 0 < n) (h : Opnd.v r ∈ l) : s.onlyWrites (s.putV n r x) l := by
  unfold State.putV; split <;> exact State.onlyWrites_push _ _ _ _ h hn
theorem putK_only {s : State} {l n r x} (hn : 0 < n) (h : Opnd.k r ∈ l) : s.onlyWrites (s.putK n r x) l := by
  unfold State.putK; split <;> exact State.onlyWrites_push _ _ _ _ h hn

theorem framed_vectorTo {s : State} {l n} {d : BitVec 6} {x} (hn : 0 < n) (h : Opnd.v d.toNat ∈ l) : framed s l (s.vectorTo n d x) :=
  ⟨_, rfl, .inr (.inr (putV_only hn h))⟩
theorem framed_scalarTo {s : State} {l n} {d : BitVec 6} {x} (hn : 0 < n) (h : Opnd.s d.toNat ∈ l) : framed s l (s.scalarTo n d x) := by
  unfold State.scalarTo; split
  · exact ⟨_, rfl, .inr (.inr (State.onlyWrites_push _ _ _ _ h hn))⟩
  · exact ⟨_, rfl, .inr (.inl rfl)⟩
theorem framed_condTo {s : State} {l n} {d : BitVec 3} {x} (hn : 0 < n) (h : Opnd.c d.toNat ∈ l) : framed s l (s.condTo n d x) :=
  ⟨_, rfl, .inr (.inr (State.onlyWrites_push _ _ _ _ h hn))⟩
theorem framed_pairTo {s : State} {l n} {d : BitVec 5} {x y} (hn : 0 < n) (h : Opnd.v (2 * d.toNat) ∈ l) (h' : Opnd.v (2 * d.toNat + 1) ∈ l) :
    framed s l (s.pairTo n d x y) :=
  ⟨_, rfl, .inr (.inr (State.onlyWrites_trans (putV_only hn h) (putV_only hn h')))⟩
theorem framed_two {s : State} {l n m w w'} (hn : 0 < n) (hm : 0 < m) (h : w.opnd ∈ l) (h' : w'.opnd ∈ l) :
    framed s l (.next ((s.push n w).push m w')) :=
  ⟨_, rfl, .inr (.inr (State.onlyWrites_trans (State.onlyWrites_push _ _ _ _ h hn) (State.onlyWrites_push _ _ _ _ h' hm)))⟩
theorem framed_refl {s : State} {l} : framed s l (.next s) := ⟨_, rfl, .inr (.inr (State.onlyWrites_refl s l))⟩
theorem framed_illegal {s : State} {l} : framed s l (.next s.illegal) := ⟨_, rfl, .inl rfl⟩
theorem framed_trap {s : State} {l} : framed s l (.next (s.trap .divergentScalar)) := ⟨_, rfl, .inr (.inl rfl)⟩
theorem framed_ite {s : State} {l} {p : Prop} [Decidable p] {a b : Host.Outcome State Fault Refusal} (ha : framed s l a) (hb : framed s l b) :
    framed s l (if p then a else b) := by
  split <;> assumption
theorem framed_maskTo {s : State} {l n} {d : BitVec 3} {x} (hn : 0 < n) (h : Opnd.k d.toNat ∈ l) : framed s l (s.maskTo n d x) :=
  ⟨_, rfl, .inr (.inr (putK_only hn h))⟩

end Sys2Proof.Machine
end

