-- ==== Sys2Proof/Laws/Memory.lean ====
section
/-! SUPPORT. Memory: reading after writing, and that every memory operation keeps the canonical form. -/

namespace Sys2Proof.Machine

/-! ## Bytes -/

/-- Reading a byte after one is written. -/
@[simp] theorem Memory.read_write (m : List Host.Cell) (a b : Nat) (x : Byte) :
    Memory.read (Memory.write m a x) b = if b = a then x else Memory.read m b := by
  simp [Memory.read, Memory.write]

/-- Writing keeps the canonical form. -/
theorem Memory.wf_write {m : List Host.Cell} (a : Nat) (x : Byte) (h : Memory.wf m = true) : Memory.wf (Memory.write m a x) = true :=
  Tab.wf_store h

/-- Reading a byte after several are written. -/
theorem Memory.read_writeBytes (bs : List Byte) : ∀ (m : List Host.Cell) (a b : Nat),
    Memory.read (Memory.writeBytes m a bs) b = if a ≤ b ∧ b < a + bs.length then bs.getD (b - a) 0#8 else Memory.read m b := by
  induction bs with
  | nil => intro m a b; simp [Memory.writeBytes]
  | cons x bs ih =>
    intro m a b
    simp only [Memory.writeBytes, ih, Memory.read_write, List.length_cons]
    by_cases h : b = a
    · subst h; simp
    · by_cases h' : a + 1 ≤ b ∧ b < a + 1 + bs.length
      · rw [if_pos h', if_pos (by omega)]
        obtain ⟨k, rfl⟩ : ∃ k, b = a + 1 + k := ⟨b - a - 1, by omega⟩
        simp [show a + 1 + k - a = k + 1 by omega]
      · rw [if_neg h', if_neg h, if_neg (by omega)]

/-- Writing bytes keeps the canonical form. -/
theorem Memory.wf_writeBytes (bs : List Byte) : ∀ {m : List Host.Cell} (a : Nat), Memory.wf m = true → Memory.wf (Memory.writeBytes m a bs) = true := by
  induction bs with
  | nil => intro m a h; exact h
  | cons x bs ih => intro m a h; exact ih _ (Memory.wf_write _ _ h)

/-- Dropping bytes keeps the canonical form. -/
theorem Memory.wf_filter {m : List Host.Cell} (f : Host.Cell → Bool) (h : Memory.wf m = true) : Memory.wf (m.filter f) = true := by
  simp only [Memory.wf, Tab.wf, Bool.and_eq_true, List.all_eq_true] at h ⊢
  exact ⟨Tab.sortedFrom_filter f h.1, fun e he => h.2 e (List.mem_of_mem_filter he)⟩

/-- Equal reads make equal memories. -/
theorem Memory.wf_ext {m n : List Host.Cell} (hm : Memory.wf m = true) (hn : Memory.wf n = true)
    (h : ∀ a, Memory.read m a = Memory.read n a) : m = n := Tab.wf_ext hm hn h

/-! ## A column's home -/

theorem Column.wf_putByte {x : Column} (pa : Nat) (b : Byte) (h : Memory.wf x.mem = true) : Memory.wf (x.putByte pa b).mem = true :=
  Memory.wf_write _ _ h

theorem Column.wf_putBytes (bs : List Byte) : ∀ {x : Column} (pa : Nat), Memory.wf x.mem = true → Memory.wf (x.putBytes pa bs).mem = true := by
  induction bs with
  | nil => intro x pa h; exact h
  | cons b bs ih => intro x pa h; exact ih _ (Column.wf_putByte _ _ h)

theorem Column.wf_clearMarks {x : Column} (line : Nat) (k : BitVec 128) (h : Memory.wf x.mem = true) : Memory.wf (x.clearMarks line k).mem = true := h

theorem Column.wf_putLine {x : Column} (line : Nat) (k : BitVec 128) (d : BitVec 1024) (h : Memory.wf x.mem = true) :
    Memory.wf (x.putLine line k d).mem = true := by
  unfold Column.putLine
  generalize List.range 128 = l
  refine Column.wf_clearMarks _ _ ?_
  induction l generalizing x with
  | nil => exact h
  | cons i l ih =>
    simp only [List.foldl_cons]
    split
    · exact ih (Column.wf_putByte _ _ h)
    · exact ih h

theorem Column.wf_clearRange {x : Column} (lo hi : Nat) (h : Memory.wf x.mem = true) : Memory.wf (x.clearRange lo hi).mem = true :=
  Memory.wf_filter _ h

theorem Column.wf_storeHome {x : Column} (line : Nat) (l : List Acc) (h : Memory.wf x.mem = true) : Memory.wf (x.storeHome line l).mem = true := by
  unfold Column.storeHome
  refine Column.wf_clearMarks _ _ ?_
  induction l generalizing x with
  | nil => exact h
  | cons a l ih => exact ih (Column.wf_putBytes _ _ h)

/-- A byte read at the home after one is written there: it is the written byte, and defined (R71). -/
@[simp] theorem Column.byteAt_putByte (x : Column) (free pa qa : Nat) (b : Byte) :
    (x.putByte pa b).byteAt free qa = if qa = pa then b else x.byteAt free qa := by
  by_cases h : qa = pa
  · subst h; simp [Column.byteAt, Column.putByte, Nat.mod_lt]
  · by_cases hl : lineOf qa = lineOf pa
    · have hm : qa % 128 ≠ pa % 128 := by simp only [lineOf] at hl; omega
      have hb : ∀ u : BitVec 128, (u &&& ~~~(1#128 <<< (pa % 128))).getLsbD (qa % 128) = u.getLsbD (qa % 128) := by
        intro u
        have h128 : qa % 128 < 128 := Nat.mod_lt _ (by omega)
        simp [h128]
        intro _
        omega
      simp [Column.byteAt, Column.putByte, h, hl, hb]
    · simp [Column.byteAt, Column.putByte, h, hl]

/-- A byte read at the home after several are written there. -/
theorem Column.byteAt_putBytes (bs : List Byte) : ∀ (x : Column) (free pa qa : Nat),
    (x.putBytes pa bs).byteAt free qa = if pa ≤ qa ∧ qa < pa + bs.length then bs.getD (qa - pa) 0#8 else x.byteAt free qa := by
  induction bs with
  | nil => intro x free pa qa; simp [Column.putBytes]
  | cons b bs ih =>
    intro x free pa qa
    simp only [Column.putBytes, ih, Column.byteAt_putByte, List.length_cons]
    by_cases h : qa = pa
    · subst h; simp
    · by_cases h' : pa + 1 ≤ qa ∧ qa < pa + 1 + bs.length
      · rw [if_pos h', if_pos (by omega)]
        obtain ⟨k, rfl⟩ : ∃ k, qa = pa + 1 + k := ⟨qa - pa - 1, by omega⟩
        simp [show pa + 1 + k - pa = k + 1 by omega]
      · rw [if_neg h', if_neg h, if_neg (by omega)]

/-! ## Host memory, local store and reset -/

theorem HostSide.wf_write {h : HostSide} (fn a : Nat) (b : List Byte) (hw : Memory.wf h.mem = true) : Memory.wf (h.write fn a b).mem = true := by
  unfold HostSide.write
  simp only
  generalize b.zip (List.range b.length) = l
  generalize h.mem = m at hw
  induction l generalizing m with
  | nil => exact hw
  | cons e l ih => exact ih _ (Memory.wf_write _ _ hw)

/-- Right after reset every memory has the form. -/
theorem State.reset_memory_wf (c : Nat) : Memory.wf (State.reset.col c).mem = true ∧ Memory.wf State.reset.host.mem = true := by
  exact ⟨rfl, rfl⟩

end Sys2Proof.Machine
end

