-- ==== Sys2Proof/Tests/Slice0.lean ====
section
/-! SUPPORT. The model's own tests: words written out from the opcode table decode to their instructions; a term is refused for each check of
WellFormed; one step of an instruction gives what its rule says on a small state; and for the hypotheses of every statement a concrete
state and operands that meet them. The expected values are worked out by hand from the rules named. -/

open Sys2Proof Sys2Proof.Machine

-- One theorem after another: each `decide +kernel` waits for the kernel, and many at once need one large stack apiece.
set_option Elab.async false

/-! ## Decoding -/

/-- Words decode to instructions, with no control bit set. -/
abbrev decodes (ws : List Nat) (is : List Instr) : Prop :=
  ws.map (fun w => decodeWord (BitVec.ofNat 32 w)) = is.map fun i => .ok (⟨false, false, 0#3⟩, i)

/-! The words below are the opcode table's match bits with every operand field filled in by hand, unequal operands throughout. -/


theorem test_decode_prefix_and_special_registers :
    decodes
      [0x07EB92CB, 0x00C9402C, 0x00C01A25]
      [.pfx 5#3 1#1 4#3 37#6 2#2 1#2 0#1 1#1 1#1, .sread 37#6 11#6, .swrite 26#6 9#6] := rfl

theorem test_decode_scalar :
    decodes
      [0x001969C5, 0x002969C5, 0x00395AC4, 0x00395AC5, 0x00395AC6, 0x00395AC7, 0x00495AC4, 0x00495AC5, 0x00495AC6, 0x00495AC7, 0x00595AC4,
       0x00595AC5, 0x00595AC6, 0x00595AC7, 0x00695AC4, 0x00695AC5, 0x00695AC6, 0x00695AC7, 0x00795AA7, 0x00895AC4, 0x00895AC5, 0x00995AA7,
       0x00A95A00, 0x00A95A19, 0x00A95A02, 0x00A95A03, 0x00B14318, 0x00B14319, 0x00B1431A, 0x00B1431B]
      [.sli 37#6 10693#14, .slis 37#6 10693#14, .sadd 37#6 26#6 49#6, .ssub 37#6 26#6 49#6, .smul 37#6 26#6 49#6, .smulh 37#6 26#6 49#6,
       .sand 37#6 26#6 49#6, .sor 37#6 26#6 49#6, .sxor 37#6 26#6 49#6, .sandn 37#6 26#6 49#6, .sshl 37#6 26#6 49#6, .sshr 37#6 26#6 49#6,
       .ssar 37#6 26#6 49#6, .srol 37#6 26#6 49#6, .smin 37#6 26#6 49#6, .smax 37#6 26#6 49#6, .sminu 37#6 26#6 49#6,
       .smaxu 37#6 26#6 49#6, .saddi 37#6 26#6 167#8, .scmp 4#3 5#3 26#6 49#6, .scmpU 4#3 5#3 26#6 49#6, .scmpi 4#3 5#3 26#6 167#8,
       .smov 37#6 26#6, .scsel 37#6 26#6 6#3, .spopc 37#6 26#6, .sclz 37#6 26#6, .cand 5#3 3#3 6#3, .cor 5#3 3#3 6#3, .cxor 5#3 3#3 6#3,
       .candn 5#3 3#3 6#3] := rfl

theorem test_decode_vector_arithmetic :
    decodes
      [0x01095AC4, 0x01095AC5, 0x01095AC6, 0x01095AC7, 0x01195A02, 0x01195A03, 0x01295AC4, 0x01295AC5, 0x01295AC6, 0x01295AC7, 0x01395AC4,
       0x01395AC5, 0x01395AC6, 0x01395AC7, 0x01595A00, 0x01595A01, 0x01595A02, 0x01795AA7, 0x01895AA7, 0x01995AA7, 0x01A95AA7, 0x01195AC4,
       0x01195AC5]
      [.iadd 37#6 26#6 49#6, .isub 37#6 26#6 49#6, .imin 37#6 26#6 49#6, .imax 37#6 26#6 49#6, .iabs 37#6 26#6, .ineg 37#6 26#6,
       .imul 37#6 26#6 49#6, .imulh 37#6 26#6 49#6, .imulhu 37#6 26#6 49#6, .imad 37#6 26#6 49#6, .and 37#6 26#6 49#6, .or 37#6 26#6 49#6,
       .xor 37#6 26#6 49#6, .andn 37#6 26#6 49#6, .popc 37#6 26#6, .clz 37#6 26#6, .brev 37#6 26#6, .iaddi 37#6 26#6 167#8,
       .andi 37#6 26#6 167#8, .ori 37#6 26#6 167#8, .xori 37#6 26#6 167#8, .iminu 37#6 26#6 49#6, .imaxu 37#6 26#6 49#6] := rfl

theorem test_decode_vector_shifts_and_fields :
    decodes
      [0x01495AC4, 0x01495AC5, 0x01495AC6, 0x01495AC7, 0x01B95A13, 0x01B95A53, 0x01B95A93, 0x01B95AD3, 0x01595AC7, 0x01695AC4, 0x01695AC5,
       0x01695AC6, 0x01695AC7]
      [.shl 37#6 26#6 49#6, .shr 37#6 26#6 49#6, .sar 37#6 26#6 49#6, .rol 37#6 26#6 49#6, .shli 37#6 26#6 19#5, .shri 37#6 26#6 19#5,
       .sari 37#6 26#6 19#5, .roli 37#6 26#6 19#5, .prmt 37#6 26#6 49#6, .bfe 37#6 26#6 49#6, .bfeu 37#6 26#6 49#6, .bfi 37#6 26#6 49#6,
       .idot4 37#6 26#6 49#6] := rfl

theorem test_decode_compares_moves_and_pairs :
    decodes
      [0x01C95AC4, 0x01C95AC5, 0x01D95AA7, 0x01E95AC4, 0x01E95A01, 0x01E95A02, 0x01E94003, 0x01F969C5, 0x02095AC4, 0x02096715, 0x020A9AC2,
       0x020A9AC3]
      [.icmp 4#3 5#3 26#6 49#6, .icmpU 4#3 5#3 26#6 49#6, .icmpi 4#3 5#3 26#6 167#8, .sel 37#6 26#6 49#6, .vmov 37#6 26#6, .vbc 37#6 26#6,
       .vgetl 37#6, .vli 37#6 10693#14, .vsetl 37#6 26#6 49#6, .vlis 37#6 2501#12, .iaddc 21#5 13#5 24#5, .isubb 21#5 13#5 24#5] := rfl

theorem test_decode_float :
    decodes
      [0x03095AC4, 0x03095AC5, 0x03095AC6, 0x03095AC7, 0x03195AC4, 0x03195AC5, 0x03195A02, 0x03195A03, 0x03295AC4, 0x03295AC5, 0x03395A00,
       0x03395AC5, 0x03395A02, 0x03395A03]
      [.fadd 37#6 26#6 49#6, .fsub 37#6 26#6 49#6, .fmul 37#6 26#6 49#6, .ffma 37#6 26#6 49#6, .fmin 37#6 26#6 49#6, .fmax 37#6 26#6 49#6,
       .fabs 37#6 26#6, .fneg 37#6 26#6, .fcmp 4#3 5#3 26#6 49#6, .fcmpU 4#3 5#3 26#6 49#6, .frnd 37#6 26#6, .fscale 37#6 26#6 49#6,
       .fgetexp 37#6 26#6, .fclass 37#6 26#6] := rfl

theorem test_decode_packed :
    decodes
      [0x03495AC7, 0x03495AC4, 0x03495AC5, 0x03495AC6, 0x03595AC4, 0x03595AC5, 0x03595AC6, 0x03595AC7, 0x03695AC4, 0x03695AC5, 0x03695AC6,
       0x03695AC7]
      [.bfma2 37#6 26#6 49#6, .badd2 37#6 26#6 49#6, .bsub2 37#6 26#6 49#6, .bmul2 37#6 26#6 49#6, .hadd2 37#6 26#6 49#6,
       .hsub2 37#6 26#6 49#6, .hmul2 37#6 26#6 49#6, .hfma2 37#6 26#6 49#6, .bmin2 37#6 26#6 49#6, .bmax2 37#6 26#6 49#6,
       .hmin2 37#6 26#6 49#6, .hmax2 37#6 26#6 49#6] := rfl

theorem test_decode_special_functions :
    decodes
      [0x04095A00, 0x04095A01, 0x04095A02, 0x04095A03, 0x04195A00, 0x04195A01, 0x04195A02, 0x04195A03]
      [.frcp 37#6 26#6, .frsq 37#6 26#6, .fsqrt 37#6 26#6, .ftanh 37#6 26#6, .fexp2 37#6 26#6, .flog2 37#6 26#6, .fsin 37#6 26#6,
       .fcos 37#6 26#6] := rfl

theorem test_decode_conversions :
    decodes
      [0x04295A00, 0x04295A01, 0x04295A02, 0x04295A03, 0x04395AC4, 0x04395AC5, 0x04395A06, 0x04395A07, 0x04495AC0, 0x04495AC1, 0x044A9A06,
       0x044A9A07, 0x04595AC0, 0x045A9A05, 0x04595A0A, 0x04595AC7]
      [.cvtF2i 37#6 26#6, .cvtF2u 37#6 26#6, .cvtI2f 37#6 26#6, .cvtU2f 37#6 26#6, .cvtF2b 37#6 26#6 49#6, .cvtF2h 37#6 26#6 49#6,
       .cvtB2f 37#6 26#6 1#1, .cvtH2f 37#6 26#6 1#1, .packE4m3 37#6 13#5 24#5, .packE5m2 37#6 13#5 24#5, .unpkE4m3 21#5 26#6 1#1,
       .unpkE5m2 21#5 26#6 1#1, .packTs8 37#6 13#5 24#5, .unpkTs8 21#5 26#6 1#1, .mxscale 37#6 26#6 2#2, .mxapply 37#6 26#6 49#6] := rfl

theorem test_decode_control :
    decodes
      [0x050D9A3C, 0x050C9A3C, 0x0519A3C5, 0x0529A3C5, 0x05301A01, 0x05301A02, 0x05300000, 0x054D4E53, 0x05601AA7, 0x05500000, 0x05701A00,
       0x05701A01, 0x05701A02, 0x00000000, 0x00000001, 0x00000002, 0x000A68F3, 0x0789A3C5]
      [.br 6#3 39484#16, .brF 6#3 39484#16, .jmp 631749#20, .call 631749#20, .jmpi 26#6, .calli 26#6, .ret, .split 6#3 668#10 83#7,
       .brt 26#6 167#8, .join, .waitL 26#6, .waitM 26#6, .sleep 26#6, .nop, .yield, .exit, .brk 170556#18, .trap 631749#20] := rfl

theorem test_decode_permutes_and_votes :
    decodes
      [0x04895AC4, 0x04895AC5, 0x04895AC6, 0x04895AC7, 0x04914300, 0x04914301, 0x04914302, 0x04914303, 0x04A95A00, 0x04A95A01, 0x04A94302,
       0x04A94303]
      [.lpick 37#6 26#6 49#6, .lrot 37#6 26#6 49#6, .lxor 37#6 26#6 49#6, .lspan 37#6 26#6 49#6, .ksome 5#3 3#3, .kevery 5#3 3#3,
       .kone 5#3 3#3, .ksame 5#3 3#3, .lpeers 37#6 26#6, .lfirst 37#6 26#6, .kpopc 37#6 3#3, .kffs 37#6 3#3] := rfl

theorem test_decode_reductions_and_masks :
    decodes
      [0x04B95A18, 0x04B95A29, 0x04C95A24, 0x04C95A15, 0x04D95ACC, 0x04D95ACD, 0x04E14318, 0x04E14319, 0x04E1431A, 0x04E1431B, 0x04F15A00,
       0x04F94301, 0x04F14302, 0x04F15A03]
      [.fold 37#6 26#6 6#6, .foldBc 37#6 26#6 10#6, .scanInc 37#6 26#6 9#6, .scanExc 37#6 26#6 5#6, .segred 37#6 26#6 6#3 3#3,
       .segscan 37#6 26#6 6#3 3#3, .kand 5#3 3#3 6#3, .kor 5#3 3#3 6#3, .kxor 5#3 3#3 6#3, .kandn 5#3 3#3 6#3, .kld 5#3 26#6,
       .kst 37#6 3#3, .knot 5#3 3#3, .kact 5#3 26#6] := rfl

theorem test_decode_memory :
    decodes
      [0x05895AC6, 0x05995AC4, 0x05995AC5, 0x05991AC6, 0x05A95AC6, 0x05B91AC4, 0x05901AC7, 0x05C95AC6, 0x05D95AC6, 0x00D95AA7, 0x00E95AA7,
       0x05E95AC4, 0x05EA9AC5, 0x05E95AC6, 0x05EA9AC7, 0x06600000, 0x06601AC5, 0x06601AC6]
      [.ld 37#6 26#6 49#6 2#2, .ldsB 37#6 26#6 49#6, .ldsH 37#6 26#6 49#6, .ldQ 9#4 26#6 49#6, .st 37#6 26#6 49#6 2#2, .stQ 9#4 26#6 49#6,
       .pf 26#6 49#6, .ldl 37#6 26#6 49#6 2#2, .stl 37#6 26#6 49#6 2#2, .sld 37#6 26#6 167#8, .sst 37#6 26#6 167#8,
       .ldAcqW 37#6 26#6 49#6, .ldAcqD 21#5 26#6 49#6, .stRelW 37#6 26#6 49#6, .stRelD 21#5 26#6 49#6, .fence, .cclean 26#6 49#6,
       .cinv 26#6 49#6] := rfl

theorem test_decode_atomics :
    decodes
      [0x05F95AC4, 0x05F95AC5, 0x05F95AC6, 0x05F95AC7, 0x06095AC4, 0x06095AC5, 0x06095AC6, 0x060A9AC7, 0x06195AC4, 0x06195AC5, 0x06195AC6,
       0x06195AC7, 0x06295AC4, 0x06295AC5, 0x06295AC6, 0x062A9AC7]
      [.atomAdd 37#6 26#6 49#6, .atomMin 37#6 26#6 49#6, .atomMax 37#6 26#6 49#6, .atomAnd 37#6 26#6 49#6, .atomOr 37#6 26#6 49#6,
       .atomXor 37#6 26#6 49#6, .atomXchg 37#6 26#6 49#6, .atomCas 21#5 26#6 49#6, .atomMinu 37#6 26#6 49#6, .atomMaxu 37#6 26#6 49#6,
       .atomInc 37#6 26#6 49#6, .atomDec 37#6 26#6 49#6, .atomFadd 37#6 26#6 49#6, .atomFmin 37#6 26#6 49#6, .atomFmax 37#6 26#6 49#6,
       .atomAdd64 21#5 26#6 49#6] := rfl

theorem test_decode_reductions_to_memory_and_local_atomics :
    decodes
      [0x06495AC4, 0x06495AC5, 0x06495AC6, 0x06495AC7, 0x06595AC4, 0x06595AC5, 0x06595AC6, 0x06595AC7, 0x06395AC4, 0x06395AC5, 0x06395AC6,
       0x063A9AC7]
      [.redAdd 37#6 26#6 49#6, .redMin 37#6 26#6 49#6, .redMax 37#6 26#6 49#6, .redFadd 37#6 26#6 49#6, .redBayAdd 37#6 26#6 49#6,
       .redBayMin 37#6 26#6 49#6, .redBayMax 37#6 26#6 49#6, .redBayFadd 37#6 26#6 49#6, .atomlAdd 37#6 26#6 49#6,
       .atomlMin 37#6 26#6 49#6, .atomlMax 37#6 26#6 49#6, .atomlCas 21#5 26#6 49#6] := rfl

theorem test_decode_transactions :
    decodes
      [0x06714000, 0x06700001, 0x06701A02, 0x06794003]
      [.tbegin 5#3, .tend, .tabort 26#6, .tstat 37#6] := rfl

theorem test_decode_barriers :
    decodes
      [0x06A95AC4, 0x06A01A01, 0x06A01AC6, 0x06A95A03, 0x06B01A00, 0x06B01AC5, 0x06B95A02]
      [.bnew 37#6 26#6 49#6, .bfree 26#6, .bexp 26#6 49#6, .barr 37#6 26#6, .bwait 26#6, .bwaitg 26#6 49#6, .btest 37#6 26#6] := rfl

theorem test_decode_futures_and_token :
    decodes
      [0x06C00600, 0x06C94601, 0x06C00602, 0x06C94603, 0x06D25A00, 0x06D00001, 0x06D00002]
      [.hwait 6#4, .htest 37#6 6#4, .hcancel 6#4, .hget 37#6 6#4, .hput 9#4 26#6, .tokwait, .tokpass] := rfl

theorem test_decode_system :
    decodes
      [0x07AA8000, 0x07A940C5, 0x07A01A03, 0x07B6B12C, 0x07A95A02]
      [.clkr 21#5, .perf 37#6 49#6, .signal 26#6, .launch 26#6 49#6 11#4, .ejctl 37#6 26#6] := rfl

theorem test_decode_tinker :
    decodes
      [0x07995A02, 0x07901AC7, 0x07901A00, 0x07901AC5]
      [.winr 37#6 26#6, .winw 26#6 49#6, .eret 26#6, .tlbi 26#6 49#6] := rfl

theorem test_decode_engines :
    decodes
      [0x0706B12E, 0x0716B12C, 0x0716B12D, 0x0716B12E]
      [.copy 26#6 49#6 11#4 2#2, .gath 26#6 49#6 11#4, .scat 26#6 49#6 11#4, .copyRst 26#6 49#6 11#4] := rfl

theorem test_decode_thresher_and_crib :
    decodes
      [0x0756B1CC, 0x07568001, 0x0756B102, 0x0726B12C, 0x0720002D, 0x0720022E, 0x0736B12E, 0x07463108, 0x0746822D]
      [.cres 26#6 49#6 51#6, .crel 26#6, .cstat 26#6 49#6, .mldw 26#6 49#6 11#4, .mswap 11#4, .mzero 2#2 11#4, .mloop 26#6 49#6 11#4 2#2,
       .mrd 6#4 49#6 2#2, .mstr 26#6 2#2 11#4] := rfl

theorem test_decode_exchanges :
    decodes
      [0x06895AC4, 0x06895AC5, 0x06895AC6, 0x06801AC7, 0x06995AC4, 0x06900001]
      [.xchXor 37#6 26#6 49#6, .xchRot 37#6 26#6 49#6, .xchBc 37#6 26#6 49#6, .xchGath 26#6 49#6, .xred 37#6 26#6 49#6, .xbar] := rfl


/-- Words with the C, B and S fields set (R34), and the example words that chapters of the spec print. -/
theorem test_decode_control_fields :
    decodeWord 0x18714401#32 = .ok (⟨false, false, 3#3⟩, .saddi 5#6 4#6 1#8) ∧
      decodeWord 0x81D44008#32 = .ok (⟨true, false, 0#3⟩, .icmpi 2#3 1#3 0#6 8#8) ∧
      decodeWord 0x45020000#32 = .ok (⟨false, true, 0#3⟩, .brF 1#3 0#16) ∧
      decodeWord 0x19E0C402#32 = .ok (⟨false, false, 3#3⟩, .vbc 3#6 4#6) := ⟨rfl, rfl, rfl, rfl⟩

/-- An unused opcode, an unused function, a reserved bit, an operand out of range and a control bit out of place each raise their own
refusal (R36, R41, R46). -/
theorem test_decode_refuses :
    decodeWord 0x07F00000#32 = .error (.opcode 0x7F#7) ∧ (∃ f, decodeWord 0x00000004#32 = .error f) ∧
      decodeWord 0x06700005#32 = .error .reserved ∧ (∃ f, decodeWord 0x04000000#32 = .error f ∨ decodeWord 0x04C0000F#32 = .error f) ∧
      (∃ f, decodeWord 0x85100001#32 = .error f) := ⟨rfl, ⟨_, rfl⟩, rfl, ⟨_, .inr rfl⟩, ⟨_, rfl⟩⟩

/-! ## WellFormed -/

/-- One term for each check, which the check refuses, beside the nearest term that it admits. -/
theorem test_wf_refuses_each :
    Instr.wf (.scmp 6#3 0#3 0#6 0#6) = false ∧ Instr.wf (.scmp 5#3 0#3 0#6 0#6) = true ∧
      Instr.wf (.scmpU 6#3 0#3 0#6 0#6) = false ∧ Instr.wf (.scmpi 7#3 0#3 0#6 0#8) = false ∧
      Instr.wf (.icmp 6#3 1#3 0#6 0#6) = false ∧ Instr.wf (.icmp 5#3 0#3 0#6 0#6) = false ∧ Instr.wf (.icmp 5#3 1#3 0#6 0#6) = true ∧
      Instr.wf (.icmpU 0#3 0#3 0#6 0#6) = false ∧ Instr.wf (.icmpi 0#3 0#3 0#6 0#8) = false ∧
      Instr.wf (.fcmp 6#3 1#3 0#6 0#6) = false ∧ Instr.wf (.fcmpU 0#3 0#3 0#6 0#6) = false ∧
      Instr.wf (.fold 0#6 0#6 11#6) = false ∧ Instr.wf (.fold 0#6 0#6 10#6) = true ∧ Instr.wf (.foldBc 0#6 0#6 11#6) = false ∧
      Instr.wf (.scanInc 0#6 0#6 11#6) = false ∧ Instr.wf (.scanExc 0#6 0#6 63#6) = false ∧
      Instr.wf (.kand 0#3 1#3 1#3) = false ∧ Instr.wf (.kor 0#3 1#3 1#3) = false ∧ Instr.wf (.kxor 0#3 1#3 1#3) = false ∧
      Instr.wf (.kandn 0#3 1#3 1#3) = false ∧ Instr.wf (.kld 0#3 0#6) = false ∧ Instr.wf (.knot 0#3 1#3) = false ∧
      Instr.wf (.kact 0#3 0#6) = false ∧ Instr.wf (.brt 0#6 0#8) = false ∧ Instr.wf (.waitL 33#6) = false ∧
      Instr.wf (.waitL 32#6) = true ∧ Instr.wf (.ld 1#6 0#6 0#6 3#2) = false ∧ Instr.wf (.ld 1#6 0#6 0#6 2#2) = true ∧
      Instr.wf (.st 1#6 0#6 0#6 3#2) = false ∧ Instr.wf (.ldl 1#6 0#6 0#6 3#2) = false ∧ Instr.wf (.stl 1#6 0#6 0#6 3#2) = false ∧
      Instr.wf (.sread 0#6 13#6) = false ∧ Instr.wf (.swrite 0#6 8#6) = false ∧
      Instr.wf (.pfx 0#3 0#1 5#3 0#6 0#2 0#2 0#1 0#1 0#1) = false ∧ Instr.wf (.pfx 0#3 0#1 5#3 0#6 0#2 0#2 0#1 1#1 0#1) = true := by
  decide

/-- No chain bit on a transfer, and no control bit on a prefix (R36, R42). -/
theorem test_ctl_refuses : Instr.ctlOk ⟨true, false, 0#3⟩ (.jmp 0#20) = false ∧ Instr.ctlOk ⟨false, true, 7#3⟩ (.jmp 0#20) = true ∧
    Instr.ctlOk ⟨false, true, 0#3⟩ (.pfx 0#3 0#1 0#3 0#6 0#2 0#2 0#1 0#1 0#1) = false := by decide


/-! ## What words do -/

/-- Warp 0 of column 0 issues, its 32 lanes active, its group's local store 1,024 bytes. -/
noncomputable def base : State := (State.reset.withFetchWord 32 0).updHere fun x => x.setGroup 0 { x.group 0 with size := 1024 }

/-- The same with scalar, vector and mask registers given from register 1 on. -/
noncomputable def regs (ss : List Dword) (vs : List Vec) (ks : List Lanes) : State :=
  base.updThread fun t => { t with s := (List.range ss.length).map fun i => (i + 1, ss.getD i 0#64)
                                   v := (List.range vs.length).map fun i => (i + 1, vs.getD i 0#1024)
                                   k := (List.range ks.length).map fun i => (i + 1, ks.getD i 0#32) }

/-- A prefix in force. -/
noncomputable def under (p : Pfx) (s : State) : State := { s with cur := { s.cur with pfx := some p } }

/-- The state after a word, or the state itself where it stops. -/
noncomputable def after (i : Instr) (s : State) : State := match exec i s with | .next t => t | _ => s

/-- The same with the word's results landed. -/
noncomputable def landed (i : Instr) (s : State) : State := (after i s).landAll 0 (.warp 0 false)

/-- Register 10 after a scalar word on two operands, and lane 3 of v10 after a vector word on two. -/
noncomputable def s10 (i : Instr) (x y : Dword) : Nat := ((landed i (regs [x, y] [] [])).readS 10).toNat
noncomputable def v10 (i : Instr) (x y : Word) : Nat := (lane ((landed i (regs [] [splat x, splat y] [])).readV 10) 3).toNat

/-- The cause for which the warp has stopped. -/
noncomputable def stopped (s : State) : Option Cause := (s.here.warp 0).stop.map (·.cause)

/-- R93: wrapping, the signed high product, shifts past the width, shifted immediates, unsigned minimum, counts. -/
theorem test_scalar_values :
    s10 (.sadd 10#6 1#6 2#6) 0xFFFFFFFFFFFFFFFF#64 2#64 = 1 ∧ s10 (.ssub 10#6 1#6 2#6) 0#64 1#64 = 0xFFFFFFFFFFFFFFFF ∧
      s10 (.smul 10#6 1#6 2#6) 0x100000001#64 0x100000000#64 = 0x100000000 ∧
      s10 (.smulh 10#6 1#6 2#6) 0xFFFFFFFFFFFFFFFF#64 2#64 = 0xFFFFFFFFFFFFFFFF ∧
      s10 (.sandn 10#6 1#6 2#6) 0xFF#64 0x0F#64 = 0xF0 ∧ s10 (.sshl 10#6 1#6 2#6) 1#64 64#64 = 0 ∧
      s10 (.sshr 10#6 1#6 2#6) 0x8000000000000000#64 63#64 = 1 ∧
      s10 (.ssar 10#6 1#6 2#6) 0x8000000000000000#64 100#64 = 0xFFFFFFFFFFFFFFFF ∧
      s10 (.srol 10#6 1#6 2#6) 0x8000000000000001#64 65#64 = 3 ∧ s10 (.smin 10#6 1#6 2#6) 1#64 0xFFFFFFFFFFFFFFFF#64 = 0xFFFFFFFFFFFFFFFF ∧
      s10 (.sminu 10#6 1#6 2#6) 1#64 0xFFFFFFFFFFFFFFFF#64 = 1 := by decide +kernel
theorem test_scalar_immediates_and_counts :
    s10 (.sli 10#6 0x3FFF#14) 0#64 0#64 = 0xFFFFFFFFFFFFFFFF ∧ s10 (.saddi 10#6 1#6 0xFF#8) 5#64 0#64 = 4 ∧
      ((landed (.slis 1#6 2#14) (regs [1#64] [] [])).readS 1).toNat = 16386 ∧ s10 (.spopc 10#6 1#6) 0xF0F0#64 0#64 = 8 ∧
      s10 (.sclz 10#6 1#6) 1#64 0#64 = 63 ∧ s10 (.sclz 10#6 1#6) 0#64 0#64 = 64 ∧
      (landed (.scmp 2#3 4#3 1#6 2#6) (regs [0xFFFFFFFFFFFFFFFF#64, 0#64] [] [])).readC 4 = true ∧
      (landed (.scmpU 2#3 4#3 1#6 2#6) (regs [0xFFFFFFFFFFFFFFFF#64, 0#64] [] [])).readC 4 = false ∧
      (landed (.candn 4#3 0#3 1#3) (base.updPath fun p => { p with c := 1#8 })).readC 4 = true := by decide +kernel
/-- R48, R203: SREAD of the lane mask's registers and SWRITE of %ejt; R181: CLKR's pair. -/
theorem test_special_registers :
    (landed (.swrite 1#6 9#6) (regs [8#64] [] [])).warp.ejt = 8#4 ∧ stopped (after (.swrite 1#6 9#6) (regs [9#64] [] [])) = some .illegal ∧
      stopped (after (.sread 10#6 13#6) base) = some .illegal ∧
      ((landed (.clkr 5#5) { base with clk := 7, time := 9 }).readS 10, (landed (.clkr 5#5) { base with clk := 7, time := 9 }).readS 11) =
        (9#64, 7#64) := by decide +kernel

/-- R95, R96: saturation only under SAT, products, bit counts, a shift by the width, and the fourth operand of IMAD. -/
theorem test_vector_values :
    v10 (.iadd 10#6 1#6 2#6) 0x7FFFFFFF#32 1#32 = 0x80000000 ∧
      (lane ((landed (.iadd 10#6 1#6 2#6) (under { sat := true } (regs [] [splat 0x7FFFFFFF#32, splat 1#32] []))).readV 10) 31).toNat = 0x7FFFFFFF ∧
      v10 (.imulh 10#6 1#6 2#6) 0xFFFFFFFF#32 2#32 = 0xFFFFFFFF ∧ v10 (.imulhu 10#6 1#6 2#6) 0xFFFFFFFF#32 2#32 = 1 ∧
      v10 (.imax 10#6 1#6 2#6) 0xFFFFFFFF#32 0#32 = 0 ∧ v10 (.iabs 10#6 1#6) 0x80000000#32 0#32 = 0x80000000 ∧
      v10 (.andn 10#6 1#6 2#6) 0xFF#32 0x0F#32 = 0xF0 ∧ v10 (.brev 10#6 1#6) 1#32 0#32 = 0x80000000 ∧ v10 (.popc 10#6 1#6) 0xF1#32 0#32 = 5 ∧
      v10 (.shl 10#6 1#6 2#6) 1#32 32#32 = 0 ∧ v10 (.sar 10#6 1#6 2#6) 0x80000000#32 99#32 = 0xFFFFFFFF ∧
      v10 (.roli 10#6 1#6 4#5) 0x80000001#32 0#32 = 0x18 := by decide +kernel
/-- R97, R99, R100: fields, bytes, dot products, lane numbers, broadcasts and pairs. -/
theorem test_vector_fields_and_moves :
    v10 (.bfeu 10#6 1#6 2#6) 0xABCD1234#32 0x0808#32 = 0x12 ∧ v10 (.bfe 10#6 1#6 2#6) 0x0000F000#32 0x040C#32 = 0xFFFFFFFF ∧
      v10 (.idot4 10#6 1#6 2#6) 0xFF020304#32 0x01010101#32 = 8 ∧
      v10 (.prmt 10#6 1#6 2#6) 0x33221100#32 0x77665544#32 = 0x00000000 ∧
      v10 (.vgetl 10#6) 0#32 0#32 = 3 ∧ v10 (.vli 10#6 0x3FFF#14) 0#32 0#32 = 0xFFFFFFFF ∧
      (lane ((landed (.vbc 10#6 1#6) (regs [0x100000005#64] [] [])).readV 10) 31).toNat = 5 ∧
      (lane ((landed (.iaddc 5#5 1#5 2#5) (base.updThread fun t => { t with v := [(2, splat 0xFFFFFFFF#32), (3, splat 0#32), (4, splat 1#32)] })).readV 11) 0).toNat
        = 1 ∧
      (landed (.icmp 2#3 1#3 1#6 2#6) (regs [] [splat 0xFFFFFFFF#32, splat 0#32] [])).readK 1 = 0xFFFFFFFF#32 ∧
      stopped (after (.sel 10#6 1#6 2#6) (under { z := true } base)) = some .illegal := by decide +kernel
/-- R87: a lane outside the mask keeps its old value, or becomes 0 under Z. -/
theorem test_masked_lanes :
    let s := regs [] [splat 7#32, splat 1#32] [0x0000FFFF#32]
    lane ((landed (.iadd 1#6 1#6 2#6) (under { k := 1#3 } s)).readV 1) 15 = 8#32 ∧
      lane ((landed (.iadd 1#6 1#6 2#6) (under { k := 1#3 } s)).readV 1) 16 = 7#32 ∧
      lane ((landed (.iadd 1#6 1#6 2#6) (under { k := 1#3, z := true } s)).readV 1) 16 = 0#32 := by decide +kernel

/-- R101, R105 to R107: a tie to even, an overflow, RTZ by prefix, NaN canonical, minimum of zeros, and the classes. -/
theorem test_float_values :
    v10 (.fadd 10#6 1#6 2#6) 0x3F800000#32 0x33800000#32 = 0x3F800000 ∧ v10 (.fadd 10#6 1#6 2#6) 0x3F800001#32 0x33800000#32 = 0x3F800002 ∧
      v10 (.fmul 10#6 1#6 2#6) 0x7F000000#32 0x40000000#32 = 0x7F800000 ∧
      (lane ((landed (.fmul 10#6 1#6 2#6) (under { rm := 1#3 } (regs [] [splat 0x7F000000#32, splat 0x40000000#32] []))).readV 10) 0).toNat = 0x7F7FFFFF ∧
      v10 (.fsub 10#6 1#6 2#6) 0x7F800000#32 0x7F800000#32 = 0x7FC00000 ∧ v10 (.fmin 10#6 1#6 2#6) 0#32 0x80000000#32 = 0x80000000 ∧
      v10 (.fmax 10#6 1#6 2#6) 0x7FC00000#32 0x3F800000#32 = 0x3F800000 ∧ v10 (.fneg 10#6 1#6) 0#32 0#32 = 0x80000000 ∧
      v10 (.frnd 10#6 1#6) 0x40200000#32 0#32 = 0x40000000 ∧ v10 (.fclass 10#6 1#6) 0x80000001#32 0#32 = 4 ∧
      v10 (.fgetexp 10#6 1#6) 0x41000000#32 0#32 = 3 ∧ v10 (.fscale 10#6 1#6 2#6) 0x3F800000#32 3#32 = 0x41000000 := by decide +kernel
/-- R108, R109: packed sums, and correctly rounded functions of small numbers. -/
theorem test_packed_and_special_values :
    v10 (.badd2 10#6 1#6 2#6) 0x3F803F80#32 0x3F800000#32 = 0x40003F80 ∧ v10 (.hmul2 10#6 1#6 2#6) 0x40003C00#32 0x40004200#32 = 0x44004200 ∧
      v10 (.frcp 10#6 1#6) 0x40400000#32 0#32 = 0x3EAAAAAB ∧ v10 (.fsqrt 10#6 1#6) 0x40000000#32 0#32 = 0x3FB504F3 ∧
      v10 (.fexp2 10#6 1#6) 0x40400000#32 0#32 = 0x41000000 ∧ v10 (.flog2 10#6 1#6) 0x41000000#32 0#32 = 0x40400000 ∧
      v10 (.fsin 10#6 1#6) 0x80000000#32 0#32 = 0x80000000 ∧ v10 (.fcos 10#6 1#6) 0#32 0#32 = 0x3F800000 := by decide +kernel
/-- R110 to R116: rounding to an integer, out-of-range and NaN, the byte formats, and the block scale of 448. -/
theorem test_conversion_values :
    v10 (.cvtF2i 10#6 1#6) 0x40200000#32 0#32 = 2 ∧ v10 (.cvtF2i 10#6 1#6) 0x4F000000#32 0#32 = 0x80000000 ∧
      v10 (.cvtF2u 10#6 1#6) 0xBF800000#32 0#32 = 0xFFFFFFFF ∧ v10 (.cvtI2f 10#6 1#6) 0xFFFFFFFF#32 0#32 = 0xBF800000 ∧
      v10 (.cvtF2h 10#6 1#6 2#6) 0x3F800000#32 0x40000000#32 = 0x40003C00 ∧ v10 (.cvtB2f 10#6 1#6 1#1) 0x3F804000#32 0#32 = 0x3F800000 ∧
      (lane ((landed (.packE4m3 10#6 0#5 1#5) (regs [] [splat 0x43E00000#32, splat 0x3F800000#32, splat 0#32] [])).readV 10) 0).toNat = 0x00387E00 ∧
      (lane ((landed (.unpkE4m3 5#5 1#6 0#1) (regs [] [splat 0x0000387E#32] [])).readV 10) 0).toNat = 0x43E00000 ∧
      v10 (.mxapply 10#6 1#6 2#6) 0x40000000#32 0xFF#32 = 0x7FC00000 := by decide +kernel

/-- R133 to R139: permutes wrap, votes and counts look at the participating lanes alone, sums and scans run in lane order. -/
theorem test_cross_lane_values :
    let s := regs [0x5#64] [vecOf fun l => BitVec.ofNat 32 l, splat 33#32] [0xF#32, 0x5#32]
    (lane ((landed (.lrot 10#6 1#6 2#6) s).readV 10) 31).toNat = 0 ∧ (lane ((landed (.lxor 10#6 1#6 2#6) s).readV 10) 4).toNat = 5 ∧
      (landed (.kevery 4#3 2#3) (under { k := 2#3 } s)).readC 4 = true ∧ (landed (.kone 4#3 2#3) s).readC 4 = false ∧
      ((landed (.kpopc 10#6 2#3) s).readS 10).toNat = 2 ∧ ((landed (.kffs 10#6 2#3) s).readS 10).toNat = 0 ∧
      (landed (.knot 3#3 1#3) s).readK 3 = 0xFFFFFFF0#32 ∧ (landed (.kld 3#3 1#6) s).readK 3 = 5#32 ∧
      (lane ((landed (.lfirst 10#6 2#6) s).readV 10) 9).toNat = 0 ∧ ((landed (.fold 10#6 1#6 0#6) s).readS 10).toNat = 496 ∧
      (lane ((landed (.scanInc 10#6 1#6 0#6) s).readV 10) 4).toNat = 10 ∧ (lane ((landed (.scanExc 10#6 1#6 0#6) s).readV 10) 4).toNat = 6 := by decide +kernel
theorem test_segments :
    let s := regs [] [splat 1#32] [0x10101#32, 0x0#32]
    (lane ((landed (.segscan 10#6 1#6 1#3 0#3) s).readV 10) 10).toNat = 3 ∧
      (lane ((landed (.segred 10#6 1#6 1#3 0#3) s).readV 10) 10).toNat = 8 := by decide +kernel

/-- R138, R136, R137: the minimum and the sum of floats over a set of lanes, a NaN, and an empty set. -/
theorem test_float_folds :
    let s := regs [] [vecOf fun l => if l = 3 then 0x40000000#32 else 0x3F800000#32, splat 0x7FC00000#32] [0xF#32, 0#32]
    (landed (.fold 10#6 1#6 8#6) (under { k := 1#3 } s)).readS 10 = 0x40A00000#64 ∧ (landed (.fold 10#6 1#6 10#6) s).readS 10 = 0x40000000#64 ∧
      (landed (.fold 10#6 2#6 8#6) s).readS 10 = 0x7FC00000#64 ∧ (landed (.fold 10#6 1#6 8#6) (under { k := 2#3 } s)).readS 10 = 0x80000000#64 := by decide +kernel

/-- R118, R15: a taken branch is relative to its own packet, a fall-through leaves the path where it stands; a call saves the next packet. -/
theorem test_control_transfers :
    let s := base.updPath fun p => { p with c := 2#8, wpos := 1 }
    let s := { s with cur := { s.cur with pkt := 5#32 } }
    (after (.br 1#3 0xFFFE#16) s).path.pkt = 3#32 ∧ (after (.br 0#3 7#16) s).path = s.path ∧ (after (.brF 0#3 7#16) s).path.pkt = 12#32 ∧
      (after (.jmp 3#20) s).path.pkt = 8#32 ∧ ((landed (.call 3#20) s).readS 63).toNat = 6 ∧
      (after (.jmpi 1#6) (regs [9#64] [] [])).path.pkt = 9#32 ∧ (after .nop s) = s := by decide +kernel
/-- R122, R125, R180: the larger side of a division runs first, EXIT of all lanes ends the warp, BRK and TRAP stop it. -/
theorem test_division_and_exit :
    ((after (.split 1#3 1#10 3#7) (regs [] [] [0xFF#32])).warp.a.map (·.lanes), (after (.split 1#3 1#10 3#7) (regs [] [] [0xFF#32])).warp.b.map (·.lanes))
        = (some 0xFFFFFF00#32, some 0xFF#32) ∧
      ((after .exit base).here.warp 0).exited = 0xFFFFFFFF#32 ∧ stopped (after (.brk 5#18) base) = some .breakpoint ∧
      stopped (after (.trap 9#20) base) = some .userTrap ∧ (after (.trap 9#20) base).here.tinker.queue.map (·.info) = [9#32] ∧
      (after (.sleep 1#6) (regs [4#64] [] [])).path.wait = .until 4 := by decide +kernel

/-- R25, R50, R142, R147: alignment comes before translation, local store is little-endian, and a lane past its end traps. -/
theorem test_local_store_and_alignment :
    let s := regs [16#64, 1022#64, 0x1000000001#64] [vecOf fun l => BitVec.ofNat 32 (4 * l), splat 0x11223344#32] []
    (Memory.readBytes (after (.stl 2#6 1#6 1#6 2#2) s).group.store 140 4).map (·.toNat) = [0x44, 0x33, 0x22, 0x11] ∧
      stopped (after (.stl 2#6 2#6 3#6 2#2) s) = some .align ∧ stopped (after (.ldl 3#6 2#6 3#6 1#2) s) = none ∧
      stopped (after (.ldl 3#6 2#6 1#6 1#2) s) = some .localRange ∧ stopped (after (.ld 3#6 1#6 2#6 1#2) s) = some .pageFault ∧
      stopped (after (.ld 3#6 3#6 1#6 1#2) s) = some .align := by decide +kernel
/-- R158: the lanes of a local atomic take their turns upward. -/
theorem test_local_atomic :
    let s := regs [] [splat 1#32] []
    (Memory.readBytes (after (.atomlAdd 1#6 0#6 0#6) s).group.store 0 4).map (·.toNat) = [32, 0, 0, 0] := by decide +kernel

/-- R169, R174, R177: the first handle of a barrier table's entry 0, and a free future. -/
theorem test_barriers_and_futures :
    let s := after (.bnew 10#6 1#6 2#6) (regs [0#64, 1#64] [] [])
    (s.here.barrier 0).st = .opened ∧ (s.here.barrier 0).g = 0x800000#24 ∧ (s.here.barrier 0).atgt = 1 ∧
      stopped (after (.bnew 10#6 1#6 2#6) (regs [8#64, 1#64] [] [])) = some .align ∧
      stopped (after (.bfree 1#6) (regs [5#64] [] [])) = some .barStale ∧
      (after (.hwait 3#4) base).here.quarter 0 = { base.here.quarter 0 with run := none } ∧
      stopped (after (.hput 3#4 1#6) (regs [5#64] [] [])) = some .futureStale ∧ stopped (after .tend base) = some .illegal ∧
      (after (.tabort 5#6) base) = base ∧ (after .tokwait base) = base := by decide +kernel
/-- R186, R275, R299, R241: what the words of the units raise at the word. -/
theorem test_unit_words_raise :
    stopped (after (.tlbi 1#6 2#6) base) = some .illegal ∧ stopped (after (.mrd 1#4 1#6 2#2) base) = some .accumRange ∧
      stopped (after (.cres 1#6 2#6 3#6) base) = some .cribConfig ∧ stopped (after (.crel 1#6) base) = some .grantStale ∧
      stopped (after (.xchRot 10#6 1#6 1#6) (regs [1#64] [] [])) = some .xchParam ∧
      stopped (after (.copy 1#6 2#6 0#4 0#2) (regs [1008#64] [] [])) = some .localRange ∧
      stopped (after (.mloop 1#6 2#6 0#4 0#2) (regs [8#64] [] [])) = some .align ∧
      stopped (after (.copyRst 1#6 2#6 0#4) base) = some .futureStale ∧ stopped (after (.mswap 0#4) base) = none := by decide +kernel


/-! ## Witnesses: the hypotheses of the statements about words

Each theorem shows concrete states and operands that meet the hypotheses of the statement that it is named after, clause by clause. -/

/-- A path inside a divergent region, with the stack of its warp holding the region's frame and lanes 0 to 15 its lanes. -/
noncomputable def inRegion : State :=
  (base.updWarp fun w => { w with stack := { frames := [(0, { kind := 1#8, join := 9#32, epoch := 1#16, lanes := 0xFFFFFFFF#32 })] } }).updPath fun p =>
    { p with token := some ⟨9#32, 1#16⟩, lanes := 0xFFFF#32 }

/-- The same at the region's JOIN. -/
noncomputable def atJoin : State := { inRegion with cur := { inRegion.cur with pkt := 9#32 } }

/-- An ejected lane of warp 0 issues, at its home's JOIN. -/
noncomputable def byLane : State :=
  let s := base.updHere fun x => x.setCtx 0 { live := true, lane := 3, path := { uid := 7, lanes := 8#32, pkt := 9#32, token := some ⟨9#32, 1#16⟩ }
                                              home := ⟨9#32, 1#16⟩ }
  { s with cur := { s.cur with who := .lane 0, pkt := 9#32 } }

/-- The tinker of column 0 issues, and factor core 0. -/
noncomputable def byTinker : State := { base with cur := { base.cur with who := .tinker } }
noncomputable def byFactor : State := { base with cur := { base.cur with who := .factor 0 } }

theorem byWarp_base : ∃ n b, base.cur.who = .warp n b := ⟨0, false, rfl⟩
theorem notFactor_base : ∀ f, base.cur.who ≠ .factor f := fun _ h => by cases h

/-- Every computing word of the statements is taken, at both ends of the register numbers, plain and under a prefix. -/
theorem witness_takes :
    base.takes (.sadd 0#6 63#6 0#6) ∧ base.takes (.iadd 63#6 0#6 63#6) ∧ (under { sat := true } base).takes (.iadd 0#6 1#6 2#6) ∧
      base.takes (.shl 1#6 2#6 3#6) ∧ base.takes (.bfi 1#6 2#6 3#6) ∧ (under { k := 1#3 } base).takes (.icmp 5#3 1#3 0#6 0#6) ∧
      base.takes (.sel 1#6 2#6 3#6) ∧ (under { z := true } base).pfx.z = true ∧ (under { rm := 4#3 } base).takes (.fadd 1#6 2#6 3#6) ∧
      base.takes (.badd2 1#6 2#6 3#6) ∧ base.takes (.frcp 1#6 2#6) ∧ (under { sat := true } base).takes (.cvtF2i 1#6 2#6) ∧
      base.takes (.lpick 1#6 2#6 3#6) ∧ base.takes (.fold 1#6 2#6 0#6) ∧ base.takes (.segscan 1#6 2#6 3#3 0#3) ∧ base.takes (.jmp 0#20) ∧
      byTinker.takes (.eret 0#6) ∧ byFactor.takes (.eret 0#6) := by
  refine ⟨?_, ?_, ?_, ?_, ?_, ?_, ?_, ?_, ?_, ?_, ?_, ?_, ?_, ?_, ?_, ?_, ?_, ?_⟩ <;> rfl

theorem witness_ScalarWordsCompute :
    base.mayWriteS 0 = true ∧ inRegion.mayWriteS 48 = true ∧ inRegion.takes (.sadd 48#6 0#6 0#6) ∧ (12#6).toNat ≤ 12 ∧
      ((regs [8#64] [] []).sr 1#6).toNat ≤ 8 ∧ (47#6).toNat < 48 ∧ inRegion.path.token.isSome = true ∧ inRegion.takes (.scsel 47#6 0#6 1#3) :=
  ⟨rfl, rfl, rfl, by decide, by decide +kernel, by decide, rfl, rfl⟩

/-- The words of the statements whose one hypothesis is that the issuing agent takes the word. -/
theorem witness_words_are_taken :
    ∀ i ∈ [Instr.iadd 1#6 2#6 3#6, .bfe 1#6 2#6 3#6, .shl 1#6 2#6 3#6, .fadd 1#6 2#6 3#6, .badd2 1#6 2#6 3#6, .frcp 1#6 2#6, .cvtF2i 1#6 2#6,
      .packE4m3 1#6 1#5 2#5, .mxscale 1#6 2#6 3#2], base.takes i := by
  simp only [State.takes]
  decide +kernel
/-- Time may be compared with itself, and a step from reset with a NOP placed is one. -/
theorem witness_TimeNeverRunsBackward : ∃ t, step (State.reset.withFetchWord 32 0) = .next t := ⟨_, rfl⟩

theorem witness_ScalarWordsTrap :
    (47#6).toNat < 48 ∧ inRegion.path.token.isSome = true ∧ inRegion.takes (.scsel 47#6 0#6 1#3) ∧ 12 < (13#6).toNat ∧ 8#6 ≠ 9#6 ∧
      8 < ((regs [9#64] [] []).sr 1#6).toNat := ⟨by decide, rfl, rfl, by decide, by decide, by decide +kernel⟩

theorem witness_VectorFieldsComparesMovesAndPairsCompute : base.pfx.z = false ∧ (under { z := true } base).pfx.z = true := ⟨rfl, rfl⟩

/-- A value of every kind for the rounding and encoding clauses: a subnormal, the largest finite value and an infinity of each sign. -/
theorem witness_FloatsRoundAndEncode :
    ∀ x ∈ [0x00000001, 0x7F7FFFFF, 0x7F800000, 0x80000000, 0xFF800000], x < 2 ^ (fp32.eb + fp32.fb + 1) ∧ fp32.decode x ≠ .nan := by decide +kernel

theorem witness_CrossLaneWordsCompute : base.mayWriteS 63 = true ∧ base.takes (.kpopc 63#6 7#3) := ⟨rfl, rfl⟩

/-- A segment of lanes 3 to 7, the last one before a set bit of k1 at lane 8. -/
theorem witness_ReductionsAndScansCompute :
    let s := regs [] [] [0x100#32]
    (7#6).toNat < 8 ∧ s.mayWriteS 0 = true ∧ s.part.getLsbD 3 = true ∧ s.part.getLsbD 7 = true ∧
      (∀ j < 8, 3 < j → s.part.getLsbD j = true → (s.kr 1#3).getLsbD j = false) ∧
      ∀ j < 32, 7 < j → 7 < 8 ∧ 8 ≤ j ∧ s.part.getLsbD 8 = true ∧ (s.kr 1#3).getLsbD 8 = true := by decide +kernel

theorem witness_ControlAndWaitingWordsComplete : (Who.warp 1 false).base ≠ base.cur.who.base ∧ Who.tinker.base ≠ base.cur.who.base := by decide +kernel

/-- Nothing pending at the bound, one result pending above it, and the cycles of a sleep at 0 and at 1. -/
theorem witness_ControlAndWaitingWordsComplete_waits :
    let one := base.updThread fun t => { t with vpend := [{ id := 1, regs := [.v 1 1#32] }] }
    let op := base.updHere fun x => { x with mops := [{ id := 1, who := .warp 0 false, cache := 0, kind := .store, accs := [] }] }
    32 < (33#6).toNat ∧ (32#6).toNat ≤ 32 ∧ base.pendingVl ≤ 32 ∧ (0#6).toNat < one.pendingVl ∧ one.erred = none ∧
      base.unperformed + base.erredCount ≤ (0#6).toNat ∧ (0#6).toNat < op.unperformed ∧ op.erred = none ∧ (base.sr 0#6).toNat % 4294967296 = 0 ∧
      ((regs [1#64] [] []).sr 1#6).toNat % 4294967296 ≠ 0 ∧ base.cur.who = .warp 0 false := by decide +kernel

/-- A mask of some lanes, of none and of all, and a tie; the frames suffice at once. -/
theorem witness_SplitDividesThePath :
    let s := (regs [] [] [0xFF#32, 0#32, 0xFFFF#32]).updWarp fun w => { w with ejt := 0#4 }
    let o := s.splitOffsets 1#10 3#7
    let fall : Cand := { pkt := s.path.pkt, wpos := s.path.wpos, lanes := s.active &&& ~~~0xFF#32 }
    let taken : Cand := { pkt := s.cur.pkt + o.1, wpos := 0, lanes := 0xFF#32 }
    s.cur.pfx = none ∧ (base.splitOffsets 1#10 0#7).2 = 0#32 ∧ o.2 ≠ 0#32 ∧ s.kr 1#3 &&& s.active ≠ 0#32 ∧ s.kr 1#3 &&& s.active ≠ s.active ∧
      s.kr 2#3 &&& s.active = 0#32 ∧ s.kr 0#3 &&& s.active = s.active ∧ s.active ≠ 0#32 ∧ laneCount fall.lanes = 24 ∧ s.kr 3#3 &&& s.active = 0xFFFF#32 ∧
      (s.cur.who = .warp 0 false ∧ s.ownTx = none ∧ s.warp.ejt = 0#4 ∧ (s.bankWait false).isNone = true ∧ (∀ c ∈ [fall, taken], c.wpos < 3) ∧
        (if s.path.token.map (·.join) = some (s.cur.pkt + o.2) then 0 else 1) + (2 - 1 - if s.otherSlot false = none then 1 else 0) ≤
          s.stack.freeFrames.length) ∧
      (let t := s.updPath fun p => { p with pkt := s.cur.pkt + o.1, wpos := 0 }
       t.path.pkt = t.cur.pkt + (t.splitOffsets 1#10 3#7).1 ∧ t.path.wpos = 0) := by decide +kernel

/-- A table at packet 1 of a code image of two packets. -/
noncomputable def brtImage (table : Nat) : State :=
  let s := base.updHere fun x => { x with mem := Memory.writeBytes x.mem 0x20000C (bytesOf 12 table), warps := [(0, { oneWarp with ejt := 0#4 })] }
  s.setNode 1 { oneLaunch with launch := { oneLaunch.launch with task := { code := 0x200000, codelen := 2 } } }
/-- A table of two targets with its join, and one whose join offset is 0; every lane of v1 is 0, so all go to the first target. -/
noncomputable def brtRead : Except Cause (List Word) × State := (brtImage (9 + 4294967296 * (2 + 4294967296 * 3))).tableWords 1 1#32
theorem witness_BrtDividesThePath :
    brtRead.1.toOption = some [9#32, 2#32, 3#32] ∧ ((brtImage 0).tableWords 1 1#32).1.toOption = some [0#32, 0#32, 0#32] ∧
      (orderCands (brtCands 0#32 [2#32, 3#32] 2#32 0xFFFFFFFF#32 0#1024)).map (·.wpos) = [0] ∧ brtRead.2.active = 0xFFFFFFFF#32 ∧
      brtRead.2.vr 1#6 = 0#1024 ∧ brtRead.2.cur.who = .warp 0 false ∧ brtRead.2.ownTx = none ∧ brtRead.2.warp.ejt = 0#4 ∧
      (brtRead.2.bankWait false).isNone = true ∧ brtRead.2.path.token = none ∧ brtRead.2.otherSlot false = none ∧
      brtRead.2.stack.freeFrames = [0, 1, 2, 3, 4] := by decide +kernel

/-- %ejt is 2 and the pool is free, so the smaller side of a SPLIT is ejected; a join that is the path's own region shares its token; and no frame is
free for another region. -/
noncomputable def ejecting (m : Lanes) (frames : List Nat) : State :=
  (regs [] [] [m]).updWarp fun w => { w with ejt := 2#4, stack := { w.stack with frames := frames.map fun f => (f, { kind := 1#8, join := 9#32, epoch := 1#16 }) } }
theorem witness_DivisionsEjectAndOpenRegions :
    let s := ejecting 3#32 []
    let join := s.cur.pkt + (s.splitOffsets 1#10 3#7).2
    let cands := orderCands (s.splitCands (s.cur.pkt + (s.splitOffsets 1#10 3#7).1) (s.kr 1#3))
    let shares := s.updPath fun p => { p with token := some ⟨join, 1#16⟩ }
    s.cur.who = .warp 0 false ∧ s.ownTx = none ∧ (s.bankWait true).isNone = true ∧ (s.here.group s.warp.entry).leaving = false ∧
      (s.splitOffsets 1#10 3#7).2 ≠ 0#32 ∧ cands.map (fun c => (c.lanes, c.wpos)) = [(0xFFFFFFFC#32, 0), (3#32, 0)] ∧
      s.warp.ejt.toNat = 2 ∧ laneCount 3#32 = 2 ∧ 2 ≤ (s.here).freeContexts.length ∧ s.stack.freeFrames = [0, 1, 2, 3, 4] ∧
      ((after (.split 1#3 1#10 3#7) s).here.ctxs.map fun e => (e.2.lane, e.2.live)) = [(0, true), (1, true)] ∧
      (decide (shares.path.token.map (·.join) = some join)) = true ∧ (ejecting 7#32 [0, 1, 2, 3, 4]).stack.freeFrames = [] ∧
      stopped (after (.split 1#3 1#10 3#7) (ejecting 7#32 [0, 1, 2, 3, 4])) = some .divergeDepth := by decide +kernel

/-- The same with no other lane in the region, and the tinker at the JOIN of a region of its own. -/
noncomputable def atLastJoin : State := atJoin.updWarp fun w => { w with stack := w.stack.setFrame 0 { w.stack.frame 0 with lanes := 0xFFFF#32 } }
noncomputable def tinkerAtJoin : State :=
  let s := byTinker.setStack { frames := [(0, { kind := 1#8, join := 9#32, epoch := 1#16, lanes := 1#32, c := 7#8 })] }
  { s.updPath fun p => { p with token := some ⟨9#32, 1#16⟩ } with cur := { byTinker.cur with pkt := 9#32 } }

/-- Outside its join packet; a lane of others still to arrive, the last one, an ejected lane at its home, and the tinker at a region of its own. -/
theorem witness_JoinClosesItsRegion :
    inRegion.path.token.map (·.join) ≠ some inRegion.cur.pkt ∧
      (atJoin.path.token.map (·.join) = some atJoin.cur.pkt ∧ (atJoin.bankWait false).isNone = true ∧ atJoin.cur.who = .warp 0 false ∧
        atJoin.stack.region ⟨9#32, 1#16⟩ = some 0 ∧ atJoin.active ≠ 0#32 ∧ (0 : Nat) ∉ atJoin.stack.order ∧
        (∀ g < 5, g ≠ 0 → (atJoin.stack.frame g).complete = false)) ∧
      ((atJoin.stack.frame 0).lanes &&& ~~~((atJoin.stack.frame 0).aux ||| atJoin.active) ≠ 0#32 ∧ atJoin.cur.wpos < 2) ∧
      (atLastJoin.path.token = some ⟨9#32, 1#16⟩ ∧ (atLastJoin.bankWait false).isNone = true ∧ atLastJoin.stack.region ⟨9#32, 1#16⟩ = some 0 ∧
        (0 : Nat) ∉ atLastJoin.stack.order ∧ (∀ g < 5, g ≠ 0 → (atLastJoin.stack.frame g).complete = false) ∧
        (atLastJoin.stack.frame 0).lanes &&& ~~~((atLastJoin.stack.frame 0).aux ||| atLastJoin.active) = 0#32) ∧
      (tinkerAtJoin.path.token = some ⟨9#32, 1#16⟩ ∧ tinkerAtJoin.cur.pkt = 9#32 ∧ (tinkerAtJoin.bankWait false).isNone = true ∧
        tinkerAtJoin.cur.who = .tinker ∧ tinkerAtJoin.stack.region ⟨9#32, 1#16⟩ = some 0) ∧
      (byLane.path.token.map (·.join) = some byLane.cur.pkt ∧ (byLane.bankWait false).isNone = true ∧ byLane.cur.who = .lane 0 ∧
        byLane.path.token = some (byLane.here.ctx 0).home) :=
  ⟨by decide +kernel, by decide +kernel, by decide +kernel, by decide +kernel, by decide +kernel, by decide +kernel⟩

/-- The last arrival makes one path of the region's lanes, after the JOIN (R124). -/
theorem test_join_last : ((atLastJoin.arrive 0 false 0).here.warp 0).a.map (fun p => (p.lanes, p.pkt, p.wpos)) = some (0xFFFF#32, 9#32, 1) := by decide +kernel

/-- Lanes left; no lane left, with nothing and with a load to wait for, an error met, and a deferred word; an ejected lane; the tinker. -/
theorem witness_ExitEndsItsLanes :
    let bad : VPend := { id := 2, regs := [.v 1 1#32], error := some (.memoryUe, 1#32, 7#32, 1, false) }
    let load := base.updThread fun t => { t with vpend := [{ id := 1, regs := [.v 1 1#32] }] }
    let erred := base.updThread fun t => { t with vpend := [{ id := 1, regs := [.v 1 1#32] }, bad] }
    let defers := base.updWarp fun w => { w with deferred := [⟨{ id := 1, who := .warp 0 false, cache := 0, kind := .store, accs := [] }, false⟩] }
    (inRegion.ownTx = none ∧ inRegion.warp.exited ||| inRegion.active ≠ 0xFFFFFFFF#32 ∧ inRegion.warp.deferred = []) ∧
      (base.ownTx = none ∧ base.warp.exited ||| base.active = 0xFFFFFFFF#32 ∧ base.here.slotQuiet 0 = true ∧ base.holdsToken 0 0 = false) ∧
      (byLane.cur.who = .lane 0 ∧ byLane.quiet = true ∧ byLane.thread.vpend = [] ∧ (byLane.lastExit = true → byLane.here.slotQuiet byLane.slot = true)) ∧
      byTinker.cur.who = .tinker ∧ (defers.exitErred = none ∧ defers.warp.deferred ≠ []) ∧
      (load.exitErred = none ∧ load.warp.deferred = [] ∧ load.warp.exited ||| load.active = 0xFFFFFFFF#32 ∧ load.here.slotQuiet 0 = false) ∧
      erred.thread.vpend.find? (·.error.isSome) = some bad ∧ (after .exit erred).here.warp 0 ≠ erred.here.warp 0 ∧ stopped (after .exit erred) = some .memoryUe := by
  decide +kernel


/-- A page of 2 MiB at the offset 0x200000, readable and writable, in the L1 TLB; s1 and s3 point into it, v1 holds four times the lane and v2 sixteen
times. -/
noncomputable def mapped : State :=
  (regs [0x201000#64, 0x201000#64, 0x300000002#64] [vecOf fun l => BitVec.ofNat 32 (4 * l), vecOf fun l => BitVec.ofNat 32 (16 * l)] [1#32]).updHere fun x =>
    { x with l1tlb := [⟨0, 0x200000, 0x200000, true, 0, true, true, false⟩] }

/-- A word whose lanes pass their checks, from what can be computed. -/
theorem passes_of (s : State) (n : Need) (l : List (Nat × Dword)) (hw : ∀ f, s.cur.who ≠ .factor f)
    (h : s.ownTx = none ∧ worst (s.checkLanes n l).1 = none ∧ (s.checkLanes n l).2.lineDeferred (passed (s.checkLanes n l).1) = false) :
    ∃ u pas shg, s.passes n l u pas shg :=
  ⟨(s.checkLanes n l).2, passed (s.checkLanes n l).1, anyShg (s.checkLanes n l).1, hw, h.1, (s.checkLanes n l).1, rfl, h.2.1, rfl, rfl, h.2.2⟩

theorem notFactor_mapped : ∀ f, mapped.cur.who ≠ .factor f := fun _ h => by cases h

/-- Accesses of 4 and of 16 bytes by 32 lanes, and the 64-bit access of a scalar word. -/
theorem witness_LoadsComplete :
    (∃ u pas shg, mapped.passes { size := 4, r := true } (mapped.laneAddrs 1#6 1#6) u pas shg) ∧
      (∃ u pas shg, mapped.passes { size := 16, r := true } (mapped.laneAddrs 1#6 2#6) u pas shg) ∧
      (∃ u pas shg, mapped.passes { size := 8, r := true } [(lowLane mapped.active, mapped.sr 1#6 + mapped.scalarOffset 255#8)] u pas shg) ∧
      mapped.mayWriteS 10 = true :=
  ⟨passes_of _ _ _ notFactor_mapped (by decide +kernel), passes_of _ _ _ notFactor_mapped (by decide +kernel),
    passes_of _ _ _ notFactor_mapped (by decide +kernel), rfl⟩

noncomputable def released : State := (mapped.releaseFrom .none (mapped.scopeOr 2)).2
/-- The same for stores, on a page that no other group shares, and after a release that is complete at once. -/
theorem witness_StoresComplete :
    (∃ u pas shg, mapped.passes { size := 4, w := true } (mapped.laneAddrs 1#6 1#6) u pas shg) ∧
      (∃ u pas shg, mapped.passes { size := 16, w := true } (mapped.laneAddrs 1#6 2#6) u pas shg) ∧
      (∃ u pas shg, mapped.passes { size := 8, w := true } [(lowLane mapped.active, mapped.sr 1#6 + mapped.scalarOffset 0#8)] u pas shg) ∧
      (mapped.releaseFrom .none (mapped.scopeOr 2)).1 = none ∧ (∃ u pas shg, released.passes { size := 8, w := true } (released.laneAddrs 1#6 2#6) u pas shg) ∧
      anyShg (mapped.checkLanes { size := 4, w := true } (mapped.laneAddrs 1#6 1#6)).1 = false ∧ mapped.ownTx = none :=
  ⟨passes_of _ _ _ notFactor_mapped (by decide +kernel), passes_of _ _ _ notFactor_mapped (by decide +kernel),
    passes_of _ _ _ notFactor_mapped (by decide +kernel), by decide +kernel,
    passes_of _ _ _ (fun f h => by rw [show released.cur.who = .warp 0 false from by decide +kernel] at h; cases h) (by decide +kernel),
    by decide +kernel, rfl⟩

theorem witness_AddressesAreFormedAndChecked : (31, 0x20107C#64) ∈ mapped.laneAddrs 1#6 1#6 := by decide +kernel

/-- One address for each cause of the order: a far pointer to another gcol, an odd address, an unmapped one, a page without W, a hole, and an
atomic in an alias range; and an address that passes. -/
theorem witness_AddressesAreFormedAndChecked_faults :
    let ro : TlbEntry := ⟨0, 0x400000, 0x100000000, true, 0, true, false, false⟩
    let s := base.updHere fun x => { x with l1tlb := [⟨0, 0x200000, 0x200000, true, 0, true, true, false⟩, ro] }
    let a := s.updHere fun x => { x with bay := { x.bay with aliasWin := [(0, 0x8000000100000000#64)] } }
    offsetIn s.gcol 0x8080000000000000#64 = none ∧ offsetIn s.gcol 0x200001#64 = some 0x200001 ∧ 0x200001 % 4 ≠ 0 ∧ 0x200004 % 4 = 0 ∧
      (s.pageOf 0x0).1 = none ∧ (s.pageOf 0x400000).1 = some ro ∧ (s.pageOf 0x3FFFFC).1.map (·.w) = some true ∧
      s.here.bay.kindOf s.ctxNum (ro.at_ 0x400000) = .hole ∧ s.here.bay.kindOf s.ctxNum 0x3FFFFC = .hbm ∧
      (worst (s.checkLanes { size := 4, r := true } (s.laneAddrs 0#6 0#6)).1).map (·.1) = some .pageFault ∧
      a.here.bay.kindOf a.ctxNum (ro.at_ 0x400000) = .aliased 0 := by decide +kernel

/-- A fence at workgroup scope and at its default, a release that is complete, one that is not and one that meets an error; lanes that pass for the
cache words, and a lane that PF drops. -/
theorem witness_CacheAndFenceWordsComplete :
    let s := mapped
    let w := under { x := 0#6 } mapped
    let op := mapped.updHere fun x => { x with mops := [{ id := 1, who := .warp 0 false, cache := 0, kind := .store, accs := [] }] }
    let bad : VPend := { id := 2, regs := [.v 1 1#32], error := some (.memoryUe, 1#32, 7#32, 1, false) }
    let erred := mapped.updThread fun t => { t with vpend := [bad] }
    let h : Hold := .fence 2 s.cur.pkt s.cur.wpos .none
    let l := (s.checkLanes { size := 1 } (s.laneAddrs 1#6 1#6)).1
    s.ownTx = none ∧ s.scopeOr 2 = 2 ∧ w.scopeOr 2 = 0 ∧ s.fenceErred 2 = none ∧ ((s.addHold h).releaseFrom .none 2).1 = none ∧
      op.fenceErred 2 = none ∧ ((op.addHold h).releaseFrom .none 2).1 = some .earlier ∧ erred.fenceErred 2 = some bad ∧
      (∀ e ∈ l, e.2.2 = .ok (0x201000 + 4 * e.1) false) ∧ l.length = 32 ∧
      (let r := s.checkLanes { size := 1, r := true } (s.laneAddrs 0#6 0#6)
       (∀ e ∈ r.1, e.2.2 = .bad .pageFault 0) ∧ r.2.lineDeferred ((passed r.1).filter fun p => decide (p.2 / 4294967296 ≠ 1)) = false) := by decide +kernel
/-- The lines of a cache word: of the bay's memory; and, at host scope, of the host tier, clean, dirty in the L1, and on the way to the host. -/
noncomputable def hostPage (wait : Wait) (f : Column → Column) : State :=
  let s := (under { x := 8#6 } mapped).updHere fun x => f { x with l1tlb := [⟨0, 0x200000, 0x300000000, true, 0, true, true, false⟩]
                                                                   bay := { x.bay with rgn := [(0, { ctl := 0x8000000000000001#64, ht := 1#64 })], ctl := 16#64 } }
  { s with cur := { s.cur with wait := wait } }
noncomputable def hostLines (s : State) : List Nat :=
  linesOf (((passed (s.checkLanes { size := 1 } (s.laneAddrs 1#6 1#6)).1).filter fun p => decide (p.2 / 4294967296 ≠ 1)).map Prod.snd)
theorem witness_CacheAndFenceWordsComplete_lines :
    let away (s : State) : Prop := ∃ ln ∈ (hostLines s).filter hostLine, ∃ h ∈ s.here.bay.hostOut, h.2.1 = true ∧ h.1 = ln
    let one := fun (x : Column) => x.setL1 (l1Key 0 (l1Set 0 0x6000020) 0) { line := 0x6000020, valid := 15#4, dirty := 1#128 }
    let v (s : State) : State := s.updHere fun x => (hostLines s).foldl (fun x ln => x.cleanLine false 0 ln) x
    hostLines mapped = [0x4020] ∧ mapped.scopeOr 4 = 4 ∧ mapped.here.mops = [] ∧ mapped.here.claimed mapped.ctxNum 0x4020 = false ∧
      hostLines (hostPage .none id) = [0x6000020] ∧ hostLine 0x6000020 = true ∧ (hostPage .none id).scopeOr 4 = 8 ∧
      ((v (hostPage .none one)).here.puts 0 0x6000020 ≠ []) ∧ (v (hostPage .none id)).here.puts 0 0x6000020 = [] ∧
      away (hostPage .hosted fun x => x.updBay fun b => { b with hostOut := [(0x6000020, true, 0)] }) ∧ ¬ away (hostPage .hosted id) ∧
      (hostPage .hosted id).cur.wait = .hosted := by decide +kernel

/-- Accesses of 4 and 8 bytes with both permissions; no other word of the warp is at their lines. -/
theorem witness_AtomicsAndReductionsCompleteAndCompute :
    (∃ u pas shg, mapped.passes { size := 4, r := true, w := true, atom := true } (mapped.laneAddrs 1#6 1#6) u pas shg) ∧
      (∃ u pas shg, mapped.passes { size := 8, r := true, w := true, atom := true } (mapped.laneAddrs 1#6 2#6) u pas shg) ∧
      (mapped.checkLanes { size := 4, r := true, w := true, atom := true } (mapped.laneAddrs 1#6 1#6)).2.here.mops = [] ∧ mapped.isDet = false :=
  ⟨passes_of _ _ _ notFactor_mapped (by decide +kernel), passes_of _ _ _ notFactor_mapped (by decide +kernel), by decide +kernel, by decide +kernel⟩

/-- A line of four readable sectors in the core's L1, the word of a load that its agent awaits, and that of a store to its last bytes. -/
noncomputable def cached : State :=
  (base.updHere fun x => x.setL1 (l1Key 0 (l1Set 0 0x4020) 0) { line := 0x4020, valid := 15#4, data := 5#1024 }).updThread fun t =>
    { t with vpend := [{ id := 3, regs := [.v 9 1#32] }] }
def aLoad : MemOp := { id := 4, who := .warp 0 false, cache := 0, kind := .load true, accs := [⟨0, 0x201000, 2, 0, 0⟩], dest := [9], lanes := 1#32, vid := 3 }
def aStore : MemOp := { id := 4, who := .warp 0 false, cache := 0, kind := .store, accs := [⟨0, 0x201000, 1, 7, 0⟩, ⟨1, 0x20107C, 4, 9, 0⟩] }
theorem witness_HitsAreExact :
    let x := cached.col 0
    (∀ m ∈ [aLoad, aStore], m.accs ≠ [] ∧ (∀ a ∈ m.accs, lineOf a.pa = 0x4020 ∧ x.isBad a = false ∧ a.pa % 128 + a.size ≤ 128) ∧
      (∀ q ∈ x.mops, q.id ≠ m.id) ∧ x.hitsNow m 0x4020 = true ∧ x.l1Find m.cache 0x4020 = some (l1Key 0 (l1Set 0 0x4020) 0) ∧ m.acquire = none ∧
      m.lu = false ∧ m.fetched = []) ∧ aLoad.bad = 0#32 ∧ aLoad.vid ≠ 0 ∧ (cached.threadOf 0 aLoad.who).vpend.map (·.id) = [aLoad.vid] := by decide +kernel

/-- An atomic add on a line that no cache holds, and a 64-bit one. -/
theorem witness_MissesAndBayWordsArePerformed_atomic :
    let x := base.col 0
    let m : MemOp := { id := 4, who := .warp 0 false, cache := 8, kind := .atom 0, accs := [⟨31, 0x20107C, 4, 7, 0⟩] }
    m.accs.map (·.pa / 128) = [0x4020] ∧ x.isBad ⟨31, 0x20107C, 4, 7, 0⟩ = false ∧ (∀ c < 9, x.l1Find c 0x4020 = none ∧ x.puts c 0x4020 = []) ∧ m.cache < 9 ∧
      x.bay.kindOf m.ctx (128 * 0x4020) = .hbm := by decide +kernel

/-- Doublewords that end at the last byte of local store; one lane beyond it, all aligned; and one misaligned lane. -/
theorem witness_LocalMemoryWordsComplete :
    let s := regs [1024 - 8 * 32, 1024 - 8 * 31, 1#64] [vecOf fun l => BitVec.ofNat 32 (8 * l)] []
    let off (a : BitVec 6) (l : Nat) : Nat := ((s.sr a).toNat + (lane (s.vr 1#6) l).toNat) % 18446744073709551616
    (∀ l ∈ lanesIn s.part, off 1#6 l % 8 = 0 ∧ off 1#6 l + 8 ≤ s.group.size) ∧ off 1#6 31 + 8 = s.group.size ∧ s.ownTx = none ∧
      31 ∈ lanesIn s.part ∧ s.group.size < off 2#6 31 + 8 ∧ (∀ l ∈ lanesIn s.part, off 2#6 l % 8 = 0) ∧ off 3#6 31 % 8 ≠ 0 ∧
      (∀ k ∈ lanesIn s.part, 30 < k → off 1#6 k ≠ off 1#6 30) := by decide +kernel

/-- All lanes at one word, so that each finds what the lane before it left. -/
theorem witness_LocalMemoryWordsComplete_atomics :
    let s := regs [1020#64] [] []
    let off (l : Nat) : Nat := ((s.sr 1#6).toNat + (lane (s.vr 1#6) l).toNat) % 18446744073709551616
    (∀ l ∈ lanesIn s.part, off l % 4 = 0 ∧ off l + 4 ≤ s.group.size) ∧ (∀ k ∈ lanesIn s.part, ¬ k < 0) ∧ 4 ∈ lanesIn s.part ∧ 5 ∈ lanesIn s.part ∧
      off 4 = off 5 ∧ (∀ k ∈ lanesIn s.part, ¬ 31 < k) := by decide +kernel


/-- A transaction of the issuing path, or of another path of its warp. -/
def openTx (path : Nat) : Tx :=
  { path := path, pkt := 4#32, wpos := 1, cond := 5, lanes := 0xFFFFFFFF#32, reads := [(0x201000, 0#8)], lines := [0x4020]
    writes := [(3, 0x201000, 9#8), (0, 0x201000, 8#8)] }
noncomputable def inTx : State := base.updWarp fun w => { w with tx := some (openTx 0) }
noncomputable def byOther : State := base.updWarp fun w => { w with tx := some (openTx 6) }
noncomputable def laneInTx : State := byLane.updWarp fun w => { w with tx := some (openTx 6) }

theorem witness_TransactionWordsComplete :
    base.cur.who = .warp 0 false ∧ base.warp.tx = none ∧ inTx.ownTx = some (openTx 0) ∧ byOther.ownTx = none ∧ byOther.warp.tx = some (openTx 6) ∧
      byLane.cur.who = .lane 0 ∧ byLane.warp.tx = none ∧ laneInTx.cur.who = .lane 0 ∧ laneInTx.warp.tx = some (openTx 6) ∧
      byTinker.cur.who = .tinker ∧ byTinker.mayWriteS 0 = true ∧ (openTx 0).shared = false ∧ ((inTx.performDeferred 0 0).releaseFrom .none 4).1 = none ∧
      (∀ ln ∈ (openTx 0).lines ++ addLines [] ((openTx 0).writes.map fun w => (w.1, w.2.1)),
        ((inTx.performDeferred 0 0).releaseFrom .none 4).2.here.claimed 0 ln = false) ∧ base.mayWriteS 0 = true := by decide +kernel
/-- TEND waits for the commit token in a deterministic launch whose transaction has written a shared page, and for a word not yet performed. -/
theorem witness_TransactionWordsComplete_waits :
    let det := (inTx.updWarp fun w => { w with tx := some { openTx 0 with shared := true } }).setNode 1 { oneLaunch with launch := { oneLaunch.launch with det := true } }
    let op := inTx.updHere fun x => { x with mops := [{ id := 1, who := .warp 0 false, cache := 0, kind := .store, accs := [] }] }
    det.ownTx.map (·.shared) = some true ∧ (det.performDeferred 0 0).isDet = true ∧ (det.performDeferred 0 0).holdsToken 0 0 = false ∧
      ((op.performDeferred 0 0).releaseFrom .none 4).1 = some .earlier ∧ (op.ownTx = some (openTx 0)) := by decide +kernel

/-- A transaction of the issuing path over the mapped page, its sets changed: loads and stores that fit, one line too many of each, a lane without a
page, a far pointer to another gcol, a window, a sector with a mark, and a word that the load waits for. -/
noncomputable def mappedTx (f : Tx → Tx) : State := mapped.updWarp fun w => { w with tx := some (f (openTx 0)) }
theorem witness_TransactionalAccessesComplete :
    let s := mappedTx id
    let n : Need := { size := 4, r := true }
    let r := s.checkLanes n (s.laneAddrs 1#6 1#6)
    let many := addLines ((List.range 64).map fun i => 0x8000 + i) (passed r.1)
    let window := s.updHere fun x => { x with l1tlb := [⟨0, 0x200000, 0x100000000, true, 0, true, true, false⟩] }
    (s.ownTx = some (openTx 0) ∧ (∀ e ∈ r.1, e.2.2.txRank = none) ∧ r.1.length = 32 ∧ r.2.lineDeferred (passed r.1) = false ∧ r.2.here.badSectors = [] ∧
      (addLines (openTx 0).lines (passed r.1)).length ≤ 64 ∧ r.2.here.mops = [] ∧ (∀ p ∈ passed r.1, r.2.here.claimed r.2.ctxNum (p.2 / 128) = false) ∧
      r.2.here.l1 = [] ∧ r.2.here.bay.reqs = []) ∧
      many.length = 65 ∧ (addLines (addLines [] ((List.range 32).map fun i => (i, 128 * i))) (passed r.1)).length = 33 ∧
      ((s.checkLanes n (s.laneAddrs 0#6 0#6)).1.map fun e => e.2.2.txRank).head? = some (some (2 * Cause.pageFault.code)) ∧
      ((window.checkLanes n (window.laneAddrs 1#6 1#6)).1.map fun e => e.2.2.txRank).head? = some (some 25) ∧
      (Checked.bad .cross 0).txRank = some 16 ∧ (s.splitOffsets 1#10 3#7).2 ≠ 0#32 ∧ Instr.unsupportedInTx .fence = true ∧
      ((s.checkLanes { n with w := true, r := false } (s.laneAddrs 1#6 1#6)).1.map fun e => e.2.2.txRank).eraseDups = [none] ∧
      (s.updHere fun x => { x with badSectors := [0x201000 / 32] }).here.badSectors.contains (0x201000 / 32) = true := by decide +kernel
/-- A BRT whose table is read inside a transaction, and an EXIT. -/
theorem witness_TransactionalAccessesComplete_flow :
    let s := (brtImage (9 + 4294967296 * (2 + 4294967296 * 3))).updWarp fun w => { w with tx := some (openTx 0) }
    s.ownTx = some (openTx 0) ∧ (s.tableWords 1 (s.cur.pkt + 1#32)).1.toOption = some [9#32, 2#32, 3#32] ∧ (inTx.decodeCause (Instr.cls .exit)).isNone = true := by
  decide +kernel

/-- The transaction's path in slot A, and a path beside it in slot B. -/
theorem witness_TransactionsAbortOrCommitWhole :
    let s := inTx.updWarp fun w => { w with b := some { uid := 2, lanes := 1#32 } }
    (s.cur.who = .warp 0 false ∧ s.ownTx = some (openTx 0) ∧ 255 < 256 ∧ s.otherSlot (!false) ≠ none) ∧
      ∃ p, ({ openTx 6 with left := some p } : Tx).left = some { p with uid := 6 } ∧ ({ base.warp with a := none } : Warp).a = none :=
  ⟨by decide +kernel, { uid := 6 }, by decide +kernel, by decide +kernel⟩

/-- Every byte read still stands, or one does not; two lanes write one byte. -/
theorem witness_TransactionsAbortOrCommitWhole_commits :
    inTx.cur.who = .warp 0 false ∧ inTx.warp.tx = some (openTx 0) ∧ (∀ c < 9, ∀ ln ∈ [0, 0x4020], inTx.here.l1Find c ln = none ∧ inTx.here.puts c ln = []) ∧ inTx.here.l1 = [] ∧ inTx.here.bay.reqs = [] ∧
      (∀ h ∈ (openTx 0).hints, h.2.2.1 = false) ∧ (∀ w ∈ (openTx 0).writes, w.1 < 32) ∧
      (∀ r ∈ (openTx 0).reads, inTx.here.byteAt inTx.free r.1 = r.2) ∧
      (∃ r ∈ (openTx 0).reads, (inTx.updHere fun x => { x with mem := [(0x201000, 1#8)] }).here.byteAt 0 r.1 ≠ r.2) ∧
      (∀ w ∈ (openTx 0).writes, w.2.1 = 0x201000 → w.1 ≤ 3) := by decide +kernel

/-- Offsets at the end of local store, misaligned, and free; a count of 0, 1 and 65,535; a full table. -/
theorem witness_BarriersAreAllocated :
    let s := regs [1009#64, 1000#64, 1008#64, 0#64, 65535#64] [] []
    let full := base.updHere fun x => { x with barriers := (List.range 256).map fun i => (i, { st := .opened, entry := 1 }) }
    s.ownTx = none ∧ s.mayWriteS 10 = true ∧ s.group.size < (s.sr 1#6).toNat + 16 ∧ (s.sr 2#6).toNat + 16 ≤ s.group.size ∧ (s.sr 2#6).toNat % 16 ≠ 0 ∧
      (s.sr 3#6).toNat + 16 ≤ s.group.size ∧ (s.sr 3#6).toNat % 16 = 0 ∧ (s.sr 4#6).toNat % 65536 = 0 ∧ (s.sr 5#6).toNat % 65536 ≠ 0 ∧
      (s.sr 5#6).toNat < 131072 ∧ (s.here.barrier 0).st = .free ∧ (∀ i < 256, (s.here.barrier i).st = .free) ∧
      (∀ i < 256, (full.here.barrier i).st ≠ .free ∧ (full.here.barrier i).entry ≠ full.entry) := by decide +kernel

/-- Entry 255 open in phase 5 with byte counting, and a group whose warp may take its ticket. -/
noncomputable def barred : State :=
  (regs [0x5FF#64, 0x5FE#64, 0xFFFFFFFFF#64, 0x1000000000#64, 0x3FFA05FF#64, 4#64, 5#64] [] []).updHere fun x =>
    { x with barriers := [(254, { st := .opened, g := 5#24, offset := 16, atgt := 2 }),
                          (255, { st := .opened, g := 5#24, xb := true, atgt := 2, btgt := 0 })] }

theorem witness_BarrierUpdatesComplete :
    barred.ownTx = none ∧ ¬ base.here.barCurrent base.entry 0#64 = true ∧
      (((barred.sr 1#6).toNat / 8589934592 % 2147483648 = 0 ∧ (barred.barAt (barred.sr 1#6)).st = .opened ∧ (barred.barAt (barred.sr 1#6)).entry = barred.entry ∧
        ((barred.barAt (barred.sr 1#6)).g - BitVec.ofNat 24 ((barred.sr 1#6).toNat / 256)).toNat < 4194304)) ∧ barred.here.cmds = [] ∧
      (barred.barAt (barred.sr 1#6)).xb = true ∧ (barred.barAt (barred.sr 2#6)).xb = false ∧ (barred.barAt (barred.sr 2#6)).st = .opened ∧
      (barred.sr 3#6).toNat < 68719476736 ∧ 68719476736 ≤ (barred.sr 4#6).toNat ∧ barred.mayWriteS 10 = true ∧ (barred.releaseFrom .none 2).1 = none ∧
      (barred.releaseFrom .none 2).2.barAt 0x5FF#64 = barred.barAt 0x5FF#64 ∧ (barred.releaseFrom .none 2).2.path = barred.path ∧
      (barred.releaseFrom .none 2).2.cur = barred.cur ∧
      (let s := barred.updHere fun x => { x with cmds := [{ id := 4, kind := .copy, bar := some 0x5FF#64 }] }
       s.here.barCurrent s.entry 0x5FF#64 = true ∧ ∃ k ∈ s.here.cmds, k.entry = s.entry ∧ k.bar = some (s.sr 1#6)) := by decide +kernel
theorem witness_BarrierUpdatesComplete_others : (∀ n w, byLane.cur.who ≠ .warp n w) ∧ byLane.ownTx = none := ⟨fun _ _ h => (by cases h), rfl⟩

/-- A broken entry, and a handle whose entry is free; an agent that is no warp. -/
noncomputable def broken : State :=
  (regs [0x500#64, 0x501#64] [] []).updHere fun x => { x with barriers := [(0, { st := .broken, g := 5#24 })] }
theorem witness_BarrierUpdatesComplete_broken :
    broken.here.barCurrent broken.entry 0x500#64 = true ∧ (broken.barAt 0x500#64).st = .broken ∧ broken.here.barCurrent broken.entry 0x501#64 = false ∧
      broken.mayWriteS 10 = true ∧ broken.cur.who = .warp 0 false ∧ broken.ownTx = none ∧ broken.cur.wait = .none ∧
      stopped (after (.bexp 1#6 2#6) broken) = some .barOvershoot ∧ stopped (after (.bwait 1#6) broken) = some .barOvershoot ∧
      ((after (.bfree 1#6) broken).here.barrier 0).st = .free := by decide +kernel

/-- A handle of the entry's own phase and one of an earlier phase; targets reached and not. -/
theorem witness_BarrierWaitsComplete :
    let s := barred
    let e := s.barAt 0x5FF#64
    s.ownTx = none ∧ s.cur.wait = .none ∧ s.holdsToken 0 0 = false ∧ e.g = BitVec.ofNat 24 (0x5FF / 256) ∧ e.g ≠ BitVec.ofNat 24 (0x4FF / 256) ∧
      (e.g - BitVec.ofNat 24 (0x4FF / 256)).toNat < 4194304 ∧ (e.g - BitVec.ofNat 24 (s.sr 7#6).toNat).toNat < 4194304 ∧
      4194304 ≤ (e.g - BitVec.ofNat 24 6).toNat ∧ s.mayWriteS 10 = true ∧ ({ s.cur with wait := .passed } : Cur).wait = .passed ∧
      s.here.barCurrent s.entry 0x5FF#64 = true ∧ base.here.barCurrent base.entry 0#64 = false := by decide +kernel
theorem witness_BarrierWaitsComplete_ended : ∃ s : State, s.ownTx = none ∧ s.cur.wait = .failed .barOvershoot :=
  ⟨{ base with cur := { base.cur with wait := .failed .barOvershoot } }, rfl, rfl⟩

/-- The holder of the token waits with a deferred word that its bay has not performed. -/
theorem witness_BarrierWaitsComplete_drains :
    let s := (barred.setNode 1 { oneLaunch with launch := { oneLaunch.launch with det := true, tokens := [(0, (0, 0))] } }).updWarp fun w =>
      { w with deferred := [⟨{ id := 1, who := .warp 0 false, cache := 0, kind := .store, accs := [⟨0, 0x201000, 4, 0, 0⟩] }, false⟩] }
    let u := s.passToken 0 0
    s.slot = 0 ∧ u.cur = s.cur ∧ u.slot = 0 ∧ u.holdsToken 0 0 = true ∧ u.warp.deferred.length = 1 ∧ u.barAt 0x5FF#64 = s.barAt 0x5FF#64 := by decide +kernel

/-- A handle in each state, and the tokens of a free and of a taken ticket. -/
noncomputable def futures : State :=
  ((regs [0x8000000000000000#64, 0x8000000000000001#64, 0#64] [] []).updWarp fun w =>
    { w with h := [(1, { st := .pending, cmd := 5 }), (2, { st := .done, unit := 2 }), (3, { st := .faulted, code := 2 }), (15, { st := .pending, unit := 3 })] }).updHere
    fun x => x.setGroup 0 { x.group 0 with tickets := [(0, { st := .pending, cmd := 6 })] }
theorem witness_FutureWordsComplete :
    let s := futures
    s.ownTx = none ∧ (s.handle 0).st = .free ∧ (s.handle 1).st = .pending ∧ (s.handle 1).unit ≠ 3 ∧ (s.handle 2).st = .done ∧ (s.handle 3).st = .faulted ∧
      (s.handle 3).unit ≠ 3 ∧ (s.handle 15).unit = 3 ∧ s.cur.wait = .none ∧ s.here.cmd (s.handle 1).cmd = none ∧ s.here.cmd (s.handle 3).cmd = none ∧
      s.mayWriteS 10 = true ∧ Tab.find? s.group.tickets 1 = none ∧ (∀ m < 1, Tab.find? s.group.tickets m ≠ none) ∧ s.sr 3#6 = 0#64 ∧
      (s.sr 1#6).toNat = 9223372036854775808 + 0 ∧ (Tab.find? s.group.tickets 0).isSome = true ∧ (s.sr 2#6).toNat = 9223372036854775808 + 1 ∧
      s.sr 2#6 ≠ 0#64 := by decide +kernel

/-- A group that holds every ticket. -/
theorem witness_FutureWordsComplete_full : ∃ t : Tab Handle, ∀ n, n < 65536 → Tab.find? t n ≠ none := by
  refine ⟨(List.range 65536).map fun n => (n, {}), fun n hn => ?_⟩
  have key (l : List Nat) : n ∈ l → Tab.find? (l.map fun n => (n, ({} : Handle))) n ≠ none := by
    induction l with
    | nil => simp
    | cons a l ih => by_cases h : a = n <;> simp_all [Tab.find?, eq_comm]
  exact key _ (List.mem_range.mpr hn)

/-- A launch that is not deterministic, and one that is, with and without the token. -/
noncomputable def detBase (tokens : Tab (Nat × Nat)) : State := base.setNode 1 { oneLaunch with launch := { oneLaunch.launch with det := true, tokens := tokens } }
theorem witness_TokenAndDeferredWordsComplete :
    base.ownTx = none ∧ base.isDet = false ∧ (detBase [(0, (0, 0))]).isDet = true ∧ (detBase [(0, (0, 0))]).holdsToken 0 0 = true ∧
      ((detBase [(0, (0, 0))]).releaseFrom .none 4).1 = none ∧ (detBase []).isDet = true ∧ (detBase []).holdsToken 0 0 = false ∧ (detBase []).ownTx = none := by
  decide +kernel

/-- The page shared between groups, in a deterministic launch whose tokens and whose warp's queue are given. -/
noncomputable def sharedDet (tokens : Tab (Nat × Nat)) (queue : List Deferred) : State :=
  ((mapped.updHere fun x => { x with l1tlb := [⟨0, 0x200000, 0x200000, true, 0, true, true, true⟩] }).updWarp fun w => { w with deferred := queue }).setNode 1
    { oneLaunch with launch := { oneLaunch.launch with det := true, tokens := tokens } }
def aDeferred (pa : Nat) : Deferred := ⟨{ id := 1, who := .warp 0 false, cache := 0, kind := .store, accs := [⟨0, pa, 4, 0, 0⟩] }, false⟩
/-- A store, a float reduction and an atomic that all lanes pass, with the token, without it, and with a full queue; and a queued word at the line. -/
theorem witness_TokenAndDeferredWordsComplete_deferred :
    let store : Need := { size := 4, w := true }
    let float : Need := { size := 4, r := true, w := true, atom := true }
    let held := sharedDet [(0, (0, 0))] []
    let free := sharedDet [] []
    let full := sharedDet [] ((List.range 8).map fun i => aDeferred (0x208000 + 128 * i))
    let met := sharedDet [] [aDeferred 0x201000]
    let ok (s : State) (n : Need) : Bool := let r := s.checkLanes n (s.laneAddrs 1#6 1#6)
      (worst r.1).isNone && anyShg r.1 && !r.2.lineDeferred (passed r.1) && r.2.isDet && r.1.length == 32
    (∀ s ∈ [held, free, full], s.cur.who = .warp 0 false ∧ s.ownTx = none ∧ ok s store = true ∧ ok s float = true) ∧
      held.holdsToken 0 0 = true ∧ held.warp.deferred = [] ∧ free.holdsToken 0 0 = false ∧ full.warp.deferred.length = 8 ∧
      (worst (met.checkLanes store (met.laneAddrs 1#6 1#6)).1).isNone = true ∧ met.ownTx = none ∧ met.cur.wait = .none ∧
      (met.checkLanes store (met.laneAddrs 1#6 1#6)).2.lineDeferred (passed (met.checkLanes store (met.laneAddrs 1#6 1#6)).1) = true ∧
      (let r := met.checkLanes { size := 1 } (met.laneAddrs 1#6 1#6)
       (∀ e ∈ r.1, (match e.2.2 with | .bad .cross _ => true | _ => false) = false) ∧
         r.2.lineDeferred ((passed r.1).filter fun q => decide (q.2 / 4294967296 ≠ 1)) = true) := by decide +kernel

/-- The pair 58, 59 in a region and the pair 8, 9; ejection controls within and beyond their fields; a vector of function 0, and the records of a launch. -/
theorem witness_SystemWordsComplete :
    let s := regs [8#64, 9#64, 0x4000000000#64, 0x20#64, 0x201000#64, 0x8080000000000000#64] [] []
    let bound := s.setNode 0 { kind := .service, fn := 2 }
    let bound : State := { bound with host := { bound.host with fns := [(2, { region := some 0, msix := 8 })] } }
    let r := (s.releaseFrom .none 8).2
    let legal (v : Dword) : Prop := v.toNat / 274877906944 = 0 ∧ v.toNat / 32 % 2048 = 0 ∧ v.toNat % 16 ≤ 8
    s.mayWriteS (2 * (4#5).toNat) = true ∧ inRegion.mayWriteS (2 * (23#5).toNat) = false ∧ inRegion.mayWriteS (2 * (24#5).toNat) = true ∧
      legal (s.sr 1#6) ∧ ¬ legal (s.sr 2#6) ∧ ¬ legal (s.sr 3#6) ∧ ¬ legal (s.sr 4#6) ∧ s.cur.who = .warp 0 false ∧ (s.releaseFrom .none 8).1 = none ∧
      (r.host.fn (r.node (r.regionOf r.launchId)).fn).region ≠ some (r.regionOf r.launchId) ∧ (bound.releaseFrom .none 8).1 = none ∧
      (bound.host.fn 2).region = some (bound.regionOf bound.launchId) ∧ (bound.sr 0#6).toNat % 2048 < (bound.host.fn 2).msix ∧
      (futures.handle 1).st = .pending ∧ (s.handle 0).st ≠ .pending ∧ offsetIn s.gcol (s.sr 5#6) = some 0x201000 ∧ offsetIn s.gcol (s.sr 0#6) = some 0 ∧
      (s.releaseFrom .none 7).1 = none ∧ ((s.releaseFrom .none 7).2.handle 0).st ≠ .faulted ∧ (s.releaseFrom .none 7).2.cur.who = .warp 0 false := by decide +kernel


/-- The tinker serves a trap of the warp in slot 1, which is stopped; s1 to s6 hold window addresses of the warp's v63 lane 31, s47, k7, of a space that
has no item, an action 1 and a TLBI word. -/
noncomputable def serving : State :=
  let e : Event := { cause := .userTrap, slot := 1#6 }
  let w : Warp := { live := true, a := some { lanes := 0xFFFFFFFF#32, pkt := 2#32 }, stop := some { cause := .userTrap, pkt := 2#32, nextPkt := 2#32, nextPos := 1 } }
  let s := base.updHere fun x =>
    { x with warps := [(0, oneWarp), (1, w)]
             tinker := { x.tinker with serving := some e
                                       th := { s := [(1, 0x00007E000000003F#64 ||| 0x0000400000000000#64), (2, 0x001040000000002F#64), (3, 0x002040000000000F#64),
                                                     (4, 0x0080400000000000#64), (5, 1#64), (6, 0x10000#64)] } } }
  { s with cur := { s.cur with who := .tinker } }

theorem witness_PrivilegedWordsComplete :
    let s := serving
    let x := s.here
    let slot (r : BitVec 6) : Nat := (s.sr r).toNat / 70368744177664 % 64
    let space (r : BitVec 6) : Nat := (s.sr r).toNat / 4503599627370496 % 16
    let w := x.warp 1
    base.cur.pfx = none ∧ base.cur.who = .warp 0 false ∧ s.cur.who = .tinker ∧ slot 1#6 = 1 ∧ slot 2#6 = 1 ∧ w.th.pend = [] ∧ w.th.vpend = [] ∧
      s.mayWriteS 10 = true ∧ space 1#6 = 0 ∧ (s.sr 1#6).toNat % 2199023255552 = 63 ∧ space 2#6 = 1 ∧ (s.sr 2#6).toNat % 2199023255552 = 47 ∧
      space 3#6 = 2 ∧ (s.sr 3#6).toNat % 2199023255552 = 15 ∧ space 4#6 = 8 ∧ (w.live = true ∧ w.stop ≠ none) ∧
      ((x.warp 0).stop = none ∧ (x.warp 0).rejoin ≠ .parked) ∧ byTinker.here.tinker.serving = none := by decide +kernel
theorem witness_PrivilegedWordsComplete_ends :
    let s := serving
    let e : Event := { cause := .userTrap, slot := 1#6 }
    s.here.tinker.serving = some e ∧ s.eventHeld 0 e = true ∧ e.note = false ∧ e.tier = 0 ∧ (s.here.warp 1).stop.map (·.slotB) = some false ∧
      (s.sr 5#6).toNat % 4 = 1 ∧ (s.sr 0#6).toNat % 4 = 0 ∧ (s.here.resume e true).pathsOk 1 = true ∧ (s.here.resume e false).pathsOk 1 = true ∧
      (s.sr 6#6).toNat % 2 = 0 ∧ byFactor.cur.who = .factor 0 := by decide +kernel

/-- The tinker of a column whose warp 1 is stopped in slot B, or parked, with an ejected lane in context 2; the window address in s1 and the value
in s2 are given. -/
noncomputable def windowAt (win v : Dword) : State :=
  serving.updHere fun x =>
    let w := x.warp 1
    { (x.setWarp 1 { w with b := some { lanes := 1#32, uid := 3 }, stop := w.stop.map fun k => { k with slotB := true }, h := [(3, { st := .faulted, cmd := 9 })] }) with
      ctxs := [(2, { live := true, slot := 1, lane := 4, stop := some { cause := .userTrap } })]
      cmds := [{ id := 9, kind := .mzero, st := .faulted, queue := 5, launch := 1 }]
      tinker := { x.tinker with th := { s := [(1, win), (2, v)] } } }
/-- The window address of an item of a space of warp or context `n` of column 0 (R184). -/
def winAddr (space n item : Nat) : Dword := BitVec.ofNat 64 (4503599627370496 * space + 70368744177664 * n + item)
theorem witness_DebugWindowAndEretComplete :
    let s := windowAt (winAddr 4 1 191) 2#64
    let x := s.here
    let w := x.warp 1
    s.cur.who = .tinker ∧ (s.sr 1#6).toNat / 70368744177664 % 64 = 1 ∧ (s.sr 1#6).toNat % 2199023255552 = 191 ∧ (s.sr 1#6).toNat / 4503599627370496 % 16 = 4 ∧
      (∀ p ∈ [(1, 63), (1, 79), (2, 15), (3, 31), (4, 8), (5, 1016), (6, 511)],
        let a := (windowAt (winAddr p.1 1 p.2) 0#64).sr 1#6
        a.toNat / 4503599627370496 % 16 = p.1 ∧ a.toNat % 2199023255552 = p.2) ∧
      w.th.pend = [] ∧ w.th.vpend = [] ∧ s.mayWriteS 10 = true ∧ w.a.isSome = true ∧ w.b.isSome = true ∧ (x.tinker.serving.any (·.note)) = false ∧
      (x.group w.entry).size = 1024 ∧ w.live = true ∧ w.stop.isSome = true ∧ (s.sr 2#6).toNat = 2 ∧
      (x.cmd (Tab.get ({} : Handle) w.h 3).cmd).map (·.id) = some 9 ∧ (Tab.get ({} : Handle) w.h 3).st = .faulted ∧ (x.cmd 9).map (·.atStop) = some true := by decide +kernel
/-- Items of a lane's context, that may and that may not be written; actions of ERET for slot B, for the lane and for a notification. -/
theorem witness_DebugWindowAndEretComplete_lanes :
    let s := windowAt (winAddr 7 2 247) 1#64
    let x := s.here
    let c := x.ctx 2
    let ev (e : Event) : State := s.updHere fun y => { y with tinker := { y.tinker with serving := some e } }
    let lane : Event := { cause := .userTrap, slot := 1#6, tier := 1, ctx := 2#5 }
    let note : Event := { cause := .engineFault, slot := 1#6, note := true }
    (s.sr 1#6).toNat / 4503599627370496 % 16 = 7 ∧ (s.sr 1#6).toNat / 70368744177664 % 64 = 2 ∧ c.th.pend = [] ∧ c.th.vpend = [] ∧ c.live = true ∧
      c.stop.isSome = true ∧ c.lane < 256 ∧ ((windowAt (winAddr 7 3 0) 0#64).here.ctx 3).live = false ∧
      s.eventHeld 0 { cause := .userTrap, slot := 1#6 } = true ∧ (x.warp 1).stop.map (·.slotB) = some true ∧
      (ev lane).eventHeld 0 lane = true ∧ (ev note).eventHeld 0 note = true ∧ (ev { note with slot := 2#6 }).eventHeld 0 { note with slot := 2#6 } = false ∧
      (x.resume lane false).pathsOk 1 = false ∧ (s.sr 2#6).toNat % 4 = 1 ∧ (s.node (x.group 0).launch).launch.tokens = [] ∧
      ((s.node (x.group 0).launch).launch.groupOf (x.group 0).gid).place = .resident 0 := by decide +kernel

/-- The path state passes its check: a path in each slot, the trap in slot B, and a lane of the warp out at its home region, trapped. -/
theorem witness_DebugWindowAndEretComplete_resumes :
    let e : Event := { cause := .userTrap, slot := 1#6 }
    let lane : Event := { e with tier := 1, ctx := 2#5 }
    let two := serving.updHere fun x => let w := x.warp 1
      x.setWarp 1 { w with a := some { lanes := 0xFFFFFFFE#32 }, b := some { lanes := 1#32, uid := 3 }, stop := w.stop.map fun k => { k with slotB := true } }
    let out := serving.updHere fun x => let w := x.warp 1
      { (x.setWarp 1 { w with a := some { lanes := 0xFFFFFFF7#32 }, stop := none, stack := { frames := [(0, { kind := 1#8, join := 9#32, epoch := 1#16, lanes := 0xFF#32, out := 8#32 })] } }) with
        ctxs := [(2, { live := true, slot := 1, lane := 3, stop := some { cause := .userTrap }, home := ⟨9#32, 1#16⟩, path := { lanes := 8#32, token := some ⟨9#32, 1#16⟩ } })] }
    (two.here.resume e true).pathsOk 1 = true ∧ (two.here.warp 1).stop.map (·.slotB) = some true ∧ two.eventHeld 0 e = true ∧
      (out.here.resume lane true).pathsOk 1 = true ∧ (out.here.ctx 2).stop.isSome = true ∧ out.eventHeld 0 lane = true := by decide +kernel

/-- Records at offset 0 and at the last place where one fits, misaligned and past the end; one with a barrier handle; a queue that is full; and a command
that has faulted with the bit of its report set. -/
noncomputable def withRecords : State :=
  ((regs [0#64, 704#64, 624#64, 712#64, 720#64, 8#64] [] []).updWarp fun w => { w with h := [(1, { st := .pending }), (3, { st := .faulted, unit := 0, cmd := 9 })] }).updHere
    fun x => { x.setGroup 0 { x.group 0 with store := [(269, 1#8)] } with cmds := [{ id := 9, kind := .copy, st := .faulted }] }
theorem witness_EngineWordsIssue :
    let s := withRecords
    let r := (s.releaseFrom .none 4).2
    let img := recOf false (Memory.readBytes s.group.store 0 320)
    let marked := recOf false (Memory.readBytes [(206, 1#8)] 0 320)
    s.ownTx = none ∧ (s.handle 1).st = .pending ∧ (s.handle 0).st = .free ∧ (s.sr 2#6).toNat + 320 = s.group.size ∧ (s.sr 2#6).toNat % 16 = 0 ∧
      (s.sr 3#6).toNat + 400 = s.group.size ∧ s.group.size < (s.sr 5#6).toNat + 320 ∧ (s.sr 6#6).toNat % 16 ≠ 0 ∧ img.bar = false ∧ img.coords = none ∧
      marked.bar = true ∧ 64 < (63#6).toNat + 2 ∧ s.settledRegs ∧ (s.releaseFrom .none 4).1 = none ∧ (r.handle 0).st ≠ .faulted ∧
      r.here.queueRoom r.entry 0 = true ∧ r.here.queueRoom r.entry 4 = true ∧ r.cur.who = .warp 0 false ∧
      ((s.handle 0).st ≠ .faulted) ∧ (s.handle 3).st = .faulted ∧ (s.handle 3).unit ≤ 1 ∧ (s.here.cmd (s.handle 3).cmd).map (·.id) = some 9 ∧
      fieldOf (Memory.readBytes s.group.store 0 320) (img.rep + 13) 1 = 1 ∧ (r.here.cmd 9).isSome = true := by
  unfold State.settledRegs; decide +kernel
theorem witness_EngineWordsIssue_full :
    ({ base.here with cmds := (List.range 8).map fun i => ({ id := i, kind := .copy } : Command) } : Column).queueRoom 0 0 = false := by decide +kernel

/-- The same for the thresher's words, with records of 64 and 128 bytes, and a queue of 16. -/
theorem witness_ThresherWordsIssue :
    let s := regs [896#64, 960#64, 8#64, 1000#64] [] []
    let r := (s.releaseFrom .none 4).2
    let full := s.updHere fun x => { x with cmds := (List.range 16).map fun i => ({ id := i, kind := .mzero, launch := 1, queue := 5 } : Command) }
    s.cur.who = .warp 0 false ∧ s.ownTx = none ∧ (futures.handle 1).st = .pending ∧ (s.handle 0).st ≠ .pending ∧ (s.sr 1#6).toNat + 128 = s.group.size ∧
      (s.sr 2#6).toNat + 64 = s.group.size ∧ (s.sr 3#6).toNat % 16 ≠ 0 ∧ s.group.size < (s.sr 4#6).toNat + 64 ∧ s.settledRegs ∧
      (s.releaseFrom .none 4).1 = none ∧ (r.handle 0).st ≠ .faulted ∧ r.cur.who = .warp 0 false ∧
      (r.here.cmds.filter fun k => decide (k.launch = r.launchId) && decide (k.queue = 5)).length < 16 ∧ (full.releaseFrom .none 4).1 = none ∧
      ((full.releaseFrom .none 4).2.here.cmds.filter fun k => decide (k.launch = 1) && decide (k.queue = 5)).length = 16 ∧
      fieldOf (Memory.readBytes [(35, 2#8)] 0 64) 35 1 / 2 % 2 = 1 := by unfold State.settledRegs; decide +kernel

/-- A share of 4 KiB and one tile; s1 an extent of 4 KiB, s2 a TS8 form, s3 an extent of 0, s4 the handle of grant 15. -/
noncomputable def cribbed (live : Nat) : State :=
  (regs [0x40000#64, 0x2010#64, 0#64, 0x50F#64] [] []).updHere fun x =>
    { x with cribs := [(1, { live := true, kib := 4, tiles := 1, window := 0x600000 })]
             grants := (List.range live).map fun i => (i, { live := true, launch := 2 }) }
theorem witness_CribWordsComplete :
    let s := cribbed 0
    let held := (cribbed 0).updHere fun x => { x with grants := [(15, { live := true, launch := 1, gen := 5#24, size := 4 })] }
    let named := held.updHere fun x => { x with cmds := [{ id := 4, kind := .mldw, launch := 1, queue := 5, x := 0x50F#64 }] }
    s.cur.who = .warp 0 false ∧ s.ownTx = none ∧ s.mayWriteS 10 = true ∧ (s.sr 1#6).toNat / 65536 % 2048 = 4 ∧ (s.sr 2#6).toNat / 256 % 256 = 32 ∧
      (s.sr 2#6).toNat % 256 ∈ [1, 3, 4, 5, 6, 7, 16, 17, 18, 19] ∧ (s.here.share s.launchId).kib = 4 ∧ (s.sr 3#6).toNat / 65536 % 2048 = 0 ∧
      (∀ i < 16, (s.here.grant i).live = false) ∧ (∀ i < 16, ((cribbed 16).here.grant i).live = true ∧ ((cribbed 16).here.grant i).launch ≠ 1) ∧
      ((held.sr 4#6).toNat / 4294967296 = 0 ∧ (held.sr 4#6).toNat / 16 % 16 = 0 ∧ (held.here.grant ((held.sr 4#6).toNat % 16)).live = true ∧
        (held.here.grant 15).launch = held.launchId ∧ (held.here.grant 15).gen.toNat = (held.sr 4#6).toNat / 256 % 16777216) ∧
      held.grantNamed 0 held.launchId (held.sr 4#6) = false ∧ named.grantNamed 0 named.launchId (named.sr 4#6) = true ∧
      (s.here.grant ((s.sr 4#6).toNat % 16)).live = false ∧ (s.here.share s.launchId).tiles ≤ (1#2).toNat ∧
      (0#2).toNat < (s.here.share s.launchId).tiles := by decide +kernel

/-- A gang of two columns; s1 to s5 hold a partner's distance, one past the gang, a bad word, a gather's word with a misaligned offset and one without room. -/
noncomputable def ganged : State :=
  (regs [1#64, 2#64, 0x100#64, 0x1000000000#64, 0x38000000000#64] [] []).setNode 1
    { oneLaunch with launch := { oneLaunch.launch with map := [0, 1], gang := 3 } }
theorem witness_ExchangeWordsComplete :
    let s := ganged
    let r := (s.releaseFrom .none 5).2
    s.cur.who = .warp 0 false ∧ s.ownTx = none ∧ s.thread.vpend = [] ∧ s.gcol = 0 ∧ s.launch.map.length = 2 ^ 1 ∧ (s.sr 1#6).toNat % 256 < 2 ∧
      ¬ (s.sr 2#6).toNat % 256 < 2 ∧ ¬ (s.sr 3#6).toNat < 256 ∧ s.group.localGroup < 16 ∧ s.group.size < (s.sr 5#6).toNat / 4294967296 + 128 * 2 ∧
      (s.sr 4#6).toNat / 4294967296 % 128 = 16 ∧ (s.sr 0#6).toNat / 4294967296 + 128 * 2 ≤ s.group.size ∧ s.warp.xch = none ∧ s.freeMid 0 = some 0 ∧
      s.here.nifCore.backlog.length + 2 * 1 ≤ 512 ∧ s.here.mail = [] ∧ (s.releaseFrom .none 5).1 = none ∧ r.cur.who = .warp 0 false ∧ r.holdsToken 0 0 = false ∧
      r.freeMid 0 = some 0 ∧ r.here.nifCore.backlog.length < 512 := by decide +kernel
theorem witness_ExchangeWordsComplete_waits :
    (∃ s : State, s.cur.who = .warp 0 false ∧ s.warp.xch ≠ none ∧ s.group.localGroup < 16) ∧ ∃ s : State, s.cur.who = .warp 0 false ∧ 16 ≤ s.group.localGroup :=
  ⟨⟨base.updWarp fun w => { w with xch := some { kind := 0, parity := 0, mid := 0 } }, by decide +kernel⟩,
    ⟨base.updHere fun x => x.setGroup 0 { x.group 0 with localGroup := 16 }, by decide +kernel⟩⟩

/-- Every kind of agent that takes a trap. -/
theorem witness_TrapsAreTaken :
    base.cur.who = .warp 0 false ∧ byLane.cur.who = .lane 0 ∧ byTinker.cur.who = .tinker ∧ byFactor.cur.who = .factor 0 := ⟨rfl, rfl, rfl, rfl⟩

/-- A word of the tinker's outside it, a field that a word does not accept, a role that may not issue, an ejected lane's matrix word, and a word taken. -/
theorem witness_DecodingIsCheckedFirst :
    let m := base.updWarp fun w => { w with role := .copy }
    Instr.isWord (.tlbi 0#6 0#6) = true ∧ Instr.asPfx (.tlbi 0#6 0#6) = none ∧ (Instr.tlbi 0#6 0#6).cls.tinkerOnly = true ∧ base.cur.who = .warp 0 false ∧
      (Instr.sadd 0#6 0#6 0#6).cls.admits { sat := true } = false ∧ (Instr.mswap 0#4).cls.role.allows m.warp.role = false ∧
      (Instr.mswap 0#4).cls.tinkerOnly = false ∧ (Instr.mswap 0#4).cls.role = .matrix ∧ (Instr.sadd 0#6 0#6 0#6).cls.role.allows m.warp.role = true ∧
      byLane.cur.who = .lane 0 := by decide +kernel

theorem witness_ComputingWordsWriteTheirRegisters :
    Instr.computes (.iadd 1#6 2#6 3#6) = true ∧ Instr.computes (.sadd 1#6 2#6 3#6) = true ∧ Instr.computes (.fold 1#6 2#6 3#6) = true ∧
      base.takes (.iadd 1#6 2#6 3#6) := ⟨by decide +kernel, by decide +kernel, by decide +kernel, rfl⟩

/-- A well-formed word of each form, with every control bit that it admits. -/
theorem witness_EncodingsRoundTrip :
    ∀ p ∈ [((⟨true, true, 7#3⟩ : Ctl), Instr.iadd 63#6 63#6 63#6), (⟨false, true, 7#3⟩, .jmp 0xFFFFF#20), (⟨false, false, 0#3⟩, .pfx 7#3 1#1 4#3 63#6 3#2 3#2 1#1 1#1 1#1)],
      p.2.isWord = true ∧ p.2.wf = true ∧ p.2.ctlOk p.1 = true := by decide +kernel
theorem witness_EncodingsRoundTrip_words : decodeWord 0xFFF00000#32 = .error (.opcode 0x7F#7) ∧ decodeWord 0xC10FFFFC#32 = .ok (⟨true, true, 0#3⟩, .iadd 63#6 63#6 63#6) := ⟨rfl, rfl⟩


/-- The first step after reset with SLI s1, 5 placed. -/
noncomputable def placed (w : Nat) : State := State.reset.withFetchWord 32 w
noncomputable def begun (s : State) : State := ({ s with free := s.free + 1, agenda := [] } : State).beginTurn 0 (.warp 0 false)
noncomputable def fetched (s : State) : Except Cause (List Word) × State := (begun s).fetchPacket (begun s).path.pkt
noncomputable def settledAt (s : State) : State := (fetched s).2.settleHolds
noncomputable def oneMember : Member := { pos := 0, base := 0, word := 0x00104005#32, pfx := none }
noncomputable def readied (s : State) (ws : List Word) (m : Member) : State :=
  ((settledAt s).occupy [m]).toMember ((settledAt s).unitInfo ws [m]) m m.pos
theorem witness_StepRunsTheDecodedInstruction :
    (placed 0x00104005).agenda = [.issue 0 (.warp 0 false)] ∧ (placed 0x00104005).clocksStopped = false ∧
      ({ placed 0x00104005 with free := 1, agenda := [] } : State).mayIssue 0 (.warp 0 false) = true ∧
      (fetched (placed 0x00104005)).1.toOption = some [0x00104005#32, 0#32, 0#32] ∧
      misplaced {} (membersOf 0 [0x00104005#32, 0#32, 0#32]) = none ∧ (fetched (placed 0x00104005)).2.unitIn [0x00104005#32, 0#32, 0#32] = [oneMember] ∧
      (settledAt (placed 0x00104005)).holdsUnit [oneMember] = false ∧ (settledAt (placed 0x00104005)).blocks [oneMember] 0 = false ∧
      oneMember.pos = (settledAt (placed 0x00104005)).path.wpos ∧
      (readied (placed 0x00104005) [0x00104005#32, 0#32, 0#32] oneMember).checking = false ∧
      ((readied (placed 0x00104005) [0x00104005#32, 0#32, 0#32] oneMember).meets (.sli 1#6 5#14) none).map (·.error) = [] := by decide +kernel
theorem witness_StepRunsTheDecodedInstruction_decodes :
    (readied (placed 0x00104005) [0x00104005#32, 0#32, 0#32] oneMember).decodeMember oneMember = .run (.sli 1#6 5#14) := by rfl
/-- An ejected lane whose gleaner does not hold its packet's words fetches them first, and holds them when the line has come. -/
noncomputable def laneFetch : State :=
  (byLane.updHere fun x => { x with l2tlb := [⟨0, 0x200000, 0x200000, true, 0, true, true, false⟩] }).setNode 1
    { oneLaunch with launch := { oneLaunch.launch with task := { code := 0x200000, codelen := 20 } } }
theorem witness_StepRunsTheDecodedInstruction_lane :
    let held := laneFetch.updHere fun x => x.setL1 (l1Key 1 (l1Set 1 0x4000) 0) { line := 0x4000, valid := 15#4 }
    laneFetch.codeMisses 9#32 = [0x20006C, 0x200070, 0x200074] ∧ held.codeMisses 9#32 = [] ∧
      (laneFetch.startFetch [0x20006C]).here.mops.map (·.kind) = [.fetch] ∧ (laneFetch.startFetch [0x20006C]).path.wait = .code ∧
      (begun (placed 0x00104005)).codeMisses (begun (placed 0x00104005)).path.pkt = [] ∧
      (settledAt (placed 0x00104005)).stoppedAt 0 (.warp 0 false) = false ∧ (settledAt (placed 0x00104005)).tableMisses [oneMember] = [] := by decide +kernel
/-- The step itself: the result is pending. -/
theorem test_step_runs_the_first_word :
    (match step (placed 0x00104005) with | .next t => (t.threadOf 0 (.warp 0 false)).pend.map (·.write) | _ => []) = [.s 0 1 5#64] := by decide +kernel


/-- Reset's memory is in the canonical form, and a step from a state with a NOP placed is one. -/
theorem witness_MemoryStaysCanonical :
    (∀ e ∈ (State.reset.withFetchWord 32 0).cols, Memory.wf e.2.mem = true) ∧ Memory.wf (State.reset.withFetchWord 32 0).host.mem = true ∧
      (match step (State.reset.withFetchWord 32 0) with | .next _ => true | _ => false) = true := by decide +kernel

/-! ## Witnesses and tests: steps that no word encodes

Each state below enables a step; the theorem gives the hypotheses of its clause, and that the step changes the state. -/

/-- Column 0 of the small machine changed. -/
noncomputable def colWith (f : Column → Column) : State := base.updHere f
/-- A step happens at a state: it answers another one. -/
abbrev moves (i : Instr) (s : State) : Prop := (after i s == s) = false
/-- A memory word and a request of the small machine's warp. -/
def aReq : Req := { id := 5, cache := 0, line := 0x4020, sectors := 1#4, op := 4, who := .warp 0 false }

noncomputable def evArb : State := colWith fun x => { x with quarters := [] }
noncomputable def evLand : State := base.updThread fun t => { t with vpend := [{ id := 3, regs := [.v 9 1#32], value := some [.v 9 1#32 (splat 5#32)] }] }
noncomputable def evSleep : State := base.updPath fun p => { p with wait := .until 0 }
noncomputable def evPark : State := { colWith fun x => x.setWarp 0 { oneWarp with rejoin := .waiting } with clk := 65536 }
noncomputable def evStart : State := colWith fun x => { x with ctxs := [(0, { live := true, starting := true, lane := 3, path := { lanes := 8#32 } })], port := [⟨0, false, 0⟩] }
noncomputable def evEarlier : State :=
  colWith fun x => { x with
    ctxs := [(0, { live := true, starting := true, lane := 3, path := { uid := 9, lanes := 8#32 } })]
    mops := [{ id := 1, who := .warp 0 false, cache := 0, kind := .store, accs := [] }] }
noncomputable def evReturn : State :=
  colWith fun x => { x with
    warps := [(0, { oneWarp with a := some { lanes := 0xF7#32, token := some ⟨9#32, 1#16⟩ }
                                 stack := { frames := [(0, { kind := 1#8, join := 9#32, epoch := 1#16, lanes := 0xFF#32, out := 8#32 })] } })]
    ctxs := [(0, { live := true, leaving := true, lane := 3, path := { lanes := 8#32, token := some ⟨9#32, 1#16⟩ }, home := ⟨9#32, 1#16⟩ })], port := [⟨0, true, 0⟩] }
theorem witness_CoreStepsHappen_core :
    ((evArb.col 0).quarter 0).run = none ∧ ((evArb.col 0).quarter 0).arb ≤ evArb.clk ∧ (evArb.readyQuarter 0 0).liveIn 0 0 = [0] ∧
      ((evArb.readyQuarter 0 0).eligible 0 0 false).1 = true ∧ ((evArb.readyQuarter 0 0).eligible 0 0 true).1 = false ∧ moves (.runArbitration 0 0) evArb ∧
      ((evLand.col 0).warp 0).xch = none ∧ (evLand.threadOf 0 (agentOf 0)).pend = [] ∧
      (evLand.threadOf 0 (agentOf 0)).vpend.map (·.value) = [some [.v 9 1#32 (splat 5#32)]] ∧
      moves (.variableLatencyLand 0 0 3) evLand ∧
      (evSleep.pathOf 0 (.warp 0 false)).wait = .until 0 ∧ moves (.sleepExpire 0 0 false) evSleep ∧
      ((evPark.col 0).warp 0).live = true ∧ ((evPark.col 0).warp 0).rejoin = .waiting ∧
      ((evPark.col 0).warp 0).limit.toNat * 1024 = ((evPark.col 0).warp 0).timerAt evPark.clk ∧ moves (.rejoinTimeout 0 0) evPark := by decide +kernel
theorem witness_CoreStepsHappen_lanes :
    ((evStart.col 0).ctx 0).live = true ∧ ((evStart.col 0).ctx 0).starting = true ∧ (evStart.col 0).portDone 0 false evStart.clk = true ∧
      ((evStart.col 0).warp 0).deferred = [] ∧ ((evStart.col 0).handOver 0).1 = some 0 ∧ ((evStart.col 0).handOver 0).2.portDone 0 false 0 = true ∧
      moves (.laneContextStart 0 0) evStart ∧
      ((evEarlier.col 0).ctx 0).drain = none ∧ (∃ m ∈ (evEarlier.col 0).mops, m.who.base = .warp 0 false ∧ m.id < ((evEarlier.col 0).ctx 0).path.uid) ∧
      ((evEarlier.col 0).handOver 0).1 = none ∧ ((after (.laneContextStart 0 0) evEarlier).here.ctx 0).starting = true ∧
      ((evReturn.landDue 0 (.lane 0)).col 0).ctx 0 = (evReturn.col 0).ctx 0 ∧ ((evReturn.col 0).ctx 0).starting = false ∧
      (((evReturn.landDue 0 (.lane 0)).col 0).ctx 0).live = true ∧ (((evReturn.landDue 0 (.lane 0)).col 0).ctx 0).leaving = true ∧
      ((evReturn.landDue 0 (.lane 0)).col 0).portDone 0 true evReturn.clk = true ∧ moves (.laneReturn 0 0) evReturn := by decide +kernel

noncomputable def evHeld : State := colWith fun x => x.updBay fun b => { b with reqs := [{ aReq with held := true, refused := 2 }] }
noncomputable def evFresh : State := colWith fun x => x.updBay fun b => { b with reqs := [aReq] }
noncomputable def evMarked : State := colWith fun x => x.updBay fun b => { b with reqs := [aReq], migrating := [(0x200000, 0x200000)] }
noncomputable def evStands : State := colWith fun x => x.updBay fun b => { b with reqs := [{ aReq with admitted := true, stands := true }] }
noncomputable def evSent : State := { colWith fun x => x.updBay fun b => { b with reqs := [{ aReq with admitted := true, stands := true, till := 5 }] } with clk := 5 }
noncomputable def evFill : State := colWith fun x => x.updBay fun b => { b with flights := [⟨1, 0x4020, 0, false⟩] }
theorem witness_CoreStepsHappen_slices :
    moves (.nackRetry 0 5) evHeld ∧ (evFresh.col 0).requestReady evFresh.clk aReq = true ∧ (evFresh.col 0).bay.refusal evFresh.clk aReq = none ∧
      ((evFresh.col 0).bay.slice ((evFresh.col 0).bay.sliceFor aReq)).next ≤ evFresh.clk ∧
      ((evFresh.col 0).admitFrom evFresh.clk ((evFresh.col 0).bay.sliceFor aReq)).map (·.1) = some 5 ∧
      moves (.sliceRequest 0 5) evFresh ∧ (evMarked.col 0).requestReady evMarked.clk aReq = true ∧ (evMarked.col 0).bay.refusal evMarked.clk aReq = some 2 ∧
      moves (.sliceRequest 0 5) evMarked ∧ (evStands.col 0).claimed 0 0x4020 = false ∧ moves (.sliceRequest 0 5) evStands ∧ moves (.sliceRequest 0 5) evSent ∧
      evSent.clk = 5 ∧ (evSent.col 0).claimed 0 0x4020 = false ∧ (evSent.col 0).bay.kindOf 0 (128 * 0x4020) = .hbm ∧
      ((evFill.col 0).bay.flights.find? fun f => decide (f.line = 0x4020) && decide (f.lands ≤ evFill.clk)).map (·.slice) = some 1 ∧ (evFill.col 0).bay.reqs = [] ∧ moves (.hbmFill 0 0x4020) evFill := by decide +kernel

/-- The request of a word that its slice serves at cycle 5, and one whose sectors have come to the core's L1, which holds a line. -/
noncomputable def asked (m : MemOp) (r : Req) (l : Tab CacheLine) : State :=
  { colWith fun x => { x with mops := [m], l1 := l, bay := { x.bay with reqs := [r] } } with clk := 5 }
def servedReq : Req := { aReq with id := 6, admitted := true, stands := true, till := 5 }
def arrivedReq : Req := { aReq with id := 6, atL1 := true, missed := true, due := 5 }
def fourth : Acc := ⟨0, 0x201000, 4, 9, 0⟩
def wordOp (kind : MemKind) : MemOp := { id := 4, who := .warp 0 false, cache := 0, kind := kind, accs := [fourth], dest := [9], lanes := 1#32, vid := 3, bypass := true }
noncomputable def lineAt (l : CacheLine) : Tab CacheLine := [(l1Key 0 (l1Set 0 0x4020) 0, l)]
theorem witness_MissesAndBayWordsArePerformed :
    let load := { wordOp (.load true) with bypass := false }
    let s := asked load servedReq []
    let x := s.col 0
    ((x.bay.reqs.find? fun q => decide (q.id = 6)) = some servedReq ∧ servedReq.stands = true ∧ servedReq.till ≠ 0 ∧ servedReq.till ≤ s.clk ∧
      servedReq.eng.isNone = true ∧ servedReq.put.isNone = true ∧ x.claimed 0 0x4020 = false ∧ x.bay.kindOf 0 (128 * 0x4020) = .hbm ∧ x.mopOf servedReq = some load) ∧
      x.bypasses load 0x4020 = false ∧ (∀ c, c < 9 → x.l1Find c 0x4020 = none ∧ x.puts c 0x4020 = []) ∧ servedReq.sectors &&& ~~~x.badOf 0x4020 ≠ 0#4 ∧
      load.accs ≠ [] ∧ (∀ a ∈ load.accs, a.pa / 128 = 0x4020 ∧ a.size = 4 ∧ a.pa % 4 = 0 ∧ x.isBad a = false) ∧ load.vid ≠ 0 ∧ load.bad = 0#32 := by decide +kernel
/-- A load, and a store, whose sectors have come. -/
theorem witness_MissesAndBayWordsArePerformed_arrived :
    ∀ k ∈ [MemKind.load true, .store], let m := { wordOp k with bypass := false }
      let s := asked m arrivedReq (lineAt { line := 0x4020, valid := 15#4, data := 5#1024 })
      let x := s.col 0
      (x.bay.reqs.find? fun q => decide (q.id = 6)) = some arrivedReq ∧ arrivedReq.due ≤ s.clk ∧ x.mopOf arrivedReq = some m ∧ x.l1Waits m 0x4020 true = false ∧
        x.l1Lacks m 0x4020 true = 0#4 ∧ x.l1Find 0 0x4020 = some (l1Key 0 (l1Set 0 0x4020) 0) ∧ (x.l1Line (l1Key 0 (l1Set 0 0x4020) 0)).u = none ∧
        x.bypasses m 0x4020 = false ∧ m.fetched = [] ∧ m.acquire = none ∧ m.lu = false := by decide +kernel
/-- Lines that the L1 has sent, with dirty bytes and with a partial; a RED of a line that no cache holds and of one with a partial; and words at the bay. -/
theorem witness_MissesAndBayWordsArePerformed_bay :
    let put (l : CacheLine) := asked (wordOp .store) { servedReq with op := 0, put := some l } []
    let red : MemOp := { wordOp (.red 1) with vid := 0, bypass := false }
    let cold := asked (wordOp .store) servedReq []
    let part : CacheLine := { line := 0x4020, dirty := 15#128, u := some 1 }
    let warm := asked { wordOp .store with id := 9, who := .tinker } servedReq (lineAt part)
    (∀ l ∈ [({ line := 0x4020, dirty := 0xF0#128 } : CacheLine), part], let s := put l
      (s.here.bay.reqs.find? fun q => decide (q.id = 6)).map (·.put) = some (some l) ∧ s.here.l1 = [] ∧ s.here.claimed 0 0x4020 = false ∧
        s.here.bay.kindOf 0 (128 * 0x4020) = .hbm) ∧
      (cold.here.l1Find 0 0x4020).isNone = true ∧ (∀ q ∈ cold.here.mops, q.id ≠ 7) ∧ cold.here.waitsTurn { red with id := 3 } 0x4020 = false ∧
      cold.here.bypasses red 0x4020 = false ∧ warm.here.l1Find 0 0x4020 = some (l1Key 0 (l1Set 0 0x4020) 0) ∧
      (warm.here.l1Line (l1Key 0 (l1Set 0 0x4020) 0)).u = some 1 ∧ warm.here.waitsTurn red 0x4020 = false ∧ (∀ q ∈ warm.here.mops, q.id ≠ red.id) ∧
      (∀ k ∈ [MemKind.atom 0, .redBay 3], (asked (wordOp k) servedReq []).here.mopOf servedReq = some (wordOp k) ∧ (wordOp k).bypass = true ∧ (wordOp k).ctx = servedReq.region) := by
  decide +kernel

/-- Window 0 over blocks of MXFP8 at frame 0, read and written by words at its first line, 0x100000000. -/
noncomputable def windowed (kind : MemKind) : State :=
  (asked { wordOp kind with accs := [{ fourth with pa := 0x100000000 }] } { servedReq with line := 0x2000000 } []).updHere fun x =>
    x.updBay fun b => { b with aliasWin := [(0, 0x8000000100000000#64)], aliasBack := [(0, 0#64)] }
theorem witness_WindowAccessesConvert :
    ∀ k ∈ [MemKind.load true, .store], let x := (windowed k).col 0
      let back := Tab.get 0#64 x.bay.aliasBack 0
      (back.extractLsb' 52 4).toNat < 4 ∧ x.bay.kindOf 0 (128 * 0x2000000) = .aliased 0 ∧ x.claimed 0 0x2000000 = false ∧
        (x.mopOf { servedReq with line := 0x2000000 }).map (·.kind) = some k ∧ x.l1 = [] ∧ (x.bay.reqs.all fun r => r.put.isNone) = true ∧
        x.aliasBad 0 { fourth with pa := 0x100000000 } = false ∧ x.isBad { fourth with pa := 0x100000000 } = false ∧
        (x.backOf 0 0x2000000).eraseDups = [0, 1] := by decide +kernel

def anEvent : Event := { cause := .userTrap, slot := 63#6, info := 9#32, lanes := 0x80000001#32, pc := 5#32, wpos := 2#2, group := 7#32, context := 3#16, detail := 11#64 }
noncomputable def evTinker : State := colWith fun x => { x with tinker := { x.tinker with queue := [anEvent], lost := true } }
noncomputable def evStuck : State := colWith fun x => { x with tinker := { x.tinker with stop := some { cause := .illegal }, serving := some anEvent } }
noncomputable def evTlbi : State := colWith fun x => { x with tinker := { x.tinker with tlbi := some ([0, 255], 3, 9), path := { lanes := 1#32, wait := .tlbi } } }
/-- A parked warp with a DONE handle, and FAULTED ones of the copy engine and of the thresher. -/
noncomputable def evMend : State :=
  colWith fun x => { x with
    warps := [(0, { oneWarp with rejoin := .parked, h := [(1, { st := .done }), (2, { st := .faulted, unit := 0, cmd := 9 }), (3, { st := .faulted, unit := 2, cmd := 8 })] })]
    cmds := [{ id := 9, kind := .copy, st := .faulted, launch := 1 }, { id := 8, kind := .mzero, st := .faulted, queue := 5, launch := 1 }] }
theorem witness_CoreStepsHappen_tinker :
    (evTinker.landAll 0 .tinker).host.hardware 1 = true ∧ ((evTinker.landAll 0 .tinker).col 0).tinker.queue = [anEvent] ∧
      ((evTinker.landAll 0 .tinker).col 0).tinker.serving = none ∧ ((evTinker.landAll 0 .tinker).col 0).tinker.stop = none ∧
      (Tab.get 0#64 ((after (.tinkerEvent 0) evTinker).col 0).tinker.th.s 0) = 0x1E407E0000000007#64 ∧
      ((evStuck.col 0).tinker.stop).isSome = true ∧ moves (.tinkerRestart 0) evStuck ∧
      evTlbi.tlbiDone [0, 255] 3 9 = true ∧ moves (.tlbiComplete 0) evTlbi ∧ (evMend.col 0).mayMend 0 = true ∧
      ((evMend.col 0).cmd 9).map (·.kind) = some .copy ∧ ((evMend.col 0).cmd 8).map (·.kind) = some .mzero ∧ moves (.debugRestart 0 0 2#4) evMend ∧
      moves (.debugRestart 0 0 3#4) evMend ∧ moves (.debugCancel 0 0 1#4) evMend ∧ moves (.debugCancel 0 0 2#4) evMend := by decide +kernel


/-- A copy record of four 32-bit integers from the offset 0x200000 to 0x201000, its first bytes changed or added to (R228, R229). -/
def copyRecord (more : List (Nat × Byte)) : List Byte :=
  let cells := ([(0, 2), (1, 1), (0xA, 0x20), (0x10, 4), (0x30, 1), (0x60, 2), (0x61, 1), (0x69, 0x10), (0x6A, 0x20), (0x70, 4), (0x90, 1), (0xC0, 4)] :
    List (Nat × Nat)).map fun e => (e.1, BitVec.ofNat 8 e.2)
  Memory.readBytes (more.foldl (fun m e => Memory.write m e.1 e.2) cells) 0 320
/-- A command of the small machine's warp. -/
def copyCmd (more : List (Nat × Byte)) : Command := { id := 5, kind := .copy, launch := 1, record := copyRecord more, coords := [0, 0] }
noncomputable def withCmd (k : Command) : State := colWith fun x => { x with cmds := [k], l1tlb := [], l2tlb := [⟨0, 0x200000, 0x200000, true, 0, true, true, false⟩] }
def idCopy : Command := copyCmd [(0x69, 0#8)]
def lapCopy : Command := copyCmd [(0x69, 0#8), (0x68, 4#8)]
noncomputable def detCmd : State :=
  let s := (withCmd (copyCmd [])).updHere fun x => x.updBay fun b => { b with claims := [{ col := 0, cmd := 9, ctx := 0, lo := 0x201000, hi := 0x201003, lines := [], launch := 1, queue := (0, 0, 3) }] }
  s.setNode 1 { oneLaunch with launch := { oneLaunch.launch with det := true } }
abbrev spansAt (s : State) (k : Command) : List Span × List Span :=
  k.spans (s.gcols k).2.1 (s.node k.launch).launch.map.length (s.gcols k).1
theorem witness_EngineStepsHappen_claim :
    ((withCmd (copyCmd [])).col 0).cmd 5 = some (copyCmd []) ∧ (copyCmd []).st = .queued ∧ (copyCmd []).queue ≠ 5 ∧ (copyCmd []).cancel = false ∧
      (recOf false (copyRecord [])).valid = true ∧ (recOf false (copyRecord [(0, 0xFF#8)])).valid = false ∧
      ((withCmd { copyCmd [] with bar := some 0x1#64 }).col 0).barCurrent 0 0x1#64 = false ∧
      (∀ t ∈ [(recOf false (copyRecord [])).a, (recOf false (copyRecord [])).b], t.baseOk 1 = true) ∧ (recOf false (copyRecord [(0xF, 0x40#8)])).a.baseOk 1 = false ∧
      (recOf false (copyRecord [(0xF, 0x40#8)])).valid = true ∧ idCopy.identity = true ∧ (copyCmd []).identity = false ∧ lapCopy.identity = false ∧
      (∃ a ∈ (spansAt base lapCopy).1, ∃ b ∈ (spansAt base lapCopy).2, a.meets b = true) ∧
      (∀ a ∈ (spansAt base (copyCmd [])).1, ∀ b ∈ (spansAt base (copyCmd [])).2, a.meets b = false) ∧ (spansAt base (copyCmd [])).2.length = 1 := by decide +kernel
theorem witness_EngineStepsHappen_claims :
    (detCmd.node 1).launch.det = true ∧ detCmd.races (copyCmd []) (spansAt detCmd (copyCmd [])).1 (spansAt detCmd (copyCmd [])).2 = true ∧
      (base.node 1).launch.det = false ∧ (∀ p ∈ (spansAt base (copyCmd [])).2, ((withCmd (copyCmd [])).col p.col).bay.claimants < 64) ∧
      moves (.claimSpan 0 5) (withCmd (copyCmd [])) ∧ moves (.claimSpan 0 5) detCmd ∧ moves (.claimSpan 0 5) (withCmd lapCopy) ∧
      moves (.claimSpan 0 5) (withCmd idCopy) ∧ moves (.claimSpan 0 5) (withCmd (copyCmd [(0, 0xFF#8)])) := by decide +kernel

noncomputable def evBegun : State := withCmd { copyCmd [] with st := .claimed }
def movingCmd : Command := { copyCmd [] with st := .moving }
noncomputable def evMoving : State := withCmd movingCmd
def gathCmd : Command := { id := 5, kind := .gath, queue := 4, launch := 1, record := Memory.readBytes [] 0 400, st := .moving }
def doneCmd : Command := { copyCmd [] with st := .moving, finished := true }
noncomputable def evCount : State :=
  colWith fun x => { x with barriers := [(3, { st := .opened, xb := true, p := true, atgt := 1, arr := 1, btgt := 16 })], counts := [⟨5, 1, 0, 3, 16, 0⟩] }
noncomputable def evPeer (write : Bool) : State :=
  let s := withCmd { movingCmd with unacked := 1 }
  { s with host := { s.host with peerReqs := [⟨2, 0, 5, 0, 7, write, 0, 0x1000, 16, []⟩] } }
theorem witness_EngineStepsHappen_transfers :
    ((evBegun.col 0).queueOf 0 0).head?.map (·.id) = some 5 ∧ (evBegun.col 0).mayGoOn { copyCmd [] with st := .claimed } = true ∧
      moves (.copyCommandStart 0 5) evBegun ∧ movingCmd.finished = false ∧ movingCmd.atStop = true ∧ (evMoving.col 0).engineIsFree movingCmd 0 = true ∧
      (evMoving.col 0).mayGoOn movingCmd = true ∧ evMoving.gateClosed 0 1 2 = false ∧ evMoving.marked movingCmd = false ∧
      moves (.copyTransfer 0 5) evMoving ∧ gathCmd.kind.gathers = true ∧ gathCmd.identity = false ∧ moves (.gatherTransfer 0 5) (withCmd gathCmd) ∧
      doneCmd.unacked = 0 ∧ (withCmd doneCmd).here.counts = [] ∧ moves (.engineCommandDone 0 5) (withCmd doneCmd) ∧
      ((evCount.col 0).groups.find? fun e => e.2.live && decide (e.2.launch = 1) && decide (e.2.gid = 0)).map (·.1) = some 0 ∧
      ((evCount.col 0).barrier 3).entry = 0 ∧ ((evCount.col 0).barrier 3).st = .opened ∧ ((after (.barBytesDelivered 0) evCount).here.barrier 3).g = 1#24 ∧
      moves (.peerAcknowledge 0 2 []) (evPeer true) ∧ moves (.peerAcknowledge 0 2 []) (evPeer false) ∧ moves (.peerLink 0 2) (evPeer true) := by decide +kernel
/-- A handle whose command waits at its next pre-emption point, one whose command does not, and an HCANCEL that has waited for it; no ticket free. -/
theorem witness_FutureWordsComplete_cancels :
    let with_ (st : CmdState) := futures.updHere fun x => { x with cmds := [{ movingCmd with st := st, unacked := if st = .moving then 1 else 0 }] }
    let full := futures.updHere fun x => x.setGroup 0 { x.group 0 with tickets := (List.range 3).map fun n => (n, {}) }
    (∀ st ∈ [CmdState.queued, .moving], (with_ st).here.cmd ((with_ st).handle 1).cmd ≠ none ∧ ((with_ st).handle 1).st = .pending ∧ ((with_ st).handle 1).unit ≠ 3) ∧
      (with_ .queued).here.cmds.map (·.atStop) = [true] ∧ (with_ .moving).here.cmds.map (·.atStop) = [false] ∧
      ({ futures with cur := { futures.cur with wait := .command 7 } } : State).cur.wait = .command 7 ∧ (futures.handle 1).cmd ≠ 7 ∧
      (∀ n < 3, (Tab.find? full.group.tickets n).isSome = true) ∧ full.mayWriteS 10 = true := by decide +kernel

/-- A claim is recorded where every bay has room, and waits where one has none; a count names a barrier that has gone; bytes stand for the crib. -/
theorem witness_EngineStepsHappen_waits :
    let full := (withCmd (copyCmd [])).updHere fun x => x.updBay fun b => { b with
      claims := (List.range 64).map fun i => { col := 0, cmd := 100 + i, ctx := 0, lo := 0x400000 + 128 * i, hi := 0x400000 + 128 * i, lines := [], launch := 1, queue := (0, 0, i) } }
    let stale := colWith fun x => { x with counts := [⟨5, 1, 0, 0x103#64, 16, 0⟩] }
    let pours := withCmd { movingCmd with cribOut := [(1, [(0, 1#8)])] }
    let sp := spansAt base (copyCmd [])
    ((withCmd (copyCmd [])).recordClaims (copyCmd []) false sp.1 sp.2).1 = true ∧ (withCmd (copyCmd [])).here.l1 = [] ∧ (withCmd (copyCmd [])).here.bay.reqs = [] ∧
      (full.recordClaims (copyCmd []) false sp.1 sp.2).1 = false ∧ stale.here.barCurrent 0 0x103#64 = false ∧
      (after (.barBytesDelivered 0) stale).here.counts = [] ∧ (after (.copyTransfer 0 5) pours).here.cmds.map (·.cribOut) = [[]] := by decide +kernel
/-- The transfer of the four integers when its line has come, and the fault of one that has no page. -/
noncomputable def pastPage : State := colWith fun x => { x with cmds := [movingCmd], l1tlb := [], l2tlb := [], mem := [] }
theorem witness_EngineStepsHappen_plans :
    (match (pastPage.plan movingCmd (recOf false movingCmd.record)).1 with | .fault _ => true | _ => false) = true ∧
      (match (evMoving.plan { movingCmd with fetched := [(0, 0x10000, List.replicate 32 1#8)] } (recOf false movingCmd.record)).1 with
       | .ready ms => ms.length | _ => 0) = 4 := by decide +kernel

/-- A gather's record: four indices, a table of 8 rows of 4 integers, and rows of 4. -/
def gathRecord : List Byte :=
  let cells := ([(0, 2), (1, 1), (0xA, 0x20), (0x10, 4), (0x30, 1), (0x60, 2), (0x61, 2), (0x69, 0x10), (0x6A, 0x20), (0x70, 4), (0x74, 8), (0x90, 1), (0x94, 4),
      (0xC0, 2), (0xC1, 2), (0xC9, 0x20), (0xCA, 0x20), (0xD0, 4), (0xD4, 4), (0xF0, 1), (0xF4, 4), (0x124, 4)] : List (Nat × Nat)).map fun e => (e.1, BitVec.ofNat 8 e.2)
  Memory.readBytes (cells.foldl (fun m e => Memory.write m e.1 e.2) []) 0 400
/-- A box's vectors at both ends; a copy inside its descriptors and one past them; a gather's row inside its table, at its last row and past it. -/
theorem witness_TransferElementsAreLocated :
    let r := recOf false (copyRecord [])
    let g := recOf true gathRecord
    let ok {α : Type} (e : Except CmdFault α) : Bool := match e with | .ok _ => true | .error _ => false
    (∀ d < 2, [1, 2].getD d 0 < [2, 3].getD d 0) ∧ (nextVec [2, 3] [1, 0] = some [0, 1] ∧ nextVec [2, 3] [1, 2] = none) ∧ 1 ≤ r.a.rank ∧ r.a.layout = 0 ∧
      r.a.dist = 0 ∧ isMx r.a.format = false ∧ isMx 0x12 = true ∧ r.valid = true ∧ [0, 0].length = 2 * r.a.rank ∧ [0, 0].length = r.a.rank + r.r.rank ∧
      (grid (r.box.take r.a.rank)).length = 4 ∧ ((r.copyPairs 0 1 [0, 0] []).map ok) = [true, true, true, true] ∧
      ((r.copyPairs 0 1 [3, 0] []).map ok) = [true, false, false, false] ∧ g.valid = true ∧ [0, 0, 0].length = g.a.rank + g.r.rank ∧ g.b.mode 1 = 0 ∧
      (g.rowPairs false 0 1 [0, 0, 0] [] 1 7).map ok = [true, true, true, true] ∧ (g.rowPairs false 0 1 [0, 0, 0] [] 1 8).map ok = [false] ∧
      (g.rowPairs true 0 1 [0, 0, 0] [] 1 0).map ok = [true, true, true, true] := by decide +kernel

/-- The copy of the four integers when its line has come: its elements have values, all its writes lie at its own bay, and the bay takes them. -/
noncomputable def readyCmd : Command := { movingCmd with fetched := [(0, 0x10000, List.replicate 32 1#8)] }
noncomputable def readyMoves : List Move := match (evMoving.plan readyCmd (recOf false movingCmd.record)).1 with | .ready ms => ms | _ => []
theorem witness_TransfersWriteTheirBytes :
    let s := withCmd readyCmd
    let r := recOf false readyCmd.record
    let ends := r.ends false
    let vs := match s.values readyCmd r ends.1 ends.2.2.1 readyMoves with | .ok vs => vs | .error _ => []
    let ws := vs.foldl (fun l v => v.1.writes ends.2.1 (s.gcols readyCmd).2.2 r.sat (r.aligned readyCmd.coords readyCmd.iter) v.2 l) []
    vs.length = 4 ∧ (s.col 0).cmd 5 = some readyCmd ∧ ws.map (·.1) = [(0, 0), (0, 0), (0, 0), (0, 0)] ∧ readyCmd.toSend = [] ∧ readyCmd.cribOut = [] ∧
      readyCmd.unacked = 0 ∧ isMx ends.2.1.format = false ∧ readyMoves.all (fun m => m.src.isSome) = true ∧
      (let y := s.perform readyCmd r readyMoves
       y.here.bay.reqs.map (fun q => (q.line, (q.eng.map (·.type)))) = [(0x4020, some 2)]) ∧ s.here.l1 = [] ∧ s.here.bay.reqs = [] := by decide +kernel
/-- Writes of another column's bay and of the crib; units of a crib's bytes; and a plain byte, a nibble and a block in the HBM share. -/
theorem witness_TransfersWriteTheirBytes_writes :
    let far : StoreWrite := ((0, 3), .bytes 0x201000 [1#8])
    let crib : StoreWrite := ((1, 1), .bytes 0x20 [1#8, 2#8])
    let block : BayWrite := .block 0 0x201000 0x200000 15#32 [(0, { fmt := 3, code := 0x3F800000 })]
    (base.postWrites movingCmd 0 [far]).1.toSend.map (fun f => (f.dst, f.type)) = [(259, 2)] ∧
      (base.postWrites movingCmd 0 [crib]).1.cribOut.map (fun e => (e.1, e.2.length)) = [(1, 2)] ∧ (movingCmd.col ≠ 3) ∧
      (match block with | .block f e sc _ _ => f < 4 ∧ sc < e ∧ e + 32 ≤ 4294967296 | _ => False) ∧ base.here.l1 = [] ∧ base.here.bay.reqs = [] := by decide +kernel

/-! The thresher's commands, at the head of the small machine's queue. -/

noncomputable def thr (k : Command) : State :=
  colWith fun x => { x with
    cribs := [(1, { live := true, kib := 1024, tiles := 4, accum := [(3, 5#4096)], active := { tile := [1#8], fmt := 16 } })]
    grants := [(0, { live := true, launch := 1, size := 1024, fmt := 0x10 })]
    cmds := [k] }
def mswapCmd : Command := { id := 5, kind := .mswap, launch := 1, queue := 5 }
def mzeroCmd : Command := { id := 5, kind := .mzero, launch := 1, queue := 5, tile := 0 }
def mldwCmd : Command := { id := 5, kind := .mldw, launch := 1, queue := 5, x := 0#64, y := 0#64 }
noncomputable abbrev heads (k : Command) : List Nat := ((thr k).updCol 0 fun x => x.served_ 1 (thr k).clk).headCodes k
theorem witness_ThresherStepsHappen :
    ((thr mswapCmd).col 0).thresherNext 1 = some mswapCmd ∧ ((thr mswapCmd).col 0).cmd 5 = some mswapCmd ∧ ((thr mswapCmd).col 0).holdsLaunch 1 = true ∧
      (thr mswapCmd).thresherChoice 0 = some 1 ∧ heads mswapCmd = [] ∧ moves (.thresherCommandStart 0 1) (thr mswapCmd) ∧ heads mzeroCmd = [] ∧
      ((after (.thresherCommandStart 0 1) (thr mzeroCmd)).here.share 1).row 0 3 = 0#4096 ∧ heads mldwCmd = [] ∧
      moves (.thresherCommandStart 0 1) (thr mldwCmd) ∧ heads { mldwCmd with x := 1#64 } ≠ [] ∧ moves (.thresherCommandStart 0 1) (thr { mldwCmd with x := 1#64 }) := by
  decide +kernel

def mloopCmd : Command := { id := 5, kind := .mloop, launch := 1, queue := 5, record := Memory.readBytes [(0x20, 1#8), (0x22, 1#8)] 0 64 }
def mstrCmd : Command :=
  { id := 5, kind := .mstr, launch := 1, queue := 5
    record := Memory.readBytes [(0, 2#8), (1, 2#8), (0xA, 0x20#8), (0x10, 128#8), (0x14, 2#8), (0x30, 1#8), (0x34, 128#8), (0x68, 2#8)] 0 128 }
/-- MLOOP at its start and at its K-step, MSTR at its start; none of their checks fails. -/
theorem witness_ThresherStepsHappen_loops :
    heads mloopCmd = [] ∧ moves (.thresherCommandStart 0 1) (thr mloopCmd) ∧ mloopCmd.mloop.rows ≤ 128 ∧
      ((thr { mloopCmd with st := .moving }).col 0).thresherNext 1 = some { mloopCmd with st := .moving } ∧
      (thr { mloopCmd with st := .moving }).thresherChoice 0 = some 1 ∧ moves (.mloopRowsLanded 0 1) (thr { mloopCmd with st := .moving, finished := true }) ∧
      (((thr mldwCmd).col 0).currentGrant 1 mldwCmd.x).map (·.fmt) = some 16 ∧ moves (.shadowPlaneLoaded 0 1) (thr { mldwCmd with st := .moving }) := by decide +kernel
theorem witness_ThresherStepsHappen_mstr :
    (((thr mstrCmd).updCol 0 fun x => x.served_ 1 (thr mstrCmd).clk).recordClaims mstrCmd false []
      (((thr mstrCmd).updCol 0 fun x => x.served_ 1 (thr mstrCmd).clk).mstrSpans mstrCmd)).1 = true ∧
      (after (.mstrTransfer 0 1) (thr { mstrCmd with st := .moving, cribOut := [(1, [(0, 1#8)])] })).here.cmds.map (·.cribOut) = [[]] ∧ mstrCmd.cribOut = [] ∧
      mstrCmd.unacked = 0 ∧
      heads mstrCmd = [] ∧ (∀ p ∈ ((thr mstrCmd).updCol 0 fun x => x.served_ 1 (thr mstrCmd).clk).mstrSpans mstrCmd, ((thr mstrCmd).col p.col).bay.claimants < 64) ∧
      moves (.thresherCommandStart 0 1) (thr mstrCmd) ∧ (thr mstrCmd).gateClosed 0 1 2 = false ∧ (thr mstrCmd).marked mstrCmd = false ∧
      (thr mstrCmd).here.counts = [] ∧ moves (.mstrTransfer 0 1) (thr { mstrCmd with st := .moving, finished := true }) ∧
      moves (.mstrTransfer 0 1) (thr { mstrCmd with st := .moving, written := true }) ∧ mstrCmd.broken = none ∧ mstrCmd.toSend = [] ∧ mstrCmd.waiting = [] := by
  decide +kernel


/-- Checks that fail at the head, command by command; a row of MSTR whose elements have their places, and one whose first element lies
in the code image. -/
theorem witness_ThresherChecksAndRows :
    let rec_ (l : List (Nat × Byte)) : Command := { mloopCmd with record := Memory.readBytes ([(0x20, 1#8), (0x22, 1#8)] ++ l) 0 64 }
    heads { mldwCmd with x := 1#64 } = [2] ∧ heads { mldwCmd with y := 64#64 } = [3] ∧ heads { mzeroCmd with tile := 4 } = [5] ∧
      heads { mloopCmd with record := Memory.readBytes [(8, 1#8), (0x20, 1#8), (0x22, 1#8)] 0 64 } = [2] ∧ heads (rec_ [(0x24, 1#8)]) = [1] ∧
      heads { mloopCmd with tile := 4 } = [5] ∧ heads { mloopCmd with bar := some 0x1#64 } = [7] ∧
      heads { mstrCmd with record := Memory.readBytes [] 0 128 } = [1] ∧ heads { mstrCmd with tile := 4 } = [5] ∧ heads { mstrCmd with bar := some 0x1#64 } = [7] := by
  decide +kernel
theorem witness_ThresherChecksAndRows_mstr :
    let at_ (b : Byte) : Command := { mstrCmd with st := .moving, record := mstrCmd.record.set 9 b }
    let s (b : Byte) := (thr (at_ b)).updHere fun x => { x with l2tlb := [⟨0, 0x200000, 0x200000, true, 0, true, true, false⟩] }
    let row (k : Command) := ((s 0#8).here.share k.launch).row k.tile k.step
    let found (b : Byte) := let own := ((s b).gcols (at_ b)).2.1
      ((s b).mstrMoves (at_ b) (row (at_ b)) own ((List.range 128).zip ((at_ b).mstrRow own ((s b).gcols (at_ b)).2.2 0))).1
    (at_ 16#8).kind = .mstr ∧ (at_ 16#8).mstrOk = true ∧ (((s 16#8).col 0).cmd 5).isSome = true ∧
      (match found 16#8 with | .ok ms => ms.length | .error _ => 0) = 128 ∧ (match found 0#8 with | .error f => (f.1.code, f.2) | .ok _ => (0, 1)) = (6, 0) := by
  decide +kernel

/-! The fabric: a flit that stands at a router, and flits that have been ejected at column 0. -/

noncomputable def routed (f : Flit) : State := { base with flits := [f] }
theorem witness_FabricStepsHappen_router :
    (routed { type := 5, dst := 0x1FF, src := 0, at_ := 0x1FF }).deadLinks = [] ∧
      (∀ e ∈ base.cols, e.2.nifCore.backlog = [] ∧ e.2.nifBay.backlog = [] ∧ ∀ w ∈ e.2.warps, w.2.xch.isNone = true) ∧
      moves .routerCycle (routed { type := 5, dst := 0x1FF, src := 0, at_ := 0x1FF }) ∧
      (after .routerCycle (routed { type := 7, dst := 0x1FF, src := 0, at_ := 0 })).flits.map (·.at_) = [1] ∧
      (after .routerCycle (routed { type := 0, dst := 0x013, src := 0, at_ := 0x023 })).flits.map (·.at_) = [0x013] ∧
      (after .routerCycle (routed { type := 0, dst := 0x113, src := 0, at_ := 0x013 })).flits.map (·.at_) = [0x113] ∧
      (Tab.find? base.cols 0).isSome = true ∧ moves .injectionWindow ({ base with clk := 1024 } : State) := by decide +kernel

/-- Two flits that want one port of one router, one of them older, and one of a type that is dropped. -/
theorem witness_FabricStepsHappen_order :
    let f : Flit := { type := 5, dst := 0x01F, src := 0, at_ := 0, age := 7 }
    let g : Flit := { type := 3, dst := 0x01F, src := 0, at_ := 0, age := 9 }
    let d : Flit := { type := 9, dst := 0x01F, src := 0, at_ := 0 }
    let s : State := { base with flits := [g, f, d] }
    (s.flits.filter fun q => decide (q.at_ = 0) && decide (q.due ≤ s.clk) && decide (q.type < 8)).length = 2 ∧ s.here.nifCore.backlog = [] ∧
      ((s.routerStep 0).flits.map fun q => (q.at_, q.age)) = [(1, 10), (16, 8)] ∧ Tab.get 0 (s.routerStep 0).here.bay.counts 55 = 1 := by decide +kernel
/-- The lowest gcol first: 2^24 + 1 + 1 is 2^24 from the left, and 2^24 + 2 from the right. -/
theorem test_combine_ascends :
    let one := splat 0x3F800000#32
    lane (combineAll 8 [(0, splat 0x4B800000#32), (1, one), (2, one)]) 5 = 0x4B800000#32 ∧
      lane (combineAll 8 [(0, one), (1, one), (2, splat 0x4B800000#32)]) 5 = 0x4B800001#32 ∧ lane (combineAll 0 [(0, one), (3, splat 1#32)]) 31 = 0x3F800001#32 := by
  decide +kernel

/-- A gang of columns 0 and 1 whose column 0 holds ejected flits. -/
noncomputable def got (fs : List Flit) (f : Column → Column) : State := ganged.updHere fun x => f { x with ejected := fs }
def xd (seq loc : Nat) : Flit := { type := 5, dst := 0, src := 257, mid := 6, seq := seq, tag := 3 * 1024 + 64 * loc, payload := List.replicate 64 7#8 }
def anAck : Flit := { type := 3, dst := 0, src := 257, mid := 6 }
def aNack (p : Bool) : Flit := { type := 4, dst := 0, src := 257, mid := 6, hint := 2, partner := p }
def anXch (kind : Nat) (srcs : List Nat) : Exchange := { kind := kind, parity := 0, mid := 6, sources := srcs, unacked := 1, dest := 9, lanes := 0xFFFFFFFF#32, vid := 3 }
noncomputable def waits (e : Exchange) (vs : List VPend) (fs : List Flit) : State :=
  got fs fun x => { x with warps := [(0, { oneWarp with xch := some e, th := { vpend := vs }, holds := [.xbar] })], nifCore := { entries := [(6, (0, 0))] } }
theorem witness_FabricStepsHappen_mail :
    ((got [xd 0 5] id).here.takeFlit fun f => decide (f.type = 5)).isSome = true ∧ ((ganged.gangLaunch 3).map (·.1)) = some 1 ∧
      (ganged.node 1).launch.liveLocal 0 5 = false ∧ (ganged.node 1).launch.liveLocal 0 0 = true ∧ (got [xd 0 5] id).here.replyRoom 0 1 (xd 0 5) = true ∧
      (xd 0 5).seq % 2 = 0 ∧ moves (.xdata 0) (got [xd 0 5] id) ∧ moves (.xdata 0) (got [xd 0 0] id) ∧
      (Tab.get ({} : Mail) (got [xd 1 0] id).here.mail (mailKey (xd 1 0).tag 1)).hi = none ∧
      (Tab.get ({} : Mail) (after (.xdata 0) (got [xd 1 0] fun x => { x with mail := [(mailKey (xd 1 0).tag 1, { lo := some (List.replicate 64 1#8) })] })).here.mail
        (mailKey (xd 1 0).tag 1)).full = true ∧
      moves (.xdata 0) (got [xd 1 0] fun x => { x with mail := [(mailKey (xd 1 0).tag 1, { lo := some (List.replicate 64 1#8), full := true })] }) := by decide +kernel
theorem witness_FabricStepsHappen_answers :
    ((waits (anXch 0 [1]) [] [anAck]).here.takeFlit fun f => decide (f.type = 3)).isSome = true ∧
      ((waits (anXch 0 [1]) [] [anAck]).here.exchangeOf 6).map (·.1) = some 0 ∧ moves (.ack 0) (waits (anXch 0 [1]) [] [anAck]) ∧
      ((after (.ack 0) (waits (anXch 0 []) [] [anAck])).here.warp 0).xch.isNone = true ∧
      moves (.ack 0) (got [{ anAck with dst := 256 }] fun x => { x with msgs := [(6, { cmd := 5 })], cmds := [{ movingCmd with unacked := 1 }] }) ∧
      ((waits (anXch 0 [1]) [] [anAck]).keepFlit 0 anAck).isNone = true ∧ ((waits (anXch 0 [1]) [] [aNack false]).keepFlit 0 (aNack false)).isNone = true ∧
      ((waits (anXch 0 [1]) [] [aNack false]).here.takeFlit fun f => decide (f.type = 4)).isSome = true ∧
      moves (.nack 0) (waits (anXch 0 [1]) [] [aNack false]) ∧
      ((after (.nack 0) (waits (anXch 0 [1]) [{ id := 3, regs := [.v 9 1#32] }] [aNack true])).here.warp 0).th.vpend.map (·.error.isSome) = [true] := by decide +kernel
def arrival : Flit := { type := 6, dst := 256, src := 0, mid := 6, tag := 3 * 1024 }
theorem witness_FabricStepsHappen_barrier :
    ((got [arrival] id).here.takeFlit fun f => decide (f.type = 6) && decide (256 ≤ f.dst)).isSome = true ∧
      ((List.range (ganged.node 1).launch.map.length).filter fun g => (ganged.node 1).launch.hasLocal g 0) = [0] ∧ moves (.xctlArrival 0) (got [arrival] id) ∧
      (let s := (got [arrival] id).setNode 1 { oneLaunch with launch := { oneLaunch.launch with map := [0, 1], gang := 3, groups := [(0, { place := .resident 0 }), (1, { gcol := 1, place := .resident 0 })] } }
       ((List.range 2).filter fun g => (s.node 1).launch.hasLocal g 0) = [0, 1] ∧ moves (.xctlArrival 0) s) ∧
      moves (.xctlRelease 0) (waits { anXch 5 [] with unacked := 0 } [] [{ arrival with dst := 0 }]) ∧
      ((waits { anXch 5 [] with unacked := 0 } [] [{ arrival with dst := 0 }]).here.exchangeOf 6).map (fun e => (e.1, e.2.kind)) = some (0, 5) ∧
      ((waits { anXch 5 [] with unacked := 0 } [] []).keepFlit 0 { arrival with dst := 0 }).isNone = true := by decide +kernel
noncomputable def combining : State :=
  (waits (anXch 4 [1]) [{ id := 3, regs := [.v 9 1#32] }] []).updHere fun x => { x with mail := [(mailKey (3 * 1024) 1, { full := true, kind := 4, data := splat 2#32 })] }
def aRd : Flit := { type := 0, dst := 256, src := 257, mid := 6, addr := 0x201000 }
def aRdata (seq : Nat) : Flit := { type := 1, dst := 256, src := 257, mid := 6, seq := seq, payload := List.replicate 64 1#8 }
def aWdata : Flit := { type := 2, dst := 256, src := 257, mid := 6, addr := 0x201000 }
noncomputable def halved : State :=
  got [aRdata 1] fun x => { x with parts := [aRdata 0], msgs := [(6, { cmd := 5, col := 1, line := 0x4020 })], cmds := [{ movingCmd with waiting := [(1, 0x4020)] }] }
/-- Half of a message of two flits that writes, alone and with its other half. -/
def halfWrite (seq : Nat) : Flit := { aWdata with seq := seq, count := 2 }
noncomputable def written : State := got [halfWrite 1] fun x => { x with parts := [halfWrite 0] }
/-- A message of another bay's engine that stands in its slice, its line across its strand. -/
noncomputable def slotted (f : Flit) : State :=
  { got [] fun x => x.updBay fun b => { b with reqs := [{ id := 5, cache := 0, line := 0x4020, sectors := 15#4, who := .tinker, eng := some f, stands := true, till := 1 }] } with clk := 2 }
theorem witness_FabricStepsHappen_engines :
    combining.tagOf 0 0 0 = 3 * 1024 ∧ (anXch 4 [1]).sources.Nodup ∧ moves (.xredCombine 0 0) combining ∧
      ((got [aRd] id).here.takeFlit fun f => decide (f.type = 0)).map (·.1) = some aRd ∧ (got [aRd] id).here.bay.reqs = [] ∧
      ((after (.rd 0) (got [aRd] id)).here.bay.reqs.map fun r => (r.line, r.eng)) = [(0x4020, some aRd)] ∧ ((got [aRdata 0] id).here.mateOf (aRdata 0)).isNone = true ∧
      moves (.rdata 0) (got [aRdata 0] id) ∧ halved.here.mateOf (aRdata 1) = some (aRdata 0) ∧ moves (.rdata 0) halved ∧
      (after (.rdata 0) halved).here.cmds.map (·.waiting) = [[]] ∧
      ((got [halfWrite 0] id).here.takeFlit fun f => decide (f.type = 2)).map (·.1) = some (halfWrite 0) ∧
      moves (.wdata 0) (got [halfWrite 0] id) ∧ (after (.wdata 0) (got [halfWrite 0] id)).here.bay.reqs = [] ∧
      ((after (.wdata 0) written).here.parts.length, (after (.wdata 0) written).here.bay.reqs.length) = (0, 1) ∧
      (after (.wdata 0) (got [aWdata] id)).here.bay.reqs.length = 1 ∧ moves (.mgmt 0) (got [{ aRd with type := 7 }] id) := by decide +kernel
theorem witness_FabricStepsHappen_served :
    let r : Req := ((slotted aRd).here.bay.reqs.find? fun q => decide (q.id = 5)).getD aReq
    r.eng = some aRd ∧ r.cmd = 0 ∧ r.put.isNone = true ∧ r.atL1 = false ∧ r.stands = true ∧ 0 < r.till ∧ r.till ≤ (slotted aRd).clk ∧
      (slotted aRd).here.answerRoom 0 2 r = true ∧ (slotted aWdata).here.answerRoom 0 2 { r with eng := some aWdata } = true ∧ ((slotted aRd).here.cmd 0).isNone = true ∧
      (slotted aRd).here.bay.kindOf 0 (128 * r.line) = .hbm ∧ r.region = aRd.ctx ∧ (slotted aRd).here.l1 = [] ∧ (slotted aRd).here.badSectors = [] ∧
      ((after (.sliceRequest 0 5) (slotted aRd)).here.nifBay.backlog ++ (after (.sliceRequest 0 5) (slotted aRd)).here.ejected).map (·.type) = [1, 1] ∧
      (after (.sliceRequest 0 5) (slotted aWdata)).here.bay.reqs = [] := by decide +kernel
theorem witness_FabricStepsHappen_refused :
    let s := got [{ aNack false with dst := 256 }] fun x => { x with msgs := [(6, { cmd := 5 })] }
    (s.here.takeFlit fun f => decide (f.type = 4)).isSome = true ∧ ((Tab.find? (after (.nack 0) s).here.msgs 6).map (·.again)) = some (some 16) := by decide +kernel
/-- An answer kept for a saved group's exchange. -/
theorem witness_FabricStepsHappen_kept :
    let f : Flit := { anAck with tag := 3 * 1024 }
    let keptSave : Saved := { group := {}, warps := [], ctxs := [], barriers := [], cmds := [], events := [], entries := [(6, 0)] }
    let s := (got [f] id).setNode 1 { oneLaunch with launch := { oneLaunch.launch with map := [0, 1], gang := 3, groups := [(0, { place := .waiting 0, saved := some keptSave })] } }
    (s.keepFlit 0 f).isSome = true ∧ moves (.ack 0) s := by decide +kernel


/-! The distributor: a task record at 0x200100 and its data table at 0x200200 (R325). -/

def taskCells : List (Nat × Byte) :=
  [(0x02, 0x20), (0x08, 1), (0x0C, 1), (0x11, 2), (0x12, 0x20), (0x28, 1), (0x2A, 1), (0x30, 0x11), (0x31, 1)].map fun e => (0x200100 + e.1, BitVec.ofNat 8 e.2)
noncomputable def submits (u : Submit) : State :=
  let s := (colWith fun x => { x with mem := taskCells.foldl (fun m e => Memory.write m e.1 e.2) x.mem }).setNode 0 { kind := .service, eff := { cmask := 1#256 } }
  { s with dist := { s.dist with submits := [u] } }
def aSubmit : Submit := { col := 0, parent := 0, task := 0x200100, rcbCol := 0, rcb := none, future := 7 }
/-- A launch of node 1 in a state of its one group, and a second launch that waits for column 0. -/
noncomputable def launches (g : GroupState) (f : Column → Column) : State :=
  ((base.setNode 0 { kind := .service, eff := { cmask := 1#256 } }).setNode 1
    { oneLaunch with launch := { task := { code := 0x200000, codelen := 1, dtab := 0x200200 }, map := [0], groups := [(0, g)] } }).updHere f
noncomputable def rival (prio : Nat) (s : State) : State :=
  s.setNode 2 { kind := .launch, eff := { prio := prio }, launch := { task := { code := 0x200000, codelen := 1, dtab := 0x200200 }, map := [0], groups := [(0, { place := .waiting 0 })] } }
noncomputable def emptyCol (x : Column) : Column := { x with groups := [], warps := [], quarters := [] }
/-- The error or the column map of a launch's check. -/
noncomputable def checked (u : Submit) : Sum Nat (List Nat) :=
  match (({ submits u with dist := { (submits u).dist with submits := [] } } : State).checkLaunch u).1 with | .ok a => .inr a.map | .error c => .inl c
theorem witness_LaunchStepsHappen_check :
    (submits aSubmit).dist.submits = [aSubmit] ∧ checked aSubmit = .inr [0] ∧ checked { aSubmit with task := 0x200101 } = .inl 1 ∧
      checked { aSubmit with rcb := some 0x200101 } = .inl 2 ∧ moves .taskRecordCheck (submits aSubmit) ∧
      ((after .taskRecordCheck (submits aSubmit)).node 2).kind = .launch := by decide +kernel
noncomputable def evRing : State := { base with host := { base.host with fns := [(2, { region := some 0, ringCfg := 0x8000000000000004#64, ringTail := 1 })] } }
theorem witness_LaunchStepsHappen_ends :
    (evRing.host.fn 2).region = some 0 ∧ (evRing.host.fn 2).ringCfg.getLsbD 63 = true ∧ (evRing.node 0).steward = true ∧
      (evRing.host.fn 2).ringTaken ≠ (evRing.host.fn 2).ringTail ∧ moves (.launchRingEntry 2) evRing ∧
      ((launches {} id).node 1).kind = .launch ∧ ((launches {} id).node 1).launch.task.start ≤ (launches {} id).time ∧
      moves (.startTimeReached 1) (launches {} id) ∧ ((launches { place := .ended } emptyCol).node 1).launch.over = true ∧
      (launches { place := .ended } emptyCol).running 1 = false ∧ moves (.launchComplete 1) (launches { place := .ended } emptyCol) := by decide +kernel

noncomputable def evWaiter : State := launches { place := .waiting 0 } emptyCol
/-- A parked group beside a waiter that fits when it has left, and the state when it has been saved. -/
noncomputable def evIdle : State := rival 8 (launches { place := .resident 0 } fun x => { x with warps := [(0, { oneWarp with rejoin := .parked })], quarters := [] })
noncomputable def evFull : State := evIdle.updHere fun x => { x with sysUsed := 256 * 1048576 }
noncomputable def evSaved : State := ((after (.preemptGroup 0 0) evIdle).setNode 2 {}).updHere emptyCol
theorem witness_LaunchStepsHappen_residency :
    (evWaiter.promoteAll 0).headWaiter 0 = some (1, 0) ∧ (evWaiter.promoteAll 0).fits 0 (1, 0) [] = true ∧ ((evWaiter.promoteAll 0).col 0).coreOffline = false ∧
      ((evWaiter.promoteAll 0).col 0).layout [] ((evWaiter.promoteAll 0).liveIndices (1, 0)) = some [(0, 0)] ∧
      ((evWaiter.promoteAll 0).waiter (1, 0)).2.saved.isNone = true ∧ (evWaiter.ctxBytes 0 0 1 0x200200).1.isSome = true ∧ (evWaiter.ctxBytes 0 0 0 0).1.isSome = true ∧
      moves (.makeResident 0) evWaiter ∧ ((after (.makeResident 0) evWaiter).here.warp 0).live = true ∧
      (evSaved.promoteAll 0).headWaiter 0 = some (1, 0) ∧ ((evSaved.promoteAll 0).waiter (1, 0)).2.saved.isSome = true ∧
      (evSaved.promoteAll 0).fits 0 (1, 0) [] = true ∧ ((evSaved.promoteAll 0).col 0).layout [] ((evSaved.promoteAll 0).liveIndices (1, 0)) = some [(0, 0)] ∧
      moves (.makeResident 0) evSaved := by decide +kernel
theorem witness_LaunchStepsHappen_leaving :
    (((evIdle.promoteAll 0).col 0).group 0).leaving = false ∧ (evIdle.promoteAll 0).mustLeave 0 0 = true ∧ (((evIdle.promoteAll 0).col 0).group 0).live = true ∧
      ((evIdle.promoteAll 0).col 0).served 0 = false ∧ (evIdle.promoteAll 0).saveNeed 0 0 ≤ (evIdle.promoteAll 0).sysFree 0 ∧
      ((((evIdle.promoteAll 0).beginLeave 0 0).col 0).group 0).live = true ∧ ((evIdle.promoteAll 0).beginLeave 0 0).settled 0 0 = true ∧
      ((((evIdle.promoteAll 0).beginLeave 0 0).col 0).drainLanes 0).1 = true ∧ ((((evIdle.promoteAll 0).beginLeave 0 0).col 0).group 0).leftAt = 0 ∧
      moves (.preemptGroup 0 0) evIdle ∧ (evFull.promoteAll 0).mustLeave 0 0 = true ∧ (evFull.promoteAll 0).sysFree 0 < (evFull.promoteAll 0).saveNeed 0 0 ∧
      (((evFull.promoteAll 0).col 0).group 0).deferred = none ∧ (after (.preemptGroup 0 0) evFull).dist.deferrals = 1 := by decide +kernel

noncomputable def evQuantum (s : State) : State := { s with clk := 1024 }
noncomputable def afterQuantum (s : State) : State :=
  (((evQuantum s).promoteAll 0).updCol 0 fun x => x.setGroup 0 { x.group 0 with promoted := false }).refreshEff 1
noncomputable def spentNode (kind : NodeKind) (s : State) : State := s.setNode 1 { s.node 1 with kind := kind, eff := { budget := 9 }, runtime := 9 }
noncomputable def aService : State := (base.setNode 1 { kind := .service, parent := 0, eff := { budget := 9 }, runtime := 9 }).setNode 2 { oneLaunch with parent := 1 }
theorem witness_LaunchStepsHappen_times :
    ((evQuantum base).here.group 0).since + ((evQuantum base).node 1).eff.cycles ≤ 1024 ∧ (afterQuantum base).waiters 0 = [] ∧
      moves (.quantumExpire 0 0) (evQuantum base) ∧ (afterQuantum (rival 0 base)).waiters 0 = [(2, 0)] ∧
      ((afterQuantum (rival 0 base)).node 1).eff.prio ≤ (afterQuantum (rival 0 base)).waiterRank (2, 0) ∧ moves (.quantumExpire 0 0) (evQuantum (rival 0 base)) ∧
      ((evWaiter.node 1).launch.groupOf 0).place = .waiting 0 ∧ 0 + (0 + 1) * (evWaiter.node 1).eff.cycles ≤ (evQuantum evWaiter).clk ∧
      (evWaiter.node 1).effPrio ((evWaiter.node 1).launch.groupOf 0) < 15 ∧ moves (.waitPriorityRise 1 0) (evQuantum evWaiter) ∧
      ((spentNode .launch base).node 1).eff.budget ≤ ((spentNode .launch base).node 1).runtime ∧ ((spentNode .launch base).node 0).spent = false ∧
      ((spentNode .launch base).node 1).launch.ending = none ∧ ((spentNode .launch base).node 1).launch.over = false ∧
      moves (.watchdog 1) (spentNode .launch base) ∧ ((spentNode .launch (launches { place := .ended } emptyCol)).node 1).launch.over = true ∧
      (aService.node 2).launch.ending = none ∧ (aService.node 2).launch.over = false ∧ aService.launchesOf 1 = [2] ∧ (aService.node 1).kind = .service ∧ moves (.watchdog 1) aService := by decide +kernel

/-! The bays. -/

/-- Registers of the small machine's bay. -/
noncomputable def bayWith (f : Bay → Bay) : State := colWith fun x => x.updBay f
noncomputable def evGrow : State := bayWith fun b => { b with stat := 0x20000#64, carveTo := 16 }
noncomputable def evHost (wb : Bool) : State := bayWith fun b => { b with hostOut := [(0x6000000, wb, 0)] }
theorem witness_BayStepsHappen_registers :
    ((colWith emptyCol).col 0).modeFree = true ∧ moves (.bayModeSwitch 0 2#2) (colWith emptyCol) ∧ moves (.bayModeSwitch 0 3#2) (colWith emptyCol) ∧
      (base.col 0).modeFree = false ∧ moves (.bayModeSwitch 0 2#2) base ∧
      (base.col 0).bay.ctl.toNat / 4294967296 % 32 < 16 ∧ moves (.carveChange 0 16) base ∧ moves (.carveChange 0 17) base ∧
      (bayWith fun b => { b with ctl := 0x400000000#64 }).here.bay.ctl.toNat / 4294967296 % 32 = 4 ∧
      moves (.carveChange 0 4) (bayWith fun b => { b with ctl := 0x800000000#64 }) ∧ evGrow.here.bay.stat.getLsbD 17 = true ∧ evGrow.here.bay.carveTo ≤ 16 ∧
      moves (.carveGrowDone 0) evGrow ∧ (base.here.bay.hostLines 15) = false ∧ moves (.bayRgnHtWrite 0 15 1#64) base ∧ moves (.bayRgnHtWrite 0 16 1#64) base ∧
      (2#64).extractLsb' 1 31 ≠ 0#31 ∧ moves (.bayRgnHtWrite 0 0 2#64) base := by decide +kernel
/-- A dirty line in slice 3: a mode switch and a carve-out wait until it stands in HBM. -/
noncomputable def evDirty (f : Bay → Bay) : State :=
  (colWith emptyCol).updHere fun x => x.updBay fun b => f { b with slices := [(3, { lines := [(0, { line := 0x4020, valid := 15#4, dirty := true })] })] }
theorem witness_BayStepsHappen_waits :
    let grow := evDirty fun b => { b with stat := 0x20000#64, carveTo := 16 }
    let y (s : State) : Bay := s.here.bay.flushWays (List.range 16) fun k => decide (16 ≤ k % 16 + s.here.bay.carveTo)
    ((evDirty id).col 0).modeFree = true ∧ (after (.bayModeSwitch 0 2#2) (evDirty id)).here.bay.modeTo = some 2 ∧
      (after (.bayModeSwitch 0 2#2) (evDirty id)).here.bay.stat.getLsbD 16 = true ∧
      (after (.bayModeSwitch 0 2#2) (colWith emptyCol)).here.bay.ctl.extractLsb' 0 2 = 2#2 ∧
      (y evGrow).writeQ = [] ∧ (y evGrow).flights = [] ∧ (after (.carveGrowDone 0) evGrow).host.carved = [0] ∧
      ((y grow).writeQ ≠ [] ∨ ∃ f ∈ (y grow).flights, f.wb = true) ∧ (after (.carveGrowDone 0) grow).here.bay.stat.getLsbD 17 = true := by decide +kernel
theorem witness_BayStepsHappen_alias :
    let v := 0x8000000000010000#64 ||| 0x100000000#64
    let on := bayWith fun b => { b with aliasWin := [(3, v)], aliasBack := [(3, 0x80#64)] }
    moves (.bayAliasWrite 0 4 false v) base ∧ (base.here.bay.aliasReg 3 false).getLsbD 63 = false ∧ v.getLsbD 63 = true ∧
      v.extractLsb' 48 15 &&& 0x3FFF#15 = 0#15 ∧ v.extractLsb' 0 16 = 0#16 ∧
      base.here.bay.aliasOk 3 (v &&& ~~~0x4000000000000000#64) (base.here.bay.aliasReg 3 true) = true ∧ moves (.bayAliasWrite 0 3 false v) base ∧
      (0x80#64).extractLsb' 56 8 = 0#8 ∧ (0x80#64).extractLsb' 34 18 = 0#18 ∧ (0x80#64).extractLsb' 0 7 = 0#7 ∧ moves (.bayAliasWrite 0 3 true 0x80#64) base ∧
      on.aliasBusy 0 3 = false ∧ (0x100000000#64).getLsbD 63 = false ∧ (0x100000000#64).extractLsb' 48 14 = 0#14 ∧ (0x100000000#64).extractLsb' 0 16 = 0#16 ∧
      (after (.bayAliasWrite 0 3 false 0x100000000#64) on).here.bay.aliasReg 3 false = 0x100000000#64 ∧
      (let busy := on.updHere fun x => { x with mops := [{ id := 1, who := .warp 0 false, cache := 0, kind := .store, accs := [⟨0, 0x100010000, 4, 0, 0⟩] }] }
       let closing := after (.bayAliasWrite 0 3 false 0x100000000#64) busy
       busy.aliasBusy 0 3 = true ∧ Tab.find? closing.here.bay.aliasOff 3 = some 0x100000000#64 ∧
         (after (.bayAliasWrite 0 3 false 0x100000000#64) closing).here.bay.aliasReg 3 false = v ∧
         Tab.find? (after (.bayAliasWrite 0 3 false 0x100000000#64) closing).here.bay.aliasOff 3 = some 0x100000000#64 ∧
         (after (.bayAliasWrite 0 3 false 0x100020000#64) closing).here.bay.aliasReg 3 false = v ∧ closing.aliasBusy 0 3 = true) ∧
      (v &&& ~~~0x4000000000000000#64 ≠ (v + 0x10000#64) &&& ~~~0x4000000000000000#64) ∧
      (on.here.bay.aliasReg 3 false).getLsbD 63 = true ∧ 0x100#64 ≠ on.here.bay.aliasReg 3 true ∧ moves (.bayAliasWrite 0 3 true 0x100#64) on ∧
      moves (.slstatRead 0 15) (bayWith fun b => { b with slices := [(15, { peak := 3 })] }) := by decide +kernel
/-- The one page of the small machine's tables, of 2 MiB at the frame 0x200000, moved to the host tier: the step finds its leaf and marks its frame. -/
noncomputable def evMove (f : Bay → Bay) : State :=
  bayWith fun b => f { b with ctl := 16#64, rgn := [(0, { ctl := 0x8000000000000001#64, ht := 1#64 })] }
theorem witness_BayStepsHappen_host :
    (evHost true).here.bay.hostOut[0]? = some (0x6000000, true, 0) ∧ moves (.hostLinkCompletion 0 0 false []) (evHost true) ∧
      (evHost false).here.lineReqs 0x6000000 = [] ∧ (List.replicate 128 1#8).length = 128 ∧ moves (.hostLinkCompletion 0 0 false (List.replicate 128 1#8)) (evHost false) ∧
      moves (.hostLinkRetriesExhausted 0 0) (evHost false) ∧ (evHost true).here.lineReqs 0x6000000 = [] ∧ base.host.posted = [] ∧
      moves (.hostLinkRetriesExhausted 0 0) (evHost true) ∧
      (let two := bayWith fun b => { b with hostOut := [(0x6000000, true, 0), (0x6000000, false, 0)] }
       two.here.bay.hostOut[1]? = some (0x6000000, false, 0) ∧ ∃ g ∈ two.here.bay.hostOut.take 1, g.1 = 0x6000000) ∧
      (let marked := evMove fun b => { b with migrating := [(0x200000, 0x200000)] }
       let sends := marked.updHere fun x => x.updBay fun b => { b with reqs := [{ aReq with op := 0, put := some { line := 0x4020 } }] }
       (0x200000, 0x200000) ∈ marked.here.bay.migrating ∧ marked.here.sentOf 0x200000 0x200000 = false ∧ sends.here.sentOf 0x200000 0x200000 = true) ∧
      0x300000000 % 0x200000 = 0 ∧
      inSystem (evMove id).dist.sysMib 0x200000 0x200000 = false ∧ (evMove id).here.bay.kindOf 0 0x300000000 = .host ∧
      (evMove id).here.l1 = [] ∧ moves (.migratePage 0 0 0x200000 0x300000000) (evMove id) ∧
      (evMove id).here.bay.claimedRange 0x200000 0x200000 = false := by decide +kernel
theorem witness_BayStepsHappen_errors :
    base.host.dutyMap.getLsbD 3 = true ∧ moves .eccScrub ({ base with time := 86400000000000 } : State) ∧ base.here.bay.stat.getLsbD 7 = false ∧
      moves (.strandBeatError 0 7 0 false) base ∧ moves (.strandBeatError 0 7 0 true) base ∧ (bayWith fun b => { b with failing := 0x80#8 }).here.bay.failing.getLsbD 7 = true ∧
      neighbour 0 0 = some 16 ∧ base.deadLinks = [] ∧ moves (.linkCheckError 0 0 false) base ∧
      (after (.linkCheckError 0 0 true) base).deadLinks.length = 2 ∧ moves (.containment 0 false) base ∧ moves (.containment 0 true) base := by decide +kernel


/-! The host, the peers and the factor complex. -/

/-- The host link is up, the host's side changed. -/
noncomputable def hostWith (f : HostSide → HostSide) : State := { base with host := f { base.host with fctBoot := 0x8000000000000006#64 } }
/-- A request of the host stands in the host-to-device ring (R364). -/
noncomputable def asking (f : HostSide → HostSide) (op : Nat) (payload : List Byte) : State :=
  hostWith fun h => f { h with h2dTail := 1#64, d2hBase := 0x100000#64, mem := Memory.writeBytes h.mem 0 (message op 0 5 0 payload) }
/-- The request's op, and the length of its payload. -/
noncomputable def payloadOf (s : State) : Option (Nat × Nat) := s.host.request.map fun q => (q.op, q.payload.length)
/-- The op, the status and the tag of the response that a step writes to the device-to-host ring. -/
noncomputable def reply (i : Instr) (s : State) : List Nat :=
  let h := (after i s).host
  [natOfBytes (h.read 0 0x100000 2), natOfBytes (h.read 0 0x100010 4), natOfBytes (h.read 0 0x100008 8)]
def rcbBytes : List Byte := Memory.readBytes [(4, 1#8), (8, 1#8), (12, 1#8), (28, 1#8)] 0 128
noncomputable def withNode2 (s : State) : State :=
  { s.setNode 2 { kind := .service, fn := 9 } with host := { s.host with fns := [(9, { region := some 2 })] } }
theorem witness_RequestsAreServed :
    payloadOf (asking id 7 [1#8, 0#8, 8#8]) = some (7, 3) ∧ payloadOf (asking id 77 []) = some (77, 0) ∧
      reply .thermal (asking id 7 [1#8, 0#8, 8#8]) = [7, 0, 5] ∧ reply .thermal (asking id 7 [1#8, 0#8]) = [7, 3, 5] ∧ reply .unknownOp (asking id 77 []) = [77, 2, 5] ∧
      reply .train (asking id 4 [255#8, 0#8, 9#8]) = [4, 0, 5] ∧ reply .eth (asking id 6 [1#8, 9#8]) = [6, 0, 5] ∧
      reply .scrub (asking id 5 (List.replicate 18 0#8)) = [5, 0, 5] := by decide +kernel
theorem witness_RequestsAreServed_pageFaults :
    let s := (asking (fun h => { h with pfaults := [(4, 0, .warp 0 false)] }) 3 [4#8, 0#8, 0#8, 0#8, 0#8, 0#8, 0#8, 0#8, 0#8]).updHere fun x =>
      { x with tinker := { x.tinker with serving := some { cause := .pageFault } } }
    payloadOf s = some (3, 9) ∧ reply .pfaultDone s = [3, 0, 5] ∧ (after .pfaultDone s).host.pfaults = [] := by decide +kernel
theorem witness_RequestsAreServed_services :
    let s := asking id 8 ([0#8, 9#8] ++ rcbBytes)
    let r := withNode2 (asking id 8 ([2#8, 9#8] ++ rcbBytes))
    payloadOf s = some (8, 130) ∧ s.freeNode = some 2 ∧ (s.serviceFor 9).isNone = true ∧ rcbValid rcbBytes = true ∧ natOfBytes ((rcbBytes.drop 4).take 1) = 1 ∧
      (natOfBytes (rcbBytes.take 4)).testBit 10 = false ∧ (s.dist.nodes.filter fun e => decide (e.2.kind = .service)).length < 64 ∧
      s.contradicts 2 (s.serviceEff rcbBytes) = false ∧ r.serviceFor 9 = some 2 ∧ r.launchesOf 2 = [] ∧ reply .service r = [8, 0, 5] := by decide +kernel
theorem witness_RequestsAreServed_queuePairs :
    let six (a : Nat) : List Byte := [BitVec.ofNat 8 a, 1#8, 7#8, 0#8, 0#8, 0#8]
    payloadOf (asking id 9 (six 0)) = some (9, 6) ∧ reply .qp (asking id 9 (six 0)) = [9, 0, 5] ∧
      reply .qp (asking (fun h => { h with qps := [(7, { home := 1 })] }) 9 (six 1)) = [9, 0, 5] ∧
      reply .qp (asking (fun h => { h with qps := [(7, { home := 1 })] }) 9 (six 2)) = [9, 0, 5] ∧ payloadOf (asking id 10 (List.replicate 12 0#8)) = some (10, 12) ∧
      payloadOf (asking id 1 (List.replicate 32 0#8)) = some (1, 32) := by decide +kernel
/-- What an image holds and whether it verifies is left to the machine: each clause's hypothesis holds of the images of some machine, and of every
image one of them does. -/
theorem witness_RequestsAreServed_images : ∀ image min,
    (Config.imageDigest image = Config.sha384 (Config.imageBody image) ∧ Config.imageVerifies 0 image = true ∧ Config.imageVerifies 1 image = true ∧
        min ≤ Config.imageVersion image) ∨
      Config.imageDigest image ≠ Config.sha384 (Config.imageBody image) ∨ Config.imageVerifies 0 image = false ∨ Config.imageVerifies 1 image = false ∨
        Config.imageVersion image < min := fun image min => by
  by_cases d : Config.imageDigest image = Config.sha384 (Config.imageBody image) <;> cases a : Config.imageVerifies 0 image <;>
    cases b : Config.imageVerifies 1 image <;> rcases Nat.lt_or_ge (Config.imageVersion image) min with h | h <;> simp [d, h]
/-- A boot finds each image in a slot or in the network, or finds none. -/
theorem witness_HostStepsHappen_images : ∀ net k, (State.reset.host.bootImage net k).isSome = true ∨ State.reset.host.bootImage net k = none := fun net k => by
  cases State.reset.host.bootImage net k <;> simp

theorem witness_HostStepsHappen_registers :
    (hostWith id).host.ready = true ∧ moves (.dutyMapWrite 0x1F#64) (hostWith id) ∧ (64#64).extractLsb' 6 58 ≠ 0#58 ∧
      (after (.dutyMapWrite 64#64) (hostWith id)).host.dutyMap = 63#64 ∧
      (0x8000000000000010#64).extractLsb' 5 58 = 0#58 ∧ 0x8000000000000010#64 % 32#64 = 16#64 ∧ ((hostWith id).host.fn 63).ringCfg.getLsbD 63 = false ∧
      moves (.ringCfgWrite 63 false 0x8000000000000010#64) (hostWith id) ∧ moves (.ringCfgWrite 63 true 0x800000000000000C#64) (hostWith id) ∧
      ((after (.ringCfgWrite 63 true 0x800000000000000C#64) (hostWith fun h => { h with fns := [(63, { kept := [[1#8]] })] })).host.fn 63).fringTail = 1 ∧
      moves (.fringHead 63 4#64) (hostWith fun h => { h with fns := [(63, { fringTail := 4 })] }) ∧
      moves (.registerWrite 255 8 0x40000#64) ((hostWith id).updCol 255 fun x => x.updBay fun b => { b with stat := 0x40000#64 }) ∧
      moves (.registerWrite (257 + 63) 0 16#64) (hostWith fun h => { h with fns := [(63, { ringCfg := 0x8000000000000004#64 })] }) := by decide +kernel
noncomputable def forwarding : State :=
  let s := hostWith fun h => { h with dutyMap := 0x3D#64 }
  s.updHere fun x => { x with tinker := { x.tinker with queue := [{ cause := .pageFault, detail := 0x200000#64 }] } }
theorem witness_HostStepsHappen_times :
    base.booted = 0 ∧ (State.reset).booted = 0 ∧ (after (.boot 1 true) State.reset).booted = 1 ∧ (after (.boot 2 true) State.reset).booted = 2 ∧
      (withNode2 base).serviceFor 9 = some 2 ∧ moves (.functionLevelReset 9) (withNode2 base) ∧ base.host.ptpPort = 0 ∧ (after (.ptpSync 1 5) base).time = base.time ∧
      (after (.ptpSync 0 1000001) base).time = 1000001 ∧ (after (.ptpSync 0 1000000) base).host.slew = 1000000 ∧
      moves .emergencyTrip base ∧ base.host.posted = [] ∧ moves .tripPointCleared ({ base with clocksStopped := true, host := { base.host with tripped := true } } : State) ∧
      forwarding.host.dutyMap.getLsbD 1 = false ∧ (forwarding.here.tinker.serving).isNone = true ∧ (forwarding.here.tinker.stop).isNone = true ∧
      (forwarding.faultOf 0 { cause := .pageFault, detail := 0x200000#64 }).isSome = true ∧ moves (.tinkerEvent 0) forwarding := by decide +kernel
noncomputable def peered : State := hostWith fun h => { h with qps := [(7, { port := some 1 })], linkUp := [true, true] }
theorem witness_HostStepsHappen_peers :
    (Tab.get ({} : QueuePair) peered.host.qps 7).port = some 1 ∧ peered.host.linkUp.getD 1 false = true ∧ (peered.col 255).memOffline = false ∧
      0xFFFFFFFF + [1#8].length ≤ 0x100000000 ∧ moves (.peerRdmaRequest 1 7 0 255 0xFFFFFFFF [1#8]) peered ∧ (peered.col 255).l1 = [] ∧ (peered.col 255).bay.reqs = [] ∧
      moves (.peerRdmaRequest 1 7 1 255 0 [1#8]) peered ∧ moves (.peerRdmaRequest 0 7 1 255 0 [1#8]) peered ∧ moves (.peerRdmaRequest 1 7 2 255 0 []) peered ∧
      (after (.ethernetLinkBringUp 1 true) ({ base with host := { base.host with restartAt := 5 } } : State)).host.duties = [.linkUp 1] ∧
      base.host.linkUp.length = 2 ∧ base.host.dutyMap.getLsbD 4 = true ∧ moves (.ethernetLinkBringUp 1 true) base ∧ moves (.ethernetLinkBringUp 0 false) peered := by
  decide +kernel
theorem witness_HostStepsHappen_power :
    base.host.dutyMap.getLsbD 5 = true ∧ base.clocksStopped = false ∧ base.host.lastStep = none ∧ base.host.powerCap < 2401 ∧
      (after (.thermalSample 0 0 0 110) base).clocksStopped = true ∧
      (after (.thermalSample 0 2401 0 0) base).host.clockStep = 1 ∧ (after (.thermalSample 0 0 0 100) base).host.clockStep = 1 ∧
      (let s : State := { hostWith fun h => { h with clockStep := 3, lastStep := some 1 } with time := 20000000 }
       1 + 1000000 ≤ s.time ∧ s.host.lastHot + 10000000 ≤ s.time ∧ 100 * 2207 < 92 * s.host.powerCap ∧
         (after (.thermalSample 2207 2400 2207 94) s).host.clockStep = 2) := by decide +kernel
end

/-! The computing words and the landing of their results: a per-lane or masked write lane by lane, what a landed write changes and leaves, and
the form of every computing word's result. -/

namespace Sys2Proof.Machine

/-! ## Lanes -/

theorem getLsbD_vecOfList (ws : List Word) : ∀ i, i < 1024 → (vecOfList ws).getLsbD i = (ws.getD (i / 32) 0#32).getLsbD (i % 32) := by
  induction ws with
  | nil => intro i _; simp [vecOfList]
  | cons w ws ih =>
    intro i hi
    by_cases h : i < 32
    · simp [vecOfList, hi, h, Nat.div_eq_of_lt h, Nat.mod_eq_of_lt h]
    · obtain ⟨j, rfl⟩ : ∃ j, i = j + 32 := ⟨i - 32, by omega⟩
      have hw : w.getLsbD (j + 32) = false := BitVec.getLsbD_of_ge _ _ (by omega)
      have hd : (j + 32) / 32 = j / 32 + 1 := by omega
      rw [vecOfList, BitVec.getLsbD_or, BitVec.getLsbD_shiftLeft, BitVec.getLsbD_setWidth, hw, hd, List.getD_cons_succ,
        Nat.add_mod_right, ← ih j (by omega)]
      simp [hi]

theorem getLsbD_vecOf (f : Nat → Word) {i : Nat} (hi : i < 1024) : (vecOf f).getLsbD i = (f (i / 32)).getLsbD (i % 32) := by
  have h32 : i / 32 < 32 := by omega
  simp [vecOf, getLsbD_vecOfList _ i hi, laneList, h32]

theorem getLsbD_lane (x : Vec) {l i : Nat} (hi : i < 32) : (lane x l).getLsbD i = x.getLsbD (32 * l + i) := by
  simp [lane, hi]

/-- A lane of a blend comes from the new value just where the mask holds it. -/
theorem lane_blend (m : Lanes) (x y : Vec) {l : Nat} (hl : l < 32) :
    lane (blend m x y) l = if m.getLsbD l = true then lane x l else lane y l := by
  apply BitVec.eq_of_getLsbD_eq
  intro i hi
  have hb : 32 * l + i < 1024 := by omega
  have hd : (32 * l + i) / 32 = l := by omega
  have hm : (32 * l + i) % 32 = i := by omega
  have hs : (spread m).getLsbD (32 * l + i) = m.getLsbD l := by
    rw [spread, getLsbD_vecOf _ hb, hd, hm]
    cases m.getLsbD l
    · simp
    · exact (BitVec.getLsbD_allOnes (v := 32)).trans (decide_eq_true hi)
  rw [blend, getLsbD_lane _ hi, BitVec.getLsbD_or, BitVec.getLsbD_and, BitVec.getLsbD_and, BitVec.getLsbD_not, hs]
  cases m.getLsbD l <;> simp [getLsbD_lane _ hi, hb, -BitVec.getLsbD_eq_getElem]

/-- A bit of a masked write comes from the new value just where the mask holds it. -/
theorem getLsbD_masked (m x y : Lanes) {l : Nat} (hl : l < 32) :
    ((x &&& m) ||| (y &&& ~~~m)).getLsbD l = if m.getLsbD l = true then x.getLsbD l else y.getLsbD l := by
  rw [BitVec.getLsbD_or, BitVec.getLsbD_and, BitVec.getLsbD_and, BitVec.getLsbD_not]
  cases m.getLsbD l <;> simp [hl, -BitVec.getLsbD_eq_getElem]

/-! ## Landing -/
theorem State.landWrite_clk (s : State) (c : Nat) (who : Who) (w : Write) : (s.landWrite c who w).clk = s.clk := by
  cases who <;> simp [State.landWrite]
theorem State.landWrite_host (s : State) (c : Nat) (who : Who) (w : Write) : (s.landWrite c who w).host = s.host := by
  cases who <;> simp [State.landWrite]
theorem State.landWrite_dist (s : State) (c : Nat) (who : Who) (w : Write) : (s.landWrite c who w).dist = s.dist := by
  cases who <;> simp [State.landWrite]

theorem State.sameMemory_trans {s t u : State} (h : s.sameMemory t) (g : t.sameMemory u) : s.sameMemory u :=
  fun c => ⟨fun f a => ((g c).1 f a).trans ((h c).1 f a), fun e a => ((g c).2 e a).trans ((h c).2 e a)⟩

theorem State.sameMemory_updCol_setWarp (s : State) (c n : Nat) (f : Column → Warp) :
    s.sameMemory (s.updCol c fun x => x.setWarp n (f x)) :=
  State.sameMemory_of fun d => by by_cases h : d = c <;> simp [h]

theorem State.sameMemory_landWrite (s : State) (c : Nat) (who : Who) (w : Write) : s.sameMemory (s.landWrite c who w) := by
  have ht := State.sameMemory_of fun d => State.col_setThreadOf_mem s c d who ((s.threadOf c who).write w)
  cases who with
  | warp n b => exact State.sameMemory_trans ht (State.sameMemory_updCol_setWarp _ c n fun x => _)
  | lane | tinker | factor =>
    exact State.sameMemory_trans ht (State.sameMemory_of fun d => State.col_setPathOf_mem ..)

theorem State.threadOf_updCol_setWarp (s : State) (c n d : Nat) (v : Who) (f : Warp → Warp) (hf : ∀ w, (f w).th = w.th) :
    (s.updCol c fun x => x.setWarp n (f (x.warp n))).threadOf d v = s.threadOf d v := by
  cases v <;> by_cases hd : d = c <;> simp [State.threadOf, State.factor, hd]
  split <;> simp_all

/-- Landing writes the agent's register files as the write does, and its paths besides. -/
theorem State.threadOf_landWrite_eq (s : State) (c d : Nat) (who v : Who) (w : Write) :
    (s.landWrite c who w).threadOf d v = (s.setThreadOf c who ((s.threadOf c who).write w)).threadOf d v := by
  cases who with
  | warp n b =>
    exact State.threadOf_updCol_setWarp _ c n d v
      (fun wp => { wp with a := wp.a.map (·.write w), b := wp.b.map (·.write w), stack := wp.stack.write w }) fun _ => rfl
  | lane | tinker | factor => simp [State.landWrite]

@[simp] theorem State.threadOf_landWrite (s : State) (c : Nat) (who : Who) (w : Write) :
    (s.landWrite c who w).threadOf c who = (s.threadOf c who).write w := by
  rw [State.threadOf_landWrite_eq, State.threadOf_setThreadOf _ _ _ _ _ rfl]

theorem State.threadOf_landWrite_other (s : State) (c d : Nat) (who v : Who) (w : Write)
    (h : v.base ≠ who.base ∨ (d ≠ c ∧ ∀ n, who ≠ .factor n)) : (s.landWrite c who w).threadOf d v = s.threadOf d v := by
  rw [State.threadOf_landWrite_eq, State.threadOf_setThreadOf_other _ _ _ _ _ _ h]

/-! ## Words that only compute -/

/-- A word whose meaning is guarded by the checks of decoding, and whose guarded part traps or keeps the frame of the registers it names. -/
def framedBehind (s : State) (i : Instr) : Prop := ∃ f, exec i s = accept i.cls s f ∧ framed s i.writes (f s)

/-- A word of the V pipe that an agent takes keeps the frame of the registers it names, by the form of its result. -/
theorem exec_framedBehind_of_pipe_v (s : State) (i : Instr) (hp : i.pipe = .v) : framedBehind s i := by
  cases i with
  | iadd | isub | imin | imax | iabs | ineg | imul | imulh | imulhu | imad | and | or | xor | andn | shl | shr | sar | rol | popc | clz
  | brev | prmt | bfe | bfeu | bfi | idot4 | iaddi | andi | ori | xori | shli | shri | sari | roli | vmov | vbc | vgetl | vli | vlis
  | fadd | fsub | fmul | ffma | fmin | fmax | fabs | fneg | frnd | fscale | fgetexp | fclass | bfma2 | iminu | imaxu | badd2 | bsub2
  | bmul2 | hadd2 | hsub2 | hmul2 | hfma2 | bmin2 | bmax2 | hmin2 | hmax2 =>
    unfold framedBehind exec; exact ⟨_, rfl, framed_vectorTo (by decide) (.head _)⟩
  | icmp | icmpU | icmpi | fcmp | fcmpU =>
    unfold framedBehind exec; exact ⟨_, rfl, framed_maskTo (by decide) (.head _)⟩
  | iaddc | isubb =>
    unfold framedBehind exec; exact ⟨_, rfl, framed_pairTo (by decide) (.head _) (.tail _ (.head _))⟩
  | sel | vsetl =>
    unfold framedBehind exec; exact ⟨_, rfl, framed_push (by decide) (.head _)⟩
  | _ => exact nomatch hp

/-- So does a word of the X pipe, save that one with a scalar result may trap DIVERGENT_SCALAR. -/
theorem exec_framedBehind_of_pipe_x (s : State) (i : Instr) (hp : i.pipe = .x) : framedBehind s i := by
  cases i with
  | frcp | frsq | fsqrt | ftanh | fexp2 | flog2 | fsin | fcos | cvtF2i | cvtF2u | cvtI2f | cvtU2f | cvtF2b | cvtF2h | cvtB2f | cvtH2f
  | packE4m3 | packE5m2 | packTs8 | mxscale | mxapply | lpick | lrot | lxor | lspan | lpeers | lfirst | foldBc | scanInc | scanExc
  | segred | segscan =>
    unfold framedBehind exec; exact ⟨_, rfl, framed_vectorTo (by decide) (.head _)⟩
  | kpopc | kffs | fold | kst =>
    unfold framedBehind exec; exact ⟨_, rfl, framed_scalarTo (by decide) (.head _)⟩
  | ksome | kevery | kone | ksame =>
    unfold framedBehind exec; exact ⟨_, rfl, framed_condTo (by decide) (.head _)⟩
  | kand | kor | kxor | kandn | kld | knot | kact =>
    unfold framedBehind exec; exact ⟨_, rfl, framed_maskTo (by decide) (.head _)⟩
  | unpkE4m3 | unpkE5m2 | unpkTs8 =>
    unfold framedBehind exec; exact ⟨_, rfl, framed_pairTo (by decide) (.head _) (.tail _ (.head _))⟩
  | _ => exact nomatch hp

/-- And a scalar word that computes: it may trap ILLEGAL too. -/
theorem exec_framedBehind_of_pipe_s (s : State) (i : Instr) (hi : i.computes = true) (hp : i.pipe = .s) : framedBehind s i := by
  cases i with
  | sli | slis | sadd | ssub | smul | smulh | sand | sor | sxor | sandn | sshl | sshr | ssar | srol | smin | smax | sminu | smaxu
  | saddi | smov | spopc | sclz | perf =>
    unfold framedBehind exec; exact ⟨_, rfl, framed_scalarTo (by decide) (.head _)⟩
  | scmp | scmpU | scmpi | cand | cor | cxor | candn =>
    unfold framedBehind exec; exact ⟨_, rfl, framed_condTo (by decide) (.head _)⟩
  | clkr =>
    unfold framedBehind exec; exact ⟨_, rfl, framed_ite (framed_two (by decide) (by decide) (.head _) (.tail _ (.head _))) framed_trap⟩
  | sread =>
    unfold framedBehind exec; exact ⟨_, rfl, framed_ite framed_illegal (framed_scalarTo (by decide) (.head _))⟩
  | scsel =>
    unfold framedBehind exec; exact ⟨_, rfl, framed_ite (framed_scalarTo (by decide) (.head _)) (framed_ite framed_refl framed_trap)⟩
  | nop | yield | exit | brk | swrite | br | brF | jmp | call | ret | jmpi | calli | split | join | brt | waitL | waitM | sleep | trap | eret
  | tlbi | winr | winw | ejctl | signal => exact absurd (show false = true from hi) Bool.false_ne_true
  | _ => exact nomatch hp

/-- Every computing word that an agent takes traps or keeps the frame of the registers it names (R47, R87). -/
theorem exec_framedBehind_of_computes (s : State) (i : Instr) (hi : i.computes = true) : framedBehind s i := by
  cases hp : i.pipe with
  | v => exact exec_framedBehind_of_pipe_v s i hp
  | x => exact exec_framedBehind_of_pipe_x s i hp
  | s => exact exec_framedBehind_of_pipe_s s i hi hp
  | m | e | none => simp [Instr.computes, hp] at hi

/-- Where the agent takes it, such a word traps or keeps the frame. -/
theorem framed_of_framedBehind {s : State} {i : Instr} (h : framedBehind s i) (ht : s.takes i) : framed s i.writes (exec i s) := by
  obtain ⟨f, he, hf⟩ := h
  rw [he, accept_of_takes ht]
  exact hf

/-! ## What one landed write changes -/

theorem lane_landed_vector (s : State) (c : Nat) (who : Who) (r q l : Nat) (m : Lanes) (x : Vec) (hl : l < 32) :
    lane (Tab.get 0#1024 ((s.landWrite c who (.v r m x)).threadOf c who).v q) l =
      if q = r ∧ m.getLsbD l = true then lane x l else lane (Tab.get 0#1024 (s.threadOf c who).v q) l := by
  rw [State.threadOf_landWrite, Thread.write, Tab.get_store]
  by_cases hq : q = r
  · simp [hq, lane_blend m x _ hl]
  · simp [hq]

theorem getLsbD_landed_mask (s : State) (c : Nat) (who : Who) (r q l : Nat) (m x : Lanes) (hl : l < 32) :
    (Tab.get 0#32 ((s.landWrite c who (.k r m x)).threadOf c who).k q).getLsbD l =
      if q = r ∧ m.getLsbD l = true then x.getLsbD l else (Tab.get 0#32 (s.threadOf c who).k q).getLsbD l := by
  rw [State.threadOf_landWrite, Thread.write, Tab.get_store]
  by_cases hq : q = r
  · simp only [hq, if_true, true_and]; exact getLsbD_masked m x _ hl
  · simp [hq]

/-- A scalar below s48 lands in the register files, and one of the banks leaves them alone. -/
theorem landed_scalar (s : State) (c : Nat) (who : Who) (p r : Nat) (x : Dword) :
    (r < 48 → ∀ q, Tab.get 0#64 ((s.landWrite c who (.s p r x)).threadOf c who).s q =
        if q = r then x else Tab.get 0#64 (s.threadOf c who).s q) ∧
      (48 ≤ r → ((s.landWrite c who (.s p r x)).threadOf c who).s = (s.threadOf c who).s) := by
  rw [State.threadOf_landWrite, Thread.write]
  refine ⟨fun h q => ?_, fun h => ?_⟩
  · rw [if_neg (by omega)]; exact Tab.get_store ..
  · rw [if_pos h]

theorem landed_scalar_keeps (s : State) (c : Nat) (who : Who) (p r : Nat) (x : Dword) :
    ((s.landWrite c who (.s p r x)).threadOf c who).v = (s.threadOf c who).v ∧
      ((s.landWrite c who (.s p r x)).threadOf c who).k = (s.threadOf c who).k := by
  rw [State.threadOf_landWrite, Thread.write]
  split <;> exact ⟨rfl, rfl⟩

/-- Settles O43: a computing word by the form of its result, a landed write by the register file that it names. -/
theorem computingWordsWriteTheirRegisters : Obligations.ComputingWordsWriteTheirRegisters := by
  unfold Obligations.ComputingWordsWriteTheirRegisters
  refine ⟨fun s i hi ht => framed_of_framedBehind (exec_framedBehind_of_computes s i hi) ht, fun s c who w => ⟨State.sameMemory_landWrite s c who w, State.landWrite_clk .., State.landWrite_host ..,
    State.landWrite_dist .., fun d v h => State.threadOf_landWrite_other _ _ _ _ _ _ h, ?_, ?_, ?_, ?_⟩⟩
  · rintro r m x rfl
    exact ⟨by simp [Thread.write], by simp [Thread.write], fun q l hl => lane_landed_vector s c who r q l m x hl⟩
  · rintro r m x rfl
    exact ⟨by simp [Thread.write], by simp [Thread.write], fun q l hl => getLsbD_landed_mask s c who r q l m x hl⟩
  · rintro p r x rfl
    obtain ⟨hv, hk⟩ := landed_scalar_keeps s c who p r x
    exact ⟨hv, hk, landed_scalar s c who p r x⟩
  · rintro p i x rfl
    exact State.threadOf_landWrite ..

/-! ## Encodings -/

/-- Settles O45: the decoder, evaluated on each word. -/
theorem wordsDecode : Obligations.WordsDecode := by
  unfold Obligations.WordsDecode
  exact ⟨rfl, rfl, rfl, rfl, rfl, rfl, rfl, rfl, rfl, rfl, rfl, rfl, rfl, rfl, rfl⟩

end Sys2Proof.Machine

section
/-! The clock and the time. No operation of the state but the tick of a cycle touches %clk, and only the tick and a correction of more than
a millisecond touch %time (R10, R48, R367): one lemma for each operation says that it keeps both. -/

namespace Sys2Proof.Machine

/-! ## What the time is, and what keeps it -/

/-- %clk and %time. -/
def State.now (s : State) : Nat × Nat := (s.clk, s.time)

@[simp] theorem State.now_mk (a b c d e f g clk time h i j k l m n) :
    State.now ⟨a, b, c, d, e, f, g, clk, time, h, i, j, k, l, m, n⟩ = (clk, time) := rfl

@[simp] theorem State.clk_time (s : State) : (s.clk, s.time) = s.now := rfl

@[simp] theorem State.fst_now (s : State) : s.now.1 = s.clk := rfl

@[simp] theorem State.snd_now (s : State) : s.now.2 = s.time := rfl

theorem State.withHost_now (s : State) (h : HostSide) : State.now { s with host := h } = s.now := rfl

@[simp] theorem State.now_ite {p : Prop} [Decidable p] (s t : State) : (if p then s else t).now = if p then s.now else t.now := apply_ite ..

@[simp] theorem State.snd_now_ite {α : Type} {p : Prop} [Decidable p] (x y : α × State) :
    (if p then x else y).2.now = if p then x.2.now else y.2.now := by split <;> rfl

@[simp] theorem State.fst_now_ite {α : Type} {p : Prop} [Decidable p] (x y : State × α) :
    (if p then x else y).1.now = if p then x.1.now else y.1.now := by split <;> rfl

@[simp] theorem State.foldl_now {α : Type} {f : State → α → State} {l : List α} {s : State} (h : ∀ s a, (f s a).now = s.now) :
    (l.foldl f s).now = s.now := by
  induction l generalizing s with
  | nil => rfl
  | cons a l ih => rw [List.foldl_cons, ih, h]

theorem State.foldl_snd_now {α β : Type} {f : β × State → α → β × State} {l : List α} {x : β × State}
    (h : ∀ x a, (f x a).2.now = x.2.now) : (l.foldl f x).2.now = x.2.now := by
  induction l generalizing x with
  | nil => rfl
  | cons a l ih => rw [List.foldl_cons, ih, h]

theorem now_of_snd {α : Type} {x : α × State} {a : α} {t : State} (h : x = (a, t)) : x.2.now = t.now := by rw [h]

theorem snd_eq_iff {α : Type} {x : α × State} {a : α} {t : State} : x = (a, t) ↔ x.1 = a ∧ t = x.2 := by
  rw [Prod.ext_iff]; exact and_congr_right fun _ => eq_comm

/-- An outcome that leaves %clk and %time as `k` says, where it leaves a state. -/
def keepsNow (k : Nat × Nat) : Host.Outcome State Fault Refusal → Prop
  | .next t => t.now = k
  | _ => True

@[simp] theorem keepsNow_next {k t} : keepsNow k (.next t) ↔ t.now = k := Iff.rfl

@[simp] theorem keepsNow_fault {k r} : keepsNow k (.fault r) := trivial

@[simp] theorem keepsNow_refused {k r} : keepsNow k (.refused r) := trivial

@[simp] theorem keepsNow_ite {k : Nat × Nat} {p : Prop} [Decidable p] (a b : Host.Outcome State Fault Refusal) :
    keepsNow k (if p then a else b) ↔ if p then keepsNow k a else keepsNow k b := by split <;> rfl

/-! ## The state's operations -/

@[simp] theorem State.setCol_now (s : State) (c : Nat) (x : Column) : (s.setCol c x).now = s.now := by simp [State.setCol]

@[simp] theorem State.updCol_now (s : State) (c : Nat) (f : Column → Column) : (s.updCol c f).now = s.now := by simp [State.updCol]

@[simp] theorem State.setNode_now (s : State) (n : Nat) (x : Node) : (s.setNode n x).now = s.now := by simp [State.setNode]

@[simp] theorem State.updHere_now (s : State) (f : Column → Column) : (s.updHere f).now = s.now := by simp [State.updHere]

@[simp] theorem State.updWarp_now (s : State) (f : Warp → Warp) : (s.updWarp f).now = s.now := by
  unfold State.updWarp
  split <;> simp

@[simp] theorem State.setThreadOf_now (s : State) (c : Nat) (who : Who) (t : Thread) : (s.setThreadOf c who t).now = s.now := by
  unfold State.setThreadOf
  split <;> simp

@[simp] theorem State.updThread_now (s : State) (f : Thread → Thread) : (s.updThread f).now = s.now := by simp [State.updThread]

@[simp] theorem State.setPathOf_now (s : State) (c : Nat) (who : Who) (p : Path) : (s.setPathOf c who p).now = s.now := by
  unfold State.setPathOf
  split <;> simp

@[simp] theorem State.updPath_now (s : State) (f : Path → Path) : (s.updPath f).now = s.now := by simp [State.updPath]

@[simp] theorem State.push_now (s : State) (latency : Nat) (w : Write) : (s.push latency w).now = s.now := by simp [State.push]

@[simp] theorem State.putS_now (s : State) (latency r : Nat) (x : Dword) : (s.putS latency r x).now = s.now := by simp [State.putS]

@[simp] theorem State.putC_now (s : State) (latency i : Nat) (x : Bool) : (s.putC latency i x).now = s.now := by simp [State.putC]

@[simp] theorem State.landWrite_now (s : State) (c : Nat) (who : Who) (w : Write) : (s.landWrite c who w).now = s.now := by
  unfold State.landWrite
  split <;> simp

@[simp] theorem State.landDue_now (s : State) (c : Nat) (who : Who) : (s.landDue c who).now = s.now := by simp [State.landDue]

@[simp] theorem State.goto_now (s : State) (pkt : BitVec 32) : (s.goto pkt).now = s.now := by simp [State.goto]

@[simp] theorem State.endRun_now (s : State) : s.endRun.now = s.now := by
  unfold State.endRun
  split <;> simp

@[simp] theorem State.holdAt_now (s : State) (w : Wait) : (s.holdAt w).now = s.now := by simp [State.holdAt]

@[simp] theorem State.inPlaceUntil_now (s : State) (cycle : Nat) : (s.inPlaceUntil cycle).now = s.now := by simp [State.inPlaceUntil]

@[simp] theorem State.blockAt_now (s : State) (w : Wait) : (s.blockAt w).now = s.now := by
  unfold State.blockAt
  split <;> simp

@[simp] theorem State.raise_now (s : State) (c : Cause) (t : TrapInfo) : (s.raise c t).now = s.now := by
  unfold State.raise
  dsimp only
  split <;> simp

@[simp] theorem State.trap_now (s : State) (c : Cause) : (s.trap c).now = s.now := by simp [State.trap]

@[simp] theorem State.illegal_now (s : State) : s.illegal.now = s.now := by simp [State.illegal]

/-! ## Named words -/

@[simp] theorem accept_keepsNow {k : Nat × Nat} {c : Cls} {s : State} {run : State → Host.Outcome State Fault Refusal} (hk : s.now = k)
    (hr : ∀ t, keepsNow t.now (run t)) : keepsNow k (accept c s run) := by
  subst hk
  unfold accept
  split <;> simp [hr]

/-! ## Operands -/

@[simp] theorem State.scalarTo_keepsNow {k : Nat × Nat} (s : State) (latency : Nat) (d : BitVec 6) (x : Dword) (hk : s.now = k) :
    keepsNow k (s.scalarTo latency d x) := by
  subst hk
  simp [State.scalarTo]

/-! ## Scalar words -/

theorem execSwrite_keepsNow (a b : BitVec 6) (s : State) : keepsNow s.now (execSwrite a b s) := by simp [execSwrite]

/-! ## Translation -/

@[simp] theorem State.bringHost_now (s : State) (c ctx line : Nat) : (s.bringHost c ctx line).now = s.now := by simp [State.bringHost]

@[simp] theorem State.homeBytes_now (s : State) (c ctx pa n : Nat) : (s.homeBytes c ctx pa n).2.now = s.now := by
  unfold State.homeBytes
  split <;> simp

@[simp] theorem State.translate_now (s : State) (col ctx va : Nat) (core : Bool) : (s.translate col ctx va core).2.now = s.now := by
  unfold State.translate
  dsimp only
  (repeat' split) <;> simp

@[simp] theorem State.windowed_now (s : State) (off : Nat) (core : Bool) : (s.windowed off core).2.now = s.now := by simp [State.windowed]

@[simp] theorem State.pageOf_now (s : State) (off : Nat) : (s.pageOf off).2.now = s.now := by
  unfold State.pageOf
  split <;> simp

@[simp] theorem State.checkAddr_now (s : State) (n : Need) (a : Dword) : (s.checkAddr n a).2.now = s.now := by
  unfold State.checkAddr
  dsimp only
  (repeat' split) <;> simp_all [snd_eq_iff]

@[simp] theorem State.checkLanes_now (s : State) (n : Need) (l : List (Nat × Dword)) : (s.checkLanes n l).2.now = s.now := by
  induction l generalizing s with
  | nil => rfl
  | cons p l ih => simp [State.checkLanes, ih]

@[simp] theorem State.codeWord_now (s : State) (off : Nat) : (s.codeWord off).2.now = s.now := by
  unfold State.codeWord
  dsimp only
  (repeat' split) <;> simp_all [snd_eq_iff]

@[simp] theorem State.fetchPacket_now (s : State) (pkt : BitVec 32) : (s.fetchPacket pkt).2.now = s.now := by
  unfold State.fetchPacket
  dsimp only
  (repeat' split) <;> simp_all [snd_eq_iff]

/-! ## Paths -/

@[simp] theorem State.park_now (s : State) (c n : Nat) : (s.park c n).now = s.now := by simp [State.park]

@[simp] theorem State.rejoinUpdate_now (s : State) (c n : Nat) : (s.rejoinUpdate c n).now = s.now := by simp [State.rejoinUpdate]

@[simp] theorem State.setStack_now (s : State) (k : PathStack) : (s.setStack k).now = s.now := by
  unfold State.setStack
  split <;> simp

@[simp] theorem State.raiseErred_now (s : State) (v : VPend) (pc : Option (BitVec 32 × Nat)) : (s.raiseErred v pc).now = s.now := by
  unfold State.raiseErred
  dsimp only
  (repeat' split) <;> simp

theorem State.bankWait_now {t : State} (s : State) (all : Bool) (h : s.bankWait all = some t) : t.now = s.now := by
  unfold State.bankWait at h
  dsimp only at h
  (repeat' split at h) <;> cases h <;> simp

@[simp] theorem State.placeWarp_now (s : State) (n : Nat) (b : Bool) (p : Path) (t : Token) (first : Cand) (rest : List (Bool × Cand)) :
    (s.placeWarp n b p t first rest).now = s.now := by
  simp [State.placeWarp]

@[simp] theorem State.divide_keepsNow {k : Nat × Nat} (s : State) (join : BitVec 32) (cands : List Cand) (hk : s.now = k) :
    keepsNow k (s.divide join cands) := by
  subst hk
  unfold State.divide
  dsimp only
  split
  · simp
  · split
    · next h => simp [State.bankWait_now _ _ h]
    · (repeat' split) <;> simp

/-! ## Transactions -/

@[simp] theorem State.abortTx_now (s : State) (a : Abort) (user : Nat) (addr : Dword) : (s.abortTx a user addr).now = s.now := by
  unfold State.abortTx
  split <;> simp

@[simp] theorem outsideTx_keepsNow {k : Nat × Nat} {s : State} {run : State → Host.Outcome State Fault Refusal} (hk : s.now = k)
    (hr : ∀ t, keepsNow t.now (run t)) : keepsNow k (outsideTx s run) := by
  subst hk
  simp [outsideTx, hr]

/-! ## Control -/

@[simp] theorem State.link_now (s : State) : s.link.now = s.now := by simp [State.link]

theorem execBr_keepsNow (k : BitVec 3) (o : BitVec 16) (s : State) : keepsNow s.now (execBr k o s) := by simp [execBr]

theorem execBrF_keepsNow (k : BitVec 3) (o : BitVec 16) (s : State) : keepsNow s.now (execBrF k o s) := by simp [execBrF]

theorem execJmp_keepsNow (o : BitVec 20) (s : State) : keepsNow s.now (execJmp o s) := by simp [execJmp]

theorem execCall_keepsNow (o : BitVec 20) (s : State) : keepsNow s.now (execCall o s) := by simp [execCall]

theorem execRet_keepsNow (s : State) : keepsNow s.now (execRet s) := by simp [execRet]

theorem execJmpi_keepsNow (a : BitVec 6) (s : State) : keepsNow s.now (execJmpi a s) := by simp [execJmpi]

theorem execCalli_keepsNow (a : BitVec 6) (s : State) : keepsNow s.now (execCalli a s) := by simp [execCalli]

theorem execSplit_keepsNow (k : BitVec 3) (t : BitVec 10) (j : BitVec 7) (s : State) : keepsNow s.now (execSplit k t j s) := by
  simp [execSplit]

@[simp] theorem State.tableWords_now (s : State) (count : Nat) (pkt : BitVec 32) : (s.tableWords count pkt).2.now = s.now := by
  induction count generalizing s pkt with
  | zero => rfl
  | succ n ih =>
    simp only [State.tableWords]
    (repeat' split) <;> simp_all [snd_eq_iff]

theorem execBrt_keepsNow (a : BitVec 6) (n : BitVec 8) (s : State) : keepsNow s.now (execBrt a n s) := by
  unfold execBrt
  refine accept_keepsNow rfl fun s => ?_
  dsimp only
  (repeat' split) <;> simp_all [snd_eq_iff]

@[simp] theorem State.arrive_now (s : State) (n : Nat) (b : Bool) (f : Nat) : (s.arrive n b f).now = s.now := by simp [State.arrive]

@[simp] theorem State.closeOwn_now (s : State) (f : Nat) : (s.closeOwn f).now = s.now := by simp [State.closeOwn]

theorem execJoin_keepsNow (s : State) : keepsNow s.now (execJoin s) := by
  unfold execJoin
  refine accept_keepsNow rfl fun s => ?_
  split
  · simp
  · split
    · simp
    · split
      · next h => simp [State.bankWait_now _ _ h]
      · (repeat' split) <;> simp

@[simp] theorem State.waitFor_now (s : State) (done : Bool) (w : Wait) : (s.waitFor done w).now = s.now := by simp [State.waitFor]

theorem execWaitL_keepsNow (a : BitVec 6) (s : State) : keepsNow s.now (execWaitL a s) := by
  unfold execWaitL
  refine accept_keepsNow rfl fun s => ?_
  (repeat' split) <;> simp

theorem execWaitM_keepsNow (a : BitVec 6) (s : State) : keepsNow s.now (execWaitM a s) := by
  unfold execWaitM
  refine accept_keepsNow rfl fun s => ?_
  split <;> simp

theorem execSleep_keepsNow (a : BitVec 6) (s : State) : keepsNow s.now (execSleep a s) := by simp [execSleep]

theorem execNop_keepsNow (s : State) : keepsNow s.now (execNop s) := by simp [execNop]

theorem execYield_keepsNow (s : State) : keepsNow s.now (execYield s) := by
  unfold execYield
  refine accept_keepsNow rfl fun s => ?_
  split <;> simp

theorem execBrk_keepsNow (t : BitVec 18) (s : State) : keepsNow s.now (execBrk t s) := by simp [execBrk]

theorem execTrap_keepsNow (i : BitVec 20) (s : State) : keepsNow s.now (execTrap i s) := by simp [execTrap]

/-! ## Memory operations -/

@[simp] theorem State.complete_now (s : State) (c : Nat) (m : MemOp) : (s.complete c m).now = s.now := by simp [State.complete]

@[simp] theorem State.afterPart_now (s : State) (c : Nat) (m : MemOp) : (s.afterPart c m).now = s.now := by simp [State.afterPart]

@[simp] theorem State.storeLine_now (s : State) (c : Nat) (m : MemOp) (line : Nat) (hit : Bool) :
    (s.storeLine c m line hit).now = s.now := by
  simp [State.storeLine]

@[simp] theorem State.useL1_now (s : State) (c : Nat) (m : MemOp) (line : Nat) (hit : Bool) : (s.useL1 c m line hit).now = s.now := by
  unfold State.useL1
  split <;> simp

@[simp] theorem State.atL1_now (s : State) (c : Nat) (m : MemOp) (line due : Nat) (missed : Bool) :
    (s.atL1 c m line due missed).now = s.now := by
  simp [State.atL1]

@[simp] theorem State.startOp_now (s : State) (c : Nat) (m : MemOp) : (s.startOp c m).now = s.now := by
  unfold State.startOp
  dsimp only
  split
  · simp
  · rw [State.foldl_now]
    · simp
    · intro s line
      (repeat' split) <;> simp

/-! ## Order -/

@[simp] theorem State.runDeferred_now (fuel : Nat) (s : State) (c n : Nat) : (State.runDeferred fuel s c n).now = s.now := by
  induction fuel generalizing s c n with
  | zero => rfl
  | succ n ih =>
    simp only [State.runDeferred]
    split <;> simp [ih]

@[simp] theorem State.performDeferred_now (s : State) (c n : Nat) : (s.performDeferred c n).now = s.now := by simp [State.performDeferred]

@[simp] theorem State.passToken_now (s : State) (c n : Nat) : (s.passToken c n).now = s.now := by
  unfold State.passToken
  dsimp only
  (repeat' split) <;> simp

@[simp] theorem State.releaseHost_now (s : State) : s.releaseHost.2.now = s.now := by simp [State.releaseHost]

@[simp] theorem State.releaseFrom_now (s : State) (at_ : Wait) (scope : Nat) : (s.releaseFrom at_ scope).2.now = s.now := by
  unfold State.releaseFrom
  dsimp only
  (repeat' split) <;> simp

@[simp] theorem State.acquire_now (s : State) (scope : Nat) : (s.acquire scope).now = s.now := by simp [State.acquire]

@[simp] theorem State.afterRelease_keepsNow {k : Nat × Nat} {s : State} {scope : Nat} {run : State → Host.Outcome State Fault Refusal}
    (hk : s.now = k)
    (hr : ∀ t, keepsNow t.now (run t)) : keepsNow k (s.afterRelease scope run) := by
  subst hk
  unfold State.afterRelease
  split
  · next h => rw [← s.releaseFrom_now s.cur.wait scope, now_of_snd h]; exact hr _
  · next h => simp [← now_of_snd h]

@[simp] theorem State.putHold_now (s : State) (h : Hold) (next : Option Hold) : (s.putHold h next).now = s.now := by simp [State.putHold]

@[simp] theorem State.settleHold_now (s : State) (h : Hold) : (s.settleHold h).now = s.now := by
  unfold State.settleHold
  (repeat' split) <;> simp_all [snd_eq_iff]

@[simp] theorem State.settleHolds_now (s : State) : s.settleHolds.now = s.now := by simp [State.settleHolds]

@[simp] theorem State.addHold_now (s : State) (h : Hold) : (s.addHold h).now = s.now := by simp [State.addHold]

/-! ## Memory words -/

@[simp] theorem State.checked_keepsNow {k : Nat × Nat} {s : State} {n : Need} {addrs : List (Nat × Dword)}
    {run : List (Nat × Nat) → Bool → State → Host.Outcome State Fault Refusal} (hk : s.now = k)
    (hr : ∀ pas shg t, keepsNow t.now (run pas shg t)) : keepsNow k (s.checked n addrs run) := by
  subst hk
  have hc := s.checkLanes_now n addrs
  unfold State.checked
  split
  · simp
  · dsimp only
    repeat' split
    · simp
    · simp
    · exact hc ▸ hr _ _ _

@[simp] theorem State.newOp_now (s : State) (kind : MemKind) (accs : List Acc) (ptrs : List (Nat × Dword)) :
    (s.newOp kind accs ptrs).2.now = s.now := by
  simp [State.newOp]

@[simp] theorem State.pendVl_now (s : State) (regs : List Reg) (value : Option (List Write)) (mem : Bool) :
    (s.pendVl regs value mem).2.now = s.now := by
  simp [State.pendVl]

@[simp] theorem State.vlResult_now (s : State) (regs : List Reg) (w : List Write) (mem : Bool) : (s.vlResult regs w mem).now = s.now := by
  simp [State.vlResult]

@[simp] theorem State.vlScalar_keepsNow {k : Nat × Nat} (s : State) (d : BitVec 6) (x : Dword) (hk : s.now = k) :
    keepsNow k (s.vlScalar d x) := by
  subst hk
  simp [State.vlScalar]

@[simp] theorem State.beginOp_keepsNow {k : Nat × Nat} {s : State} {defers : Bool} {m : MemOp} {s0 : State} (hk : s.now = k)
    (h0 : s0.now = k) :
    keepsNow k (s.beginOp defers m s0) := by
  simp [State.beginOp, hk, h0]

@[simp] theorem State.txLoad_keepsNow {k : Nat × Nat} (s : State) (t : Tx) (size : Nat) (signed : Bool) (dest : List Nat)
    (addrs : List (Nat × Dword)) (pas : List (Nat × Nat)) (hk : s.now = k) : keepsNow k (s.txLoad t size signed dest addrs pas) := by
  subst hk
  unfold State.txLoad
  dsimp only
  (repeat' split) <;> simp

@[simp] theorem State.txStore_keepsNow {k : Nat × Nat} (s : State) (t : Tx) (size d : Nat) (pas : List (Nat × Nat)) (shg : Bool)
    (hk : s.now = k) : keepsNow k (s.txStore t size d pas shg) := by
  subst hk
  simp [State.txStore]

@[simp] theorem State.loadWord_keepsNow {k : Nat × Nat} (s : State) (size : Nat) (signed : Bool) (d : Nat) (a b : BitVec 6)
    (acq : Option Nat) (hk : s.now = k) : keepsNow k (s.loadWord size signed d a b acq) := by
  unfold State.loadWord
  refine State.checked_keepsNow hk fun pas _ s => ?_
  dsimp only
  (repeat' split) <;> simp

theorem execLdAcqW_keepsNow (d a b : BitVec 6) (s : State) : keepsNow s.now (execLdAcqW d a b s) :=
  accept_keepsNow rfl fun _ => outsideTx_keepsNow rfl fun _ => State.loadWord_keepsNow _ _ _ _ _ _ _ rfl

theorem execLdAcqD_keepsNow (d : BitVec 5) (a b : BitVec 6) (s : State) : keepsNow s.now (execLdAcqD d a b s) :=
  accept_keepsNow rfl fun _ => outsideTx_keepsNow rfl fun _ => State.loadWord_keepsNow _ _ _ _ _ _ _ rfl

@[simp] theorem State.storeWord_keepsNow {k : Nat × Nat} (s : State) (size d : Nat) (a b : BitVec 6) (hk : s.now = k) :
    keepsNow k (s.storeWord size d a b) := by
  unfold State.storeWord
  refine State.checked_keepsNow hk fun pas shg s => ?_
  dsimp only
  split <;> simp

theorem execStRelW_keepsNow (d a b : BitVec 6) (s : State) : keepsNow s.now (execStRelW d a b s) :=
  accept_keepsNow rfl fun _ => outsideTx_keepsNow rfl fun _ => State.afterRelease_keepsNow rfl fun s => s.storeWord_keepsNow _ _ _ _ rfl

theorem execStRelD_keepsNow (d : BitVec 5) (a b : BitVec 6) (s : State) : keepsNow s.now (execStRelD d a b s) :=
  accept_keepsNow rfl fun _ => outsideTx_keepsNow rfl fun _ => State.afterRelease_keepsNow rfl fun s => s.storeWord_keepsNow _ _ _ _ rfl

theorem execSld_keepsNow (d a : BitVec 6) (i : BitVec 8) (s : State) : keepsNow s.now (execSld d a i s) := by
  unfold execSld
  refine accept_keepsNow rfl fun s => ?_
  simp

theorem execSst_keepsNow (d a : BitVec 6) (i : BitVec 8) (s : State) : keepsNow s.now (execSst d a i s) := by
  unfold execSst
  refine accept_keepsNow rfl fun s => outsideTx_keepsNow rfl fun s => State.checked_keepsNow rfl fun pas shg s => ?_
  dsimp only
  split <;> simp

@[simp] theorem State.localChecked_keepsNow {k : Nat × Nat} {s : State} {size : Nat} {a b : BitVec 6}
    {run : List (Nat × Nat) → State → Host.Outcome State Fault Refusal} (hk : s.now = k)
    (hr : ∀ pas t, keepsNow t.now (run pas t)) : keepsNow k (s.localChecked size a b run) := by
  subst hk
  unfold State.localChecked
  split <;> simp [hr]

@[simp] theorem State.updStore_now (s : State) (f : List Host.Cell → List Host.Cell) : (s.updStore f).now = s.now := by
  simp [State.updStore]

theorem execLdl_keepsNow (d a b : BitVec 6) (z : BitVec 2) (s : State) : keepsNow s.now (execLdl d a b z s) := by simp [execLdl]

theorem execStl_keepsNow (d a b : BitVec 6) (z : BitVec 2) (s : State) : keepsNow s.now (execStl d a b z s) := by simp [execStl]

@[simp] theorem State.looseLines_keepsNow {k : Nat × Nat} {s : State} {n : Need} {a b : BitVec 6}
    {run : List (Nat × Nat) → State → Host.Outcome State Fault Refusal} (hk : s.now = k)
    (hr : ∀ pas t, keepsNow t.now (run pas t)) : keepsNow k (s.looseLines n a b run) := by
  subst hk
  have hc := s.checkLanes_now n (s.laneAddrs a b)
  unfold State.looseLines
  split
  · simp
  · dsimp only
    split
    · simp
    · exact hc ▸ hr _ _

theorem execPf_keepsNow (a b : BitVec 6) (s : State) : keepsNow s.now (execPf a b s) := by simp [execPf]

theorem execFence_keepsNow (s : State) : keepsNow s.now (execFence s) := by
  unfold execFence
  refine accept_keepsNow rfl fun s => outsideTx_keepsNow rfl fun s => ?_
  dsimp only
  split <;> simp

@[simp] theorem State.cacheWord_keepsNow {k : Nat × Nat} (s : State) (drop : Bool) (a b : BitVec 6) (hk : s.now = k) :
    keepsNow k (s.cacheWord drop a b) := by
  subst hk
  simp [State.cacheWord]

theorem execCclean_keepsNow (a b : BitVec 6) (s : State) : keepsNow s.now (execCclean a b s) :=
  accept_keepsNow rfl fun _ => outsideTx_keepsNow rfl fun _ => State.cacheWord_keepsNow _ _ _ _ rfl

theorem execCinv_keepsNow (a b : BitVec 6) (s : State) : keepsNow s.now (execCinv a b s) :=
  accept_keepsNow rfl fun _ => outsideTx_keepsNow rfl fun _ => State.cacheWord_keepsNow _ _ _ _ rfl

/-! ## Atomics -/

@[simp] theorem State.atomWord_keepsNow {k : Nat × Nat} (s : State) (op d : Nat) (a b : BitVec 6) (hk : s.now = k) :
    keepsNow k (s.atomWord op d a b) := by
  unfold State.atomWord
  refine outsideTx_keepsNow hk fun s => State.checked_keepsNow rfl fun pas shg s => ?_
  dsimp only
  split <;> simp

@[simp] theorem State.atomLocal_keepsNow {k : Nat × Nat} (s : State) (op d : Nat) (a b : BitVec 6) (hk : s.now = k) :
    keepsNow k (s.atomLocal op d a b) := by
  subst hk
  simp [State.atomLocal]

@[simp] theorem State.redWord_keepsNow {k : Nat × Nat} (s : State) (op d : Nat) (a b : BitVec 6) (hk : s.now = k) :
    keepsNow k (s.redWord op d a b) := by
  unfold State.redWord
  refine outsideTx_keepsNow hk fun s => State.checked_keepsNow rfl fun pas shg s => ?_
  dsimp only
  split <;> simp

@[simp] theorem State.redBayWord_keepsNow {k : Nat × Nat} (s : State) (op d : Nat) (a b : BitVec 6) (hk : s.now = k) :
    keepsNow k (s.redBayWord op d a b) := by
  unfold State.redBayWord
  refine outsideTx_keepsNow hk fun s => State.checked_keepsNow rfl fun pas shg s => ?_
  dsimp only
  split <;> simp

/-! ## Synchronization -/

@[simp] theorem State.barTrap_now (s : State) (c : Cause) (h : Dword) : (s.barTrap c h).now = s.now := by simp [State.barTrap]

@[simp] theorem State.withBarrier_keepsNow {s : State} {h : Dword} {run : Host.Outcome State Fault Refusal}
    {k : Nat × Nat} (hk : s.now = k) (hr : keepsNow k run) : keepsNow k (s.withBarrier h run) := by
  simp [State.withBarrier, hk, hr]

@[simp] theorem State.onCore_keepsNow {k : Nat × Nat} {s : State} {run : Host.Outcome State Fault Refusal} (hk : s.now = k)
    (hr : keepsNow k run) :
    keepsNow k (s.onCore run) := by
  unfold State.onCore
  split <;> simp [hk, hr]

theorem execBnew_keepsNow (d a b : BitVec 6) (s : State) : keepsNow s.now (execBnew d a b s) := by
  unfold execBnew
  refine accept_keepsNow rfl fun s => outsideTx_keepsNow rfl fun s => ?_
  dsimp only
  (repeat' split) <;> simp

theorem execBfree_keepsNow (a : BitVec 6) (s : State) : keepsNow s.now (execBfree a s) := by simp [execBfree]

theorem execBexp_keepsNow (a b : BitVec 6) (s : State) : keepsNow s.now (execBexp a b s) := by
  unfold execBexp
  refine accept_keepsNow rfl fun s => ?_
  simp

theorem execBarr_keepsNow (d a : BitVec 6) (s : State) : keepsNow s.now (execBarr d a s) := by
  unfold execBarr
  refine accept_keepsNow rfl fun s => outsideTx_keepsNow rfl fun s => State.onCore_keepsNow rfl ?_
  split
  · simp
  · exact State.withBarrier_keepsNow rfl (State.afterRelease_keepsNow rfl fun s => by simp)

@[simp] theorem State.waitBarrier_keepsNow {k : Nat × Nat} (s : State) (h : Dword) (gen : BitVec 24) (target : Bool) (hk : s.now = k) :
    keepsNow k (s.waitBarrier h gen target) := by
  subst hk
  unfold State.waitBarrier
  dsimp only
  (repeat' split) <;> simp

theorem execBwait_keepsNow (a : BitVec 6) (s : State) : keepsNow s.now (execBwait a s) :=
  accept_keepsNow rfl fun _ => outsideTx_keepsNow rfl fun _ => State.waitBarrier_keepsNow _ _ _ _ rfl

theorem execBwaitg_keepsNow (a b : BitVec 6) (s : State) : keepsNow s.now (execBwaitg a b s) :=
  accept_keepsNow rfl fun _ => outsideTx_keepsNow rfl fun _ => State.waitBarrier_keepsNow _ _ _ _ rfl

theorem execBtest_keepsNow (d a : BitVec 6) (s : State) : keepsNow s.now (execBtest d a s) :=
  accept_keepsNow rfl fun _ => outsideTx_keepsNow rfl fun _ => State.vlScalar_keepsNow _ _ _ rfl

@[simp] theorem State.mapSaved_now (s : State) (f : Saved → Saved) : (s.mapSaved f).now = s.now := by simp [State.mapSaved]

@[simp] theorem State.setFuture_now (s : State) (c id : Nat) (f : Handle → Handle) : (s.setFuture c id f).now = s.now := by
  simp [State.setFuture]

@[simp] theorem State.dropClaims_now (s : State) (id : Nat) : (s.dropClaims id).now = s.now := by simp [State.dropClaims]

@[simp] theorem State.dropCommand_now (s : State) (c id : Nat) (f : Handle → Handle) : (s.dropCommand c id f).now = s.now := by
  simp [State.dropCommand]

@[simp] theorem State.cancelCommand_now (s : State) (c id : Nat) : (s.cancelCommand c id).now = s.now := by
  unfold State.cancelCommand
  split <;> simp

@[simp] theorem State.setHandle_now (s : State) (i : Nat) (h : Handle) : (s.setHandle i h).now = s.now := by simp [State.setHandle]

@[simp] theorem State.unlessPending_keepsNow {k : Nat × Nat} {s : State} {i : Nat} {run : State → Host.Outcome State Fault Refusal}
    (hk : s.now = k)
    (hr : ∀ t, keepsNow t.now (run t)) : keepsNow k (s.unlessPending i run) := by
  subst hk
  simp [State.unlessPending, hr]

@[simp] theorem State.takeHandle_now (s : State) (i : Nat) : (s.takeHandle i).now = s.now := by simp [State.takeHandle]

theorem execHwait_keepsNow (a : BitVec 4) (s : State) : keepsNow s.now (execHwait a s) := by
  unfold execHwait
  refine accept_keepsNow rfl fun s => outsideTx_keepsNow rfl fun s => ?_
  dsimp only
  split <;> simp

theorem execHtest_keepsNow (d : BitVec 6) (a : BitVec 4) (s : State) : keepsNow s.now (execHtest d a s) :=
  accept_keepsNow rfl fun _ => outsideTx_keepsNow rfl fun _ => State.vlScalar_keepsNow _ _ _ rfl

theorem execHcancel_keepsNow (a : BitVec 4) (s : State) : keepsNow s.now (execHcancel a s) := by simp [execHcancel]

theorem execHget_keepsNow (d : BitVec 6) (a : BitVec 4) (s : State) : keepsNow s.now (execHget d a s) := by
  unfold execHget
  refine accept_keepsNow rfl fun s => outsideTx_keepsNow rfl fun s => ?_
  dsimp only
  (repeat' split) <;> simp

theorem execHput_keepsNow (d : BitVec 4) (a : BitVec 6) (s : State) : keepsNow s.now (execHput d a s) := by
  unfold execHput
  refine accept_keepsNow rfl fun s => outsideTx_keepsNow rfl fun s => State.unlessPending_keepsNow rfl fun s => ?_
  (repeat' split) <;> simp

theorem execTokwait_keepsNow (s : State) : keepsNow s.now (execTokwait s) := by simp [execTokwait]

theorem execTokpass_keepsNow (s : State) : keepsNow s.now (execTokpass s) := by
  unfold execTokpass
  refine accept_keepsNow rfl fun s => ?_
  simp

/-! ## The host's side -/

@[simp] theorem State.event_now (s : State) (e : HostEvent) (column count : Nat) : (s.event e column count).now = s.now := by
  simp [State.event]

@[simp] theorem State.giveReport_now (s : State) (fn : Nat) (b : List Byte) : (s.giveReport fn b).now = s.now := by simp [State.giveReport]

@[simp] theorem State.deliver_now (s : State) (p : Posted) : (s.deliver p).now = s.now := by
  unfold State.deliver
  split <;> simp

@[simp] theorem State.post_now (s : State) (cols : List Nat) (p : Posted) : (s.post cols p).now = s.now := by simp [State.post]

@[simp] theorem State.acknowledged_now (s : State) (c line : Nat) : (s.acknowledged c line).now = s.now := by simp [State.acknowledged]

@[simp] theorem State.report_now (s : State) (fn : Nat) (r : Report) : (s.report fn r).now = s.now := by simp [State.report]

/-! ## Groups -/

@[simp] theorem State.trimCredits_now (s : State) (c : Nat) : (s.trimCredits c).now = s.now := by simp [State.trimCredits]

@[simp] theorem State.loadCredits_now (s : State) (c : Nat) (before : Column) : (s.loadCredits c before).now = s.now := by
  simp [State.loadCredits]

@[simp] theorem State.releaseShare_now (s : State) (c launch : Nat) : (s.releaseShare c launch).now = s.now := by simp [State.releaseShare]

@[simp] theorem State.leaveCore_now (s : State) (c entry : Nat) : (s.leaveCore c entry).now = s.now := by simp [State.leaveCore]

@[simp] theorem State.setGroupState_now (s : State) (node gid : Nat) (g : GroupState) : (s.setGroupState node gid g).now = s.now := by
  simp [State.setGroupState]

@[simp] theorem State.fixToken_now (s : State) (node c : Nat) : (s.fixToken node c).now = s.now := by
  unfold State.fixToken
  dsimp only
  (repeat' split) <;> simp

@[simp] theorem State.dropSaved_now (s : State) (c : Nat) (v : Saved) : (s.dropSaved c v).now = s.now := by simp [State.dropSaved]

@[simp] theorem State.startToken_now (s : State) (node c : Nat) : (s.startToken node c).now = s.now := by
  unfold State.startToken
  dsimp only
  (repeat' split) <;> simp

@[simp] theorem State.endGroup_now (s : State) (node gid : Nat) : (s.endGroup node gid).now = s.now := by
  unfold State.endGroup
  dsimp only
  (repeat' split) <;> simp

@[simp] theorem State.finishLaunch_now (s : State) (node : Nat) : (s.finishLaunch node).now = s.now := by
  unfold State.finishLaunch
  dsimp only
  split <;> simp

@[simp] theorem State.tryFinish_now (s : State) (node : Nat) : (s.tryFinish node).now = s.now := by simp [State.tryFinish]

@[simp] theorem State.endLaunch_now (s : State) (node code : Nat) : (s.endLaunch node code).now = s.now := by simp [State.endLaunch]

@[simp] theorem State.killGroup_now (s : State) (node gid : Nat) : (s.killGroup node gid).now = s.now := by simp [State.killGroup]

@[simp] theorem State.killLaunch_now (s : State) (node : Nat) : (s.killLaunch node).now = s.now := by simp [State.killLaunch]

@[simp] theorem State.reap_now (s : State) (c n : Nat) : (s.reap c n).now = s.now := by
  unfold State.reap
  dsimp only
  (repeat' split) <;> simp

/-! ## Launches -/

@[simp] theorem State.bayBytes_now (s : State) (c ctx pa n : Nat) : (s.bayBytes c ctx pa n).2.now = s.now := by simp [State.bayBytes]

@[simp] theorem State.ctxBytes_now (s : State) (c ctx count off : Nat) : (s.ctxBytes c ctx count off).2.now = s.now := by
  induction count generalizing s off with
  | zero => rfl
  | succ n ih =>
    simp only [State.ctxBytes]
    (repeat' split) <;> simp_all [snd_eq_iff]

@[simp] theorem State.refuseLaunch_now (s : State) (u : Submit) (code : Nat) : (s.refuseLaunch u code).now = s.now := by
  unfold State.refuseLaunch
  (repeat' split) <;> simp

@[simp] theorem State.checkLaunch_now (s : State) (u : Submit) : (s.checkLaunch u).2.now = s.now := by
  have hc (p : Prop) [Decidable p] (t : State) (c x n a : Nat) : (if p then t.ctxBytes c x n a else (none, t)).2.now = t.now := by simp
  unfold State.checkLaunch
  extract_lets ctx parent
  split
  · next h => rw [← now_of_snd h]; exact hc ..
  · next s1 h =>
    have h1 : s1.now = s.now := by rw [← now_of_snd h]; exact hc ..
    rw [← h1]
    extract_lets t
    split
    next rb s2 hr =>
    have h2 : s2.now = s1.now := by
      rw [← now_of_snd hr]
      split <;> simp
    rw [← h2]
    extract_lets rcb left
    iterate 3 (split; rfl)
    split
    · rfl
    split
    · rfl
    split
    · next h => rw [← now_of_snd h]; exact hc ..
    · next s3 h =>
      have h3 : s3.now = s2.now := by rw [← now_of_snd h]; exact hc ..
      rw [← h3]
      extract_lets gs
      (repeat' split) <;> rfl

@[simp] theorem State.createLaunch_now (s : State) (u : Submit) (a : Accepted) : (s.createLaunch u a).now = s.now := by
  simp [State.createLaunch]

theorem execTaskRecordCheck_keepsNow (s : State) : keepsNow s.now (execTaskRecordCheck s) := by
  unfold execTaskRecordCheck
  dsimp only
  (repeat' split) <;> simp_all [snd_eq_iff]

theorem execLaunchRingEntry_keepsNow (fn : Nat) (s : State) : keepsNow s.now (execLaunchRingEntry fn s) := by
  unfold execLaunchRingEntry
  dsimp only
  split <;> simp

theorem execLaunchComplete_keepsNow (node : Nat) (s : State) : keepsNow s.now (execLaunchComplete node s) := by simp [execLaunchComplete]

theorem execStartTimeReached_keepsNow (node : Nat) (s : State) : keepsNow s.now (execStartTimeReached node s) := by
  simp [execStartTimeReached]

theorem execLaunch_keepsNow (a b : BitVec 6) (h : BitVec 4) (s : State) : keepsNow s.now (execLaunch a b h s) := by
  unfold execLaunch
  refine accept_keepsNow rfl fun s => State.unlessPending_keepsNow rfl fun s => ?_
  dsimp only
  split <;> simp

/-! ## Residency -/

@[simp] theorem State.promoteAll_now (s : State) (c : Nat) : (s.promoteAll c).now = s.now := by simp [State.promoteAll]

@[simp] theorem State.asAgent_now (s : State) (c : Nat) (who : Who) : (s.asAgent c who).now = s.now := by simp [State.asAgent]

@[simp] theorem State.trapErrors_now (s : State) (c n : Nat) : (s.trapErrors c n).now = s.now := by
  unfold State.trapErrors
  simp only [State.now_mk, State.clk_time]
  refine State.foldl_now fun s w => ?_
  split <;> simp

@[simp] theorem State.saveGroup_now (s : State) (c entry : Nat) : (s.saveGroup c entry).now = s.now := by simp [State.saveGroup]

@[simp] theorem State.beginLeave_now (s : State) (c entry : Nat) : (s.beginLeave c entry).now = s.now := by simp [State.beginLeave]

@[simp] theorem State.preempt_now (s : State) (c entry : Nat) : (s.preempt c entry).now = s.now := by
  unfold State.preempt
  dsimp only
  (repeat' split) <;> simp

theorem execPreemptGroup_keepsNow (c entry : Nat) (s : State) : keepsNow s.now (execPreemptGroup c entry s) := by simp [execPreemptGroup]

@[simp] theorem State.takeShare_now (s : State) (c node : Nat) : (s.takeShare c node).now = s.now := by simp [State.takeShare]

@[simp] theorem State.firstResidency_now (s : State) (c : Nat) (w : Nat × Nat) (lay : List (Nat × Nat)) (data : Nat) (image : List Byte) :
    (s.firstResidency c w lay data image).now = s.now := by
  simp [State.firstResidency]

@[simp] theorem State.restoreGroup_now (s : State) (c : Nat) (w : Nat × Nat) (lay : List (Nat × Nat)) (v : Saved) :
    (s.restoreGroup c w lay v).now = s.now := by
  simp [State.restoreGroup]

theorem execMakeResident_keepsNow (c : Nat) (s : State) : keepsNow s.now (execMakeResident c s) := by
  unfold execMakeResident
  dsimp only
  (repeat' split) <;> simp_all [snd_eq_iff]

@[simp] theorem State.setDet_now (s : State) (node : Nat) (det : Bool) : (s.setDet node det).now = s.now := by simp [State.setDet]

@[simp] theorem State.refreshEff_now (s : State) (node : Nat) : (s.refreshEff node).now = s.now := by simp [State.refreshEff]

@[simp] theorem State.allotDue_now (s : State) (region : Nat) (cols : BitVec 256) : (s.allotDue region cols).now = s.now := by
  simp [State.allotDue]

theorem execQuantumExpire_keepsNow (c entry : Nat) (s : State) : keepsNow s.now (execQuantumExpire c entry s) := by simp [execQuantumExpire]

theorem execWaitPriorityRise_keepsNow (node group : Nat) (s : State) : keepsNow s.now (execWaitPriorityRise node group s) := by
  unfold execWaitPriorityRise
  dsimp only
  split <;> simp

theorem execWatchdog_keepsNow (node : Nat) (s : State) : keepsNow s.now (execWatchdog node s) := by
  unfold execWatchdog
  dsimp only
  (repeat' split) <;> simp

/-! ## Transfers -/

@[simp] theorem State.place_now (s : State) (k : Command) (g off : Nat) (write : Bool) : (s.place k g off write).2.now = s.now := by
  unfold State.place
  dsimp only
  (repeat' split) <;> simp_all [snd_eq_iff]

@[simp] theorem State.placeOf_now (s : State) (k : Command) (t : TD) (side : Nat) (c : List Int) (ipos : Nat) (write : Bool) (l : Loc) :
    (s.placeOf k t side c ipos write l).2.now = s.now := by
  unfold State.placeOf
  dsimp only
  (repeat' split) <;> simp_all [snd_eq_iff]

@[simp] theorem State.moves_now (s : State) (k : Command) (ts td : TD) (ss sd : Nat) (peers : Bool × Bool)
    (l : List (Except CmdFault Pair)) : (s.moves k ts td ss sd peers l).2.now = s.now := by
  induction l generalizing s peers with
  | nil => rfl
  | cons p l ih =>
    cases p with
    | error f => rfl
    | ok p =>
      unfold State.moves
      extract_lets one
      have hone (t side c w l s) : (one t side c w l s).2.now = s.now := by
        simp only [one]
        (repeat' split) <;> simp_all [snd_eq_iff]
      clear_value one
      dsimp only
      (repeat' split) <;> simp_all only [snd_eq_iff]

/-! ## Engines -/

@[simp] theorem State.vlGuard_keepsNow {k : Nat × Nat} {s : State} {regs : List Reg} {run : Host.Outcome State Fault Refusal}
    (hk : s.now = k)
    (hr : keepsNow k run) : keepsNow k (s.vlGuard regs run) := by
  unfold State.vlGuard
  dsimp only
  (repeat' split) <;> simp [hk, hr]

@[simp] theorem State.withRecord_keepsNow {k : Nat × Nat} (s : State) (gather : Bool) (a b : BitVec 6)
    (run : List Byte → Nat → List Int → Option (BitVec 64) → Host.Outcome State Fault Refusal) (hk : s.now = k)
    (hrun : ∀ bytes off coords bar, keepsNow k (run bytes off coords bar)) : keepsNow k (s.withRecord gather a b run) := by
  subst hk
  simp [State.withRecord, hrun]

@[simp] theorem State.issueEngine_keepsNow {k : Nat × Nat} (s : State) (kind : CmdKind) (queue : Nat) (a b : BitVec 6) (h : BitVec 4)
    (hk : s.now = k) : keepsNow k (s.issueEngine kind queue a b h) := by
  unfold State.issueEngine
  refine State.unlessPending_keepsNow hk fun s => State.withRecord_keepsNow _ _ _ _ _ rfl fun bytes off coords bar =>
    State.afterRelease_keepsNow rfl fun s => ?_
  dsimp only
  split <;> simp

theorem execCopy_keepsNow (a b : BitVec 6) (h : BitVec 4) (q : BitVec 2) (s : State) : keepsNow s.now (execCopy a b h q s) :=
  accept_keepsNow rfl fun _ => outsideTx_keepsNow rfl fun _ => State.issueEngine_keepsNow _ _ _ _ _ _ rfl

theorem execGath_keepsNow (a b : BitVec 6) (h : BitVec 4) (s : State) : keepsNow s.now (execGath a b h s) :=
  accept_keepsNow rfl fun _ => outsideTx_keepsNow rfl fun _ => State.issueEngine_keepsNow _ _ _ _ _ _ rfl

theorem execScat_keepsNow (a b : BitVec 6) (h : BitVec 4) (s : State) : keepsNow s.now (execScat a b h s) :=
  accept_keepsNow rfl fun _ => outsideTx_keepsNow rfl fun _ => State.issueEngine_keepsNow _ _ _ _ _ _ rfl

@[simp] theorem State.deliverCount_now (s : State) (c : Nat) (k : Count) : (s.deliverCount c k).now = s.now := by
  unfold State.deliverCount
  dsimp only
  (repeat' split) <;> simp

@[simp] theorem State.settleCounts_now (s : State) (c id : Nat) : (s.settleCounts c id).now = s.now := by simp [State.settleCounts]

@[simp] theorem State.faultWith_now (s : State) (c : Nat) (k : Command) (code rep : Nat) (report : List Byte) :
    (s.faultWith c k code rep report).now = s.now := by
  simp [State.faultWith]

@[simp] theorem State.faultCmd_now (s : State) (c : Nat) (k : Command) (f : CmdFault) (iter : List Nat) :
    (s.faultCmd c k f iter).now = s.now := by
  simp [State.faultCmd]

@[simp] theorem State.restartCmd_now (s : State) (c : Nat) (k : Command) (bytes : List Byte) (off : Nat) (coords : List Int)
    (bar : Option (BitVec 64)) : (s.restartCmd c k bytes off coords bar).now = s.now := by
  simp [State.restartCmd]

theorem execCopyRst_keepsNow (a b : BitVec 6) (h : BitVec 4) (s : State) : keepsNow s.now (execCopyRst a b h s) := by
  unfold execCopyRst
  refine accept_keepsNow rfl fun s => outsideTx_keepsNow rfl fun s => ?_
  dsimp only
  split <;> simp

@[simp] theorem State.spanLines_now (s : State) (ctx : Nat) (p : Span) : (s.spanLines ctx p).2.now = s.now := by
  refine State.foldl_snd_now fun x q => ?_
  (repeat' split) <;> simp_all [snd_eq_iff]

@[simp] theorem State.claimsOf_now (s : State) (k : Command) (source : Bool) (l : List Span) : (s.claimsOf k source l).2.now = s.now := by
  refine State.foldl_snd_now fun x p => ?_
  cases source <;> simp

@[simp] theorem State.recordClaims_now (s : State) (k : Command) (det : Bool) (src dst : List Span) :
    (s.recordClaims k det src dst).2.now = s.now := by
  simp [State.recordClaims]

theorem execClaimSpan_keepsNow (c id : Nat) (s : State) : keepsNow s.now (execClaimSpan c id s) := by
  unfold execClaimSpan
  dsimp only
  (repeat' split) <;> simp_all [snd_eq_iff]

theorem execCopyCommandStart_keepsNow (c id : Nat) (s : State) : keepsNow s.now (execCopyCommandStart c id s) := by
  unfold execCopyCommandStart
  dsimp only
  split <;> simp

@[simp] theorem State.fetch_now (s : State) (k : Command) (r : Rec) (n : Needs) : (s.fetch k r n).now = s.now := by simp [State.fetch]

@[simp] theorem State.gatherPairs_now (s : State) (k : Command) (r : Rec) (own n : Nat) : (s.gatherPairs k r own n).2.now = s.now := by
  unfold State.gatherPairs
  extract_lets one
  have hf : ((List.range r.count).foldl one (([], {}), s)).2.now = s.now := State.foldl_snd_now fun x p => by
    simp only [one]
    (repeat' split) <;> simp_all [snd_eq_iff]
  split
  next h =>
    rw [now_of_snd h] at hf
    split <;> exact hf

@[simp] theorem State.planMoves_now (s : State) (k : Command) (r : Rec) : (s.planMoves k r).2.now = s.now := by
  unfold State.planMoves
  dsimp only
  (repeat' split) <;> simp_all [snd_eq_iff]

@[simp] theorem State.plan_now (s : State) (k : Command) (r : Rec) : (s.plan k r).2.now = s.now := by
  unfold State.plan
  split
  · next h => simp [← now_of_snd h]
  · next h =>
    dsimp only
    split <;> simp [← now_of_snd h]

@[simp] theorem State.postWrites_now (s : State) (k : Command) (ep : Nat) (l : List StoreWrite) : (s.postWrites k ep l).2.now = s.now := by
  refine State.foldl_snd_now fun x st => ?_
  dsimp only
  (repeat' split) <;> simp

@[simp] theorem State.pourCrib_now (s : State) (k : Command) : (s.pourCrib k).now = s.now := by
  unfold State.pourCrib
  split <;> simp

@[simp] theorem State.endTransfer_now (s : State) (k : Command) (r : Rec) : (s.endTransfer k r).now = s.now := by simp [State.endTransfer]

@[simp] theorem State.perform_now (s : State) (k : Command) (r : Rec) (ms : List Move) : (s.perform k r ms).now = s.now := by
  unfold State.perform
  (repeat' split) <;> simp

@[simp] theorem State.walkIdentity_now (s : State) (k : Command) (r : Rec) : (s.walkIdentity k r).now = s.now := by
  unfold State.walkIdentity
  dsimp only
  split <;> simp

@[simp] theorem State.prefetch_now (s : State) (k : Command) (r : Rec) : (s.prefetch k r).now = s.now := by
  unfold State.prefetch
  (repeat' split) <;> simp

@[simp] theorem State.carry_now (s : State) (c id : Nat) : (s.carry c id).now = s.now := by
  unfold State.carry
  dsimp only
  (repeat' split) <;> simp_all [snd_eq_iff]

@[simp] theorem State.transfer_now (s : State) (c id : Nat) : (s.transfer c id).now = s.now := by
  unfold State.transfer
  dsimp only
  (repeat' split) <;> simp

theorem execCopyTransfer_keepsNow (c id : Nat) (s : State) : keepsNow s.now (execCopyTransfer c id s) := by
  unfold execCopyTransfer
  split <;> simp

theorem execGatherTransfer_keepsNow (c id : Nat) (s : State) : keepsNow s.now (execGatherTransfer c id s) := by
  unfold execGatherTransfer
  split <;> simp

theorem execBarBytesDelivered_keepsNow (c : Nat) (s : State) : keepsNow s.now (execBarBytesDelivered c s) := by
  unfold execBarBytesDelivered
  split <;> simp

theorem execEngineCommandDone_keepsNow (c id : Nat) (s : State) : keepsNow s.now (execEngineCommandDone c id s) := by
  unfold execEngineCommandDone
  dsimp only
  split <;> simp

theorem State.takePeer_now {s t : State} {c id : Nat} {q : PeerReq} (h : s.takePeer c id = some (q, t)) : t.now = s.now := by
  obtain ⟨p, -, hp⟩ := Option.map_eq_some_iff.1 h
  cases hp
  rfl

theorem execPeerAcknowledge_keepsNow (c id : Nat) (data : List (BitVec 8)) (s : State) :
    keepsNow s.now (execPeerAcknowledge c id data s) := by
  unfold execPeerAcknowledge
  split
  · simp
  · next h => simp [State.takePeer_now h]

theorem execPeerLink_keepsNow (c id : Nat) (s : State) : keepsNow s.now (execPeerLink c id s) := by
  unfold execPeerLink
  split
  · simp
  · next h =>
    dsimp only
    split <;> simp [State.takePeer_now h]

/-! ## Threshers -/

theorem execCres_keepsNow (a b c : BitVec 6) (s : State) : keepsNow s.now (execCres a b c s) := by
  unfold execCres
  refine accept_keepsNow rfl fun s => State.onCore_keepsNow rfl (outsideTx_keepsNow rfl fun s => ?_)
  dsimp only
  (repeat' split) <;> simp

theorem execCrel_keepsNow (a : BitVec 6) (s : State) : keepsNow s.now (execCrel a s) := by
  unfold execCrel
  refine accept_keepsNow rfl fun s => State.onCore_keepsNow rfl (outsideTx_keepsNow rfl fun s => ?_)
  dsimp only
  (repeat' split) <;> simp

theorem execCstat_keepsNow (a b : BitVec 6) (s : State) : keepsNow s.now (execCstat a b s) :=
  accept_keepsNow rfl fun _ => State.onCore_keepsNow rfl (outsideTx_keepsNow rfl fun _ => State.vlScalar_keepsNow _ _ _ rfl)

@[simp] theorem State.withThresherRecord_keepsNow {k : Nat × Nat} (s : State) (kind : CmdKind) (a : BitVec 6)
    (run : List Byte → Nat → Option (BitVec 64) → Host.Outcome State Fault Refusal) (hk : s.now = k)
    (hrun : ∀ bytes off bar, keepsNow k (run bytes off bar)) : keepsNow k (s.withThresherRecord kind a run) := by
  subst hk
  simp [State.withThresherRecord, hrun]

@[simp] theorem State.issueThresher_keepsNow {k : Nat × Nat} (s : State) (h : BitVec 4) (c : Command) (hk : s.now = k) :
    keepsNow k (s.issueThresher h c) := by
  unfold State.issueThresher
  exact State.afterRelease_keepsNow hk fun s => by dsimp only; split <;> simp

theorem execMldw_keepsNow (a b : BitVec 6) (h : BitVec 4) (s : State) : keepsNow s.now (execMldw a b h s) := by
  exact accept_keepsNow rfl fun s => State.onCore_keepsNow rfl (outsideTx_keepsNow rfl fun s => State.unlessPending_keepsNow rfl fun s =>
    s.issueThresher_keepsNow _ _ rfl)

theorem execMswap_keepsNow (h : BitVec 4) (s : State) : keepsNow s.now (execMswap h s) := by
  exact accept_keepsNow rfl fun s => State.onCore_keepsNow rfl (outsideTx_keepsNow rfl fun s => State.unlessPending_keepsNow rfl fun s =>
    s.issueThresher_keepsNow _ _ rfl)

theorem execMzero_keepsNow (m : BitVec 2) (h : BitVec 4) (s : State) : keepsNow s.now (execMzero m h s) := by
  exact accept_keepsNow rfl fun s => State.onCore_keepsNow rfl (outsideTx_keepsNow rfl fun s => State.unlessPending_keepsNow rfl fun s =>
    s.issueThresher_keepsNow _ _ rfl)

theorem execMloop_keepsNow (a b : BitVec 6) (h : BitVec 4) (m : BitVec 2) (s : State) : keepsNow s.now (execMloop a b h m s) := by
  exact accept_keepsNow rfl fun s => State.onCore_keepsNow rfl (outsideTx_keepsNow rfl fun s => State.unlessPending_keepsNow rfl fun s =>
    s.withThresherRecord_keepsNow _ _ _ rfl fun bytes off bar => s.issueThresher_keepsNow _ _ rfl)

theorem execMstr_keepsNow (a : BitVec 6) (m : BitVec 2) (h : BitVec 4) (s : State) : keepsNow s.now (execMstr a m h s) := by
  exact accept_keepsNow rfl fun s => State.onCore_keepsNow rfl (outsideTx_keepsNow rfl fun s => State.unlessPending_keepsNow rfl fun s =>
    s.withThresherRecord_keepsNow _ _ _ rfl fun bytes off bar => s.issueThresher_keepsNow _ _ rfl)

theorem execMrd_keepsNow (a : BitVec 4) (b : BitVec 6) (m : BitVec 2) (s : State) : keepsNow s.now (execMrd a b m s) := by
  unfold execMrd
  refine accept_keepsNow rfl fun s => ?_
  simp

@[simp] theorem State.thresherFault_now (s : State) (k : Command) (code row col addr : Nat) :
    (s.thresherFault k code row col addr).now = s.now := by
  simp [State.thresherFault]

@[simp] theorem State.thresherDone_now (s : State) (k : Command) : (s.thresherDone k).now = s.now := by simp [State.thresherDone]

theorem execThresherCommandStart_keepsNow (c node : Nat) (s : State) : keepsNow s.now (execThresherCommandStart c node s) := by
  unfold execThresherCommandStart
  dsimp only
  (repeat' split) <;> simp_all [snd_eq_iff]

theorem execShadowPlaneLoaded_keepsNow (c node : Nat) (s : State) : keepsNow s.now (execShadowPlaneLoaded c node s) := by
  unfold execShadowPlaneLoaded
  dsimp only
  (repeat' split) <;> simp

theorem execThresherKstep_keepsNow (c node : Nat) (s : State) : keepsNow s.now (execThresherKstep c node s) := by
  unfold execThresherKstep
  dsimp only
  (repeat' split) <;> simp

theorem execMloopRowsLanded_keepsNow (c node : Nat) (s : State) : keepsNow s.now (execMloopRowsLanded c node s) := by
  unfold execMloopRowsLanded
  split <;> simp

@[simp] theorem State.mstrMoves_now (s : State) (k : Command) (row : BitVec 4096) (own : Nat)
    (ls : List (Nat × Except CmdFault (Option Loc))) : (s.mstrMoves k row own ls).2.now = s.now := by
  induction ls generalizing s with
  | nil => rfl
  | cons p l ih =>
    obtain ⟨n, e⟩ := p
    cases e with
    | error f => rfl
    | ok o =>
      cases o with
      | none => simpa only [State.mstrMoves] using ih s
      | some l =>
        simp only [State.mstrMoves]
        (repeat' split) <;> simp_all [snd_eq_iff]

@[simp] theorem State.endRow_now (s : State) (k : Command) : (s.endRow k).now = s.now := by simp [State.endRow]

@[simp] theorem State.mstrCarry_now (s : State) (k : Command) : (s.mstrCarry k).now = s.now := by
  unfold State.mstrCarry
  dsimp only
  (repeat' split) <;> simp_all [snd_eq_iff]

@[simp] theorem State.mstrBlame_now (s : State) (k : Command) (store : Nat × Nat) (line : Nat) :
    (s.mstrBlame k store line).now = s.now := by
  unfold State.mstrBlame
  dsimp only
  split <;> simp

theorem execMstrTransfer_keepsNow (c node : Nat) (s : State) : keepsNow s.now (execMstrTransfer c node s) := by
  unfold execMstrTransfer
  dsimp only
  (repeat' split) <;> simp

@[simp] theorem State.restartThresher_now (s : State) (c : Nat) (k : Command) : (s.restartThresher c k).now = s.now := by
  simp [State.restartThresher]

/-! ## System words -/

theorem execEjctl_keepsNow (d a : BitVec 6) (s : State) : keepsNow s.now (execEjctl d a s) := by simp [execEjctl]

theorem execSignal_keepsNow (a : BitVec 6) (s : State) : keepsNow s.now (execSignal a s) := by simp [execSignal]

@[simp] theorem State.restartItem_now (s : State) (c slot h v : Nat) : (s.restartItem c slot h v).now = s.now := by
  unfold State.restartItem
  dsimp only
  (repeat' split) <;> simp

@[simp] theorem State.landAll_now (s : State) (c : Nat) (who : Who) : (s.landAll c who).now = s.now := by simp [State.landAll]

@[simp] theorem State.mendWarp_now (s : State) (w : Window) (v : Dword) : (s.mendWarp w v).now = s.now := by
  unfold State.mendWarp
  dsimp only
  (repeat' split) <;> simp

@[simp] theorem State.mendCtx_now (s : State) (w : Window) (v : Dword) : (s.mendCtx w v).now = s.now := by simp [State.mendCtx]

@[simp] theorem State.windowWrite_now (s : State) (w : Window) (v : Dword) : (s.windowWrite w v).now = s.now := by simp [State.windowWrite]

theorem execWinr_keepsNow (d a : BitVec 6) (s : State) : keepsNow s.now (execWinr d a s) := by simp [execWinr]

theorem execWinw_keepsNow (a b : BitVec 6) (s : State) : keepsNow s.now (execWinw a b s) := by simp [execWinw]

theorem execDebugRestart_keepsNow (c slot : Nat) (h : BitVec 4) (s : State) : keepsNow s.now (execDebugRestart c slot h s) := by
  simp [execDebugRestart]

theorem execDebugCancel_keepsNow (c slot : Nat) (h : BitVec 4) (s : State) : keepsNow s.now (execDebugCancel c slot h s) := by
  simp [execDebugCancel]

@[simp] theorem State.pathStateEnd_now (s : State) (c slot : Nat) : (s.pathStateEnd c slot).now = s.now := by simp [State.pathStateEnd]

@[simp] theorem State.eret_now (s : State) (c action : Nat) (e : Event) : (s.eret c action e).now = s.now := by simp [State.eret]

theorem execEret_keepsNow (a : BitVec 6) (s : State) : keepsNow s.now (execEret a s) := by
  unfold execEret
  refine accept_keepsNow rfl fun s => ?_
  dsimp only
  (repeat' split) <;> simp

theorem execTlbi_keepsNow (a b : BitVec 6) (s : State) : keepsNow s.now (execTlbi a b s) := by
  unfold execTlbi
  refine accept_keepsNow rfl fun s => ?_
  dsimp only
  split <;> simp

theorem execTlbiComplete_keepsNow (c : Nat) (s : State) : keepsNow s.now (execTlbiComplete c s) := by
  unfold execTlbiComplete
  dsimp only
  (repeat' split) <;> simp

theorem execTinkerRestart_keepsNow (c : Nat) (s : State) : keepsNow s.now (execTinkerRestart c s) := by simp [execTinkerRestart]

/-! ## The fabric -/

@[simp] theorem State.routerStep_now (s : State) (r : Nat) : (s.routerStep r).now = s.now := by simp [State.routerStep]

theorem execInjectionWindow_keepsNow (s : State) : keepsNow s.now (execInjectionWindow s) := by simp [execInjectionWindow]

theorem execRdata_keepsNow (c : Nat) (s : State) : keepsNow s.now (execRdata c s) := by
  unfold execRdata
  (repeat' split) <;> simp

theorem execMgmt_keepsNow (c : Nat) (s : State) : keepsNow s.now (execMgmt c s) := by
  unfold execMgmt
  split <;> simp

/-! ## Slices -/

theorem execRd_keepsNow (c : Nat) (s : State) : keepsNow s.now (execRd c s) := by
  unfold execRd
  split <;> simp

theorem execWdata_keepsNow (c : Nat) (s : State) : keepsNow s.now (execWdata c s) := by
  unfold execWdata
  split <;> simp

@[simp] theorem State.send_now (s : State) (c : Nat) (r : Req) : (s.send c r).now = s.now := by simp [State.send]

@[simp] theorem State.lookup_now (s : State) (c : Nat) (r : Req) : (s.lookup c r).now = s.now := by
  unfold State.lookup
  dsimp only
  split <;> simp

@[simp] theorem State.admitReq_now (s : State) (c : Nat) (r : Req) : (s.admitReq c r).now = s.now := by simp [State.admitReq]

@[simp] theorem State.serve_now (s : State) (c : Nat) (r : Req) : (s.serve c r).now = s.now := by
  unfold State.serve
  dsimp only
  (repeat' split) <;> simp

@[simp] theorem State.sliceRequest_now (s : State) (c rid : Nat) : (s.sliceRequest c rid).now = s.now := by
  unfold State.sliceRequest
  dsimp only
  (repeat' split) <;> simp

@[simp] theorem State.readHbm_now (s : State) (c : Nat) (read : Nat → Bool) : (s.readHbm c read).now = s.now := by simp [State.readHbm]

@[simp] theorem State.hbmFill_now (s : State) (c line : Nat) : (s.hbmFill c line).now = s.now := by
  unfold State.hbmFill
  dsimp only
  split <;> simp

@[simp] theorem State.nackRetry_now (s : State) (c rid : Nat) : (s.nackRetry c rid).now = s.now := by
  unfold State.nackRetry
  dsimp only
  split <;> simp

@[simp] theorem State.advanceBay_now (s : State) (c : Nat) : (s.advanceBay c).now = s.now := by simp [State.advanceBay]

theorem execNackRetry_keepsNow (c rid : Nat) (s : State) : keepsNow s.now (execNackRetry c rid s) := by simp [execNackRetry]

theorem execSliceRequest_keepsNow (c rid : Nat) (s : State) : keepsNow s.now (execSliceRequest c rid s) := by simp [execSliceRequest]

theorem execHbmFill_keepsNow (c line : Nat) (s : State) : keepsNow s.now (execHbmFill c line s) := by simp [execHbmFill]

/-! ## Bay events -/

theorem execBayModeSwitch_keepsNow (c : Nat) (mode : BitVec 2) (s : State) : keepsNow s.now (execBayModeSwitch c mode s) := by
  simp [execBayModeSwitch]

theorem execCarveChange_keepsNow (c ways : Nat) (s : State) : keepsNow s.now (execCarveChange c ways s) := by simp [execCarveChange]

theorem execCarveGrowDone_keepsNow (c : Nat) (s : State) : keepsNow s.now (execCarveGrowDone c s) := by simp [execCarveGrowDone]

theorem execBayRgnHtWrite_keepsNow (c n : Nat) (v : BitVec 64) (s : State) : keepsNow s.now (execBayRgnHtWrite c n v s) := by
  simp [execBayRgnHtWrite]

@[simp] theorem State.writeAlias_now (s : State) (c n : Nat) (back : Bool) (v : BitVec 64) : (s.writeAlias c n back v).now = s.now := by
  simp [State.writeAlias]

@[simp] theorem State.settleAlias_now (s : State) (c : Nat) : (s.settleAlias c).now = s.now := by simp [State.settleAlias]

theorem execBayAliasWrite_keepsNow (c n : Nat) (back : Bool) (v : BitVec 64) (s : State) :
    keepsNow s.now (execBayAliasWrite c n back v s) := by
  simp [execBayAliasWrite]

theorem execSlstatRead_keepsNow (c sl : Nat) (s : State) : keepsNow s.now (execSlstatRead c sl s) := by simp [execSlstatRead]

@[simp] theorem State.holeWord_now (s : State) (c line : Nat) (r : Req) : (s.holeWord c line r).now = s.now := by
  unfold State.holeWord
  split <;> simp

@[simp] theorem State.failEngine_now (s : State) (c line : Nat) (r : Req) (f : Flit) : (s.failEngine c line r f).now = s.now := by
  simp [State.failEngine]

@[simp] theorem State.reportLine_now (s : State) (c line region : Nat) : (s.reportLine c line region).now = s.now := by
  simp [State.reportLine]

@[simp] theorem State.failReq_now (s : State) (c line region : Nat) (r : Req) : (s.failReq c line region r).now = s.now := by
  unfold State.failReq
  split <;> simp

@[simp] theorem State.hostDone_now (s : State) (c rid : Nat) (error : Bool) (data : List Byte) :
    (s.hostDone c rid error data).now = s.now := by
  unfold State.hostDone
  dsimp only
  split <;> simp

theorem execHostLinkCompletion_keepsNow (c rid : Nat) (error : Bool) (data : List (BitVec 8)) (s : State) :
    keepsNow s.now (execHostLinkCompletion c rid error data s) := by
  simp [execHostLinkCompletion]

theorem execHostLinkRetriesExhausted_keepsNow (c rid : Nat) (s : State) : keepsNow s.now (execHostLinkRetriesExhausted c rid s) := by
  simp [execHostLinkRetriesExhausted]

@[simp] theorem State.setPte_now (s : State) (c : Nat) (l : Leaf) (e : Nat) : (s.setPte c l e).now = s.now := by simp [State.setPte]

@[simp] theorem State.carryPage_now (s : State) (c : Nat) (f : Nat → Nat) : (s.carryPage c f).now = s.now := by simp [State.carryPage]

@[simp] theorem State.recallFrame_now (s : State) (c base size : Nat) : (s.recallFrame c base size).now = s.now := by
  simp [State.recallFrame]

@[simp] theorem State.copyFrame_now (s : State) (c ctx old new size : Nat) : (s.copyFrame c ctx old new size).now = s.now := by
  simp [State.copyFrame]

@[simp] theorem State.movePage_now (s : State) (c : Nat) (l : Leaf) (new : Nat) : (s.movePage c l new).now = s.now := by
  simp [State.movePage]

theorem execMigratePage_keepsNow (ctx c va dest : Nat) (s : State) : keepsNow s.now (execMigratePage ctx c va dest s) := by
  unfold execMigratePage
  split <;> simp

theorem execStrandBeatError_keepsNow (c strand beat : Nat) (again : Bool) (s : State) :
    keepsNow s.now (execStrandBeatError c strand beat again s) := by
  simp [execStrandBeatError]

@[simp] theorem State.rehome_now (s : State) (c limit : Nat) (l : Leaf) : (s.rehome c limit l).now = s.now := by
  unfold State.rehome
  dsimp only
  split <;> simp

theorem execStrandRetire_keepsNow (c strand : Nat) (s : State) : keepsNow s.now (execStrandRetire c strand s) := by simp [execStrandRetire]

theorem execLinkCheckError_keepsNow (router port : Nat) (again : Bool) (s : State) :
    keepsNow s.now (execLinkCheckError router port again s) := by
  unfold execLinkCheckError
  split <;> simp

@[simp] theorem State.restartGroup_now (s : State) (node gid : Nat) : (s.restartGroup node gid).now = s.now := by simp [State.restartGroup]

@[simp] theorem State.containReport_now (s : State) (node gid c code : Nat) (lost : Bool) :
    (s.containReport node gid c code lost).now = s.now := by
  simp [State.containReport]

@[simp] theorem State.sweepFlits_now (s : State) (f : Flit → Option Flit) : (s.sweepFlits f).now = s.now := by simp [State.sweepFlits]

@[simp] theorem State.clearGang_now (s : State) (l : Launch) : (s.clearGang l).now = s.now := by simp [State.clearGang]

@[simp] theorem State.moveGang_now (s : State) (gang c p : Nat) : (s.moveGang gang c p).now = s.now := by simp [State.moveGang]

@[simp] theorem State.fenceLaunch_now (s : State) (node c : Nat) : (s.fenceLaunch node c).now = s.now := by
  unfold State.fenceLaunch
  dsimp only
  split <;> simp

@[simp] theorem State.retireLaunch_now (s : State) (node c : Nat) : (s.retireLaunch node c).now = s.now := by simp [State.retireLaunch]

@[simp] theorem State.retirePages_now (s : State) (c : Nat) : (s.retirePages c).now = s.now := by simp [State.retirePages]

theorem execContainment_keepsNow (c : Nat) (memory : Bool) (s : State) : keepsNow s.now (execContainment c memory s) := by
  simp [execContainment]

/-! ## Exchanges -/

theorem State.keepFlit_now {t : State} (s : State) (c : Nat) (f : Flit) (h : s.keepFlit c f = some t) : t.now = s.now := by
  obtain ⟨w, -, rfl⟩ := Option.map_eq_some_iff.1 h
  simp

@[simp] theorem State.receive_now (s : State) (c n : Nat) : (s.receive c n).now = s.now := by
  unfold State.receive
  split <;> simp

theorem execXredCombine_keepsNow (c n : Nat) (s : State) : keepsNow s.now (execXredCombine c n s) := by
  unfold execXredCombine
  split <;> simp

@[simp] theorem State.sendMessage_now (s : State) (c n : Nat) (e : Exchange) (g : Nat) : (s.sendMessage c n e g).now = s.now := by
  simp [State.sendMessage]

@[simp] theorem State.resendExchanges_now (s : State) (c : Nat) : (s.resendExchanges c).now = s.now := by
  refine State.foldl_now fun s w => ?_
  split
  · rfl
  · refine State.foldl_now fun s r => ?_
    (repeat' split) <;> simp

@[simp] theorem State.inPlace_now (s : State) : s.inPlace.now = s.now := by simp [State.inPlace]

@[simp] theorem State.beginExchange_now (s : State) (mid : Nat) (e : Exchange) (regs : List Reg) :
    (s.beginExchange mid e regs).2.now = s.now := by
  simp [State.beginExchange]

@[simp] theorem State.exchangeWord_keepsNow {k : Nat × Nat} (s : State) (kind : Nat) (d a b : BitVec 6) (hk : s.now = k) :
    keepsNow k (s.exchangeWord kind d a b) := by
  unfold State.exchangeWord
  refine State.onCore_keepsNow hk (outsideTx_keepsNow hk fun s => ?_)
  dsimp only
  (repeat' split) <;> simp_all

theorem execXbar_keepsNow (s : State) : keepsNow s.now (execXbar s) := by
  unfold execXbar
  refine accept_keepsNow rfl fun s => State.onCore_keepsNow rfl (outsideTx_keepsNow rfl fun s => ?_)
  split
  · simp
  · simp only [keepsNow_ite]
    (repeat' split)
    · simp
    · simp
    · refine State.afterRelease_keepsNow rfl fun s => ?_
      (repeat' split) <;> simp_all

theorem execXdata_keepsNow (c : Nat) (s : State) : keepsNow s.now (execXdata c s) := by
  unfold execXdata
  dsimp only
  (repeat' split) <;> simp

@[simp] theorem State.answerTo_now (s : State) (c : Nat) (f : Flit) (x : Column) {run : Nat → Exchange → State}
    (hr : ∀ n e, (run n e).now = s.now) : (s.answerTo c f x run).now = s.now := by
  unfold State.answerTo
  split
  · next h => simpa using State.keepFlit_now _ _ _ h
  · split <;> simp [hr]

theorem execAck_keepsNow (c : Nat) (s : State) : keepsNow s.now (execAck c s) := by
  unfold execAck
  (repeat' split) <;> simp

theorem execNack_keepsNow (c : Nat) (s : State) : keepsNow s.now (execNack c s) := by
  unfold execNack
  split <;> simp

theorem execXctlArrival_keepsNow (c : Nat) (s : State) : keepsNow s.now (execXctlArrival c s) := by
  unfold execXctlArrival
  dsimp only
  (repeat' split) <;> simp

theorem execXctlRelease_keepsNow (c : Nat) (s : State) : keepsNow s.now (execXctlRelease c s) := by
  unfold execXctlRelease
  split <;> simp

theorem execRouterCycle_keepsNow (s : State) : keepsNow s.now (execRouterCycle s) := by simp [execRouterCycle]

/-! ## Exit -/

@[simp] theorem State.retire_now (s : State) (n : Nat) (b : Bool) : (s.retire n b).now = s.now := by
  unfold State.retire
  dsimp only
  split <;> simp

theorem execExit_keepsNow (s : State) : keepsNow s.now (execExit s) := by
  unfold execExit
  refine accept_keepsNow rfl fun s => ?_
  dsimp only
  (repeat' split) <;> simp

/-! ## Transaction words -/

theorem execTbegin_keepsNow (d : BitVec 3) (s : State) : keepsNow s.now (execTbegin d s) := by
  unfold execTbegin
  refine accept_keepsNow rfl fun s => ?_
  (repeat' split) <;> simp

@[simp] theorem State.commit_now (s : State) (t : Tx) : (s.commit t).now = s.now := by
  unfold State.commit
  dsimp only
  split <;> simp

theorem execTend_keepsNow (s : State) : keepsNow s.now (execTend s) := by
  unfold execTend
  refine accept_keepsNow rfl fun s => ?_
  split <;> simp

theorem execTabort_keepsNow (a : BitVec 6) (s : State) : keepsNow s.now (execTabort a s) := by simp [execTabort]

theorem execTstat_keepsNow (d : BitVec 6) (s : State) : keepsNow s.now (execTstat d s) := by simp [execTstat]

/-! ## Issue -/

theorem execPfx_keepsNow (k : BitVec 3) (z : BitVec 1) (r : BitVec 3) (x : BitVec 6) (p e : BitVec 2) (u y t : BitVec 1) (s : State) :
    keepsNow s.now (execPfx k z r x p e u y t s) := by
  simp [execPfx]

@[simp] theorem State.readyQuarter_now (s : State) (c q : Nat) : (s.readyQuarter c q).now = s.now := by simp [State.readyQuarter]

@[simp] theorem State.arbitrate_now (s : State) (c q : Nat) : (s.arbitrate c q).now = s.now := by
  unfold State.arbitrate
  dsimp only
  split <;> simp

theorem execRunArbitration_keepsNow (c q : Nat) (s : State) : keepsNow s.now (execRunArbitration c q s) := by simp [execRunArbitration]

theorem execVariableLatencyLand_keepsNow (c agent id : Nat) (s : State) : keepsNow s.now (execVariableLatencyLand c agent id s) := by
  unfold execVariableLatencyLand
  dsimp only
  (repeat' split) <;> simp

theorem execSleepExpire_keepsNow (c agent : Nat) (slotB : Bool) (s : State) : keepsNow s.now (execSleepExpire c agent slotB s) := by
  unfold execSleepExpire
  dsimp only
  split <;> simp

theorem execRejoinTimeout_keepsNow (c slot : Nat) (s : State) : keepsNow s.now (execRejoinTimeout c slot s) := by simp [execRejoinTimeout]

theorem execLaneContextStart_keepsNow (c i : Nat) (s : State) : keepsNow s.now (execLaneContextStart c i s) := by
  simp [execLaneContextStart]

@[simp] theorem State.afterLane_now (s : State) (c n : Nat) : (s.afterLane c n).now = s.now := by simp [State.afterLane]

theorem execLaneReturn_keepsNow (c i : Nat) (s : State) : keepsNow s.now (execLaneReturn c i s) := by
  unfold execLaneReturn
  dsimp only
  (repeat' split) <;> simp

/-! ## Host requests -/

theorem execDutyMapWrite_keepsNow (v : BitVec 64) (s : State) : keepsNow s.now (execDutyMapWrite v s) := by simp [execDutyMapWrite]

theorem execRingCfgWrite_keepsNow (fn : Nat) (fault : Bool) (v : BitVec 64) (s : State) :
    keepsNow s.now (execRingCfgWrite fn fault v s) := by
  simp [execRingCfgWrite]

theorem execFringHead_keepsNow (fn : Nat) (v : BitVec 64) (s : State) : keepsNow s.now (execFringHead fn v s) := by
  unfold execFringHead
  split
  · exact s.withHost_now _
  · exact rfl

theorem execRegisterWrite_keepsNow (sp off : Nat) (v : BitVec 64) (s : State) : keepsNow s.now (execRegisterWrite sp off v s) := by
  unfold execRegisterWrite
  dsimp only
  (repeat' split)
  · simp
  · simp
  · simp
  · exact s.withHost_now _
  · exact s.withHost_now _
  · exact s.withHost_now _
  · simp
  · simp

@[simp] theorem State.serveOp_keepsNow {k : Nat × Nat} {s : State} {op need : Nat}
    {run : State → List Byte → State × Nat × List Byte} (hk : s.now = k) (hr : ∀ t b, (run t b).1.now = t.now) :
    keepsNow k (s.serveOp op need run) := by
  subst hk
  unfold State.serveOp
  split <;> simp [hr]

theorem execUnknownOp_keepsNow (s : State) : keepsNow s.now (execUnknownOp s) := by
  unfold execUnknownOp
  split <;> simp

theorem execAttest_keepsNow (s : State) : keepsNow s.now (execAttest s) := by simp [execAttest]

theorem execTrain_keepsNow (s : State) : keepsNow s.now (execTrain s) := by simp [execTrain]

theorem execScrub_keepsNow (s : State) : keepsNow s.now (execScrub s) := by simp [execScrub]

theorem execEth_keepsNow (s : State) : keepsNow s.now (execEth s) := by simp [execEth]

theorem execThermal_keepsNow (s : State) : keepsNow s.now (execThermal s) := by simp [execThermal]

@[simp] theorem State.allot_now (s : State) (node : Nat) : (s.allot node).now = s.now := by simp [State.allot]

@[simp] theorem State.settleLimits_now (s : State) (c : Nat) : (s.settleLimits c).now = s.now := by simp [State.settleLimits]

@[simp] theorem State.settleParts_now (s : State) (c : Nat) : (s.settleParts c).now = s.now := by simp [State.settleParts]

@[simp] theorem State.startSteward_now (s : State) (node : Nat) : (s.startSteward node).now = s.now := by simp [State.startSteward]

@[simp] theorem State.installService_now (s : State) (fn : Nat) (b : List Byte) : (s.installService fn b).1.now = s.now := by
  unfold State.installService
  dsimp only
  split <;> simp

@[simp] theorem State.rewriteService_now (s : State) (fn : Nat) (b : List Byte) : (s.rewriteService fn b).1.now = s.now := by
  unfold State.rewriteService
  dsimp only
  (repeat' split) <;> simp

@[simp] theorem State.unbind_now (s : State) (fn node : Nat) : (s.unbind fn node).now = s.now := by simp [State.unbind]

@[simp] theorem State.removeService_now (s : State) (fn : Nat) : (s.removeService fn).1.now = s.now := by
  unfold State.removeService
  (repeat' split) <;> simp

theorem execService_keepsNow (s : State) : keepsNow s.now (execService s) := by
  unfold execService
  refine State.serveOp_keepsNow rfl fun s p => ?_
  dsimp only
  split <;> simp

theorem execQp_keepsNow (s : State) : keepsNow s.now (execQp s) := by
  refine State.serveOp_keepsNow rfl fun s p => ?_
  dsimp only
  (repeat' split) <;> simp

theorem execPeerRdmaRequest_keepsNow (port qpn kind col pa : Nat) (data : List (BitVec 8)) (s : State) :
    keepsNow s.now (execPeerRdmaRequest port qpn kind col pa data s) := by
  simp [execPeerRdmaRequest]

theorem execTinkerEvent_keepsNow (c : Nat) (s : State) : keepsNow s.now (execTinkerEvent c s) := by
  unfold execTinkerEvent
  dsimp only
  (repeat' split) <;> simp

theorem execPfaultDone_keepsNow (s : State) : keepsNow s.now (execPfaultDone s) := by
  refine State.serveOp_keepsNow rfl fun s p => ?_
  dsimp only
  (repeat' split) <;> simp

@[simp] theorem State.loadField_now (s : State) (image : List Byte) : (s.loadField image).now = s.now := by simp [State.loadField]

@[simp] theorem State.loadTinkers_now (s : State) (image : List Byte) : (s.loadTinkers image).now = s.now := by simp [State.loadTinkers]

@[simp] theorem State.bootFails_now (s : State) (step : Nat) : (s.bootFails step).now = s.now := by simp [State.bootFails]

@[simp] theorem State.bootField_now (s : State) (fail : Nat) : (s.bootField fail).now = s.now := by simp [State.bootField]

theorem execBoot_keepsNow (fail : Nat) (net : Bool) (s : State) : keepsNow s.now (execBoot fail net s) := by
  unfold execBoot
  dsimp only
  (repeat' split) <;> simp

theorem execFwupdate_keepsNow (s : State) : keepsNow s.now (execFwupdate s) := by simp [execFwupdate]

theorem execFunctionLevelReset_keepsNow (vf : Nat) (s : State) : keepsNow s.now (execFunctionLevelReset vf s) := by
  unfold execFunctionLevelReset
  split <;> simp

theorem execEmergencyTrip_keepsNow (s : State) : keepsNow s.now (execEmergencyTrip s) := by simp [execEmergencyTrip]

@[simp] theorem State.runDuty_now (s : State) (d : Duty) : (s.runDuty d).now = s.now := by
  unfold State.runDuty
  split <;> simp

@[simp] theorem State.duty_now (s : State) (d : Duty) : (s.duty d).now = s.now := by simp [State.duty]

@[simp] theorem State.runDuties_now (s : State) : s.runDuties.now = s.now := by simp [State.runDuties]

theorem execEccScrub_keepsNow (s : State) : keepsNow s.now (execEccScrub s) := by simp [execEccScrub]

@[simp] theorem State.untrain_now (s : State) (c : Nat) : (s.untrain c).now = s.now := by simp [State.untrain]

theorem execEthernetLinkBringUp_keepsNow (port : Nat) (up : Bool) (s : State) : keepsNow s.now (execEthernetLinkBringUp port up s) := by
  simp [execEthernetLinkBringUp]

theorem execThermalSample_keepsNow (power avg1 avg10 junction : Nat) (s : State) :
    keepsNow s.now (execThermalSample power avg1 avg10 junction s) := by
  unfold execThermalSample
  (repeat' split) <;> simp [execEmergencyTrip_keepsNow]

theorem execTripPointCleared_keepsNow (s : State) : keepsNow s.now (execTripPointCleared s) := by simp [execTripPointCleared]

/-! ## The cycle -/

@[simp] theorem State.toMember_now (s : State) (u : UnitInfo) (m : Member) (pos : Nat) : (s.toMember u m pos).now = s.now := by
  simp [State.toMember]

@[simp] theorem State.chained_now (s before : State) : (s.chained before).now = s.now := by simp [State.chained]

@[simp] theorem State.countPacket_now (s : State) (fresh b : Bool) : (s.countPacket fresh b).now = s.now := by
  unfold State.countPacket
  split <;> simp

@[simp] theorem State.stall_now (s : State) (u : UnitInfo) : (s.stall u).now = s.now := by
  unfold State.stall
  split <;> simp

@[simp] theorem State.closePacket_now (s : State) : s.closePacket.now = s.now := by
  unfold State.closePacket
  (repeat' split) <;> simp

@[simp] theorem State.occupy_now (s : State) (ms : List Member) : (s.occupy ms).now = s.now := by
  unfold State.occupy
  split <;> simp

@[simp] theorem State.landFor_now (s : State) (c : Nat) (who : Who) : (s.landFor c who).now = s.now := by
  unfold State.landFor
  split <;> simp

@[simp] theorem State.deliverAll_now (s : State) (c : Nat) : (s.deliverAll c).now = s.now := by simp [State.deliverAll]

@[simp] theorem State.beginTurn_now (s : State) (c : Nat) (who : Who) : (s.beginTurn c who).now = s.now := by simp [State.beginTurn]

@[simp] theorem State.afterUnit_now (s : State) (u : UnitInfo) (fresh b : Bool) : (s.afterUnit u fresh b).now = s.now := by
  simp [State.afterUnit]

@[simp] theorem State.startFetch_now (s : State) (pas : List Nat) : (s.startFetch pas).now = s.now := by simp [State.startFetch]

@[simp] theorem State.passRuntime_now (s : State) : s.passRuntime.now = s.now := by simp [State.passRuntime]

@[simp] theorem State.beginCycle_now (s : State) (c : Nat) : (s.beginCycle c).now = s.now := by simp [State.beginCycle]

@[simp] theorem State.carryHolds_now (s : State) (c : Nat) (who : Who) : (s.carryHolds c who).now = s.now := by simp [State.carryHolds]

@[simp] theorem State.turnCheckOn_now (s : State) (node : Nat) : (s.turnCheckOn node).now = s.now := by simp [State.turnCheckOn]

/-! ## Words -/

theorem keepsNow_of_framed {s : State} {l : List Opnd} {o : Host.Outcome State Fault Refusal} (h : framed s l o) : keepsNow s.now o := by
  obtain ⟨t, rfl, rfl | rfl | h⟩ := h
  · simp
  · simp
  · obtain ⟨-, -, -, -, -, -, hclk, htime, -, -, -⟩ := h
    exact Prod.ext hclk htime

theorem exec_keepsNow_of_computes (s : State) (i : Instr) (hi : i.computes = true) : keepsNow s.now (exec i s) := by
  obtain ⟨f, he, hf⟩ := exec_framedBehind_of_computes s i hi
  rw [he]
  unfold accept
  split
  · simp
  · simp
  · exact keepsNow_of_framed hf

/-- The words that do not only compute: a transfer, a memory word, a word of the synchronization, of the engines or of the system. -/
theorem exec_keepsNow_of_isWord (s : State) (i : Instr) (hw : (i.isWord && !i.computes) = true) : keepsNow s.now (exec i s) := by
  cases i with
  | ld | ldsB | ldsH | ldQ =>
    exact accept_keepsNow rfl fun s => s.loadWord_keepsNow _ _ _ _ _ _ rfl
  | st | stQ =>
    exact accept_keepsNow rfl fun s => s.storeWord_keepsNow _ _ _ _ rfl
  | atomAdd | atomMin | atomMax | atomAnd | atomOr | atomXor | atomXchg | atomCas | atomMinu | atomMaxu | atomInc | atomDec | atomFadd
  | atomFmin | atomFmax | atomAdd64 =>
    exact accept_keepsNow rfl fun s => s.atomWord_keepsNow _ _ _ _ rfl
  | atomlAdd | atomlMin | atomlMax | atomlCas =>
    exact accept_keepsNow rfl fun s => s.atomLocal_keepsNow _ _ _ _ rfl
  | redAdd | redMin | redMax | redFadd =>
    exact accept_keepsNow rfl fun s => s.redWord_keepsNow _ _ _ _ rfl
  | redBayAdd | redBayMin | redBayMax | redBayFadd =>
    exact accept_keepsNow rfl fun s => s.redBayWord_keepsNow _ _ _ _ rfl
  | xchXor | xchRot | xchBc | xchGath | xred =>
    exact accept_keepsNow rfl fun s => s.exchangeWord_keepsNow _ _ _ _ rfl
  | brk t => exact execBrk_keepsNow t s
  | swrite a b => exact execSwrite_keepsNow a b s
  | sld d a im => exact execSld_keepsNow d a im s
  | sst d a im => exact execSst_keepsNow d a im s
  | br k o => exact execBr_keepsNow k o s
  | brF k o => exact execBrF_keepsNow k o s
  | jmp o => exact execJmp_keepsNow o s
  | call o => exact execCall_keepsNow o s
  | jmpi a => exact execJmpi_keepsNow a s
  | calli a => exact execCalli_keepsNow a s
  | split k t j => exact execSplit_keepsNow k t j s
  | brt a n => exact execBrt_keepsNow a n s
  | waitL a => exact execWaitL_keepsNow a s
  | waitM a => exact execWaitM_keepsNow a s
  | sleep a => exact execSleep_keepsNow a s
  | pf a b => exact execPf_keepsNow a b s
  | ldl d a b z => exact execLdl_keepsNow d a b z s
  | stl d a b z => exact execStl_keepsNow d a b z s
  | ldAcqW d a b => exact execLdAcqW_keepsNow d a b s
  | ldAcqD d a b => exact execLdAcqD_keepsNow d a b s
  | stRelW d a b => exact execStRelW_keepsNow d a b s
  | stRelD d a b => exact execStRelD_keepsNow d a b s
  | cclean a b => exact execCclean_keepsNow a b s
  | cinv a b => exact execCinv_keepsNow a b s
  | tbegin d => exact execTbegin_keepsNow d s
  | tabort a => exact execTabort_keepsNow a s
  | tstat d => exact execTstat_keepsNow d s
  | bnew d a b => exact execBnew_keepsNow d a b s
  | bfree a => exact execBfree_keepsNow a s
  | bexp a b => exact execBexp_keepsNow a b s
  | barr d a => exact execBarr_keepsNow d a s
  | bwait a => exact execBwait_keepsNow a s
  | bwaitg a b => exact execBwaitg_keepsNow a b s
  | btest d a => exact execBtest_keepsNow d a s
  | hwait a => exact execHwait_keepsNow a s
  | htest d a => exact execHtest_keepsNow d a s
  | hcancel a => exact execHcancel_keepsNow a s
  | hget d a => exact execHget_keepsNow d a s
  | hput d a => exact execHput_keepsNow d a s
  | copy a b h q => exact execCopy_keepsNow a b h q s
  | gath a b h => exact execGath_keepsNow a b h s
  | scat a b h => exact execScat_keepsNow a b h s
  | copyRst a b h => exact execCopyRst_keepsNow a b h s
  | mldw a b h => exact execMldw_keepsNow a b h s
  | mswap h => exact execMswap_keepsNow h s
  | mzero m h => exact execMzero_keepsNow m h s
  | mloop a b h m => exact execMloop_keepsNow a b h m s
  | mrd a b m => exact execMrd_keepsNow a b m s
  | mstr a m h => exact execMstr_keepsNow a m h s
  | cres a b c => exact execCres_keepsNow a b c s
  | crel a => exact execCrel_keepsNow a s
  | cstat a b => exact execCstat_keepsNow a b s
  | trap im => exact execTrap_keepsNow im s
  | eret a => exact execEret_keepsNow a s
  | tlbi a b => exact execTlbi_keepsNow a b s
  | winr d a => exact execWinr_keepsNow d a s
  | winw a b => exact execWinw_keepsNow a b s
  | ejctl d a => exact execEjctl_keepsNow d a s
  | signal a => exact execSignal_keepsNow a s
  | launch a b h => exact execLaunch_keepsNow a b h s
  | pfx k z r x p e u y t => exact execPfx_keepsNow k z r x p e u y t s
  | nop => exact execNop_keepsNow s
  | yield => exact execYield_keepsNow s
  | exit => exact execExit_keepsNow s
  | ret => exact execRet_keepsNow s
  | join => exact execJoin_keepsNow s
  | fence => exact execFence_keepsNow s
  | tend => exact execTend_keepsNow s
  | xbar => exact execXbar_keepsNow s
  | tokwait => exact execTokwait_keepsNow s
  | tokpass => exact execTokpass_keepsNow s
  | _ => cases hw

theorem exec_keepsNow_of_event (s : State) (i : Instr) (hw : i.isWord = false) (hp : ∀ p o, i ≠ .ptpSync p o) :
    keepsNow s.now (exec i s) := by
  cases i with
  | ptpSync p o => exact absurd rfl (hp p o)
  | runArbitration col q => exact execRunArbitration_keepsNow col q s
  | variableLatencyLand col agent id => exact execVariableLatencyLand_keepsNow col agent id s
  | nackRetry col rid => exact execNackRetry_keepsNow col rid s
  | sleepExpire col agent slotB => exact execSleepExpire_keepsNow col agent slotB s
  | rejoinTimeout col slot => exact execRejoinTimeout_keepsNow col slot s
  | laneContextStart col ctx => exact execLaneContextStart_keepsNow col ctx s
  | laneReturn col ctx => exact execLaneReturn_keepsNow col ctx s
  | taskRecordCheck => exact execTaskRecordCheck_keepsNow s
  | launchRingEntry fn => exact execLaunchRingEntry_keepsNow fn s
  | launchComplete node => exact execLaunchComplete_keepsNow node s
  | makeResident col => exact execMakeResident_keepsNow col s
  | preemptGroup col entry => exact execPreemptGroup_keepsNow col entry s
  | quantumExpire col entry => exact execQuantumExpire_keepsNow col entry s
  | waitPriorityRise node group => exact execWaitPriorityRise_keepsNow node group s
  | startTimeReached node => exact execStartTimeReached_keepsNow node s
  | watchdog node => exact execWatchdog_keepsNow node s
  | claimSpan col id => exact execClaimSpan_keepsNow col id s
  | copyCommandStart col id => exact execCopyCommandStart_keepsNow col id s
  | copyTransfer col id => exact execCopyTransfer_keepsNow col id s
  | gatherTransfer col id => exact execGatherTransfer_keepsNow col id s
  | engineCommandDone col id => exact execEngineCommandDone_keepsNow col id s
  | barBytesDelivered col => exact execBarBytesDelivered_keepsNow col s
  | thresherCommandStart col node => exact execThresherCommandStart_keepsNow col node s
  | thresherKstep col node => exact execThresherKstep_keepsNow col node s
  | mloopRowsLanded col node => exact execMloopRowsLanded_keepsNow col node s
  | routerCycle => exact execRouterCycle_keepsNow s
  | injectionWindow => exact execInjectionWindow_keepsNow s
  | xdata col => exact execXdata_keepsNow col s
  | ack col => exact execAck_keepsNow col s
  | nack col => exact execNack_keepsNow col s
  | xctlArrival col => exact execXctlArrival_keepsNow col s
  | xctlRelease col => exact execXctlRelease_keepsNow col s
  | xredCombine col slot => exact execXredCombine_keepsNow col slot s
  | rd col => exact execRd_keepsNow col s
  | rdata col => exact execRdata_keepsNow col s
  | wdata col => exact execWdata_keepsNow col s
  | mgmt col => exact execMgmt_keepsNow col s
  | sliceRequest col rid => exact execSliceRequest_keepsNow col rid s
  | hbmFill col line => exact execHbmFill_keepsNow col line s
  | bayModeSwitch col mode => exact execBayModeSwitch_keepsNow col mode s
  | carveChange col ways => exact execCarveChange_keepsNow col ways s
  | carveGrowDone col => exact execCarveGrowDone_keepsNow col s
  | bayRgnHtWrite col n val => exact execBayRgnHtWrite_keepsNow col n val s
  | bayAliasWrite col n back val => exact execBayAliasWrite_keepsNow col n back val s
  | slstatRead col sl => exact execSlstatRead_keepsNow col sl s
  | dutyMapWrite val => exact execDutyMapWrite_keepsNow val s
  | ringCfgWrite fn fault val => exact execRingCfgWrite_keepsNow fn fault val s
  | registerWrite sp off val => exact execRegisterWrite_keepsNow sp off val s
  | attest => exact execAttest_keepsNow s
  | pfaultDone => exact execPfaultDone_keepsNow s
  | train => exact execTrain_keepsNow s
  | scrub => exact execScrub_keepsNow s
  | eth => exact execEth_keepsNow s
  | thermal => exact execThermal_keepsNow s
  | service => exact execService_keepsNow s
  | qp => exact execQp_keepsNow s
  | fwupdate => exact execFwupdate_keepsNow s
  | eccScrub => exact execEccScrub_keepsNow s
  | thermalSample power avg1 avg10 junction => exact execThermalSample_keepsNow power avg1 avg10 junction s
  | emergencyTrip => exact execEmergencyTrip_keepsNow s
  | boot fail net => exact execBoot_keepsNow fail net s
  | functionLevelReset vf => exact execFunctionLevelReset_keepsNow vf s
  | peerRdmaRequest port qpn kind col pa data => exact execPeerRdmaRequest_keepsNow port qpn kind col pa data s
  | strandBeatError col strand beat again => exact execStrandBeatError_keepsNow col strand beat again s
  | strandRetire col strand => exact execStrandRetire_keepsNow col strand s
  | linkCheckError router port again => exact execLinkCheckError_keepsNow router port again s
  | containment col memory => exact execContainment_keepsNow col memory s
  | migratePage ctx col va dest => exact execMigratePage_keepsNow ctx col va dest s
  | tlbiComplete col => exact execTlbiComplete_keepsNow col s
  | tinkerEvent col => exact execTinkerEvent_keepsNow col s
  | debugRestart col slot h => exact execDebugRestart_keepsNow col slot h s
  | debugCancel col slot h => exact execDebugCancel_keepsNow col slot h s
  | peerAcknowledge col id data => exact execPeerAcknowledge_keepsNow col id data s
  | peerLink col id => exact execPeerLink_keepsNow col id s
  | hostLinkCompletion col rid error data => exact execHostLinkCompletion_keepsNow col rid error data s
  | hostLinkRetriesExhausted col rid => exact execHostLinkRetriesExhausted_keepsNow col rid s
  | shadowPlaneLoaded col node => exact execShadowPlaneLoaded_keepsNow col node s
  | mstrTransfer col node => exact execMstrTransfer_keepsNow col node s
  | tinkerRestart col => exact execTinkerRestart_keepsNow col s
  | fringHead fn val => exact execFringHead_keepsNow fn val s
  | unknownOp => exact execUnknownOp_keepsNow s
  | ethernetLinkBringUp port up => exact execEthernetLinkBringUp_keepsNow port up s
  | tripPointCleared => exact execTripPointCleared_keepsNow s
  | _ => cases hw

/-! ## What takes the time forward -/

/-- An outcome in the cycle of `k`, with %time no earlier than in `k`. -/
def sameCycle (k : Nat × Nat) : Host.Outcome State Fault Refusal → Prop
  | .next t => t.clk = k.1 ∧ k.2 ≤ t.time
  | _ => True

@[simp] theorem sameCycle_next {k t} : sameCycle k (.next t) ↔ t.clk = k.1 ∧ k.2 ≤ t.time := Iff.rfl

@[simp] theorem sameCycle_fault {k r} : sameCycle k (.fault r) := trivial

@[simp] theorem sameCycle_refused {k r} : sameCycle k (.refused r) := trivial

theorem sameCycle_of_keepsNow {k : Nat × Nat} {o : Host.Outcome State Fault Refusal} (h : keepsNow k o) : sameCycle k o := by
  cases o with
  | next t => cases h; exact ⟨rfl, le_rfl⟩
  | fault | refused => trivial

theorem sameCycle_of_now {k : Nat × Nat} {t : State} (h : t.now = k) : sameCycle k (.next t) := sameCycle_of_keepsNow h

theorem sameCycle_trans {k : Nat × Nat} {s : State} {o : Host.Outcome State Fault Refusal} (h : sameCycle k (.next s))
    (g : sameCycle s.now o) : sameCycle k o := by
  cases o with
  | next t => exact ⟨g.1.trans h.1, h.2.trans g.2⟩
  | fault | refused => trivial

theorem execPtpSync_sameCycle (port : Nat) (offset : Int) (s : State) : sameCycle s.now (execPtpSync port offset s) := by
  unfold execPtpSync
  (repeat' split) <;> simp

theorem exec_sameCycle (s : State) (i : Instr) : sameCycle s.now (exec i s) := by
  by_cases hp : ∃ p o, i = .ptpSync p o
  · obtain ⟨p, o, rfl⟩ := hp
    exact execPtpSync_sameCycle p o s
  · apply sameCycle_of_keepsNow
    cases hc : i.computes
    · cases hw : i.isWord
      · exact exec_keepsNow_of_event s i hw fun p o h => hp ⟨p, o, h⟩
      · exact exec_keepsNow_of_isWord s i (by simp [hw, hc])
    · exact exec_keepsNow_of_computes s i hc

theorem State.firstChange_sameCycle (s : State) (is : List Instr) (o : Host.Outcome State Fault Refusal) (h : s.firstChange is = some o) :
    sameCycle s.now o := by
  induction is with
  | nil => cases h
  | cons i is ih =>
    have he := exec_sameCycle s i
    unfold State.firstChange at h
    split at h
    · next hx =>
      split at h
      · exact ih h
      · cases h; rwa [hx] at he
    · cases h; exact he

theorem State.execMember_sameCycle (s : State) (m : Member) (i : Instr) : sameCycle s.now (s.execMember m i) := by
  unfold State.execMember
  split
  · exact exec_sameCycle s i
  · split
    · exact exec_sameCycle s i
    · next p _ =>
      have hp := exec_sameCycle s p
      split
      · next h => rw [h] at hp; exact sameCycle_trans hp (exec_sameCycle _ i)
      · exact hp

theorem State.member_sameCycle (s : State) (u : UnitInfo) (m : Member) : sameCycle s.now (s.member u m) := by
  unfold State.member
  split
  · exact sameCycle_of_now (by simp)
  · exact sameCycle_of_now (by simp)
  · dsimp only
    split
    · exact sameCycle_of_now (by simp)
    · split
      · exact sameCycle_of_now (by simp)
      · exact s.execMember_sameCycle m _

theorem State.members_sameCycle (before : State) (u : UnitInfo) (s : State) (ms : List Member) (h : sameCycle before.now (.next s)) :
    sameCycle before.now (State.members before u s ms) := by
  induction ms generalizing s with
  | nil => exact h
  | cons m ms ih =>
    have hs : (if m.pos = u.start then s else s.chained before).now = s.now := by simp
    have hm (s' : State) (p : Nat) : sameCycle s'.now ((s'.toMember u m p).member u m) := by
      simpa using (s'.toMember u m p).member_sameCycle u m
    have ht : sameCycle before.now (((if m.pos = u.start then s else s.chained before).toMember u m m.pos).member u m) :=
      sameCycle_trans h (hs ▸ hm _ _)
    unfold State.members
    split
    · next t hx =>
      rw [hx] at ht
      split
      · have hb := hm before u.start
        split
        · next b hy =>
          rw [hy] at hb
          split
          · exact hb
          · exact ht
        · exact hb
      · split
        · exact ih t ht
        · exact ht
    · exact ht

theorem State.issueUnit_sameCycle (s : State) (c : Nat) (who : Who) : sameCycle s.now (s.issueUnit c who) := by
  unfold State.issueUnit
  extract_lets s1
  have h1 : s1.now = s.now := s.beginTurn_now c who
  rw [← h1]
  split
  · exact sameCycle_of_now (by simp)
  split
  · next h => exact sameCycle_of_now (by simp [← now_of_snd h])
  · next h =>
    rw [← State.fetchPacket_now, now_of_snd h]
    split
    · exact sameCycle_of_now (by simp)
    · extract_lets ms s2
      have h2 : s2.now = _ := State.settleHolds_now _
      rw [← h2]
      (iterate 4 (split; exact sameCycle_of_now (by simp)))
      have ht (u : UnitInfo) : sameCycle s2.now (State.members (s2.occupy ms) u (s2.occupy ms) ms) := by
        rw [← s2.occupy_now ms]
        exact State.members_sameCycle _ u _ ms (sameCycle_of_now rfl)
      split
      · next hx => exact sameCycle_trans (hx ▸ ht _) (sameCycle_of_now (by simp))
      · exact ht _

theorem State.issueTurn_sameCycle (s : State) (c : Nat) (who : Who) : sameCycle s.now (s.issueTurn c who) := by
  unfold State.issueTurn
  split
  · exact sameCycle_of_now rfl
  · split
    · trivial
    · exact s.issueUnit_sameCycle c who

/-- A correction of %time downward is slewed by one only in a cycle in which the frequency takes %time up (R367). -/
theorem State.passTime_sameCycle (s : State) : sameCycle s.now (.next s.passTime) := by
  unfold State.passTime
  dsimp only
  (repeat' split) <;> simp <;> omega

theorem State.tick_now (s : State) : s.tick.now = ({ s with clk := s.clk + 1 } : State).passTime.now := by
  unfold State.tick
  dsimp only
  rw [State.foldl_now fun s a => by split <;> simp, State.foldl_now (by simp), State.foldl_now (by simp)]
  simp

/-! ## A step -/

/-- An outcome at most one cycle after `k`, with neither %clk nor %time earlier than in `k`. -/
def advances (k : Nat × Nat) : Host.Outcome State Fault Refusal → Prop
  | .next t => k.1 ≤ t.clk ∧ k.2 ≤ t.time ∧ t.clk ≤ k.1 + 1
  | _ => True

theorem advances_of_sameCycle {k : Nat × Nat} {o : Host.Outcome State Fault Refusal} (h : sameCycle k o) : advances k o := by
  cases o with
  | next t => exact ⟨h.1.ge, h.2, h.1.le.trans (Nat.le_succ _)⟩
  | fault | refused => trivial

theorem State.tick_advances (s : State) : advances s.now (.next s.tick) := by
  obtain ⟨hclk, htime⟩ := State.passTime_sameCycle { s with clk := s.clk + 1 }
  obtain ⟨hc, ht⟩ := Prod.ext_iff.1 s.tick_now
  dsimp only [State.fst_now, State.snd_now] at hclk htime hc ht
  exact ⟨by simp; omega, by simp; omega, by simp; omega⟩

theorem State.turn_advances (s : State) (t : Turn) : advances s.now (s.turn t) := by
  cases t with
  | tick => exact s.tick_advances
  | issue c who => exact advances_of_sameCycle (s.issueTurn_sameCycle c who)
  | event i => exact advances_of_sameCycle (exec_sameCycle s i)
  | check | weaken | retried | untrain | flashFlag | clockPort => exact advances_of_sameCycle (sameCycle_of_now (by simp))

theorem State.auto_advances (s : State) : advances s.now s.auto := by
  unfold State.auto
  split
  · exact advances_of_sameCycle (s.issueTurn_sameCycle ..)
  · cases h : s.firstChange s.events with
    | none => exact s.tick_advances
    | some o => exact advances_of_sameCycle (s.firstChange_sameCycle _ o h)

theorem step_advances (s : State) : advances s.now (step s) := by
  unfold step State.next
  dsimp only
  split
  · split
    · trivial
    · exact State.auto_advances { s with free := s.free + 1 }
  · split
    · exact advances_of_sameCycle (sameCycle_of_now rfl)
    · exact State.turn_advances { s with free := s.free + 1, agenda := _ } _

/-- Settles O47: an instruction stays in its cycle and takes %time at most forward, an issued unit is a run of instructions, and the tick of a
cycle adds one to %clk and slews %time back by one only where the cycle takes it up. -/
theorem timeNeverRunsBackward : Obligations.TimeNeverRunsBackward := by
  intro s t clk time hclk htime h
  have hs := step_advances s
  rw [h] at hs
  obtain ⟨h1, h2, h3⟩ := hs
  exact ⟨hclk.trans h1, htime.trans h2, h3⟩

end Sys2Proof.Machine
end

section
/-! Memory in its canonical form: one lemma for each operation says that it keeps every column's memory, and the host's, in the form (R30). -/

namespace Sys2Proof.Machine

/-! ## What has the form -/

/-- A column's memory has the canonical form. -/
def Column.canonical (x : Column) : Prop := Memory.wf x.mem = true

/-- What the host holds has the canonical form. -/
def HostSide.canonical (h : HostSide) : Prop := Memory.wf h.mem = true

/-- Every memory of the state has the canonical form. -/
def State.canonical (s : State) : Prop := (∀ c, (s.col c).canonical) ∧ s.host.canonical

/-- An outcome that leaves every memory in the form, where it leaves a state. -/
def answersCanonical : Host.Outcome State Fault Refusal → Prop
  | .next t => t.canonical
  | _ => True

/-! A record made of another one has the form where it keeps that one's memories, whatever its other fields are. -/

theorem Column.mk_canonical {x : Column}
    {warps groups barriers quarters l1 l1Port l1tlb l2tlb ctxs port unitM unitE glean tinker badSectors weak undefined bay mops cmds
    counts engineFree roomFor hwq cribs grants mail xbar nifCore nifBay ejected parts msgs coreOffline memOffline perf sysUsed} (h : x.canonical) :
    Column.canonical ⟨warps, groups, barriers, quarters, l1, l1Port, l1tlb, l2tlb, ctxs, port, unitM, unitE, glean, tinker, x.mem, badSectors, weak,
    undefined, bay, mops, cmds, counts, engineFree, roomFor, hwq, cribs, grants, mail, xbar, nifCore, nifBay, ejected, parts, msgs,
    coreOffline, memOffline, perf, sysUsed⟩ := h

theorem HostSide.mk_canonical {h : HostSide}
    {fns dutyMap fctId fctBoot h2dBase h2dHead h2dTail d2hBase d2hHead d2hTail outbox undelivered posted msix pfaults nextTag qps
    linkUp peerReqs peerTraffic peerAnswers ptpPort slew slewDue train eth flashTrain untrained stages firmware restartAt duties
    minVersion carved regRead corrected lastScrub clockStep powerCap lastStep lastHot tripped} (hh : h.canonical) :
    HostSide.canonical ⟨fns, dutyMap, fctId, fctBoot, h2dBase, h2dHead, h2dTail, d2hBase, d2hHead, d2hTail, h.mem, outbox, undelivered, posted, msix,
    pfaults, nextTag, qps, linkUp, peerReqs, peerTraffic, peerAnswers, ptpPort, slew, slewDue, train, eth, flashTrain, untrained,
    stages, firmware, restartAt, duties, minVersion, carved, regRead, corrected, lastScrub, clockStep, powerCap, lastStep, lastHot,
    tripped⟩ := hh

theorem State.mk_canonical {s : State}
    {dist flits routeAt deadLinks factors clk time timeFrac clocksStopped booted cur agenda nextId free} (h : s.canonical) :
    State.canonical ⟨s.cols, dist, flits, routeAt, deadLinks, s.host, factors, clk, time, timeFrac, clocksStopped, booted, cur, agenda, nextId,
    free⟩ := h

theorem State.mk_host_canonical {s : State}
    {dist flits routeAt deadLinks host factors clk time timeFrac clocksStopped booted cur agenda nextId free} (h : s.canonical) (hh : host.canonical) :
    State.canonical ⟨s.cols, dist, flits, routeAt, deadLinks, host, factors, clk, time, timeFrac, clocksStopped, booted, cur, agenda, nextId, free⟩ := ⟨h.1, hh⟩

theorem State.col_canonical {s : State} {c} (h : s.canonical) : (s.col c).canonical := h.1 c

theorem State.here_canonical {s : State} (h : s.canonical) : s.here.canonical := h.1 _

theorem State.host_canonical {s : State} (h : s.canonical) : s.host.canonical := h.2

theorem canonical_ite {α : Type} {P : α → Prop} {p : Prop} [Decidable p] {a b : α} (ha : P a) (hb : P b) : P (if p then a else b) := by
  split <;> assumption

theorem canonical_foldl {α β : Type} {P : α → Prop} {f : α → β → α} {l : List β} {a : α} (hf : ∀ a b, P a → P (f a b)) (h : P a) :
    P (l.foldl f a) := by
  induction l generalizing a with
  | nil => exact h
  | cons b l ih => exact ih (hf a b h)

/-- A fold over a pair, of whose second component something holds. -/
theorem canonical_foldl_snd {α β γ : Type} {P : β → Prop} {f : α × β → γ → α × β} {l : List γ} {a : α × β}
    (hf : ∀ a c, P a.2 → P (f a c).2) (h : P a.2) : P (l.foldl f a).2 := by
  induction l generalizing a with
  | nil => exact h
  | cons c l ih => exact ih (hf a c h)

theorem canonical_foldl_fst {α β γ : Type} {P : β → Prop} {f : β × α → γ → β × α} {l : List γ} {a : β × α}
    (hf : ∀ a c, P a.1 → P (f a c).1) (h : P a.1) : P (l.foldl f a).1 := by
  induction l generalizing a with
  | nil => exact h
  | cons c l ih => exact ih (hf a c h)

theorem canonical_of_snd {α β : Type} {P : β → Prop} {p : α × β} {a : α} {b : β} (h : p = (a, b)) (hp : P p.2) : P b := by
  rwa [h] at hp

theorem canonical_of_fst {α β : Type} {P : β → Prop} {p : β × α} {a : α} {b : β} (h : p = (b, a)) (hp : P p.1) : P b := by
  rwa [h] at hp

theorem canonical_of_next {o : Host.Outcome State Fault Refusal} {t : State} (h : o = .next t) (ho : answersCanonical o) : t.canonical := by
  rwa [h] at ho

theorem canonical_of_snd_snd {α β γ : Type} {P : γ → Prop} {p : α × β × γ} {a : α} {b : β} {c : γ} (h : p = (a, b, c)) (hp : P p.2.2) : P c := by
  rwa [h] at hp

theorem answersCanonical_next {t : State} (h : t.canonical) : answersCanonical (.next t) := h

theorem State.ite_canonical {p : Prop} [Decidable p] {s t : State} (hs : s.canonical) (ht : t.canonical) : (if p then s else t).canonical :=
  canonical_ite hs ht

theorem Column.ite_canonical {p : Prop} [Decidable p] {x y : Column} (hx : x.canonical) (hy : y.canonical) :
    (if p then x else y).canonical :=
  canonical_ite hx hy

theorem HostSide.ite_canonical {p : Prop} [Decidable p] {h g : HostSide} (hh : h.canonical) (hg : g.canonical) :
    (if p then h else g).canonical :=
  canonical_ite hh hg

theorem answersCanonical_ite {p : Prop} [Decidable p] {a b : Host.Outcome State Fault Refusal} (ha : answersCanonical a)
    (hb : answersCanonical b) : answersCanonical (if p then a else b) :=
  canonical_ite ha hb

theorem State.foldl_canonical {α : Type} {f : State → α → State} {l : List α} {s : State} (hf : ∀ s a, s.canonical → (f s a).canonical)
    (h : s.canonical) : (l.foldl f s).canonical :=
  canonical_foldl hf h

theorem Column.foldl_canonical {α : Type} {f : Column → α → Column} {l : List α} {x : Column}
    (hf : ∀ x a, x.canonical → (f x a).canonical) (h : x.canonical) : (l.foldl f x).canonical :=
  canonical_foldl hf h

theorem HostSide.foldl_canonical {α : Type} {f : HostSide → α → HostSide} {l : List α} {g : HostSide}
    (hf : ∀ g a, g.canonical → (f g a).canonical) (h : g.canonical) : (l.foldl f g).canonical :=
  canonical_foldl hf h

theorem State.foldl_snd_canonical {α β : Type} {f : β × State → α → β × State} {l : List α} {x : β × State}
    (hf : ∀ x a, x.2.canonical → (f x a).2.canonical) (h : x.2.canonical) : (l.foldl f x).2.canonical :=
  canonical_foldl_snd hf h

theorem Column.foldl_snd_canonical {α β : Type} {f : β × Column → α → β × Column} {l : List α} {x : β × Column}
    (hf : ∀ x a, x.2.canonical → (f x a).2.canonical) (h : x.2.canonical) : (l.foldl f x).2.canonical :=
  canonical_foldl_snd hf h

theorem State.foldl_fst_canonical {α β : Type} {f : State × β → α → State × β} {l : List α} {x : State × β}
    (hf : ∀ x a, x.1.canonical → (f x a).1.canonical) (h : x.1.canonical) : (l.foldl f x).1.canonical :=
  canonical_foldl_fst hf h

theorem Column.foldl_fst_canonical {α β : Type} {f : Column × β → α → Column × β} {l : List α} {x : Column × β}
    (hf : ∀ x a, x.1.canonical → (f x a).1.canonical) (h : x.1.canonical) : (l.foldl f x).1.canonical :=
  canonical_foldl_fst hf h

/-! ## Columns -/

theorem State.setCol_canonical {s : State} {c : Nat} {x : Column} (h : s.canonical) (hx : x.canonical) : (s.setCol c x).canonical :=
  ⟨fun d => by rw [State.col_setCol]; exact Column.ite_canonical hx (h.1 d), h.2⟩

theorem State.updCol_canonical {s : State} {c : Nat} {f : Column → Column} (h : s.canonical) (hf : ∀ x, x.canonical → (f x).canonical) :
    (s.updCol c f).canonical :=
  State.setCol_canonical h (hf _ (h.1 c))

theorem State.updHere_canonical {s : State} {f : Column → Column} (h : s.canonical) (hf : ∀ x, x.canonical → (f x).canonical) :
    (s.updHere f).canonical :=
  State.updCol_canonical h hf

/-- Every listed column changed by one function; an unlisted one is the empty one. -/
theorem State.mapCols_canonical {s : State} {f : Nat → Column → Column}
    {dist flits routeAt deadLinks factors clk time timeFrac clocksStopped booted cur agenda nextId free} (h : s.canonical)
    (hf : ∀ n x, x.canonical → (f n x).canonical) :
    State.canonical ⟨Tab.mapVals f s.cols, dist, flits, routeAt, deadLinks, s.host, factors, clk, time, timeFrac, clocksStopped, booted, cur,
      agenda, nextId, free⟩ := by
  refine ⟨fun c => ?_, h.2⟩
  unfold State.col
  rw [Tab.get_mapVals]
  exact Column.ite_canonical (hf _ _ (h.1 c)) rfl

/-! ## Ops -/

theorem Column.setWarp_canonical {x : Column} {n} {w} (h : x.canonical) : (x.setWarp n w).canonical :=
  Column.mk_canonical h

theorem Column.setCtx_canonical {x : Column} {n} {w} (h : x.canonical) : (x.setCtx n w).canonical :=
  Column.mk_canonical h

theorem Column.setGroup_canonical {x : Column} {n} {g} (h : x.canonical) : (x.setGroup n g).canonical :=
  Column.mk_canonical h

theorem Column.setQuarter_canonical {x : Column} {q} {r} (h : x.canonical) : (x.setQuarter q r).canonical :=
  Column.mk_canonical h

theorem State.setNode_canonical {s : State} {n} {x} (h : s.canonical) : (s.setNode n x).canonical :=
  State.mk_canonical h

theorem State.updWarp_canonical {s : State} {f : Warp → Warp} (h : s.canonical) : (s.updWarp f).canonical := by
  unfold State.updWarp
  split
  · exact State.updHere_canonical h (fun _ h1 => Column.setWarp_canonical h1)
  · exact State.updHere_canonical h (fun _ h2 => Column.setWarp_canonical h2)
  · exact h

theorem State.setThreadOf_canonical {s : State} {c} {who} {t} (h : s.canonical) : (s.setThreadOf c who t).canonical := by
  unfold State.setThreadOf
  split
  · exact State.updCol_canonical h (fun _ h1 => Column.setWarp_canonical h1)
  · exact State.updCol_canonical h (fun _ h2 => Column.setCtx_canonical h2)
  · exact State.updCol_canonical h (fun _ h3 => Column.mk_canonical h3)
  · exact State.mk_canonical h

theorem State.updThread_canonical {s : State} {f : Thread → Thread} (h : s.canonical) : (s.updThread f).canonical :=
  State.setThreadOf_canonical h

theorem State.setPathOf_canonical {s : State} {c} {who} {p} (h : s.canonical) : (s.setPathOf c who p).canonical := by
  unfold State.setPathOf
  split
  · exact State.updCol_canonical h (fun _ h1 => Column.setWarp_canonical h1)
  · exact State.updCol_canonical h (fun _ h2 => Column.setCtx_canonical h2)
  · exact State.updCol_canonical h (fun _ h3 => Column.mk_canonical h3)
  · exact State.mk_canonical h

theorem State.updPath_canonical {s : State} {f : Path → Path} (h : s.canonical) : (s.updPath f).canonical :=
  State.setPathOf_canonical h

theorem State.push_canonical {s : State} {latency} {w} (h : s.canonical) : (s.push latency w).canonical :=
  State.updThread_canonical h

theorem State.putV_canonical {s : State} {latency} {r} {x} (h : s.canonical) : (s.putV latency r x).canonical :=
  State.ite_canonical (State.push_canonical h) (State.push_canonical h)

theorem State.putK_canonical {s : State} {latency} {r} {x} (h : s.canonical) : (s.putK latency r x).canonical :=
  State.ite_canonical (State.push_canonical h) (State.push_canonical h)

theorem State.putS_canonical {s : State} {latency} {r} {x} (h : s.canonical) : (s.putS latency r x).canonical :=
  State.push_canonical h

theorem State.putC_canonical {s : State} {latency} {i} {x} (h : s.canonical) : (s.putC latency i x).canonical :=
  State.push_canonical h

theorem State.landWrite_canonical {s : State} {c} {who} {w} (h : s.canonical) : (s.landWrite c who w).canonical := by
  unfold State.landWrite
  dsimp only
  split
  · exact State.updCol_canonical (State.setThreadOf_canonical h) (fun _ h1 => Column.setWarp_canonical h1)
  · exact State.setPathOf_canonical (State.setThreadOf_canonical h)

theorem State.landDue_canonical {s : State} {c} {who} (h : s.canonical) : (s.landDue c who).canonical :=
  State.ite_canonical (State.foldl_canonical (fun _ _ h1 => State.landWrite_canonical h1) (State.setThreadOf_canonical h)) h

theorem State.goto_canonical {s : State} {pkt} (h : s.canonical) : (s.goto pkt).canonical :=
  State.updPath_canonical h

theorem Column.endRun_canonical {x : Column} {slot} (h : x.canonical) : (x.endRun slot).canonical := by
  unfold Column.endRun
  dsimp only
  split
  · exact Column.ite_canonical (Column.setQuarter_canonical h) h
  · exact h

theorem State.endRun_canonical {s : State} (h : s.canonical) : s.endRun.canonical := by
  unfold State.endRun
  split
  · exact State.updHere_canonical h (fun _ h1 => Column.endRun_canonical h1)
  · exact h

theorem State.holdAt_canonical {s : State} {w} (h : s.canonical) : (s.holdAt w).canonical :=
  State.mk_canonical (State.endRun_canonical (State.updPath_canonical h))

theorem State.inPlaceUntil_canonical {s : State} {cycle} (h : s.canonical) : (s.inPlaceUntil cycle).canonical :=
  State.mk_canonical (State.updPath_canonical h)

theorem Column.count_canonical {x : Column} {launch} {n} (h : x.canonical) : (x.count launch n).canonical :=
  Column.mk_canonical h

theorem State.blockAt_canonical {s : State} {w} (h : s.canonical) : (s.blockAt w).canonical := by
  unfold State.blockAt
  split
  · exact State.ite_canonical (State.holdAt_canonical h) (State.updHere_canonical (State.holdAt_canonical h) (fun _ h1 =>
      Column.count_canonical h1))
  · exact State.holdAt_canonical h

theorem Column.raiseEvent_canonical {x : Column} {e} (h : x.canonical) : (x.raiseEvent e).canonical :=
  Column.ite_canonical (Column.mk_canonical h) (Column.mk_canonical h)

theorem State.raise_canonical {s : State} {c} {t} (h : s.canonical) : (s.raise c t).canonical := by
  unfold State.raise
  dsimp only
  split
  · exact State.endRun_canonical (State.updHere_canonical (State.updPath_canonical h) (fun _ h1 => Column.raiseEvent_canonical
      (Column.setWarp_canonical h1)))
  · exact State.updHere_canonical (State.updPath_canonical h) (fun _ h2 => Column.raiseEvent_canonical (Column.setCtx_canonical h2))
  · exact State.updHere_canonical (State.updPath_canonical h) (fun _ h3 => Column.mk_canonical h3)
  · exact State.mk_canonical h

theorem State.trap_canonical {s : State} {c} (h : s.canonical) : (s.trap c).canonical :=
  State.raise_canonical h

theorem State.illegal_canonical {s : State} (h : s.canonical) : s.illegal.canonical :=
  State.raise_canonical h

/-! ## Words -/

theorem accept_canonical {k} {s : State} {run : State → Host.Outcome State Fault Refusal} (h : s.canonical) (hrun : ∀ (t : State),
    t.canonical → answersCanonical (run t)) : answersCanonical (accept k s run) := by
  unfold accept
  split
  · exact State.illegal_canonical h
  · exact State.trap_canonical h
  · exact hrun _ h

/-! ## Operands -/

theorem State.scalarTo_canonical {s : State} {latency} {d} {x} (h : s.canonical) : answersCanonical (s.scalarTo latency d x) :=
  answersCanonical_ite (State.putS_canonical h) (State.trap_canonical h)

theorem State.condTo_canonical {s : State} {latency} {d} {x} (h : s.canonical) : answersCanonical (s.condTo latency d x) :=
  State.putC_canonical h

theorem State.vectorTo_canonical {s : State} {latency} {d} {x} (h : s.canonical) : answersCanonical (s.vectorTo latency d x) :=
  State.putV_canonical h

theorem State.pairTo_canonical {s : State} {latency} {d} {lo} {hi} (h : s.canonical) : answersCanonical (s.pairTo latency d lo hi) :=
  State.putV_canonical (State.putV_canonical h)

theorem State.maskTo_canonical {s : State} {latency} {d} {x} (h : s.canonical) : answersCanonical (s.maskTo latency d x) :=
  State.putK_canonical h

/-! ## Bay -/

theorem Column.putByte_canonical {x : Column} {pa} {b} (h : x.canonical) : (x.putByte pa b).canonical := Column.wf_putByte pa b h

theorem Column.putBytes_canonical {x : Column} {pa} {a} (h : x.canonical) : (x.putBytes pa a).canonical := Column.wf_putBytes a pa h

theorem Column.clearMarks_canonical {x : Column} {line} {mask} (h : x.canonical) : (x.clearMarks line mask).canonical :=
  Column.mk_canonical h

theorem Column.putLine_canonical {x : Column} {line} {mask} {data} (h : x.canonical) : (x.putLine line mask data).canonical :=
  Column.clearMarks_canonical (Column.foldl_canonical (fun _ _ h1 => Column.ite_canonical (Column.putByte_canonical h1) h1) h)

theorem Column.updBay_canonical {x : Column} {f : Bay → Bay} (h : x.canonical) : (x.updBay f).canonical :=
  Column.mk_canonical h

/-! ## Cache -/

theorem Column.setL1_canonical {x : Column} {k} {l} (h : x.canonical) : (x.setL1 k l).canonical :=
  Column.mk_canonical h

theorem Column.putWord_canonical {x : Column} {pa} {w} (h : x.canonical) : (x.putWord pa w).canonical :=
  Column.putBytes_canonical h

theorem Column.foldLine_canonical {x : Column} {free} {l} {op} (h : x.canonical) : (x.foldLine free l op).canonical :=
  Column.foldl_canonical (fun _ _ h1 => Column.ite_canonical h1 (Column.putWord_canonical h1)) h

theorem Column.land_canonical {x : Column} {free} {l} (h : x.canonical) : (x.land free l).canonical := by
  unfold Column.land
  split
  · exact Column.foldLine_canonical h
  · exact Column.putLine_canonical h

theorem Column.landTouched_canonical {x : Column} {free} {l} (h : x.canonical) : (x.landTouched free l).canonical :=
  Column.updBay_canonical (Column.land_canonical h)

theorem Column.sendLine_canonical {x : Column} {cache} {l} (h : x.canonical) : (x.sendLine cache l).canonical :=
  Column.ite_canonical h (Column.updBay_canonical h)

theorem Column.evictL1_canonical {x : Column} {k} (h : x.canonical) : (x.evictL1 k).canonical :=
  Column.ite_canonical (Column.setL1_canonical (Column.sendLine_canonical h)) h

theorem Column.settlePuts_canonical {x : Column} {free} {cache} {line} (h : x.canonical) : (x.settlePuts free cache line).canonical := by
  unfold Column.settlePuts
  refine Column.foldl_canonical (fun _ _ h1 => ?_) h
  split
  · exact Column.updBay_canonical (Column.landTouched_canonical h1)
  · exact h1

theorem Column.takeL1_canonical {x : Column} {free} {k} (h : x.canonical) : (x.takeL1 free k).canonical :=
  Column.setL1_canonical (Column.ite_canonical (Column.landTouched_canonical h) h)

theorem Column.settleLine_canonical {x : Column} {free} {cache} {line} (h : x.canonical) : (x.settleLine free cache line).canonical := by
  unfold Column.settleLine
  dsimp only
  split
  · exact Column.takeL1_canonical (Column.settlePuts_canonical h)
  · exact Column.settlePuts_canonical h

theorem Column.recallFrom_canonical {x : Column} {free} {line} {caches} (h : x.canonical) : (x.recallFrom free line caches).canonical := by
  unfold Column.recallFrom
  refine Column.foldl_canonical (fun _ _ h1 => ?_) h
  dsimp only
  refine Column.ite_canonical ?_ h1
  split
  · exact Column.takeL1_canonical (Column.settlePuts_canonical h1)
  · exact Column.settlePuts_canonical h1

theorem Column.recallU_canonical {x : Column} {free} {line} (h : x.canonical) : (x.recallU free line).canonical :=
  Column.recallFrom_canonical h

theorem Column.landPut_canonical {x : Column} {free} {cache} {l} (h : x.canonical) : (x.landPut free cache l).canonical :=
  Column.ite_canonical (Column.land_canonical h) (Column.land_canonical (Column.recallFrom_canonical h))

theorem Column.l1Victim_canonical {a} {a1 : Column} {a2} {a3} (h : a1.canonical) : (Column.l1Victim a a1 a2 a3).1.canonical := by
  induction a generalizing a1 with
  | zero => exact h
  | succ n ih =>
    unfold Column.l1Victim
    split
    · exact h
    · split
      · exact h
      · exact ih (Column.foldl_canonical (fun _ _ hx => Column.setL1_canonical hx) h)

theorem Column.fillL1_canonical {x : Column} {free} {cache} {line} {sectors} {v} {ep} {region} (h : x.canonical) : (x.fillL1 free cache line
    sectors v ep region).canonical := by
  unfold Column.fillL1
  refine Column.ite_canonical h ?_
  split
  · exact Column.setL1_canonical (Column.ite_canonical (Column.evictL1_canonical h) h)
  · split
    · next h1 =>
        exact Column.setL1_canonical (Column.evictL1_canonical (canonical_of_fst h1 (Column.l1Victim_canonical h)))

theorem Column.drainL1_canonical {x : Column} {cache} (h : x.canonical) : (x.drainL1 cache).canonical :=
  Column.foldl_canonical (fun _ _ h1 => Column.ite_canonical (Column.setL1_canonical (Column.sendLine_canonical h1)) (Column.setL1_canonical
    (Column.sendLine_canonical h1))) h

theorem Column.drain_canonical {x : Column} {cache} {a} (h : x.canonical) : (x.drain cache a).2.2.canonical := by
  unfold Column.drain
  split
  · split
    · exact h
    · exact h
  · dsimp only
    split
    · exact Column.drainL1_canonical h
    · exact Column.drainL1_canonical h

theorem Column.acquireL1_canonical {x : Column} {cache} (h : x.canonical) : (x.acquireL1 cache).canonical :=
  Column.foldl_canonical (fun _ _ h1 => Column.setL1_canonical h1) h

theorem Column.dropClean_canonical {x : Column} {lines} (h : x.canonical) : (x.dropClean lines).canonical := by
  unfold Column.dropClean
  refine Column.foldl_canonical (fun _ _ h1 => ?_) h
  split
  · exact Column.setL1_canonical h1
  · exact h1

/-! ## Mx -/

theorem Column.putBlock_canonical {x : Column} {n} {e0} {s} {codes} (h : x.canonical) : (x.putBlock n e0 s codes).canonical :=
  Column.foldl_canonical (fun _ _ h1 => Column.putByte_canonical h1) (Column.putByte_canonical h)

theorem Column.aliasBlock_canonical {x : Column} {free} {n} {e0} {bytes} (h : x.canonical) : (x.aliasBlock free n e0 bytes).canonical :=
  Column.putBlock_canonical h

theorem Column.aliasWrite_canonical {x : Column} {free} {n} {bytes} (h : x.canonical) : (x.aliasWrite free n bytes).canonical :=
  Column.foldl_canonical (fun _ _ h1 => Column.aliasBlock_canonical h1) h

/-! ## Scalar -/

theorem execSwrite_canonical {a} {b} {s : State} (h : s.canonical) : answersCanonical (execSwrite a b s) :=
  accept_canonical h (fun _ h1 => answersCanonical_ite (State.illegal_canonical h1) (State.updWarp_canonical h1))

/-! ## Translate -/

theorem HostSide.write_canonical {h : HostSide} {fn} {a} {b} (hh : h.canonical) : (h.write fn a b).canonical := HostSide.wf_write fn a b hh

theorem State.bringHost_canonical {s : State} {c} {ctx} {line} (h : s.canonical) : (s.bringHost c ctx line).canonical :=
  State.ite_canonical h (State.setCol_canonical h (Column.updBay_canonical (Column.putBytes_canonical (State.col_canonical h))))

theorem State.homeBytes_canonical {s : State} {c} {ctx} {pa} {n} (h : s.canonical) : (s.homeBytes c ctx pa n).2.canonical := by
  unfold State.homeBytes
  split
  · exact h
  · exact State.bringHost_canonical h
  · exact h

theorem State.translate_canonical {s : State} {col} {ctx} {va} {core} (h : s.canonical) : (s.translate col ctx va core).2.canonical := by
  unfold State.translate
  dsimp only
  split
  · exact h
  · split
    · exact State.ite_canonical (State.updCol_canonical h (fun _ h1 => Column.mk_canonical h1)) h
    · split
      · exact State.ite_canonical (State.updCol_canonical (State.updCol_canonical h (fun _ h2 => Column.mk_canonical h2)) (fun _ h3 =>
          Column.mk_canonical h3)) (State.updCol_canonical h (fun _ h4 => Column.mk_canonical h4))
      · exact h

theorem State.windowed_canonical {s : State} {off} {core} (h : s.canonical) : (s.windowed off core).2.canonical := by
  unfold State.windowed
  split
  · exact h
  · exact State.translate_canonical h

theorem State.pageOf_canonical {s : State} {off} (h : s.canonical) : (s.pageOf off).2.canonical := by
  unfold State.pageOf
  dsimp only
  split
  · split
    · exact h
    · split
      · exact h
      · exact State.windowed_canonical h
  · exact State.windowed_canonical h
  · exact State.windowed_canonical h

theorem State.checkAddr_canonical {s : State} {n} {a} (h : s.canonical) : (s.checkAddr n a).2.canonical := by
  unfold State.checkAddr
  split
  · exact h
  · split
    · exact h
    · split
      · next h1 =>
          exact canonical_of_snd h1 (State.pageOf_canonical h)
      · next h2 =>
          split
          · exact canonical_of_snd h2 (State.pageOf_canonical h)
          · dsimp only
            split
            · exact canonical_of_snd h2 (State.pageOf_canonical h)
            · split
              · exact canonical_of_snd h2 (State.pageOf_canonical h)
              · exact canonical_of_snd h2 (State.pageOf_canonical h)
            · exact canonical_of_snd h2 (State.pageOf_canonical h)

theorem State.checkLanes_canonical {s : State} {n} {a} (h : s.canonical) : (s.checkLanes n a).2.canonical := by
  induction a generalizing s with
  | nil => exact h
  | cons e l ih => exact ih (State.checkAddr_canonical h)

theorem State.codeWord_canonical {s : State} {off} (h : s.canonical) : (s.codeWord off).2.canonical := by
  unfold State.codeWord
  split
  · next h1 =>
      exact canonical_of_snd h1 (State.pageOf_canonical h)
  · next h2 =>
      split
      · exact canonical_of_snd h2 (State.pageOf_canonical h)
      · dsimp only
        split
        · exact State.updHere_canonical (canonical_of_snd h2 (State.pageOf_canonical h)) (fun _ h3 => Column.setL1_canonical h3)
        · split
          · exact canonical_of_snd h2 (State.pageOf_canonical h)
          · exact State.homeBytes_canonical (canonical_of_snd h2 (State.pageOf_canonical h))

theorem State.fetchPacket_canonical {s : State} {pkt} (h : s.canonical) : (s.fetchPacket pkt).2.canonical := by
  unfold State.fetchPacket
  split
  · split
    · exact h
    · dsimp only
      split
      · next h1 =>
          exact canonical_of_snd h1 (State.codeWord_canonical h)
      · next h2 =>
          split
          · next h3 =>
              exact canonical_of_snd h3 (State.codeWord_canonical (canonical_of_snd h2 (State.codeWord_canonical h)))
          · next h4 =>
              split
              · next h5 =>
                  exact canonical_of_snd h5 (State.codeWord_canonical (canonical_of_snd h4 (State.codeWord_canonical (canonical_of_snd h2
                    (State.codeWord_canonical h)))))
              · next h6 =>
                  exact canonical_of_snd h6 (State.codeWord_canonical (canonical_of_snd h4 (State.codeWord_canonical (canonical_of_snd h2
                    (State.codeWord_canonical h)))))

/-! ## Paths -/

theorem Column.settleRegions_canonical {x : Column} {n} (h : x.canonical) : (x.settleRegions n).canonical :=
  Column.foldl_canonical (fun _ _ h1 => Column.ite_canonical (Column.ite_canonical (Column.setWarp_canonical h1) (Column.acquireL1_canonical
    (Column.setWarp_canonical h1))) h1) h

theorem State.park_canonical {s : State} {c} {n} (h : s.canonical) : (s.park c n).canonical :=
  State.setCol_canonical h (Column.ite_canonical (Column.raiseEvent_canonical (Column.count_canonical (Column.setWarp_canonical
    (State.col_canonical h)))) (Column.count_canonical (Column.setWarp_canonical (State.col_canonical h))))

theorem State.rejoinUpdate_canonical {s : State} {c} {n} (h : s.canonical) : (s.rejoinUpdate c n).canonical :=
  State.ite_canonical (State.setCol_canonical h (Column.setWarp_canonical (State.col_canonical h))) (State.ite_canonical
    (State.park_canonical (State.setCol_canonical h (Column.setWarp_canonical (State.col_canonical h)))) (State.setCol_canonical h
    (Column.setWarp_canonical (State.col_canonical h))))

theorem Column.ejectLane_canonical {x : Column} {n} {l} {clk} {p} {t} (h : x.canonical) : (x.ejectLane n l clk p t).canonical := by
  unfold Column.ejectLane
  split
  · exact h
  · exact Column.mk_canonical (Column.setCtx_canonical h)

theorem Column.eject_canonical {x : Column} {n} {clk} {launch} {p} {t} (h : x.canonical) : (x.eject n clk launch p t).canonical := by
  unfold Column.eject
  dsimp only
  split
  · exact Column.setWarp_canonical (Column.foldl_canonical (fun _ _ h1 => Column.count_canonical (Column.ejectLane_canonical h1)) h)
  · exact Column.foldl_canonical (fun _ _ h2 => Column.count_canonical (Column.ejectLane_canonical h2)) h

theorem State.setStack_canonical {s : State} {k} (h : s.canonical) : (s.setStack k).canonical := by
  unfold State.setStack
  split
  · exact State.updHere_canonical h (fun _ h1 => Column.setWarp_canonical h1)
  · exact State.updHere_canonical h (fun _ h2 => Column.setCtx_canonical h2)
  · exact State.updHere_canonical h (fun _ h3 => Column.mk_canonical h3)
  · exact State.mk_canonical h

theorem State.raiseErred_canonical {s : State} {v} {pc} (h : s.canonical) : (s.raiseErred v pc).canonical := by
  unfold State.raiseErred
  dsimp only
  split
  · split
    · exact State.raise_canonical (State.updThread_canonical h)
    · exact State.raise_canonical (State.updThread_canonical h)
  · exact State.updThread_canonical h

theorem State.bankWait_canonical {s : State} {all} (h : s.canonical) {t} (ht : s.bankWait all = some t) : t.canonical := by
  unfold State.bankWait at ht
  dsimp only at ht
  split at ht
  · cases ht
    exact State.raiseErred_canonical h
  · split at ht
    · cases ht
      exact State.blockAt_canonical h
    · split at ht
      · cases ht
      · cases ht
        exact State.inPlaceUntil_canonical h

theorem State.placeWarp_canonical {s : State} {n} {b} {p} {t} {first} {rest} (h : s.canonical) : (s.placeWarp n b p t first rest).canonical
    := by
  unfold State.placeWarp
  dsimp only
  refine State.updHere_canonical (State.mk_canonical h) (fun _ h1 => ?_)
  refine Column.foldl_canonical (fun _ _ h2 => Column.eject_canonical h2) ?_
  split
  · exact Column.ite_canonical (Column.setQuarter_canonical (Column.setWarp_canonical h1)) (Column.setWarp_canonical h1)
  · exact Column.setWarp_canonical h1

theorem State.divide_canonical {s : State} {join} {cands} (h : s.canonical) : answersCanonical (s.divide join cands) := by
  unfold State.divide
  dsimp only
  split
  · exact h
  · split
    · next h1 =>
        exact State.bankWait_canonical h h1
    · refine answersCanonical_ite (State.trap_canonical h) ?_
      split
      · exact State.placeWarp_canonical (State.ite_canonical h (State.setStack_canonical h))
      · exact State.mk_canonical (State.setPathOf_canonical (State.ite_canonical h (State.setStack_canonical h)))

/-! ## Tx -/

theorem Column.abortTx_canonical {x : Column} {n} {a} {user} {addr} (h : x.canonical) : (x.abortTx n a user addr).canonical :=
  Column.ite_canonical h (Column.count_canonical (Column.setWarp_canonical h))

theorem State.abortTx_canonical {s : State} {a} {user} {addr} (h : s.canonical) : (s.abortTx a user addr).canonical := by
  unfold State.abortTx
  split
  · exact State.updHere_canonical h (fun _ h1 => Column.abortTx_canonical h1)
  · exact State.updHere_canonical h (fun _ h2 => Column.abortTx_canonical h2)
  · exact h

theorem outsideTx_canonical {s : State} {run : State → Host.Outcome State Fault Refusal} (h : s.canonical) (hrun : ∀ (t : State),
    t.canonical → answersCanonical (run t)) : answersCanonical (outsideTx s run) :=
  answersCanonical_ite (State.abortTx_canonical h) (hrun _ h)

/-! ## Control -/

theorem State.link_canonical {s : State} (h : s.canonical) : s.link.canonical :=
  State.putS_canonical h

theorem execBr_canonical {k} {o} {s : State} (h : s.canonical) : answersCanonical (execBr k o s) :=
  accept_canonical h (fun _ h1 => answersCanonical_next (State.ite_canonical (State.goto_canonical h1) h1))

theorem execBrF_canonical {k} {o} {s : State} (h : s.canonical) : answersCanonical (execBrF k o s) :=
  accept_canonical h (fun _ h1 => answersCanonical_next (State.ite_canonical h1 (State.goto_canonical h1)))

theorem execJmp_canonical {o} {s : State} (h : s.canonical) : answersCanonical (execJmp o s) :=
  accept_canonical h (fun _ h1 => State.goto_canonical h1)

theorem execCall_canonical {o} {s : State} (h : s.canonical) : answersCanonical (execCall o s) :=
  accept_canonical h (fun _ h1 => State.goto_canonical (State.link_canonical h1))

theorem execRet_canonical {s : State} (h : s.canonical) : answersCanonical (execRet s) :=
  accept_canonical h (fun _ h1 => State.goto_canonical h1)

theorem execJmpi_canonical {a} {s : State} (h : s.canonical) : answersCanonical (execJmpi a s) :=
  accept_canonical h (fun _ h1 => State.goto_canonical h1)

theorem execCalli_canonical {a} {s : State} (h : s.canonical) : answersCanonical (execCalli a s) :=
  accept_canonical h (fun _ h1 => State.goto_canonical (State.link_canonical h1))

theorem execSplit_canonical {k} {t} {j} {s : State} (h : s.canonical) : answersCanonical (execSplit k t j s) :=
  accept_canonical h (fun _ h1 => answersCanonical_ite (State.illegal_canonical h1) (answersCanonical_ite (State.abortTx_canonical h1)
    (State.divide_canonical h1)))

theorem State.tableWords_canonical {s : State} {a} {a1} (h : s.canonical) : (s.tableWords a a1).2.canonical := by
  induction a generalizing s a1 with
  | zero => exact h
  | succ n ih =>
    unfold State.tableWords
    split
    · next hf => exact canonical_of_snd hf (State.fetchPacket_canonical h)
    · next hf =>
      have hs := canonical_of_snd hf (State.fetchPacket_canonical h)
      split
      · next ht => exact canonical_of_snd ht (ih hs)
      · next ht => exact canonical_of_snd ht (ih hs)

theorem execBrt_canonical {a} {n} {s : State} (h : s.canonical) : answersCanonical (execBrt a n s) := by
  unfold execBrt
  refine accept_canonical h (fun _ h1 => ?_)
  dsimp only
  split
  · next h2 =>
      exact State.trap_canonical (canonical_of_snd h2 (State.tableWords_canonical h1))
  · next h3 =>
      exact answersCanonical_ite (State.illegal_canonical (canonical_of_snd h3 (State.tableWords_canonical h1))) (answersCanonical_ite
        (State.abortTx_canonical (canonical_of_snd h3 (State.tableWords_canonical h1))) (State.divide_canonical (canonical_of_snd h3
        (State.tableWords_canonical h1))))

theorem State.arrive_canonical {s : State} {n} {b} {f} (h : s.canonical) : (s.arrive n b f).canonical :=
  State.rejoinUpdate_canonical (State.updHere_canonical (State.endRun_canonical h) (fun _ h1 => Column.setWarp_canonical
    (Column.settleRegions_canonical (Column.setWarp_canonical h1))))

theorem State.closeOwn_canonical {s : State} {f} (h : s.canonical) : (s.closeOwn f).canonical :=
  State.setStack_canonical (State.updPath_canonical h)

theorem execJoin_canonical {s : State} (h : s.canonical) : answersCanonical (execJoin s) := by
  unfold execJoin
  refine accept_canonical h (fun _ h1 => ?_)
  split
  · exact h1
  · refine answersCanonical_ite h1 ?_
    split
    · next h2 =>
        exact State.bankWait_canonical h1 h2
    · split
      · exact State.arrive_canonical h1
      · exact answersCanonical_ite (State.updHere_canonical h1 (fun _ h3 => Column.setCtx_canonical h3)) (State.closeOwn_canonical h1)
      · exact State.closeOwn_canonical h1

theorem State.waitFor_canonical {s : State} {done} {w} (h : s.canonical) : (s.waitFor done w).canonical :=
  State.ite_canonical (State.endRun_canonical h) (State.holdAt_canonical h)

theorem execWaitL_canonical {a} {s : State} (h : s.canonical) : answersCanonical (execWaitL a s) := by
  unfold execWaitL
  refine accept_canonical h (fun _ h1 => ?_)
  refine answersCanonical_ite (State.illegal_canonical h1) ?_
  dsimp only
  split
  · exact answersCanonical_ite (State.waitFor_canonical h1) (State.raiseErred_canonical h1)
  · exact State.waitFor_canonical h1

theorem execWaitM_canonical {a} {s : State} (h : s.canonical) : answersCanonical (execWaitM a s) := by
  unfold execWaitM
  refine accept_canonical h (fun _ h1 => ?_)
  dsimp only
  split
  · exact answersCanonical_ite (State.waitFor_canonical h1) (State.raiseErred_canonical h1)
  · exact State.waitFor_canonical h1

theorem execSleep_canonical {a} {s : State} (h : s.canonical) : answersCanonical (execSleep a s) :=
  accept_canonical h (fun _ h1 => answersCanonical_next (State.ite_canonical (State.endRun_canonical h1) (State.endRun_canonical
    (State.updPath_canonical h1))))

theorem execNop_canonical {s : State} (h : s.canonical) : answersCanonical (execNop s) :=
  accept_canonical h (fun _ h1 => h1)

theorem execYield_canonical {s : State} (h : s.canonical) : answersCanonical (execYield s) := by
  unfold execYield
  refine accept_canonical h (fun _ h1 => ?_)
  split
  · exact State.endRun_canonical (State.updPath_canonical h1)
  · exact h1

theorem execBrk_canonical {t} {s : State} (h : s.canonical) : answersCanonical (execBrk t s) :=
  accept_canonical h (fun _ h1 => State.raise_canonical h1)

theorem execTrap_canonical {i} {s : State} (h : s.canonical) : answersCanonical (execTrap i s) :=
  accept_canonical h (fun _ h1 => State.raise_canonical h1)

/-! ## MemCore -/

theorem Column.storeHome_canonical {x : Column} {line} {l} (h : x.canonical) : (x.storeHome line l).canonical :=
  Column.clearMarks_canonical (Column.foldl_canonical (fun _ _ h1 => Column.putBytes_canonical h1) h)

theorem Column.performL1_canonical {x : Column} {m} {line} {hit} (h : x.canonical) : (x.performL1 m line hit).1.canonical := by
  unfold Column.performL1
  dsimp only
  split
  · dsimp only
    split
    · exact Column.setL1_canonical h
    · exact h
  · dsimp only
    split
    · exact Column.setL1_canonical h
    · exact h
  · dsimp only
    refine Column.storeHome_canonical ?_
    split
    · exact Column.setL1_canonical h
    · exact h
  · exact h

theorem Column.performRed_canonical {x : Column} {m} {op} {line} (h : x.canonical) : (x.performRed m op line).1.canonical := by
  unfold Column.performRed
  dsimp only
  refine Column.setL1_canonical ?_
  split
  · split
    · exact h
    · exact Column.evictL1_canonical h
  · exact Column.evictL1_canonical (Column.l1Victim_canonical h)

theorem Column.performBay_canonical {x : Column} {free} {m} {line} (h : x.canonical) : (x.performBay free m line).1.canonical := by
  have hs {y : Column} {ln} (hy : y.canonical) : ((y.recallU free ln).settleLine free m.cache ln).canonical :=
    Column.settleLine_canonical (Column.recallU_canonical hy)
  unfold Column.performBay
  extract_lets go m' settle y
  have hy : y.canonical := hs h
  clear_value y
  split
  · extract_lets z
    have hz : z.canonical := Column.foldl_canonical (fun _ _ hz => hs hz) hy
    clear_value z
    split
    · exact hz
    · exact hz
    · exact Column.aliasWrite_canonical hz
    · exact hz
  · have hone {op ret} {acc : Column × MemOp} {a : Acc} (ha : acc.1.canonical) : (if acc.1.isBad a ∧ ret = true then
        (acc.1, { acc.2 with bad := acc.2.bad ||| (1#32 <<< a.lane) })
      else (acc.1.storeHome line [{ a with x := a.apply op (natOfBytes (acc.1.bytesAt free a.pa a.size)) }],
        if ret = true then { acc.2 with got := acc.2.got ++ [(a.lane, natOfBytes (acc.1.bytesAt free a.pa a.size))] } else
          acc.2)).1.canonical := by
      split
      · exact ha
      · exact Column.storeHome_canonical ha
    split
    · exact Column.foldl_fst_canonical (fun _ _ ha => hone ha) hy
    · exact Column.foldl_fst_canonical (fun _ _ ha => hone ha) hy
    · exact Column.foldl_fst_canonical (fun _ _ ha => hone ha) hy
    · exact Column.storeHome_canonical hy
    · exact hy
    · exact hy

theorem Column.lastUse_canonical {x : Column} {cache} {line} (h : x.canonical) : (x.lastUse cache line).canonical := by
  unfold Column.lastUse
  refine Column.ite_canonical h ?_
  dsimp only
  refine Column.mk_canonical ?_
  refine Column.foldl_canonical (fun _ _ h1 => Column.updBay_canonical h1) ?_
  split
  · exact Column.setL1_canonical h
  · exact h

theorem Column.acquireAt_canonical {x : Column} {cache} {scope} (h : x.canonical) : (x.acquireAt cache scope).canonical :=
  Column.ite_canonical (Column.mk_canonical (Column.ite_canonical (Column.acquireL1_canonical h) h)) (Column.ite_canonical
    (Column.acquireL1_canonical h) h)

theorem Column.setHolds_canonical {x : Column} {w} {h} (hx : x.canonical) : (x.setHolds w h).canonical := by
  unfold Column.setHolds
  split
  · exact Column.setWarp_canonical hx
  · exact Column.setCtx_canonical hx
  · exact Column.mk_canonical hx
  · exact hx

theorem State.complete_canonical {s : State} {c} {m} (h : s.canonical) : (s.complete c m).canonical := by
  unfold State.complete
  dsimp only
  refine State.updCol_canonical (State.ite_canonical h (State.setThreadOf_canonical h)) (fun _ h1 => ?_)
  split
  · exact Column.setHolds_canonical (Column.acquireAt_canonical (Column.mk_canonical h1))
  · exact Column.mk_canonical h1

theorem State.afterPart_canonical {s : State} {c} {m} (h : s.canonical) : (s.afterPart c m).canonical :=
  State.ite_canonical (State.complete_canonical h) (State.updCol_canonical h (fun _ h1 => Column.mk_canonical h1))

theorem Column.askBay_canonical {x : Column} {m} {line} {due} {sectors} (h : x.canonical) : (x.askBay m line due sectors).canonical :=
  Column.updBay_canonical h

theorem Column.performHeld_canonical {x : Column} {m} {line} {hit} (h : x.canonical) : (x.performHeld m line hit).1.canonical :=
  Column.ite_canonical (Column.lastUse_canonical (Column.performL1_canonical h)) (Column.performL1_canonical h)

theorem State.storeLine_canonical {s : State} {c} {m} {line} {hit} (h : s.canonical) : (s.storeLine c m line hit).canonical :=
  State.ite_canonical (State.ite_canonical (State.afterPart_canonical (State.setCol_canonical h (Column.foldl_fst_canonical (fun _ _ h1 =>
    Column.performHeld_canonical (Column.ite_canonical h1 (Column.fillL1_canonical (Column.recallU_canonical h1)))) (State.col_canonical
    h)))) (State.afterPart_canonical (State.setCol_canonical h (Column.foldl_canonical (fun _ _ h2 => Column.askBay_canonical h2)
    (State.col_canonical h))))) (State.afterPart_canonical h)

theorem Column.takePort_canonical {x : Column} {cache} {clk} (h : x.canonical) : (x.takePort cache clk).2.canonical :=
  Column.mk_canonical h

theorem State.useL1_canonical {s : State} {c} {m} {line} {hit} (h : s.canonical) : (s.useL1 c m line hit).canonical := by
  unfold State.useL1
  dsimp only
  split
  · exact State.afterPart_canonical (State.setCol_canonical h (Column.ite_canonical (Column.lastUse_canonical (Column.performRed_canonical
      (State.col_canonical h))) (Column.performRed_canonical (State.col_canonical h))))
  · exact State.storeLine_canonical h
  · exact State.afterPart_canonical (State.setCol_canonical h (Column.performHeld_canonical (State.col_canonical h)))

theorem State.atL1_canonical {s : State} {c} {m} {line} {due} {missed} (h : s.canonical) : (s.atL1 c m line due missed).canonical :=
  State.ite_canonical (State.setCol_canonical h (Column.updBay_canonical (State.col_canonical h))) (State.ite_canonical
    (State.useL1_canonical h) (State.setCol_canonical h (Column.askBay_canonical (State.col_canonical h))))

theorem Column.noteWrites_canonical {x : Column} {m} (h : x.canonical) : (x.noteWrites m).canonical := by
  unfold Column.noteWrites
  split
  · exact Column.ite_canonical (Column.setCtx_canonical h) h
  · exact h

theorem State.startOp_canonical {s : State} {c} {m} (h : s.canonical) : (s.startOp c m).canonical := by
  unfold State.startOp
  dsimp only
  refine State.ite_canonical (State.complete_canonical (State.updCol_canonical h (fun _ h1 => Column.mk_canonical
    (Column.noteWrites_canonical h1)))) ?_
  refine State.foldl_canonical (fun _ _ h2 => ?_) (State.updCol_canonical h (fun _ h3 => Column.mk_canonical (Column.noteWrites_canonical
    h3)))
  split
  · exact h2
  · exact State.ite_canonical (State.setCol_canonical h2 (Column.askBay_canonical (Column.takePort_canonical (State.col_canonical h2))))
      (State.atL1_canonical (State.setCol_canonical h2 (Column.takePort_canonical (State.col_canonical h2))))

/-! ## Order -/

theorem State.runDeferred_canonical {a} {a1 : State} {a2} {a3} (h : a1.canonical) : (State.runDeferred a a1 a2 a3).canonical := by
  induction a generalizing a1 with
  | zero => exact h
  | succ n ih =>
    unfold State.runDeferred
    dsimp only
    split
    · exact h
    · have hs {m} {c} {x : Column} (hx : x.canonical) : ((a1.setCol c x).startOp c m).canonical :=
        State.startOp_canonical (State.setCol_canonical h hx)
      have ht {p : Prop} [Decidable p] {m} {c} {x : Column} (hx : x.canonical) : (if p then a1 else (a1.setCol c x).startOp c m).canonical
        :=
        State.ite_canonical h (hs hx)
      refine State.ite_canonical (ht ?_) (ih (State.updCol_canonical (ht ?_) fun _ hx => Column.setWarp_canonical hx)) <;>
        exact Column.setWarp_canonical (State.col_canonical h)

theorem State.performDeferred_canonical {s : State} {c} {n} (h : s.canonical) : (s.performDeferred c n).canonical :=
  State.ite_canonical h (State.ite_canonical (State.runDeferred_canonical h) h)

theorem State.passToken_canonical {s : State} {c} {n} (h : s.canonical) : (s.passToken c n).canonical := by
  unfold State.passToken
  dsimp only
  refine State.ite_canonical ?_ (State.performDeferred_canonical h)
  split
  · split
    · exact State.performDeferred_canonical (State.setNode_canonical (State.performDeferred_canonical h))
    · exact State.setNode_canonical (State.performDeferred_canonical h)
  · exact State.setNode_canonical (State.performDeferred_canonical h)

theorem State.releaseHost_canonical {s : State} (h : s.canonical) : s.releaseHost.2.canonical := by
  unfold State.releaseHost
  dsimp only
  split
  · exact State.foldl_canonical (fun _ _ h1 => State.updCol_canonical h1 (fun _ h2 => Column.updBay_canonical h2)) h
  · exact State.foldl_canonical (fun _ _ h3 => State.updCol_canonical h3 (fun _ h4 => Column.updBay_canonical h4)) h

theorem State.releaseFrom_canonical {s : State} {at_} {scope} (h : s.canonical) : (s.releaseFrom at_ scope).2.canonical := by
  unfold State.releaseFrom
  dsimp only
  split
  · exact h
  · split
    · exact h
    · split
      · split
        · split
          · exact State.performDeferred_canonical h
          · split
            · exact State.performDeferred_canonical h
            · split
              · next h1 =>
                  exact State.setCol_canonical (State.performDeferred_canonical h) (canonical_of_snd_snd h1 (Column.drain_canonical
                    (State.here_canonical (State.performDeferred_canonical h))))
              · next h2 =>
                  split
                  · exact State.setCol_canonical (State.performDeferred_canonical h) (canonical_of_snd_snd h2 (Column.drain_canonical
                      (State.here_canonical (State.performDeferred_canonical h))))
                  · exact State.releaseHost_canonical (State.setCol_canonical (State.performDeferred_canonical h) (canonical_of_snd_snd h2
                      (Column.drain_canonical (State.here_canonical (State.performDeferred_canonical h)))))
        · split
          · exact State.performDeferred_canonical h
          · split
            · exact State.performDeferred_canonical h
            · split
              · next h3 =>
                  exact State.setCol_canonical (State.performDeferred_canonical h) (canonical_of_snd_snd h3 (Column.drain_canonical
                    (State.here_canonical (State.performDeferred_canonical h))))
              · next h4 =>
                  split
                  · exact State.setCol_canonical (State.performDeferred_canonical h) (canonical_of_snd_snd h4 (Column.drain_canonical
                      (State.here_canonical (State.performDeferred_canonical h))))
                  · exact State.releaseHost_canonical (State.setCol_canonical (State.performDeferred_canonical h) (canonical_of_snd_snd h4
                      (Column.drain_canonical (State.here_canonical (State.performDeferred_canonical h)))))
        · split
          · exact h
          · split
            · exact h
            · split
              · next h5 =>
                  exact State.setCol_canonical h (canonical_of_snd_snd h5 (Column.drain_canonical (State.here_canonical h)))
              · next h6 =>
                  split
                  · exact State.setCol_canonical h (canonical_of_snd_snd h6 (Column.drain_canonical (State.here_canonical h)))
                  · exact State.releaseHost_canonical (State.setCol_canonical h (canonical_of_snd_snd h6 (Column.drain_canonical
                      (State.here_canonical h))))
      · split
        · split
          · exact State.performDeferred_canonical h
          · split
            · exact State.performDeferred_canonical h
            · split
              · next h7 =>
                  exact State.setCol_canonical (State.performDeferred_canonical h) (canonical_of_snd_snd h7 (Column.drain_canonical
                    (State.here_canonical (State.performDeferred_canonical h))))
              · next h8 =>
                  split
                  · exact State.setCol_canonical (State.performDeferred_canonical h) (canonical_of_snd_snd h8 (Column.drain_canonical
                      (State.here_canonical (State.performDeferred_canonical h))))
                  · exact State.releaseHost_canonical (State.setCol_canonical (State.performDeferred_canonical h) (canonical_of_snd_snd h8
                      (Column.drain_canonical (State.here_canonical (State.performDeferred_canonical h)))))
        · split
          · exact State.performDeferred_canonical h
          · split
            · exact State.performDeferred_canonical h
            · split
              · next h9 =>
                  exact State.setCol_canonical (State.performDeferred_canonical h) (canonical_of_snd_snd h9 (Column.drain_canonical
                    (State.here_canonical (State.performDeferred_canonical h))))
              · next h10 =>
                  split
                  · exact State.setCol_canonical (State.performDeferred_canonical h) (canonical_of_snd_snd h10 (Column.drain_canonical
                      (State.here_canonical (State.performDeferred_canonical h))))
                  · exact State.releaseHost_canonical (State.setCol_canonical (State.performDeferred_canonical h) (canonical_of_snd_snd h10
                      (Column.drain_canonical (State.here_canonical (State.performDeferred_canonical h)))))
        · split
          · exact h
          · split
            · exact h
            · split
              · next h11 =>
                  exact State.setCol_canonical h (canonical_of_snd_snd h11 (Column.drain_canonical (State.here_canonical h)))
              · next h12 =>
                  split
                  · exact State.setCol_canonical h (canonical_of_snd_snd h12 (Column.drain_canonical (State.here_canonical h)))
                  · exact State.releaseHost_canonical (State.setCol_canonical h (canonical_of_snd_snd h12 (Column.drain_canonical
                      (State.here_canonical h))))

theorem State.acquire_canonical {s : State} {scope} (h : s.canonical) : (s.acquire scope).canonical :=
  State.updHere_canonical h (fun _ h1 => Column.acquireAt_canonical h1)

theorem State.afterRelease_canonical {s : State} {scope} {run : State → Host.Outcome State Fault Refusal} (h : s.canonical) (hrun : ∀ (t :
    State), t.canonical → answersCanonical (run t)) : answersCanonical (s.afterRelease scope run) := by
  unfold State.afterRelease
  split
  · next h1 =>
      exact hrun _ (canonical_of_snd h1 (State.releaseFrom_canonical h))
  · next h2 =>
      exact State.blockAt_canonical (canonical_of_snd h2 (State.releaseFrom_canonical h))

theorem State.putHold_canonical {s : State} {h} {next} (hs : s.canonical) : (s.putHold h next).canonical :=
  State.updHere_canonical hs (fun _ h1 => Column.setHolds_canonical h1)

theorem State.settleHold_canonical {s : State} {h} (hs : s.canonical) : (s.settleHold h).canonical := by
  unfold State.settleHold
  split
  · split
    · exact State.raiseErred_canonical hs
    · split
      · next h1 =>
          exact State.putHold_canonical (State.acquire_canonical (canonical_of_snd h1 (State.releaseFrom_canonical hs)))
      · next h2 =>
          exact State.putHold_canonical (canonical_of_snd h2 (State.releaseFrom_canonical hs))
  · exact hs

theorem State.settleHolds_canonical {s : State} (h : s.canonical) : s.settleHolds.canonical :=
  State.foldl_canonical (fun _ _ h1 => State.settleHold_canonical h1) h

theorem State.addHold_canonical {s : State} {h} (hs : s.canonical) : (s.addHold h).canonical :=
  State.updHere_canonical hs (fun _ h1 => Column.setHolds_canonical h1)

/-! ## Memory -/

theorem State.checked_canonical {s : State} {n} {addrs} {run : List (ℕ × ℕ) → Bool → State → Host.Outcome State Fault Refusal} (h :
    s.canonical) (hrun : ∀ (a : List (ℕ × ℕ)) (a_1 : Bool) (t : State), t.canonical → answersCanonical (run a a_1 t)) : answersCanonical
    (s.checked n addrs run) := by
  unfold State.checked
  split
  · exact trivial
  · dsimp only
    split
    · exact State.abortTx_canonical (State.checkLanes_canonical h)
    · split
      · exact State.raise_canonical (State.checkLanes_canonical h)
      · exact hrun _ _ _ (State.checkLanes_canonical h)

theorem State.newOp_canonical {s : State} {kind} {accs} {ptrs} (h : s.canonical) : (s.newOp kind accs ptrs).2.canonical :=
  State.mk_canonical h

theorem State.pendVl_canonical {s : State} {regs} {value} {mem} (h : s.canonical) : (s.pendVl regs value mem).2.canonical :=
  State.mk_canonical (State.updThread_canonical h)

theorem State.vlResult_canonical {s : State} {regs} {w} {mem} (h : s.canonical) : (s.vlResult regs w mem).canonical :=
  State.pendVl_canonical h

theorem State.vlScalar_canonical {s : State} {d} {x} (h : s.canonical) : answersCanonical (s.vlScalar d x) :=
  answersCanonical_ite (State.vlResult_canonical h) (State.trap_canonical h)

theorem State.beginOp_canonical {s : State} {defers} {m} {s0 : State} (h : s.canonical) (hs0 : s0.canonical) : answersCanonical (s.beginOp
    defers m s0) :=
  answersCanonical_ite (answersCanonical_ite (State.blockAt_canonical hs0) (State.performDeferred_canonical (State.updWarp_canonical h)))
    (State.startOp_canonical h)

theorem State.txLoad_canonical {s : State} {t} {size} {signed} {dest} {addrs} {pas} (h : s.canonical) : answersCanonical (s.txLoad t size
    signed dest addrs pas) := by
  unfold State.txLoad
  dsimp only
  refine answersCanonical_ite (State.abortTx_canonical h) ?_
  refine answersCanonical_ite (State.blockAt_canonical h) ?_
  refine answersCanonical_ite (State.blockAt_canonical h) ?_
  split
  · exact State.abortTx_canonical h
  · exact State.vlResult_canonical (State.updWarp_canonical (State.setCol_canonical h (Column.foldl_canonical (fun _ _ h1 =>
      Column.settleLine_canonical (Column.recallU_canonical h1)) (State.here_canonical h))))

theorem State.txStore_canonical {s : State} {t} {size} {d} {pas} {shg} (h : s.canonical) : answersCanonical (s.txStore t size d pas shg) :=
  answersCanonical_ite (State.abortTx_canonical h) (State.updWarp_canonical h)

theorem State.loadWord_canonical {s : State} {size} {signed} {d} {a} {b} {acq} (h : s.canonical) : answersCanonical (s.loadWord size signed
    d a b acq) := by
  unfold State.loadWord
  refine State.checked_canonical h (fun _ _ _ h1 => ?_)
  dsimp only
  split
  · exact State.txLoad_canonical h1
  · refine answersCanonical_ite (State.blockAt_canonical h1) ?_
    refine answersCanonical_next ?_
    refine State.startOp_canonical ?_
    split
    · exact State.addHold_canonical (State.newOp_canonical (State.pendVl_canonical h1))
    · exact State.newOp_canonical (State.pendVl_canonical h1)

theorem execLd_canonical {d} {a} {b} {z} {s : State} (h : s.canonical) : answersCanonical (execLd d a b z s) :=
  accept_canonical h (fun _ h1 => State.loadWord_canonical h1)

theorem execLdsB_canonical {d} {a} {b} {s : State} (h : s.canonical) : answersCanonical (execLdsB d a b s) :=
  accept_canonical h (fun _ h1 => State.loadWord_canonical h1)

theorem execLdsH_canonical {d} {a} {b} {s : State} (h : s.canonical) : answersCanonical (execLdsH d a b s) :=
  accept_canonical h (fun _ h1 => State.loadWord_canonical h1)

theorem execLdQ_canonical {d} {a} {b} {s : State} (h : s.canonical) : answersCanonical (execLdQ d a b s) :=
  accept_canonical h (fun _ h1 => State.loadWord_canonical h1)

theorem execLdAcqW_canonical {d} {a} {b} {s : State} (h : s.canonical) : answersCanonical (execLdAcqW d a b s) :=
  accept_canonical h (fun _ h1 => outsideTx_canonical h1 (fun _ h2 => State.loadWord_canonical h2))

theorem execLdAcqD_canonical {d} {a} {b} {s : State} (h : s.canonical) : answersCanonical (execLdAcqD d a b s) :=
  accept_canonical h (fun _ h1 => outsideTx_canonical h1 (fun _ h2 => State.loadWord_canonical h2))

theorem State.storeWord_canonical {s : State} {size} {d} {a} {b} (h : s.canonical) : answersCanonical (s.storeWord size d a b) := by
  unfold State.storeWord
  refine State.checked_canonical h (fun _ _ _ h1 => ?_)
  split
  · exact answersCanonical_ite (State.blockAt_canonical h1) (State.txStore_canonical h1)
  · exact answersCanonical_ite (State.blockAt_canonical h1) (State.beginOp_canonical (State.newOp_canonical h1) h1)

theorem execSt_canonical {d} {a} {b} {z} {s : State} (h : s.canonical) : answersCanonical (execSt d a b z s) :=
  accept_canonical h (fun _ h1 => State.storeWord_canonical h1)

theorem execStQ_canonical {d} {a} {b} {s : State} (h : s.canonical) : answersCanonical (execStQ d a b s) :=
  accept_canonical h (fun _ h1 => State.storeWord_canonical h1)

theorem execStRelW_canonical {d} {a} {b} {s : State} (h : s.canonical) : answersCanonical (execStRelW d a b s) :=
  accept_canonical h (fun _ h1 => outsideTx_canonical h1 (fun _ h2 => State.afterRelease_canonical h2 (fun _ h3 => State.storeWord_canonical
    h3)))

theorem execStRelD_canonical {d} {a} {b} {s : State} (h : s.canonical) : answersCanonical (execStRelD d a b s) :=
  accept_canonical h (fun _ h1 => outsideTx_canonical h1 (fun _ h2 => State.afterRelease_canonical h2 (fun _ h3 => State.storeWord_canonical
    h3)))

theorem execSld_canonical {d} {a} {i} {s : State} (h : s.canonical) : answersCanonical (execSld d a i s) :=
  accept_canonical h (fun _ h1 => outsideTx_canonical h1 (fun _ h2 => answersCanonical_ite (State.checked_canonical h2 (fun _ _ _ h3 =>
    answersCanonical_ite (State.blockAt_canonical h3) (State.startOp_canonical (State.newOp_canonical (State.pendVl_canonical h3)))))
    (State.trap_canonical h2)))

theorem execSst_canonical {d} {a} {i} {s : State} (h : s.canonical) : answersCanonical (execSst d a i s) :=
  accept_canonical h (fun _ h1 => outsideTx_canonical h1 (fun _ h2 => State.checked_canonical h2 (fun _ _ _ h3 => answersCanonical_ite
    (State.blockAt_canonical h3) (State.beginOp_canonical (State.newOp_canonical h3) h3))))

theorem State.localChecked_canonical {s : State} {size} {a} {b} {run : List (ℕ × ℕ) → State → Host.Outcome State Fault Refusal} (h :
    s.canonical) (hrun : ∀ (a : List (ℕ × ℕ)) (t : State), t.canonical → answersCanonical (run a t)) : answersCanonical (s.localChecked size
    a b run) := by
  unfold State.localChecked
  split
  · exact trivial
  · exact answersCanonical_ite (State.abortTx_canonical h) (State.raise_canonical h)
  · exact hrun _ _ h

theorem State.updStore_canonical {s : State} {f : List Host.Cell → List Host.Cell} (h : s.canonical) : (s.updStore f).canonical :=
  State.updHere_canonical h (fun _ h1 => Column.setGroup_canonical h1)

theorem execLdl_canonical {d} {a} {b} {z} {s : State} (h : s.canonical) : answersCanonical (execLdl d a b z s) :=
  accept_canonical h (fun _ h1 => State.localChecked_canonical h1 (fun _ _ h2 => State.vlResult_canonical h2))

theorem execStl_canonical {d} {a} {b} {z} {s : State} (h : s.canonical) : answersCanonical (execStl d a b z s) :=
  accept_canonical h (fun _ h1 => State.localChecked_canonical h1 (fun _ _ h2 => State.updStore_canonical h2))

theorem State.looseLines_canonical {s : State} {n} {a} {b} {run : List (ℕ × ℕ) → State → Host.Outcome State Fault Refusal} (h : s.canonical)
    (hrun : ∀ (a : List (ℕ × ℕ)) (t : State), t.canonical → answersCanonical (run a t)) : answersCanonical (s.looseLines n a b run) := by
  unfold State.looseLines
  split
  · exact trivial
  · dsimp only
    split
    · exact State.raise_canonical (State.checkLanes_canonical h)
    · exact hrun _ _ (State.checkLanes_canonical h)

theorem execPf_canonical {a} {b} {s : State} (h : s.canonical) : answersCanonical (execPf a b s) :=
  accept_canonical h (fun _ h1 => answersCanonical_ite h1 (State.looseLines_canonical h1 (fun _ _ h2 => answersCanonical_ite
    (State.blockAt_canonical h2) (State.startOp_canonical (State.newOp_canonical h2)))))

theorem execFence_canonical {s : State} (h : s.canonical) : answersCanonical (execFence s) := by
  unfold execFence
  refine accept_canonical h (fun _ h1 => ?_)
  refine outsideTx_canonical h1 (fun _ h2 => ?_)
  dsimp only
  split
  · exact State.raiseErred_canonical h2
  · exact answersCanonical_next (State.ite_canonical h2 (State.settleHold_canonical (State.addHold_canonical h2)))

theorem Column.cleanLine_canonical {x : Column} {drop} {cache} {line} (h : x.canonical) : (x.cleanLine drop cache line).canonical := by
  unfold Column.cleanLine
  split
  · exact Column.ite_canonical (Column.setL1_canonical (Column.sendLine_canonical h)) (Column.setL1_canonical (Column.sendLine_canonical h))
  · exact h

theorem State.cacheWord_canonical {s : State} {drop} {a} {b} (h : s.canonical) : answersCanonical (s.cacheWord drop a b) :=
  State.looseLines_canonical h (fun _ _ h1 => answersCanonical_ite (answersCanonical_ite (State.blockAt_canonical h1) h1)
    (answersCanonical_ite (State.blockAt_canonical h1) (answersCanonical_ite (State.updHere_canonical h1 (fun _ h2 => Column.foldl_canonical
    (fun _ _ h3 => Column.cleanLine_canonical h3) h2)) (answersCanonical_ite (State.blockAt_canonical (State.updHere_canonical h1 (fun _ h4
    => Column.foldl_canonical (fun _ _ h5 => Column.cleanLine_canonical h5) h4))) (answersCanonical_ite (State.blockAt_canonical
    (State.updHere_canonical (State.updHere_canonical h1 (fun _ h6 => Column.foldl_canonical (fun _ _ h7 => Column.cleanLine_canonical h7)
    h6)) (fun _ h8 => Column.updBay_canonical h8))) (State.updHere_canonical (State.updHere_canonical h1 (fun _ h9 => Column.foldl_canonical
    (fun _ _ h10 => Column.cleanLine_canonical h10) h9)) (fun _ h11 => Column.updBay_canonical h11)))))))

theorem execCclean_canonical {a} {b} {s : State} (h : s.canonical) : answersCanonical (execCclean a b s) :=
  accept_canonical h (fun _ h1 => outsideTx_canonical h1 (fun _ h2 => State.cacheWord_canonical h2))

theorem execCinv_canonical {a} {b} {s : State} (h : s.canonical) : answersCanonical (execCinv a b s) :=
  accept_canonical h (fun _ h1 => outsideTx_canonical h1 (fun _ h2 => State.cacheWord_canonical h2))

/-! ## Atomics -/

theorem State.atomWord_canonical {s : State} {op} {d} {a} {b} (h : s.canonical) : answersCanonical (s.atomWord op d a b) :=
  outsideTx_canonical h (fun _ h1 => State.checked_canonical h1 (fun _ _ _ h2 => answersCanonical_ite (State.blockAt_canonical h2)
    (State.beginOp_canonical (State.newOp_canonical (State.pendVl_canonical h2)) h2)))

theorem execAtomAdd_canonical {d} {a} {b} {s : State} (h : s.canonical) : answersCanonical (execAtomAdd d a b s) :=
  accept_canonical h (fun _ h1 => State.atomWord_canonical h1)

theorem execAtomMin_canonical {d} {a} {b} {s : State} (h : s.canonical) : answersCanonical (execAtomMin d a b s) :=
  accept_canonical h (fun _ h1 => State.atomWord_canonical h1)

theorem execAtomMax_canonical {d} {a} {b} {s : State} (h : s.canonical) : answersCanonical (execAtomMax d a b s) :=
  accept_canonical h (fun _ h1 => State.atomWord_canonical h1)

theorem execAtomAnd_canonical {d} {a} {b} {s : State} (h : s.canonical) : answersCanonical (execAtomAnd d a b s) :=
  accept_canonical h (fun _ h1 => State.atomWord_canonical h1)

theorem execAtomOr_canonical {d} {a} {b} {s : State} (h : s.canonical) : answersCanonical (execAtomOr d a b s) :=
  accept_canonical h (fun _ h1 => State.atomWord_canonical h1)

theorem execAtomXor_canonical {d} {a} {b} {s : State} (h : s.canonical) : answersCanonical (execAtomXor d a b s) :=
  accept_canonical h (fun _ h1 => State.atomWord_canonical h1)

theorem execAtomXchg_canonical {d} {a} {b} {s : State} (h : s.canonical) : answersCanonical (execAtomXchg d a b s) :=
  accept_canonical h (fun _ h1 => State.atomWord_canonical h1)

theorem execAtomCas_canonical {d} {a} {b} {s : State} (h : s.canonical) : answersCanonical (execAtomCas d a b s) :=
  accept_canonical h (fun _ h1 => State.atomWord_canonical h1)

theorem execAtomMinu_canonical {d} {a} {b} {s : State} (h : s.canonical) : answersCanonical (execAtomMinu d a b s) :=
  accept_canonical h (fun _ h1 => State.atomWord_canonical h1)

theorem execAtomMaxu_canonical {d} {a} {b} {s : State} (h : s.canonical) : answersCanonical (execAtomMaxu d a b s) :=
  accept_canonical h (fun _ h1 => State.atomWord_canonical h1)

theorem execAtomInc_canonical {d} {a} {b} {s : State} (h : s.canonical) : answersCanonical (execAtomInc d a b s) :=
  accept_canonical h (fun _ h1 => State.atomWord_canonical h1)

theorem execAtomDec_canonical {d} {a} {b} {s : State} (h : s.canonical) : answersCanonical (execAtomDec d a b s) :=
  accept_canonical h (fun _ h1 => State.atomWord_canonical h1)

theorem execAtomFadd_canonical {d} {a} {b} {s : State} (h : s.canonical) : answersCanonical (execAtomFadd d a b s) :=
  accept_canonical h (fun _ h1 => State.atomWord_canonical h1)

theorem execAtomFmin_canonical {d} {a} {b} {s : State} (h : s.canonical) : answersCanonical (execAtomFmin d a b s) :=
  accept_canonical h (fun _ h1 => State.atomWord_canonical h1)

theorem execAtomFmax_canonical {d} {a} {b} {s : State} (h : s.canonical) : answersCanonical (execAtomFmax d a b s) :=
  accept_canonical h (fun _ h1 => State.atomWord_canonical h1)

theorem execAtomAdd64_canonical {d} {a} {b} {s : State} (h : s.canonical) : answersCanonical (execAtomAdd64 d a b s) :=
  accept_canonical h (fun _ h1 => State.atomWord_canonical h1)

theorem State.atomLocal_canonical {s : State} {op} {d} {a} {b} (h : s.canonical) : answersCanonical (s.atomLocal op d a b) :=
  State.localChecked_canonical h (fun _ _ h1 => State.vlResult_canonical (State.updStore_canonical h1))

theorem execAtomlAdd_canonical {d} {a} {b} {s : State} (h : s.canonical) : answersCanonical (execAtomlAdd d a b s) :=
  accept_canonical h (fun _ h1 => State.atomLocal_canonical h1)

theorem execAtomlMin_canonical {d} {a} {b} {s : State} (h : s.canonical) : answersCanonical (execAtomlMin d a b s) :=
  accept_canonical h (fun _ h1 => State.atomLocal_canonical h1)

theorem execAtomlMax_canonical {d} {a} {b} {s : State} (h : s.canonical) : answersCanonical (execAtomlMax d a b s) :=
  accept_canonical h (fun _ h1 => State.atomLocal_canonical h1)

theorem execAtomlCas_canonical {d} {a} {b} {s : State} (h : s.canonical) : answersCanonical (execAtomlCas d a b s) :=
  accept_canonical h (fun _ h1 => State.atomLocal_canonical h1)

theorem State.redWord_canonical {s : State} {op} {d} {a} {b} (h : s.canonical) : answersCanonical (s.redWord op d a b) :=
  outsideTx_canonical h (fun _ h1 => State.checked_canonical h1 (fun _ _ _ h2 => answersCanonical_ite (State.blockAt_canonical h2)
    (State.beginOp_canonical (State.newOp_canonical h2) h2)))

theorem execRedAdd_canonical {d} {a} {b} {s : State} (h : s.canonical) : answersCanonical (execRedAdd d a b s) :=
  accept_canonical h (fun _ h1 => State.redWord_canonical h1)

theorem execRedMin_canonical {d} {a} {b} {s : State} (h : s.canonical) : answersCanonical (execRedMin d a b s) :=
  accept_canonical h (fun _ h1 => State.redWord_canonical h1)

theorem execRedMax_canonical {d} {a} {b} {s : State} (h : s.canonical) : answersCanonical (execRedMax d a b s) :=
  accept_canonical h (fun _ h1 => State.redWord_canonical h1)

theorem execRedFadd_canonical {d} {a} {b} {s : State} (h : s.canonical) : answersCanonical (execRedFadd d a b s) :=
  accept_canonical h (fun _ h1 => State.redWord_canonical h1)

theorem State.redBayWord_canonical {s : State} {op} {d} {a} {b} (h : s.canonical) : answersCanonical (s.redBayWord op d a b) :=
  outsideTx_canonical h (fun _ h1 => State.checked_canonical h1 (fun _ _ _ h2 => answersCanonical_ite (State.blockAt_canonical h2)
    (State.beginOp_canonical (State.newOp_canonical h2) h2)))

theorem execRedBayAdd_canonical {d} {a} {b} {s : State} (h : s.canonical) : answersCanonical (execRedBayAdd d a b s) :=
  accept_canonical h (fun _ h1 => State.redBayWord_canonical h1)

theorem execRedBayMin_canonical {d} {a} {b} {s : State} (h : s.canonical) : answersCanonical (execRedBayMin d a b s) :=
  accept_canonical h (fun _ h1 => State.redBayWord_canonical h1)

theorem execRedBayMax_canonical {d} {a} {b} {s : State} (h : s.canonical) : answersCanonical (execRedBayMax d a b s) :=
  accept_canonical h (fun _ h1 => State.redBayWord_canonical h1)

theorem execRedBayFadd_canonical {d} {a} {b} {s : State} (h : s.canonical) : answersCanonical (execRedBayFadd d a b s) :=
  accept_canonical h (fun _ h1 => State.redBayWord_canonical h1)

/-! ## Sync -/

theorem Column.setBarrier_canonical {x : Column} {i} {b} (h : x.canonical) : (x.setBarrier i b).canonical :=
  Column.mk_canonical h

theorem Column.mapWaits_canonical {x : Column} {f : Wait → Wait} (h : x.canonical) : (x.mapWaits f).canonical :=
  Column.mk_canonical h

theorem Column.testBarrier_canonical {x : Column} {i} (h : x.canonical) : (x.testBarrier i).canonical :=
  Column.ite_canonical h (Column.ite_canonical (Column.mapWaits_canonical (Column.setBarrier_canonical h)) (Column.ite_canonical
    (Column.count_canonical (Column.mapWaits_canonical (Column.setBarrier_canonical h))) h))

theorem Column.arriveBarrier_canonical {x : Column} {i} (h : x.canonical) : (x.arriveBarrier i).canonical :=
  Column.ite_canonical (Column.testBarrier_canonical (Column.setBarrier_canonical h)) h

theorem Column.deliver_canonical {x : Column} {i} {n} (h : x.canonical) : (x.deliver i n).canonical :=
  Column.ite_canonical (Column.ite_canonical (Column.testBarrier_canonical (Column.setBarrier_canonical h)) (Column.setBarrier_canonical h))
    h

theorem Column.freeBarrier_canonical {x : Column} {i} (h : x.canonical) : (x.freeBarrier i).canonical :=
  Column.mapWaits_canonical (Column.setBarrier_canonical h)

theorem Column.newBarrier_canonical {x : Column} {entry} {offset} {atgt} {xb} (h : x.canonical) {t}
    (ht : x.newBarrier entry offset atgt xb = some t) : t.2.canonical := by
  unfold Column.newBarrier at ht
  split at ht
  · cases ht
  · cases ht
    exact Column.setBarrier_canonical h

theorem Column.newBarrier_getD_canonical {x y : Column} {entry} {offset} {atgt} {xb} {a} (h : x.canonical) (hy : y.canonical) :
    ((x.newBarrier entry offset atgt xb).getD (a, y)).2.canonical := by
  cases ht : x.newBarrier entry offset atgt xb with
  | none => exact hy
  | some t => exact Column.newBarrier_canonical h ht

theorem State.barTrap_canonical {s : State} {c} {h} (hs : s.canonical) : (s.barTrap c h).canonical :=
  State.raise_canonical hs

theorem State.withBarrier_canonical {s : State} {h} {run} (hs : s.canonical) (hrun : answersCanonical run) : answersCanonical (s.withBarrier
    h run) :=
  answersCanonical_ite (State.barTrap_canonical hs) (answersCanonical_ite (State.barTrap_canonical hs) hrun)

theorem State.onCore_canonical {s : State} {run} (h : s.canonical) (hrun : answersCanonical run) : answersCanonical (s.onCore run) := by
  unfold State.onCore
  split
  · exact hrun
  · exact State.trap_canonical h

theorem execBnew_canonical {d} {a} {b} {s : State} (h : s.canonical) : answersCanonical (execBnew d a b s) := by
  unfold execBnew
  refine accept_canonical h (fun _ h1 => ?_)
  refine outsideTx_canonical h1 (fun _ h2 => ?_)
  dsimp only
  refine answersCanonical_ite (State.trap_canonical h2) ?_
  refine answersCanonical_ite (State.raise_canonical h2) ?_
  refine answersCanonical_ite (State.raise_canonical h2) ?_
  refine answersCanonical_ite (State.trap_canonical h2) ?_
  split
  · exact State.trap_canonical h2
  · next h3 =>
      exact State.vlScalar_canonical (State.setCol_canonical h2 (Column.newBarrier_canonical (State.here_canonical h2) h3))

theorem execBfree_canonical {a} {s : State} (h : s.canonical) : answersCanonical (execBfree a s) :=
  accept_canonical h (fun _ h1 => outsideTx_canonical h1 (fun _ h2 => answersCanonical_ite (State.barTrap_canonical h2)
    (answersCanonical_ite (State.blockAt_canonical h2) (State.updHere_canonical h2 (fun _ h3 => Column.freeBarrier_canonical h3)))))

theorem execBexp_canonical {a} {b} {s : State} (h : s.canonical) : answersCanonical (execBexp a b s) :=
  accept_canonical h (fun _ h1 => outsideTx_canonical h1 (fun _ h2 => State.withBarrier_canonical h2 (answersCanonical_ite
    (State.barTrap_canonical h2) (State.updHere_canonical h2 (fun _ h3 => Column.testBarrier_canonical (Column.setBarrier_canonical h3))))))

theorem execBarr_canonical {d} {a} {s : State} (h : s.canonical) : answersCanonical (execBarr d a s) :=
  accept_canonical h (fun _ h1 => outsideTx_canonical h1 (fun _ h2 => State.onCore_canonical h2 (answersCanonical_ite (State.trap_canonical
    h2) (State.withBarrier_canonical h2 (State.afterRelease_canonical h2 (fun _ h3 => State.vlScalar_canonical (State.updHere_canonical h3
    (fun _ h4 => Column.arriveBarrier_canonical h4))))))))

theorem State.waitBarrier_canonical {s : State} {h} {gen} {target} (hs : s.canonical) : answersCanonical (s.waitBarrier h gen target) := by
  unfold State.waitBarrier
  split
  · exact State.endRun_canonical (State.acquire_canonical hs)
  · exact State.barTrap_canonical hs
  · refine State.withBarrier_canonical hs ?_
    dsimp only
    refine answersCanonical_ite (State.blockAt_canonical (State.ite_canonical (State.passToken_canonical hs) hs)) ?_
    split
    · exact State.endRun_canonical (State.acquire_canonical (State.ite_canonical (State.passToken_canonical hs) hs))
    · exact State.holdAt_canonical (State.ite_canonical (State.passToken_canonical hs) hs)

theorem execBwait_canonical {a} {s : State} (h : s.canonical) : answersCanonical (execBwait a s) :=
  accept_canonical h (fun _ h1 => outsideTx_canonical h1 (fun _ h2 => State.waitBarrier_canonical h2))

theorem execBwaitg_canonical {a} {b} {s : State} (h : s.canonical) : answersCanonical (execBwaitg a b s) :=
  accept_canonical h (fun _ h1 => outsideTx_canonical h1 (fun _ h2 => State.waitBarrier_canonical h2))

theorem execBtest_canonical {d} {a} {s : State} (h : s.canonical) : answersCanonical (execBtest d a s) :=
  accept_canonical h (fun _ h1 => outsideTx_canonical h1 (fun _ h2 => State.vlScalar_canonical h2))

theorem Column.setCmd_canonical {x : Column} {k} (h : x.canonical) : (x.setCmd k).canonical :=
  Column.mk_canonical h

theorem Column.mapHandles_canonical {x : Column} {f : Handle → Handle} (h : x.canonical) : (x.mapHandles f).canonical :=
  Column.mk_canonical h

theorem State.mapSaved_canonical {s : State} {f : Saved → Saved} (h : s.canonical) : (s.mapSaved f).canonical :=
  State.mk_canonical h

theorem State.setFuture_canonical {s : State} {c} {id} {f : Handle → Handle} (h : s.canonical) : (s.setFuture c id f).canonical :=
  State.mapSaved_canonical (State.updCol_canonical h (fun _ h1 => Column.mapHandles_canonical h1))

theorem State.dropClaims_canonical {s : State} {id} (h : s.canonical) : (s.dropClaims id).canonical :=
  State.mapCols_canonical h fun _ _ hx => Column.updBay_canonical hx

theorem Column.unbindQueues_canonical {x : Column} (h : x.canonical) : x.unbindQueues.canonical :=
  Column.mk_canonical h

theorem Column.dropClaimHold_canonical {x : Column} {id} (h : x.canonical) : (x.dropClaimHold id).canonical :=
  Column.mk_canonical h

theorem State.dropCommand_canonical {s : State} {c} {id} {f : Handle → Handle} (h : s.canonical) : (s.dropCommand c id f).canonical :=
  State.setFuture_canonical (State.updCol_canonical (State.dropClaims_canonical h) (fun _ h1 => Column.dropClaimHold_canonical
    (Column.unbindQueues_canonical (Column.mk_canonical h1))))

theorem State.cancelCommand_canonical {s : State} {c} {id} (h : s.canonical) : (s.cancelCommand c id).canonical := by
  unfold State.cancelCommand
  split
  · exact State.setFuture_canonical h
  · exact State.ite_canonical (State.dropCommand_canonical h) (State.updCol_canonical h (fun _ h1 => Column.setCmd_canonical h1))

theorem State.setHandle_canonical {s : State} {i} {h} (hs : s.canonical) : (s.setHandle i h).canonical :=
  State.updWarp_canonical hs

theorem State.unlessPending_canonical {s : State} {i} {run : State → Host.Outcome State Fault Refusal} (h : s.canonical) (hrun : ∀ (t :
    State), t.canonical → answersCanonical (run t)) : answersCanonical (s.unlessPending i run) :=
  answersCanonical_ite (State.blockAt_canonical h) (hrun _ h)

theorem State.takeHandle_canonical {s : State} {i} (h : s.canonical) : (s.takeHandle i).canonical :=
  State.ite_canonical (State.cancelCommand_canonical h) h

theorem execHwait_canonical {a} {s : State} (h : s.canonical) : answersCanonical (execHwait a s) := by
  unfold execHwait
  refine accept_canonical h (fun _ h1 => ?_)
  refine outsideTx_canonical h1 (fun _ h2 => ?_)
  dsimp only
  split
  · exact State.holdAt_canonical h2
  · exact State.endRun_canonical (State.setHandle_canonical (State.acquire_canonical h2))
  · exact State.raise_canonical h2
  · exact State.endRun_canonical h2

theorem execHtest_canonical {d} {a} {s : State} (h : s.canonical) : answersCanonical (execHtest d a s) :=
  accept_canonical h (fun _ h1 => outsideTx_canonical h1 (fun _ h2 => State.vlScalar_canonical h2))

theorem execHcancel_canonical {a} {s : State} (h : s.canonical) : answersCanonical (execHcancel a s) :=
  accept_canonical h (fun _ h1 => outsideTx_canonical h1 (fun _ h2 => answersCanonical_ite h2 (answersCanonical_ite
    (State.setHandle_canonical h2) (answersCanonical_ite (State.blockAt_canonical (State.cancelCommand_canonical h2))
    (State.setHandle_canonical (State.cancelCommand_canonical h2))))))

theorem execHget_canonical {d} {a} {s : State} (h : s.canonical) : answersCanonical (execHget d a s) := by
  unfold execHget
  refine accept_canonical h (fun _ h1 => ?_)
  refine outsideTx_canonical h1 (fun _ h2 => ?_)
  dsimp only
  refine answersCanonical_ite (State.trap_canonical h2) ?_
  refine answersCanonical_ite (State.vlScalar_canonical h2) ?_
  split
  · exact State.blockAt_canonical h2
  · exact State.vlScalar_canonical (State.updHere_canonical (State.setHandle_canonical h2) (fun _ h3 => Column.setGroup_canonical h3))

theorem execHput_canonical {d} {a} {s : State} (h : s.canonical) : answersCanonical (execHput d a s) := by
  unfold execHput
  refine accept_canonical h (fun _ h1 => ?_)
  refine outsideTx_canonical h1 (fun _ h2 => ?_)
  dsimp only
  refine State.unlessPending_canonical h2 (fun _ h3 => ?_)
  refine answersCanonical_ite (State.setHandle_canonical (State.takeHandle_canonical h3)) ?_
  split
  · exact State.trap_canonical h3
  · exact State.updHere_canonical (State.setHandle_canonical (State.takeHandle_canonical h3)) (fun _ h4 => Column.mk_canonical
      (Column.setGroup_canonical h4))

theorem execTokwait_canonical {s : State} (h : s.canonical) : answersCanonical (execTokwait s) :=
  accept_canonical h (fun _ h1 => outsideTx_canonical h1 (fun _ h2 => answersCanonical_ite h2 (answersCanonical_ite (State.endRun_canonical
    (State.acquire_canonical h2)) (State.holdAt_canonical h2))))

theorem execTokpass_canonical {s : State} (h : s.canonical) : answersCanonical (execTokpass s) :=
  accept_canonical h (fun _ h1 => outsideTx_canonical h1 (fun _ h2 => answersCanonical_ite h2 (State.afterRelease_canonical h2 (fun _ h3 =>
    State.passToken_canonical h3))))

/-! ## HostOps -/

theorem HostSide.setFn_canonical {h : HostSide} {n} {f} (hh : h.canonical) : (h.setFn n f).canonical :=
  HostSide.mk_canonical hh

theorem HostSide.sendVector_canonical {h : HostSide} {fn} {v} (hh : h.canonical) : (h.sendVector fn v).canonical :=
  HostSide.ite_canonical (HostSide.mk_canonical hh) hh

theorem HostSide.flush_canonical {a} {a1 : HostSide} (h : a1.canonical) : (HostSide.flush a a1).canonical := by
  induction a generalizing a1 with
  | zero => exact h
  | succ n ih =>
    unfold HostSide.flush
    split
    · exact h
    · exact HostSide.ite_canonical h (ih (HostSide.sendVector_canonical (HostSide.mk_canonical
        (HostSide.write_canonical (HostSide.mk_canonical h)))))

theorem HostSide.send_canonical {h : HostSide} {m} (hh : h.canonical) : (h.send m).canonical :=
  HostSide.flush_canonical (HostSide.mk_canonical hh)

theorem State.event_canonical {s : State} {e} {column} {count} (h : s.canonical) : (s.event e column count).canonical :=
  State.mk_host_canonical h (HostSide.send_canonical (HostSide.mk_canonical (State.host_canonical h)))

theorem HostSide.putReport_canonical {h : HostSide} {fn} {b} (hh : h.canonical) : (h.putReport fn b).canonical :=
  HostSide.ite_canonical (HostSide.sendVector_canonical (HostSide.setFn_canonical (HostSide.write_canonical hh))) (HostSide.setFn_canonical
    (HostSide.write_canonical hh))

theorem State.giveReport_canonical {s : State} {fn} {b} (h : s.canonical) : (s.giveReport fn b).canonical :=
  State.ite_canonical (State.mk_host_canonical h (HostSide.putReport_canonical (State.host_canonical h))) (State.ite_canonical
    (State.mk_host_canonical h (HostSide.setFn_canonical (State.host_canonical h))) (State.event_canonical (State.mk_host_canonical h
    (HostSide.mk_canonical (State.host_canonical h)))))

theorem HostSide.ringDone_canonical {h : HostSide} {fn} {idx} {vector} {status} (hh : h.canonical) : (h.ringDone fn idx vector
    status).canonical :=
  HostSide.ite_canonical hh (HostSide.ite_canonical (HostSide.setFn_canonical (HostSide.write_canonical hh)) (HostSide.sendVector_canonical
    (HostSide.setFn_canonical (HostSide.write_canonical hh))))

theorem State.deliver_canonical {s : State} {p} (h : s.canonical) : (s.deliver p).canonical := by
  unfold State.deliver
  split
  · exact State.mk_host_canonical h (HostSide.ringDone_canonical (State.host_canonical h))
  · exact State.giveReport_canonical h

theorem State.post_canonical {s : State} {cols} {p} (h : s.canonical) : (s.post cols p).canonical :=
  State.ite_canonical (State.deliver_canonical (State.foldl_canonical (fun _ _ h1 => State.updCol_canonical h1 (fun _ h2 =>
    Column.updBay_canonical h2)) h)) (State.mk_host_canonical (State.foldl_canonical (fun _ _ h3 => State.updCol_canonical h3 (fun _ h4 =>
    Column.updBay_canonical h4)) h) (HostSide.mk_canonical (State.host_canonical (State.foldl_canonical (fun _ _ h5 =>
    State.updCol_canonical h5 (fun _ h6 => Column.updBay_canonical h6)) h))))

theorem State.acknowledged_canonical {s : State} {c} {line} (h : s.canonical) : (s.acknowledged c line).canonical :=
  State.foldl_canonical (fun _ _ h1 => State.deliver_canonical h1) (State.mk_host_canonical h (HostSide.mk_canonical (State.host_canonical
    h)))

theorem State.report_canonical {s : State} {fn} {r} (h : s.canonical) : (s.report fn r).canonical :=
  State.post_canonical h

theorem HostSide.drainKept_canonical {a} {a1 : HostSide} {a2} (h : a1.canonical) : (HostSide.drainKept a a1 a2).canonical := by
  induction a generalizing a1 with
  | zero => exact h
  | succ n ih =>
    unfold HostSide.drainKept
    dsimp only
    split
    · exact h
    · exact HostSide.ite_canonical h (ih (HostSide.putReport_canonical (HostSide.setFn_canonical h)))

/-! ## Groups -/

theorem State.trimCredits_canonical {s : State} {c} (h : s.canonical) : (s.trimCredits c).canonical :=
  State.foldl_canonical (fun _ _ h1 => State.updCol_canonical h1 (fun _ h2 => Column.setQuarter_canonical h2)) h

theorem State.loadCredits_canonical {s : State} {c} {before : Column} (h : s.canonical) : (s.loadCredits c before).canonical :=
  State.foldl_canonical (fun _ _ h1 => State.ite_canonical (State.updCol_canonical h1 (fun _ h2 => Column.setQuarter_canonical h2)) h1) h

theorem Column.clearSlot_canonical {x : Column} {n} (h : x.canonical) : (x.clearSlot n).canonical :=
  Column.mk_canonical (Column.updBay_canonical (Column.endRun_canonical h))

theorem State.releaseShare_canonical {s : State} {c} {launch} (h : s.canonical) : (s.releaseShare c launch).canonical :=
  State.ite_canonical h (State.updCol_canonical (State.ite_canonical (State.setNode_canonical h) h) (fun _ h1 => Column.mk_canonical h1))

theorem State.leaveCore_canonical {s : State} {c} {entry} (h : s.canonical) : (s.leaveCore c entry).canonical :=
  State.releaseShare_canonical (State.trimCredits_canonical (State.updCol_canonical (State.foldl_canonical (fun _ _ h1 =>
    State.ite_canonical (State.dropCommand_canonical h1) (State.updCol_canonical h1 (fun _ h2 => Column.setCmd_canonical h2))) h) (fun _ h3
    => Column.mk_canonical (Column.foldl_canonical (fun _ _ h4 => Column.ite_canonical (Column.freeBarrier_canonical h4) h4)
    (Column.foldl_canonical (fun _ _ h5 => Column.clearSlot_canonical h5) h3)))))

theorem State.setGroupState_canonical {s : State} {node} {gid} {g} (h : s.canonical) : (s.setGroupState node gid g).canonical :=
  State.setNode_canonical h

theorem State.fixToken_canonical {s : State} {node} {c} (h : s.canonical) : (s.fixToken node c).canonical := by
  unfold State.fixToken
  dsimp only
  split
  · exact h
  · refine State.ite_canonical h ?_
    split
    · exact State.performDeferred_canonical (State.setNode_canonical h)
    · exact State.setNode_canonical h

theorem State.dropSaved_canonical {s : State} {c} {v} (h : s.canonical) : (s.dropSaved c v).canonical :=
  State.updCol_canonical (State.foldl_canonical (fun _ _ h1 => State.dropClaims_canonical h1) h) (fun _ h2 => Column.mk_canonical h2)

theorem State.startToken_canonical {s : State} {node} {c} (h : s.canonical) : (s.startToken node c).canonical := by
  unfold State.startToken
  dsimp only
  refine State.ite_canonical ?_ h
  split
  · exact State.setNode_canonical h
  · exact h

theorem State.endGroup_canonical {s : State} {node} {gid} (h : s.canonical) : (s.endGroup node gid).canonical := by
  unfold State.endGroup
  dsimp only
  refine State.fixToken_canonical ?_
  refine State.setGroupState_canonical ?_
  split
  · exact State.leaveCore_canonical h
  · split
    · exact State.dropSaved_canonical h
    · exact h

theorem State.finishLaunch_canonical {s : State} {node} (h : s.canonical) : (s.finishLaunch node).canonical := by
  unfold State.finishLaunch
  dsimp only
  refine State.mk_canonical ?_
  refine State.foldl_canonical (fun _ _ h1 => State.updCol_canonical h1 (fun _ h2 => Column.mk_canonical h2)) ?_
  refine State.foldl_canonical (fun _ _ h3 => State.updCol_canonical h3 (fun _ h4 => Column.mk_canonical h4)) ?_
  split
  · exact State.post_canonical (State.ite_canonical h (State.setFuture_canonical h))
  · exact State.ite_canonical h (State.setFuture_canonical h)

theorem State.tryFinish_canonical {s : State} {node} (h : s.canonical) : (s.tryFinish node).canonical :=
  State.ite_canonical (State.finishLaunch_canonical h) h

theorem State.endLaunch_canonical {s : State} {node} {code} (h : s.canonical) : (s.endLaunch node code).canonical :=
  State.tryFinish_canonical (State.foldl_canonical (fun _ _ h1 => State.endGroup_canonical h1) (State.setNode_canonical h))

theorem State.killGroup_canonical {s : State} {node} {gid} (h : s.canonical) : (s.killGroup node gid).canonical :=
  State.tryFinish_canonical (State.endGroup_canonical h)

theorem State.killLaunch_canonical {s : State} {node} (h : s.canonical) : (s.killLaunch node).canonical :=
  State.endLaunch_canonical (State.report_canonical h)

theorem State.reap_canonical {s : State} {c} {n} (h : s.canonical) : (s.reap c n).canonical := by
  unfold State.reap
  dsimp only
  refine State.ite_canonical h ?_
  refine State.ite_canonical (State.passToken_canonical (State.performDeferred_canonical h)) ?_
  split
  · next h1 =>
      exact State.setCol_canonical (State.passToken_canonical (State.performDeferred_canonical h)) (Column.setWarp_canonical
        (canonical_of_snd_snd h1 (Column.drain_canonical (State.col_canonical (State.passToken_canonical (State.performDeferred_canonical
        h))))))
  · next h2 =>
      exact State.ite_canonical (State.fixToken_canonical (State.setGroupState_canonical (State.leaveCore_canonical
        (State.fixToken_canonical (State.setGroupState_canonical (State.trimCredits_canonical (State.setCol_canonical
        (State.passToken_canonical (State.performDeferred_canonical h)) (Column.clearSlot_canonical (canonical_of_snd_snd h2
        (Column.drain_canonical (State.col_canonical (State.passToken_canonical (State.performDeferred_canonical h)))))))))))))
        (State.fixToken_canonical (State.setGroupState_canonical (State.trimCredits_canonical (State.setCol_canonical
        (State.passToken_canonical (State.performDeferred_canonical h)) (Column.clearSlot_canonical (canonical_of_snd_snd h2
        (Column.drain_canonical (State.col_canonical (State.passToken_canonical (State.performDeferred_canonical h))))))))))

/-! ## Launch -/

theorem State.bayBytes_canonical {s : State} {c} {ctx} {pa} {n} (h : s.canonical) : (s.bayBytes c ctx pa n).2.canonical := by
  unfold State.bayBytes
  dsimp only
  refine State.homeBytes_canonical ?_
  refine State.setCol_canonical h ?_
  split
  · exact Column.foldl_canonical (fun _ _ h1 => Column.recallU_canonical h1) (Column.recallU_canonical (State.col_canonical h))
  · exact Column.recallU_canonical (State.col_canonical h)

theorem State.ctxBytes_canonical {s : State} {c} {ctx} {a} {a1} (h : s.canonical) : (s.ctxBytes c ctx a a1).2.canonical := by
  induction a generalizing s a1 with
  | zero => exact h
  | succ n ih =>
    unfold State.ctxBytes
    split
    · next ht => exact canonical_of_snd ht (State.translate_canonical h)
    · next ht =>
      have hs := canonical_of_snd ht (State.translate_canonical h)
      split
      · exact hs
      · split
        next hb =>
          have hbs := canonical_of_snd hb (State.bayBytes_canonical hs)
          split
          · next hr => exact canonical_of_snd hr (ih hbs)
          · next hr => exact canonical_of_snd hr (ih hbs)

theorem State.refuseLaunch_canonical {s : State} {u} {code} (h : s.canonical) : (s.refuseLaunch u code).canonical := by
  unfold State.refuseLaunch
  dsimp only
  split
  · exact State.post_canonical (State.ite_canonical h (State.setFuture_canonical h))
  · exact State.ite_canonical h (State.setFuture_canonical h)

theorem State.checkLaunch_canonical {s : State} {u} (h : s.canonical) : (s.checkLaunch u).2.canonical := by
  have hread {p : Prop} [Decidable p] {t : State} {r : Option (List Byte) × State} (ht : t.canonical) (hr : r.2.canonical) :
      (if p then r else (none, t)).2.canonical := by
    split
    · exact hr
    · exact ht
  unfold State.checkLaunch
  extract_lets ctx parent
  split
  · next ht => exact canonical_of_snd ht (hread h (State.ctxBytes_canonical h))
  · next tb s1 ht =>
    have hs : s1.canonical := canonical_of_snd ht (hread h (State.ctxBytes_canonical h))
    extract_lets t
    split
    next rb s2 hb =>
      have hrb : s2.canonical := by
        refine canonical_of_snd hb (?_ : State.canonical _)
        split
        · exact hs
        · split
          · exact hs
          · exact State.ctxBytes_canonical hs
      extract_lets
      (iterate 3 (split; exact hrb))
      split
      · exact hrb
      · split
        · exact hrb
        · split
          · next hd => exact canonical_of_snd hd (hread hrb (State.ctxBytes_canonical hrb))
          · next hd =>
            have hds := canonical_of_snd hd (hread hrb (State.ctxBytes_canonical hrb))
            dsimp only
            (repeat' split) <;> exact hds

theorem State.createLaunch_canonical {s : State} {u} {a} (h : s.canonical) : (s.createLaunch u a).canonical :=
  State.foldl_canonical (fun _ _ h1 => State.updCol_canonical h1 (fun _ h2 => Column.mk_canonical h2)) (State.setNode_canonical
    (State.ite_canonical (State.mk_canonical h) (State.setNode_canonical (State.mk_canonical h))))

theorem execTaskRecordCheck_canonical {s : State} (h : s.canonical) : answersCanonical (execTaskRecordCheck s) := by
  unfold execTaskRecordCheck
  split
  · exact h
  · dsimp only
    split
    · next h1 =>
        exact State.refuseLaunch_canonical (canonical_of_snd h1 (State.checkLaunch_canonical (State.mk_canonical h)))
    · next h2 =>
        exact State.createLaunch_canonical (canonical_of_snd h2 (State.checkLaunch_canonical (State.mk_canonical h)))

theorem execLaunchRingEntry_canonical {fn} {s : State} (h : s.canonical) : answersCanonical (execLaunchRingEntry fn s) := by
  unfold execLaunchRingEntry
  dsimp only
  split
  · exact h
  · exact answersCanonical_ite (State.mk_host_canonical h (HostSide.setFn_canonical (State.host_canonical h))) h

theorem execLaunchComplete_canonical {node} {s : State} (h : s.canonical) : answersCanonical (execLaunchComplete node s) :=
  State.tryFinish_canonical h

theorem execStartTimeReached_canonical {node} {s : State} (h : s.canonical) : answersCanonical (execStartTimeReached node s) :=
  answersCanonical_ite (State.setNode_canonical h) h

theorem execLaunch_canonical {a} {b} {h} {s : State} (hs : s.canonical) : answersCanonical (execLaunch a b h s) := by
  unfold execLaunch
  refine accept_canonical hs (fun _ h1 => ?_)
  refine State.unlessPending_canonical h1 (fun _ h2 => ?_)
  dsimp only
  split
  · exact State.raise_canonical h2
  · exact State.raise_canonical h2
  · exact State.afterRelease_canonical h2 (fun _ h3 => State.setHandle_canonical (State.mk_canonical (State.takeHandle_canonical h3)))

/-! ## Resident -/

theorem State.promoteAll_canonical {s : State} {c} (h : s.canonical) : (s.promoteAll c).canonical := by
  unfold State.promoteAll
  refine State.foldl_canonical (fun _ _ h1 => ?_) h
  split
  · exact State.ite_canonical (State.mk_canonical (State.setGroupState_canonical h1)) h1

theorem State.asAgent_canonical {s : State} {c} {who} (h : s.canonical) : (s.asAgent c who).canonical :=
  State.mk_canonical h

theorem State.trapErrors_canonical {s : State} {c} {n} (h : s.canonical) : (s.trapErrors c n).canonical := by
  unfold State.trapErrors
  dsimp only
  refine State.mk_canonical ?_
  refine State.foldl_canonical (fun _ _ h1 => ?_) h
  split
  · exact State.raiseErred_canonical (State.asAgent_canonical h1)
  · exact State.asAgent_canonical h1

theorem Column.drainLanes_canonical {x : Column} {entry} (h : x.canonical) : (x.drainLanes entry).2.canonical := by
  unfold Column.drainLanes
  refine Column.foldl_snd_canonical (fun _ _ h1 => ?_) h
  split
  · split
    · next h2 =>
        exact canonical_of_snd_snd h2 (Column.drain_canonical h1)
    · next h3 =>
        exact Column.setCtx_canonical (canonical_of_snd_snd h3 (Column.drain_canonical h1))

theorem State.saveGroup_canonical {s : State} {c} {entry} (h : s.canonical) : (s.saveGroup c entry).canonical := by
  unfold State.saveGroup
  dsimp only
  refine State.releaseShare_canonical ?_
  refine State.trimCredits_canonical ?_
  refine State.setGroupState_canonical ?_
  refine State.updCol_canonical h (fun _ h1 => ?_)
  split
  · exact Column.mk_canonical (Column.setGroup_canonical (Column.mk_canonical (Column.foldl_canonical (fun _ _ h2 =>
      Column.clearSlot_canonical h2) h1)))
  · exact Column.mk_canonical (Column.foldl_canonical (fun _ _ h3 => Column.clearSlot_canonical h3) h1)

theorem State.beginLeave_canonical {s : State} {c} {entry} (h : s.canonical) : (s.beginLeave c entry).canonical :=
  State.foldl_canonical (fun _ _ h1 => State.reap_canonical h1) (State.foldl_canonical (fun _ _ h2 => State.trapErrors_canonical h2)
    (State.updCol_canonical h (fun _ h3 => Column.foldl_canonical (fun _ _ h4 => Column.abortTx_canonical h4) (Column.ite_canonical h3
    (Column.mk_canonical (Column.setGroup_canonical h3))))))

theorem State.preempt_canonical {s : State} {c} {entry} (h : s.canonical) : (s.preempt c entry).canonical := by
  unfold State.preempt
  dsimp only
  refine State.ite_canonical h ?_
  refine State.ite_canonical (State.ite_canonical h (State.setCol_canonical (State.mk_canonical h) (Column.setGroup_canonical
    (State.col_canonical h)))) ?_
  refine State.ite_canonical ?_ (State.beginLeave_canonical h)
  split
  · next h1 =>
      exact State.saveGroup_canonical (State.setCol_canonical (State.beginLeave_canonical h) (canonical_of_snd h1
        (Column.drainLanes_canonical (State.col_canonical (State.beginLeave_canonical h)))))
  · next h2 =>
      exact State.setCol_canonical (State.beginLeave_canonical h) (canonical_of_snd h2 (Column.drainLanes_canonical (State.col_canonical
        (State.beginLeave_canonical h))))

theorem execPreemptGroup_canonical {c} {entry} {s : State} (h : s.canonical) : answersCanonical (execPreemptGroup c entry s) :=
  answersCanonical_ite (State.preempt_canonical (State.promoteAll_canonical h)) (answersCanonical_ite (State.updCol_canonical
    (State.promoteAll_canonical h) (fun _ h1 => Column.ite_canonical (Column.setGroup_canonical h1) h1)) (answersCanonical_next
    (State.ite_canonical (State.preempt_canonical (State.promoteAll_canonical h)) (State.updCol_canonical (State.preempt_canonical
    (State.promoteAll_canonical h)) (fun _ h2 => Column.mk_canonical h2)))))

theorem State.takeShare_canonical {s : State} {c} {node} (h : s.canonical) : (s.takeShare c node).canonical :=
  State.ite_canonical h (State.setNode_canonical (State.updCol_canonical h (fun _ h1 => Column.mk_canonical h1)))

theorem State.firstResidency_canonical {s : State} {c} {w} {lay} {data} {image} (h : s.canonical) :
    (s.firstResidency c w lay data image).canonical := by
  unfold State.firstResidency
  dsimp only
  refine State.updCol_canonical (State.mk_canonical (State.takeShare_canonical h)) fun x hx => ?_
  have hg {e g} : (x.setGroup e g).canonical := Column.setGroup_canonical hx
  exact Column.foldl_canonical (fun _ _ hy => Column.setWarp_canonical hy) (Column.newBarrier_getD_canonical hg hg)

theorem Column.restoreCtx_canonical {x : Column} {clk} {slot} {k} (h : x.canonical) : (x.restoreCtx clk slot k).2.canonical :=
  Column.mk_canonical (Column.setCtx_canonical h)

theorem Column.bindQueue_canonical {x : Column} {entry} {queue} (h : x.canonical) : (x.bindQueue entry queue).canonical := by
  unfold Column.bindQueue
  refine Column.ite_canonical h ?_
  split
  · exact Column.mk_canonical h
  · exact h

theorem State.restoreGroup_canonical {s : State} {c} {w} {lay} {v} (h : s.canonical) : (s.restoreGroup c w lay v).canonical := by
  unfold State.restoreGroup
  split
  · exact State.foldl_canonical (fun _ _ h1 => State.ite_canonical h1 (State.performDeferred_canonical h1)) (State.updCol_canonical
      (State.takeShare_canonical h) (fun _ h2 => Column.mk_canonical (Column.foldl_canonical (fun _ _ h3 => Column.bindQueue_canonical h3)
      (Column.foldl_canonical (fun _ _ h4 => Column.setWarp_canonical h4) (Column.foldl_snd_canonical (fun _ _ h5 =>
      Column.restoreCtx_canonical h5) (Column.mk_canonical (Column.foldl_canonical (fun _ _ h6 => Column.mapWaits_canonical
      (Column.testBarrier_canonical h6)) (Column.foldl_canonical (fun _ _ h7 => Column.setBarrier_canonical h7) (Column.foldl_canonical (fun
      _ _ h8 => Column.setWarp_canonical h8) (Column.setGroup_canonical h2))))))))))

theorem execMakeResident_canonical {c} {s : State} (h : s.canonical) : answersCanonical (execMakeResident c s) := by
  unfold execMakeResident
  dsimp only
  split
  · exact State.promoteAll_canonical h
  · refine answersCanonical_ite (State.promoteAll_canonical h) ?_
    split
    · exact State.promoteAll_canonical h
    · split
      · refine answersCanonical_next ?_
        split
        · refine State.ite_canonical ?_ (State.mk_canonical (State.setGroupState_canonical (State.updCol_canonical
            (State.loadCredits_canonical (State.restoreGroup_canonical (State.promoteAll_canonical h))) (fun _ h1 => Column.mk_canonical
            h1))))
          split
          · exact State.performDeferred_canonical (State.mk_canonical (State.setGroupState_canonical (State.updCol_canonical
              (State.loadCredits_canonical (State.restoreGroup_canonical (State.promoteAll_canonical h))) (fun _ h2 => Column.mk_canonical
              h2))))
          · exact State.mk_canonical (State.setGroupState_canonical (State.updCol_canonical (State.loadCredits_canonical
              (State.restoreGroup_canonical (State.promoteAll_canonical h))) (fun _ h3 => Column.mk_canonical h3)))
        · exact State.mk_canonical (State.setGroupState_canonical (State.updCol_canonical (State.loadCredits_canonical
            (State.restoreGroup_canonical (State.promoteAll_canonical h))) (fun _ h4 => Column.mk_canonical h4)))
      · split
        · next h5 =>
            exact answersCanonical_next (canonical_of_snd h5 (State.ctxBytes_canonical (State.promoteAll_canonical h)))
        · next h6 =>
            split
            · next h7 =>
                exact answersCanonical_next (canonical_of_snd h7 (State.ctxBytes_canonical (canonical_of_snd h6 (State.ctxBytes_canonical
                  (State.promoteAll_canonical h)))))
            · next h8 =>
                refine answersCanonical_next ?_
                split
                · refine State.ite_canonical ?_ (State.mk_canonical (State.setGroupState_canonical (State.updCol_canonical
                    (State.loadCredits_canonical (State.firstResidency_canonical (canonical_of_snd h8 (State.ctxBytes_canonical
                    (canonical_of_snd h6 (State.ctxBytes_canonical (State.promoteAll_canonical h))))))) (fun _ h9 => Column.mk_canonical
                    h9))))
                  split
                  · exact State.performDeferred_canonical (State.mk_canonical (State.setGroupState_canonical (State.updCol_canonical
                      (State.loadCredits_canonical (State.firstResidency_canonical (canonical_of_snd h8 (State.ctxBytes_canonical
                      (canonical_of_snd h6 (State.ctxBytes_canonical (State.promoteAll_canonical h))))))) (fun _ h10 => Column.mk_canonical
                      h10))))
                  · exact State.mk_canonical (State.setGroupState_canonical (State.updCol_canonical (State.loadCredits_canonical
                      (State.firstResidency_canonical (canonical_of_snd h8 (State.ctxBytes_canonical (canonical_of_snd h6
                      (State.ctxBytes_canonical (State.promoteAll_canonical h))))))) (fun _ h11 => Column.mk_canonical h11)))
                · exact State.mk_canonical (State.setGroupState_canonical (State.updCol_canonical (State.loadCredits_canonical
                    (State.firstResidency_canonical (canonical_of_snd h8 (State.ctxBytes_canonical (canonical_of_snd h6
                    (State.ctxBytes_canonical (State.promoteAll_canonical h))))))) (fun _ h12 => Column.mk_canonical h12)))

theorem State.setDet_canonical {s : State} {node} {det} (h : s.canonical) : (s.setDet node det).canonical :=
  State.ite_canonical h (State.ite_canonical (State.foldl_canonical (fun _ _ h1 => State.startToken_canonical h1) (State.setNode_canonical
    h)) (State.foldl_canonical (fun _ _ h2 => State.foldl_canonical (fun _ _ h3 => State.performDeferred_canonical h3) h2)
    (State.setNode_canonical h)))

theorem State.refreshEff_canonical {s : State} {node} (h : s.canonical) : (s.refreshEff node).canonical :=
  State.setDet_canonical (State.setNode_canonical h)

theorem State.allotDue_canonical {s : State} {region} {cols} (h : s.canonical) : (s.allotDue region cols).canonical :=
  State.ite_canonical h (State.setNode_canonical h)

theorem execQuantumExpire_canonical {c} {entry} {s : State} (h : s.canonical) : answersCanonical (execQuantumExpire c entry s) :=
  answersCanonical_ite (answersCanonical_ite (answersCanonical_next (State.ite_canonical (State.updCol_canonical (State.preempt_canonical
    (State.updCol_canonical (State.allotDue_canonical (State.refreshEff_canonical (State.updCol_canonical (State.promoteAll_canonical h)
    (fun _ h1 => Column.setGroup_canonical h1)))) (fun _ h2 => Column.setGroup_canonical h2))) (fun _ h3 => Column.setGroup_canonical h3))
    (State.preempt_canonical (State.updCol_canonical (State.allotDue_canonical (State.refreshEff_canonical (State.updCol_canonical
    (State.promoteAll_canonical h) (fun _ h4 => Column.setGroup_canonical h4)))) (fun _ h5 => Column.setGroup_canonical h5)))))
    (State.updCol_canonical (State.allotDue_canonical (State.refreshEff_canonical (State.updCol_canonical (State.promoteAll_canonical h)
    (fun _ h6 => Column.setGroup_canonical h6)))) (fun _ h7 => Column.setGroup_canonical h7))) h

theorem execWaitPriorityRise_canonical {node} {group} {s : State} (h : s.canonical) : answersCanonical (execWaitPriorityRise node group s)
    := by
  unfold execWaitPriorityRise
  dsimp only
  split
  · exact answersCanonical_ite (State.promoteAll_canonical (State.setGroupState_canonical h)) h
  · exact h

theorem execWatchdog_canonical {node} {s : State} (h : s.canonical) : answersCanonical (execWatchdog node s) := by
  unfold execWatchdog
  dsimp only
  refine answersCanonical_ite h ?_
  split
  · exact answersCanonical_ite h (State.endLaunch_canonical (State.report_canonical h))
  · exact answersCanonical_ite h (answersCanonical_next (State.foldl_canonical (fun _ _ h1 => State.endLaunch_canonical h1)
      (State.report_canonical h)))
  · exact h

/-! ## Tensor -/

theorem Column.bayStore_canonical {x : Column} {free} {region} {ep} {bs} (h : x.canonical) : (x.bayStore free region ep bs).canonical := by
  unfold Column.bayStore
  refine Column.foldl_canonical (fun _ _ h1 => ?_) h
  dsimp only
  split
  · exact Column.aliasWrite_canonical (Column.foldl_canonical (fun _ _ h2 => Column.recallU_canonical h2) (Column.recallU_canonical h1))
  · exact Column.updBay_canonical (Column.clearMarks_canonical (Column.foldl_canonical (fun _ _ h3 => Column.putByte_canonical h3)
      (Column.recallU_canonical h1)))

theorem Column.bayWrites_canonical {x : Column} {free} {region} {ep} {ops} (h : x.canonical) : (x.bayWrites free region ep ops).canonical :=
  Column.bayStore_canonical h

/-! ## Transfer -/

theorem State.place_canonical {s : State} {k} {g} {off} {write} (h : s.canonical) : (s.place k g off write).2.canonical := by
  unfold State.place
  dsimp only
  split
  · exact h
  · split
    · split
      · exact h
      · split
        · exact h
        · exact h
    · split
      · next h1 =>
          exact canonical_of_snd h1 (State.translate_canonical h)
      · next h2 =>
          split
          · split
            · exact canonical_of_snd h2 (State.translate_canonical h)
            · split
              · exact canonical_of_snd h2 (State.translate_canonical h)
              · split
                · exact canonical_of_snd h2 (State.translate_canonical h)
                · exact canonical_of_snd h2 (State.translate_canonical h)
          · split
            · exact canonical_of_snd h2 (State.translate_canonical h)
            · split
              · split
                · exact canonical_of_snd h2 (State.translate_canonical h)
                · split
                  · exact canonical_of_snd h2 (State.translate_canonical h)
                  · exact canonical_of_snd h2 (State.translate_canonical h)
              · split
                · exact canonical_of_snd h2 (State.translate_canonical h)
                · exact canonical_of_snd h2 (State.translate_canonical h)

theorem State.placeOf_canonical {s : State} {k} {t} {side} {c} {ipos} {write} {l} (h : s.canonical) : (s.placeOf k t side c ipos write
    l).2.canonical := by
  unfold State.placeOf
  dsimp only
  split
  · next h1 =>
      split
      · split
        · next h2 =>
            exact canonical_of_snd h2 (State.place_canonical (canonical_of_snd h1 (State.place_canonical h)))
        · next h3 =>
            exact canonical_of_snd h3 (State.place_canonical (canonical_of_snd h1 (State.place_canonical h)))
      · exact canonical_of_snd h1 (State.place_canonical h)
  · next h4 =>
      split
      · split
        · next h5 =>
            exact canonical_of_snd h5 (State.place_canonical (canonical_of_snd h4 (State.place_canonical h)))
        · next h6 =>
            exact canonical_of_snd h6 (State.place_canonical (canonical_of_snd h4 (State.place_canonical h)))
      · exact canonical_of_snd h4 (State.place_canonical h)

theorem State.moves_canonical {s : State} {k} {ts} {td} {ss} {sd} {peers} {a} (h : s.canonical) :
    (s.moves k ts td ss sd peers a).2.canonical := by
  induction a generalizing s peers with
  | nil => exact h
  | cons e l ih =>
    cases e with
    | error f => exact h
    | ok p =>
      have hone {t : State} {d side c w o} (ht : t.canonical) : (match o with
          | none => ((.ok none, t) : Except CmdFault (Option (Place × Option Place × Nat)) × State)
          | some l =>
            match t.placeOf k d side c p.ipos w l with
            | (.error f, s) => (.error f, s)
            | (.ok x, s) => (.ok (some x), s)).2.canonical := by
        split
        · exact ht
        · split
          · next hp => exact canonical_of_snd hp (State.placeOf_canonical ht)
          · next hp => exact canonical_of_snd hp (State.placeOf_canonical ht)
      unfold State.moves
      dsimp only
      split
      · next hs => exact canonical_of_snd hs (hone h)
      · next hs =>
        have h1 := canonical_of_snd hs (hone h)
        split
        · next hd => exact canonical_of_snd hd (hone h1)
        · next hd =>
          have h2 := canonical_of_snd hd (hone h1)
          split
          · exact h2
          · split
            · next hr => exact canonical_of_snd hr (ih h2)
            · next hr => exact canonical_of_snd hr (ih h2)

/-! ## Engine -/

theorem State.vlGuard_canonical {s : State} {regs} {run} (h : s.canonical) (hrun : answersCanonical run) : answersCanonical (s.vlGuard regs
    run) := by
  unfold State.vlGuard
  dsimp only
  split
  · exact answersCanonical_ite (State.raiseErred_canonical h) (State.blockAt_canonical h)
  · exact hrun

theorem State.withRecord_canonical {s : State} {gather} {a} {b} {run : List Byte → ℕ → List ℤ → Option (BitVec 64) → Host.Outcome State
    Fault Refusal} (h : s.canonical) (hrun : ∀ (a : List Byte) (a_1 : ℕ) (a_2 : List ℤ) (a_3 : Option (BitVec 64)), answersCanonical (run a
    a_1 a_2 a_3)) : answersCanonical (s.withRecord gather a b run) :=
  answersCanonical_ite (State.raise_canonical h) (answersCanonical_ite (State.raise_canonical h) (answersCanonical_ite
    (State.illegal_canonical h) (State.vlGuard_canonical h (hrun _ _ _ _))))

theorem State.issueEngine_canonical {s : State} {kind} {queue} {a} {b} {h} (hs : s.canonical) : answersCanonical (s.issueEngine kind queue a
    b h) :=
  State.unlessPending_canonical hs (fun _ h1 => State.withRecord_canonical h1 (fun _ _ _ _ => State.afterRelease_canonical h1 (fun _ h2 =>
    answersCanonical_ite (State.blockAt_canonical h2) (State.addHold_canonical (State.setHandle_canonical (State.updHere_canonical
    (State.mk_canonical (State.takeHandle_canonical h2)) (fun _ h3 => Column.mk_canonical (Column.bindQueue_canonical h3))))))))

theorem execCopy_canonical {a} {b} {h} {q} {s : State} (hs : s.canonical) : answersCanonical (execCopy a b h q s) :=
  accept_canonical hs (fun _ h1 => outsideTx_canonical h1 (fun _ h2 => State.issueEngine_canonical h2))

theorem execGath_canonical {a} {b} {h} {s : State} (hs : s.canonical) : answersCanonical (execGath a b h s) :=
  accept_canonical hs (fun _ h1 => outsideTx_canonical h1 (fun _ h2 => State.issueEngine_canonical h2))

theorem execScat_canonical {a} {b} {h} {s : State} (hs : s.canonical) : answersCanonical (execScat a b h s) :=
  accept_canonical hs (fun _ h1 => outsideTx_canonical h1 (fun _ h2 => State.issueEngine_canonical h2))

theorem Column.putStore_canonical {x : Column} {entry} {off} {b} (h : x.canonical) : (x.putStore entry off b).canonical :=
  Column.ite_canonical (Column.setGroup_canonical h) h

theorem State.deliverCount_canonical {s : State} {c} {k} (h : s.canonical) : (s.deliverCount c k).canonical := by
  unfold State.deliverCount
  dsimp only
  split
  · exact State.ite_canonical (State.updCol_canonical h (fun _ h1 => Column.deliver_canonical h1)) h
  · split
    · exact h
    · split
      · exact h
      · exact State.setGroupState_canonical h

theorem State.settleCounts_canonical {s : State} {c} {id} (h : s.canonical) : (s.settleCounts c id).canonical :=
  State.foldl_canonical (fun _ _ h1 => State.deliverCount_canonical h1) (State.updCol_canonical h (fun _ h2 => Column.mk_canonical h2))

theorem Column.forgetMsgs_canonical {x : Column} {id} (h : x.canonical) : (x.forgetMsgs id).canonical :=
  Column.mk_canonical h

theorem State.faultWith_canonical {s : State} {c} {k} {code} {rep} {report} (h : s.canonical) : (s.faultWith c k code rep report).canonical
    :=
  State.ite_canonical (State.updCol_canonical (State.setFuture_canonical (State.updCol_canonical (State.settleCounts_canonical
    (State.dropClaims_canonical h)) (fun _ h1 => Column.dropClaimHold_canonical (Column.forgetMsgs_canonical (Column.setCmd_canonical
    (Column.putStore_canonical h1)))))) (fun _ h2 => Column.raiseEvent_canonical h2)) (State.setFuture_canonical (State.updCol_canonical
    (State.settleCounts_canonical (State.dropClaims_canonical h)) (fun _ h3 => Column.dropClaimHold_canonical (Column.forgetMsgs_canonical
    (Column.setCmd_canonical (Column.putStore_canonical h3))))))

theorem State.faultCmd_canonical {s : State} {c} {k} {f} {iter} (h : s.canonical) : (s.faultCmd c k f iter).canonical :=
  State.faultWith_canonical h

theorem State.restartCmd_canonical {s : State} {c} {k} {bytes} {off} {coords} {bar} (h : s.canonical) : (s.restartCmd c k bytes off coords
    bar).canonical :=
  State.ite_canonical (State.faultCmd_canonical (State.setFuture_canonical h)) (State.updCol_canonical (State.setFuture_canonical h) (fun _
    h1 => Column.setWarp_canonical (Column.putStore_canonical (Column.setCmd_canonical h1))))

theorem execCopyRst_canonical {a} {b} {h} {s : State} (hs : s.canonical) : answersCanonical (execCopyRst a b h s) := by
  unfold execCopyRst
  refine accept_canonical hs (fun _ h1 => ?_)
  refine outsideTx_canonical h1 (fun _ h2 => ?_)
  dsimp only
  split
  · exact State.trap_canonical h2
  · exact State.withRecord_canonical h2 (fun _ _ _ _ => State.afterRelease_canonical h2 (fun _ h3 => State.restartCmd_canonical h3))

theorem State.spanLines_canonical {s : State} {ctx} {p} (h : s.canonical) : (s.spanLines ctx p).2.canonical := by
  unfold State.spanLines
  refine State.foldl_snd_canonical (fun _ _ h1 => ?_) h
  split
  · next h2 =>
      split
      · exact canonical_of_snd h2 (State.translate_canonical h1)
      · exact canonical_of_snd h2 (State.translate_canonical h1)
  · next h3 =>
      exact canonical_of_snd h3 (State.translate_canonical h1)

theorem Column.forClaim_canonical {x : Column} {free} {ctx} {own} {c} (h : x.canonical) : (x.forClaim free ctx own c).canonical := by
  unfold Column.forClaim
  dsimp only
  refine Column.foldl_canonical (fun _ _ h1 => Column.recallU_canonical h1) ?_
  refine Column.ite_canonical ?_ h
  refine Column.foldl_canonical (fun _ _ h2 => ?_) h
  refine Column.ite_canonical ?_ (Column.settleLine_canonical h2)
  split
  · exact Column.evictL1_canonical h2
  · exact h2

theorem State.claimsOf_canonical {s : State} {k} {source} {l} (h : s.canonical) : (s.claimsOf k source l).2.canonical := by
  unfold State.claimsOf
  refine State.foldl_snd_canonical (fun _ _ h1 => ?_) h
  split
  · next h2 =>
      dsimp only
      refine canonical_of_snd h2 ?_
      split
      · exact h1
      · exact State.spanLines_canonical h1

theorem State.recordClaims_canonical {s : State} {k} {det} {src} {dst} (h : s.canonical) : (s.recordClaims k det src dst).2.canonical := by
  unfold State.recordClaims
  dsimp only
  split
  · split
    · exact h
    · split
      · exact State.foldl_canonical (fun _ _ h1 => State.updCol_canonical h1 (fun _ h2 => Column.forClaim_canonical h2))
          (State.claimsOf_canonical h)
      · exact State.foldl_canonical (fun _ _ h3 => State.updCol_canonical h3 (fun _ h4 => Column.updBay_canonical h4))
          (State.claimsOf_canonical (State.foldl_canonical (fun _ _ h5 => State.updCol_canonical h5 (fun _ h6 => Column.forClaim_canonical
          h6)) (State.claimsOf_canonical h)))
  · split
    · exact h
    · split
      · exact State.foldl_canonical (fun _ _ h7 => State.updCol_canonical h7 (fun _ h8 => Column.forClaim_canonical h8))
          (State.claimsOf_canonical h)
      · exact State.foldl_canonical (fun _ _ h9 => State.updCol_canonical h9 (fun _ h10 => Column.updBay_canonical h10))
          (State.claimsOf_canonical (State.foldl_canonical (fun _ _ h11 => State.updCol_canonical h11 (fun _ h12 =>
          Column.forClaim_canonical h12)) (State.claimsOf_canonical h)))

theorem execClaimSpan_canonical {c} {id} {s : State} (h : s.canonical) : answersCanonical (execClaimSpan c id s) := by
  unfold execClaimSpan
  split
  · exact h
  · refine answersCanonical_ite h ?_
    refine answersCanonical_ite (State.dropCommand_canonical h) ?_
    dsimp only
    refine answersCanonical_ite (State.faultCmd_canonical h) ?_
    refine answersCanonical_ite (State.faultCmd_canonical h) ?_
    split
    · exact State.faultCmd_canonical h
    · refine answersCanonical_ite (State.updCol_canonical h (fun _ h1 => Column.dropClaimHold_canonical (Column.setCmd_canonical h1))) ?_
      refine answersCanonical_ite (State.faultCmd_canonical h) ?_
      refine answersCanonical_ite (State.faultCmd_canonical h) ?_
      split
      · next h2 =>
          exact answersCanonical_next (canonical_of_snd h2 (State.recordClaims_canonical h))
      · next h3 =>
          exact State.updCol_canonical (canonical_of_snd h3 (State.recordClaims_canonical h)) (fun _ h4 => Column.dropClaimHold_canonical
            (Column.setCmd_canonical h4))

theorem execCopyCommandStart_canonical {c} {id} {s : State} (h : s.canonical) : answersCanonical (execCopyCommandStart c id s) := by
  unfold execCopyCommandStart
  dsimp only
  split
  · exact h
  · exact answersCanonical_ite h (State.updCol_canonical h (fun _ h1 => Column.setCmd_canonical h1))

theorem Column.fetchSector_canonical {x : Column} {free} {ctx} {sector} (h : x.canonical) : (x.fetchSector free ctx sector).2.canonical :=
    by
  unfold Column.fetchSector
  extract_lets line y
  have hy : y.canonical := Column.recallU_canonical h
  clear_value y
  split
  · dsimp only
    exact Column.foldl_canonical (fun _ _ hz => Column.recallU_canonical hz) hy
  · exact hy

theorem Column.askOwn_canonical {x : Column} {k} {clk} {l} (h : x.canonical) : (x.askOwn k clk l).canonical :=
  Column.foldl_canonical (fun _ _ h1 => Column.updBay_canonical h1) h

theorem Column.sendEngine_canonical {x : Column} {k} (h : x.canonical) : (x.sendEngine k).canonical := by
  unfold Column.sendEngine
  dsimp only
  refine Column.setCmd_canonical ?_
  refine Column.foldl_fst_canonical (fun _ _ h1 => ?_) h
  split
  · exact h1
  · exact Column.mk_canonical h1

theorem State.fetch_canonical {s : State} {k} {r} {n} (h : s.canonical) : (s.fetch k r n).canonical :=
  State.mk_host_canonical (State.updCol_canonical h (fun _ h1 => Column.askOwn_canonical (Column.sendEngine_canonical
    (Column.setCmd_canonical h1)))) (HostSide.mk_canonical (State.host_canonical h))

theorem State.gatherPairs_canonical {s : State} {k} {r} {own} {n} (h : s.canonical) : (s.gatherPairs k r own n).2.canonical := by
  unfold State.gatherPairs
  dsimp only
  split
  · dsimp only
    refine State.foldl_snd_canonical (fun _ _ h1 => ?_) h
    split
    · exact h1
    · exact h1
    · split
      · next h2 =>
          exact canonical_of_snd h2 (State.placeOf_canonical h1)
      · next h3 =>
          split
          · exact canonical_of_snd h3 (State.placeOf_canonical h1)
          · exact canonical_of_snd h3 (State.placeOf_canonical h1)
          · exact canonical_of_snd h3 (State.placeOf_canonical h1)
  · dsimp only
    refine State.foldl_snd_canonical (fun _ _ h4 => ?_) h
    split
    · exact h4
    · exact h4
    · split
      · next h5 =>
          exact canonical_of_snd h5 (State.placeOf_canonical h4)
      · next h6 =>
          split
          · exact canonical_of_snd h6 (State.placeOf_canonical h4)
          · exact canonical_of_snd h6 (State.placeOf_canonical h4)
          · exact canonical_of_snd h6 (State.placeOf_canonical h4)

theorem State.planMoves_canonical {s : State} {k} {r} (h : s.canonical) : (s.planMoves k r).2.canonical := by
  unfold State.planMoves
  split
  · split
    · next h1 =>
        split
        · dsimp only
          refine canonical_of_snd h1 ?_
          split
          · exact State.gatherPairs_canonical h
          · exact h
        · split
          · split
            · next h2 =>
                dsimp only
                refine canonical_of_snd h2 ?_
                refine State.moves_canonical ?_
                refine canonical_of_snd h1 ?_
                split
                · exact State.gatherPairs_canonical h
                · exact h
            · next h3 =>
                dsimp only
                refine canonical_of_snd h3 ?_
                refine State.moves_canonical ?_
                refine canonical_of_snd h1 ?_
                split
                · exact State.gatherPairs_canonical h
                · exact h

theorem State.plan_canonical {s : State} {k} {r} (h : s.canonical) : (s.plan k r).2.canonical := by
  unfold State.plan
  split
  · next h1 =>
      exact canonical_of_snd h1 (State.planMoves_canonical h)
  · next h2 =>
      split
      · dsimp only
        split
        · split
          · exact canonical_of_snd h2 (State.planMoves_canonical h)
          · exact canonical_of_snd h2 (State.planMoves_canonical h)
        · split
          · exact canonical_of_snd h2 (State.planMoves_canonical h)
          · exact canonical_of_snd h2 (State.planMoves_canonical h)

theorem Column.putCrib_canonical {x : Column} {launch} {bs} (h : x.canonical) : (x.putCrib launch bs).canonical :=
  Column.mk_canonical h

theorem State.postWrites_canonical {s : State} {k} {ep} {l} (h : s.canonical) : (s.postWrites k ep l).2.canonical := by
  unfold State.postWrites
  refine State.foldl_snd_canonical (fun _ _ h1 => ?_) h
  split
  · dsimp only
    split
    · split
      · exact State.updCol_canonical h1 (fun _ h2 => Column.askOwn_canonical h2)
      · exact h1
    · exact h1
    · exact State.mk_host_canonical h1 (HostSide.mk_canonical (State.host_canonical h1))

theorem State.pourCrib_canonical {s : State} {k} (h : s.canonical) : (s.pourCrib k).canonical := by
  unfold State.pourCrib
  split
  · exact h
  · exact State.updCol_canonical h (fun _ h1 => Column.setCmd_canonical (Column.putCrib_canonical h1))

theorem Column.addCount_canonical {x : Column} {k} {n} {clk} (h : x.canonical) : (x.addCount k n clk).canonical := by
  unfold Column.addCount
  split
  · exact Column.mk_canonical h
  · exact h

theorem Column.takeEngine_canonical {x : Column} {k} {clk} (h : x.canonical) : (x.takeEngine k clk).canonical :=
  Column.mk_canonical h

theorem State.endTransfer_canonical {s : State} {k} {r} (h : s.canonical) : (s.endTransfer k r).canonical :=
  State.updCol_canonical h (fun _ h1 => Column.setCmd_canonical (Column.takeEngine_canonical (Column.addCount_canonical
    (Column.foldl_canonical (fun _ _ h2 => Column.lastUse_canonical h2) h1))))

theorem State.perform_canonical {s : State} {k} {r} {ms} (h : s.canonical) : (s.perform k r ms).canonical := by
  unfold State.perform
  split
  · split
    · exact State.faultCmd_canonical h
    · exact State.ite_canonical (State.endTransfer_canonical (State.updCol_canonical (State.postWrites_canonical h) (fun _ h1 =>
        Column.sendEngine_canonical (Column.setCmd_canonical h1)))) (State.updCol_canonical (State.postWrites_canonical h) (fun _ h2 =>
        Column.sendEngine_canonical (Column.setCmd_canonical h2)))

theorem State.walkIdentity_canonical {s : State} {k} {r} (h : s.canonical) : (s.walkIdentity k r).canonical := by
  unfold State.walkIdentity
  split
  · dsimp only
    split
    · exact State.faultCmd_canonical (State.updCol_canonical h (fun _ h1 => Column.addCount_canonical h1))
    · exact State.updCol_canonical (State.updCol_canonical h (fun _ h2 => Column.addCount_canonical h2)) (fun _ h3 =>
        Column.setCmd_canonical h3)

theorem State.prefetch_canonical {s : State} {k} {r} (h : s.canonical) : (s.prefetch k r).canonical := by
  unfold State.prefetch
  refine State.ite_canonical h ?_
  split
  · dsimp only
    refine State.updCol_canonical h (fun _ h1 => ?_)
    split
    · exact Column.sendEngine_canonical h1
    · exact h1
  · exact h

theorem State.carry_canonical {s : State} {c} {id} (h : s.canonical) : (s.carry c id).canonical := by
  unfold State.carry
  split
  · exact h
  · dsimp only
    split
    · next h1 =>
        exact State.faultCmd_canonical (canonical_of_snd h1 (State.plan_canonical h))
    · next h2 =>
        exact State.perform_canonical (canonical_of_snd h2 (State.plan_canonical h))
    · next h3 =>
        exact State.prefetch_canonical (State.fetch_canonical (canonical_of_snd h3 (State.plan_canonical h)))

theorem State.transfer_canonical {s : State} {c} {id} (h : s.canonical) : (s.transfer c id).canonical := by
  unfold State.transfer
  dsimp only
  split
  · exact h
  · refine State.ite_canonical h ?_
    refine State.ite_canonical (State.ite_canonical (State.dropCommand_canonical h) (State.ite_canonical h (State.ite_canonical
      (State.walkIdentity_canonical h) (State.carry_canonical h)))) ?_
    split
    · exact State.ite_canonical (State.pourCrib_canonical h) (State.ite_canonical (State.updCol_canonical h (fun _ h1 =>
        Column.sendEngine_canonical h1)) (State.ite_canonical (State.ite_canonical (State.dropCommand_canonical h) (State.faultCmd_canonical
        h)) h))
    · exact State.ite_canonical (State.pourCrib_canonical h) (State.ite_canonical (State.updCol_canonical h (fun _ h2 =>
        Column.sendEngine_canonical h2)) (State.ite_canonical (State.ite_canonical (State.endTransfer_canonical h) h) (State.ite_canonical
        (State.carry_canonical h) h)))

theorem execCopyTransfer_canonical {c} {id} {s : State} (h : s.canonical) : answersCanonical (execCopyTransfer c id s) := by
  unfold execCopyTransfer
  split
  · exact answersCanonical_ite (State.transfer_canonical h) h
  · exact h

theorem execGatherTransfer_canonical {c} {id} {s : State} (h : s.canonical) : answersCanonical (execGatherTransfer c id s) := by
  unfold execGatherTransfer
  split
  · exact answersCanonical_ite (State.transfer_canonical h) h
  · exact h

theorem execBarBytesDelivered_canonical {c} {s : State} (h : s.canonical) : answersCanonical (execBarBytesDelivered c s) := by
  unfold execBarBytesDelivered
  split
  · exact h
  · exact answersCanonical_ite h (State.deliverCount_canonical (State.updCol_canonical h (fun _ h1 => Column.mk_canonical h1)))

theorem execEngineCommandDone_canonical {c} {id} {s : State} (h : s.canonical) : answersCanonical (execEngineCommandDone c id s) := by
  unfold execEngineCommandDone
  dsimp only
  split
  · exact h
  · exact answersCanonical_ite (State.dropCommand_canonical h) h

theorem State.takePeer_canonical {s : State} {c} {id} (h : s.canonical) {t} (ht : s.takePeer c id = some t) : t.2.canonical := by
  obtain ⟨_, _, rfl⟩ := Option.map_eq_some_iff.1 ht
  exact State.mk_host_canonical h (HostSide.mk_canonical (State.host_canonical h))

theorem execPeerAcknowledge_canonical {c} {id} {data} {s : State} (h : s.canonical) : answersCanonical (execPeerAcknowledge c id data s) :=
    by
  unfold execPeerAcknowledge
  split
  · exact h
  · next h1 =>
      dsimp only
      refine answersCanonical_next ?_
      refine State.updCol_canonical (State.mk_host_canonical (State.takePeer_canonical h h1) (HostSide.mk_canonical (State.host_canonical
        (State.takePeer_canonical h h1)))) (fun _ h2 => ?_)
      split
      · exact h2
      · exact Column.ite_canonical (Column.setCmd_canonical h2) (Column.setCmd_canonical h2)

theorem execPeerLink_canonical {c} {id} {s : State} (h : s.canonical) : answersCanonical (execPeerLink c id s) := by
  unfold execPeerLink
  split
  · exact h
  · next h1 =>
      dsimp only
      split
      · exact answersCanonical_next (State.ite_canonical (State.mk_host_canonical (State.takePeer_canonical h h1) (HostSide.mk_canonical
          (State.host_canonical (State.takePeer_canonical h h1)))) (State.takePeer_canonical h h1))
      · exact State.updCol_canonical (State.ite_canonical (State.mk_host_canonical (State.takePeer_canonical h h1) (HostSide.mk_canonical
          (State.host_canonical (State.takePeer_canonical h h1)))) (State.takePeer_canonical h h1)) (fun _ h2 => Column.setCmd_canonical h2)

/-! ## Thresher -/

theorem Column.setShare_canonical {x : Column} {launch} {sh} (h : x.canonical) : (x.setShare launch sh).canonical :=
  Column.mk_canonical h

theorem execCres_canonical {a} {b} {c} {s : State} (h : s.canonical) : answersCanonical (execCres a b c s) := by
  unfold execCres
  refine accept_canonical h (fun _ h1 => ?_)
  refine State.onCore_canonical h1 ?_
  refine outsideTx_canonical h1 (fun _ h2 => ?_)
  dsimp only
  refine answersCanonical_ite (State.trap_canonical h2) ?_
  refine answersCanonical_ite (State.trap_canonical h2) ?_
  split
  · exact State.trap_canonical h2
  · exact State.vlScalar_canonical (State.updHere_canonical h2 (fun _ h3 => Column.mk_canonical h3))

theorem execCrel_canonical {a} {s : State} (h : s.canonical) : answersCanonical (execCrel a s) := by
  unfold execCrel
  refine accept_canonical h (fun _ h1 => ?_)
  refine State.onCore_canonical h1 ?_
  refine outsideTx_canonical h1 (fun _ h2 => ?_)
  dsimp only
  split
  · exact State.trap_canonical h2
  · exact answersCanonical_ite (State.blockAt_canonical h2) (State.updHere_canonical h2 (fun _ h3 => Column.mk_canonical h3))

theorem execCstat_canonical {a} {b} {s : State} (h : s.canonical) : answersCanonical (execCstat a b s) :=
  accept_canonical h (fun _ h1 => State.onCore_canonical h1 (outsideTx_canonical h1 (fun _ h2 => State.vlScalar_canonical h2)))

theorem State.withThresherRecord_canonical {s : State} {kind} {a} {run : List Byte → ℕ → Option (BitVec 64) → Host.Outcome State Fault
    Refusal} (h : s.canonical) (hrun : ∀ (a : List Byte) (a_1 : ℕ) (a_2 : Option (BitVec 64)), answersCanonical (run a a_1 a_2)) :
    answersCanonical (s.withThresherRecord kind a run) :=
  answersCanonical_ite (State.raise_canonical h) (answersCanonical_ite (State.raise_canonical h) (answersCanonical_ite (answersCanonical_ite
    (State.illegal_canonical h) (State.vlGuard_canonical h (hrun _ _ _))) (hrun _ _ _)))

theorem State.issueThresher_canonical {s : State} {h} {k} (hs : s.canonical) : answersCanonical (s.issueThresher h k) :=
  State.afterRelease_canonical hs (fun _ h1 => answersCanonical_ite (State.blockAt_canonical h1) (State.setHandle_canonical
    (State.updHere_canonical (State.mk_canonical (State.takeHandle_canonical h1)) (fun _ h2 => Column.mk_canonical (Column.ite_canonical
    (Column.setShare_canonical h2) h2)))))

theorem execMldw_canonical {a} {b} {h} {s : State} (hs : s.canonical) : answersCanonical (execMldw a b h s) :=
  accept_canonical hs (fun _ h1 => State.onCore_canonical h1 (outsideTx_canonical h1 (fun _ h2 => State.unlessPending_canonical h2 (fun _ h3
    => State.issueThresher_canonical h3))))

theorem execMswap_canonical {h} {s : State} (hs : s.canonical) : answersCanonical (execMswap h s) :=
  accept_canonical hs (fun _ h1 => State.onCore_canonical h1 (outsideTx_canonical h1 (fun _ h2 => State.unlessPending_canonical h2 (fun _ h3
    => State.issueThresher_canonical h3))))

theorem execMzero_canonical {m} {h} {s : State} (hs : s.canonical) : answersCanonical (execMzero m h s) :=
  accept_canonical hs (fun _ h1 => State.onCore_canonical h1 (outsideTx_canonical h1 (fun _ h2 => State.unlessPending_canonical h2 (fun _ h3
    => State.issueThresher_canonical h3))))

theorem execMloop_canonical {a} {b} {h} {m} {s : State} (hs : s.canonical) : answersCanonical (execMloop a b h m s) :=
  accept_canonical hs (fun _ h1 => State.onCore_canonical h1 (outsideTx_canonical h1 (fun _ h2 => State.unlessPending_canonical h2 (fun _ h3
    => State.withThresherRecord_canonical h3 (fun _ _ _ => State.issueThresher_canonical h3)))))

theorem execMstr_canonical {a} {m} {h} {s : State} (hs : s.canonical) : answersCanonical (execMstr a m h s) :=
  accept_canonical hs (fun _ h1 => State.onCore_canonical h1 (outsideTx_canonical h1 (fun _ h2 => State.unlessPending_canonical h2 (fun _ h3
    => State.withThresherRecord_canonical h3 (fun _ _ _ => State.issueThresher_canonical h3)))))

theorem execMrd_canonical {a} {b} {m} {s : State} (h : s.canonical) : answersCanonical (execMrd a b m s) :=
  accept_canonical h (fun _ h1 => State.onCore_canonical h1 (outsideTx_canonical h1 (fun _ h2 => answersCanonical_ite (State.trap_canonical
    h2) (State.vlResult_canonical h2))))

theorem State.thresherFault_canonical {s : State} {k} {code} {row} {col} {addr} (h : s.canonical) : (s.thresherFault k code row col
    addr).canonical :=
  State.ite_canonical (State.releaseShare_canonical (State.dropCommand_canonical h)) (State.faultWith_canonical h)

theorem State.thresherDone_canonical {s : State} {k} (h : s.canonical) : (s.thresherDone k).canonical :=
  State.releaseShare_canonical (State.dropCommand_canonical h)

theorem Column.served_canonical {x : Column} {launch} {clk} (h : x.canonical) : (x.served_ launch clk).canonical :=
  Column.setShare_canonical h

theorem execThresherCommandStart_canonical {c} {node} {s : State} (h : s.canonical) : answersCanonical (execThresherCommandStart c node s)
    := by
  unfold execThresherCommandStart
  dsimp only
  split
  · exact h
  · refine answersCanonical_ite h ?_
    split
    · exact State.thresherFault_canonical (State.updCol_canonical h (fun _ h1 => Column.served_canonical h1))
    · split
      · exact State.thresherDone_canonical (State.updCol_canonical (State.updCol_canonical h (fun _ h2 => Column.served_canonical h2)) (fun
          _ h3 => Column.setShare_canonical h3))
      · exact State.thresherDone_canonical (State.updCol_canonical (State.updCol_canonical h (fun _ h4 => Column.served_canonical h4)) (fun
          _ h5 => Column.setShare_canonical h5))
      · exact State.updCol_canonical (State.updCol_canonical h (fun _ h6 => Column.served_canonical h6)) (fun _ h7 =>
          Column.setCmd_canonical h7)
      · split
        · next h8 =>
            exact answersCanonical_next (canonical_of_snd h8 (State.recordClaims_canonical (State.updCol_canonical h (fun _ h9 =>
              Column.served_canonical h9))))
        · next h10 =>
            exact State.updCol_canonical (canonical_of_snd h10 (State.recordClaims_canonical (State.updCol_canonical h (fun _ h11 =>
              Column.served_canonical h11)))) (fun _ h12 => Column.setCmd_canonical h12)
      · exact State.updCol_canonical (State.updCol_canonical h (fun _ h13 => Column.served_canonical h13)) (fun _ h14 =>
          Column.setCmd_canonical h14)

theorem execShadowPlaneLoaded_canonical {c} {node} {s : State} (h : s.canonical) : answersCanonical (execShadowPlaneLoaded c node s) := by
  unfold execShadowPlaneLoaded
  dsimp only
  split
  · exact h
  · refine answersCanonical_ite h ?_
    split
    · exact h
    · exact State.thresherDone_canonical (State.setCol_canonical h (Column.setShare_canonical (State.col_canonical h)))

theorem execThresherKstep_canonical {c} {node} {s : State} (h : s.canonical) : answersCanonical (execThresherKstep c node s) := by
  unfold execThresherKstep
  dsimp only
  split
  · exact h
  · refine answersCanonical_ite h ?_
    refine answersCanonical_ite (State.thresherDone_canonical h) ?_
    split
    · exact State.setCol_canonical h (Column.arriveBarrier_canonical (Column.setCmd_canonical (Column.served_canonical
        (Column.setShare_canonical (State.col_canonical h)))))
    · exact State.setCol_canonical h (Column.setCmd_canonical (Column.served_canonical (Column.setShare_canonical (State.col_canonical h))))

theorem execMloopRowsLanded_canonical {c} {node} {s : State} (h : s.canonical) : answersCanonical (execMloopRowsLanded c node s) := by
  unfold execMloopRowsLanded
  split
  · exact h
  · exact answersCanonical_ite (State.thresherDone_canonical h) h

theorem State.mstrMoves_canonical {s : State} {k} {row} {own} {a} (h : s.canonical) : (s.mstrMoves k row own a).2.canonical := by
  induction a generalizing s with
  | nil => exact h
  | cons e l ih =>
    obtain ⟨n, f | o⟩ := e
    · exact h
    · cases o with
      | none => exact ih h
      | some o =>
        unfold State.mstrMoves
        split
        · next hp => exact canonical_of_snd hp (State.placeOf_canonical h)
        · next hp =>
          have hs := canonical_of_snd hp (State.placeOf_canonical h)
          split
          · next hr => exact canonical_of_snd hr (ih hs)
          · next hr => exact canonical_of_snd hr (ih hs)

theorem State.endRow_canonical {s : State} {k} (h : s.canonical) : (s.endRow k).canonical :=
  State.ite_canonical (State.updCol_canonical (State.updCol_canonical h (fun _ h1 => Column.setCmd_canonical (Column.addCount_canonical
    h1))) (fun _ h2 => Column.setShare_canonical h2)) (State.updCol_canonical h (fun _ h3 => Column.setCmd_canonical
    (Column.addCount_canonical h3)))

theorem State.mstrCarry_canonical {s : State} {k} (h : s.canonical) : (s.mstrCarry k).canonical := by
  unfold State.mstrCarry
  split
  · dsimp only
    split
    · next h1 =>
        exact State.thresherFault_canonical (canonical_of_snd h1 (State.mstrMoves_canonical h))
    · next h2 =>
        exact State.ite_canonical (State.ite_canonical (State.endRow_canonical (State.updCol_canonical (State.postWrites_canonical
          (canonical_of_snd h2 (State.mstrMoves_canonical h))) (fun _ h3 => Column.sendEngine_canonical (Column.setCmd_canonical h3))))
          (State.updCol_canonical (State.postWrites_canonical (canonical_of_snd h2 (State.mstrMoves_canonical h))) (fun _ h4 =>
          Column.sendEngine_canonical (Column.setCmd_canonical h4)))) (State.fetch_canonical (canonical_of_snd h2 (State.mstrMoves_canonical
          h)))

theorem State.mstrBlame_canonical {s : State} {k} {store} {line} (h : s.canonical) : (s.mstrBlame k store line).canonical := by
  unfold State.mstrBlame
  split
  · dsimp only
    split
    · exact State.thresherFault_canonical h
    · exact State.thresherFault_canonical h

theorem execMstrTransfer_canonical {c} {node} {s : State} (h : s.canonical) : answersCanonical (execMstrTransfer c node s) := by
  unfold execMstrTransfer
  dsimp only
  split
  · exact h
  · refine answersCanonical_ite h ?_
    refine answersCanonical_ite (answersCanonical_ite h (State.thresherDone_canonical h)) ?_
    split
    · exact answersCanonical_ite (State.pourCrib_canonical h) (answersCanonical_ite (State.mstrBlame_canonical h) (State.updCol_canonical h
        (fun _ h1 => Column.sendEngine_canonical h1)))
    · exact answersCanonical_ite (State.pourCrib_canonical h) (answersCanonical_ite (State.updCol_canonical h (fun _ h2 =>
        Column.sendEngine_canonical h2)) (answersCanonical_ite (answersCanonical_ite (State.endRow_canonical h) h) (answersCanonical_ite h
        (answersCanonical_ite h (State.mstrCarry_canonical h)))))

theorem State.restartThresher_canonical {s : State} {c} {k} (h : s.canonical) : (s.restartThresher c k).canonical :=
  State.setFuture_canonical (State.updCol_canonical h (fun _ h1 => Column.setCmd_canonical h1))

/-! ## System -/

theorem execEjctl_canonical {d} {a} {s : State} (h : s.canonical) : answersCanonical (execEjctl d a s) :=
  accept_canonical h (fun _ h1 => answersCanonical_ite (State.illegal_canonical h1) (answersCanonical_ite (State.trap_canonical h1)
    (State.updWarp_canonical (State.putS_canonical h1))))

theorem execSignal_canonical {a} {s : State} (h : s.canonical) : answersCanonical (execSignal a s) :=
  accept_canonical h (fun _ h1 => State.afterRelease_canonical h1 (fun _ h2 => answersCanonical_ite (State.mk_host_canonical h2
    (HostSide.sendVector_canonical (State.host_canonical h2))) h2))

theorem State.restartItem_canonical {s : State} {c} {slot} {h} {v} (hs : s.canonical) : (s.restartItem c slot h v).canonical := by
  unfold State.restartItem
  dsimp only
  refine State.ite_canonical ?_ (State.ite_canonical (State.ite_canonical (State.updCol_canonical hs (fun _ h1 => Column.setWarp_canonical
    h1)) (State.cancelCommand_canonical hs)) hs)
  split
  · exact State.ite_canonical (State.restartThresher_canonical hs) (State.restartCmd_canonical hs)
  · exact hs

theorem State.landAll_canonical {s : State} {c} {who} (h : s.canonical) : (s.landAll c who).canonical :=
  State.foldl_canonical (fun _ _ h1 => State.landWrite_canonical h1) (State.setThreadOf_canonical h)

theorem State.mendWarp_canonical {s : State} {w} {v} (h : s.canonical) : (s.mendWarp w v).canonical := by
  unfold State.mendWarp
  dsimp only
  split
  · exact State.ite_canonical (State.landWrite_canonical h) h
  · exact State.ite_canonical (State.landWrite_canonical h) (State.ite_canonical (State.updCol_canonical h (fun _ h1 =>
      Column.setWarp_canonical h1)) (State.ite_canonical (State.updCol_canonical h (fun _ h2 => Column.setWarp_canonical h2)) h))
  · exact State.ite_canonical (State.updCol_canonical h (fun _ h3 => Column.setWarp_canonical h3)) (State.ite_canonical
      (State.landWrite_canonical h) h)
  · exact State.ite_canonical (State.restartItem_canonical h) h
  · exact State.ite_canonical (State.mk_canonical (State.updCol_canonical h (fun _ h4 => Column.setWarp_canonical h4))) (State.ite_canonical
      (State.updCol_canonical h (fun _ h5 => Column.setWarp_canonical h5)) (State.ite_canonical (State.updCol_canonical h (fun _ h6 =>
      Column.setWarp_canonical h6)) (State.ite_canonical (State.ite_canonical (State.updCol_canonical h (fun _ h7 =>
      Column.setWarp_canonical h7)) (State.ite_canonical (State.updCol_canonical h (fun _ h8 => Column.setWarp_canonical h8))
      (State.ite_canonical (State.updCol_canonical h (fun _ h9 => Column.setWarp_canonical h9)) h))) (State.ite_canonical
      (State.ite_canonical (State.updCol_canonical h (fun _ h10 => Column.setWarp_canonical h10)) h) (State.ite_canonical
      (State.mk_canonical (State.updCol_canonical h (fun _ h11 => Column.setWarp_canonical h11))) h)))))
  · refine State.ite_canonical h ?_
    split
    · split
      · exact State.mk_canonical (State.updCol_canonical h (fun _ h12 => Column.setWarp_canonical h12))
      · exact h
    · exact State.updCol_canonical h (fun _ h13 => Column.setGroup_canonical h13)
  · exact h

theorem State.mendCtx_canonical {s : State} {w} {v} (h : s.canonical) : (s.mendCtx w v).canonical :=
  State.ite_canonical (State.landWrite_canonical h) (State.ite_canonical (State.landWrite_canonical h) (State.ite_canonical
    (State.foldl_canonical (fun _ _ h1 => State.landWrite_canonical h1) (State.updCol_canonical h (fun _ h2 => Column.setCtx_canonical h2)))
    (State.ite_canonical (State.updCol_canonical h (fun _ h3 => Column.setCtx_canonical h3)) (State.ite_canonical (State.updCol_canonical h
    (fun _ h4 => Column.setCtx_canonical h4)) (State.ite_canonical (State.updCol_canonical h (fun _ h5 => Column.setCtx_canonical h5))
    (State.ite_canonical (State.mk_canonical (State.updCol_canonical h (fun _ h6 => Column.setCtx_canonical h6))) h))))))

theorem State.windowWrite_canonical {s : State} {w} {v} (h : s.canonical) : (s.windowWrite w v).canonical :=
  State.ite_canonical (State.ite_canonical (State.mendCtx_canonical (State.landAll_canonical h)) h) (State.ite_canonical
    (State.mendWarp_canonical (State.landAll_canonical h)) h)

theorem execWinr_canonical {d} {a} {s : State} (h : s.canonical) : answersCanonical (execWinr d a s) :=
  accept_canonical h (fun _ h1 => answersCanonical_ite (State.holdAt_canonical h1) (State.scalarTo_canonical (State.landDue_canonical h1)))

theorem execWinw_canonical {a} {b} {s : State} (h : s.canonical) : answersCanonical (execWinw a b s) :=
  accept_canonical h (fun _ h1 => State.windowWrite_canonical h1)

theorem execDebugRestart_canonical {c} {slot} {h} {s : State} (hs : s.canonical) : answersCanonical (execDebugRestart c slot h s) :=
  answersCanonical_next (State.ite_canonical (State.restartItem_canonical hs) hs)

theorem execDebugCancel_canonical {c} {slot} {h} {s : State} (hs : s.canonical) : answersCanonical (execDebugCancel c slot h s) :=
  answersCanonical_next (State.ite_canonical (State.restartItem_canonical hs) hs)

theorem Column.resume_canonical {x : Column} {e} {after} (h : x.canonical) : (x.resume e after).canonical := by
  unfold Column.resume
  refine Column.ite_canonical ?_ ?_
  · dsimp only
    split
    · exact Column.setCtx_canonical h
    · exact h
  · dsimp only
    split
    · exact Column.setWarp_canonical h
    · exact h

theorem State.pathStateEnd_canonical {s : State} {c} {slot} (h : s.canonical) : (s.pathStateEnd c slot).canonical :=
  State.killGroup_canonical (State.report_canonical h)

theorem State.eret_canonical {s : State} {c} {action} {e} (h : s.canonical) : (s.eret c action e).canonical :=
  State.ite_canonical h (State.ite_canonical (State.killGroup_canonical h) (State.ite_canonical (State.killLaunch_canonical h)
    (State.ite_canonical h (State.ite_canonical (State.updCol_canonical h (fun _ h1 => Column.resume_canonical h1))
    (State.pathStateEnd_canonical (State.updCol_canonical h (fun _ h2 => Column.resume_canonical h2)))))))

theorem execEret_canonical {a} {s : State} (h : s.canonical) : answersCanonical (execEret a s) := by
  unfold execEret
  refine accept_canonical h (fun _ h1 => ?_)
  split
  · exact State.mk_canonical h1
  · dsimp only
    split
    · exact State.eret_canonical (State.updHere_canonical h1 (fun _ h2 => Column.mk_canonical h2))
    · exact State.updHere_canonical h1 (fun _ h3 => Column.mk_canonical h3)

theorem Column.dropTlb_canonical {x : Column} {ctx} {va} {whole} (h : x.canonical) : (x.dropTlb ctx va whole).canonical :=
  Column.mk_canonical h

theorem execTlbi_canonical {a} {b} {s : State} (h : s.canonical) : answersCanonical (execTlbi a b s) := by
  unfold execTlbi
  refine accept_canonical h (fun _ h1 => ?_)
  dsimp only
  split
  · exact State.mk_canonical (State.updPath_canonical (State.foldl_canonical (fun _ _ h2 => State.updCol_canonical h2 (fun _ h3 =>
      Column.dropTlb_canonical h3)) h1))
  · exact State.updHere_canonical (State.updPath_canonical (State.foldl_canonical (fun _ _ h4 => State.updCol_canonical h4 (fun _ h5 =>
      Column.dropTlb_canonical h5)) h1)) (fun _ h6 => Column.mk_canonical h6)

theorem execTlbiComplete_canonical {c} {s : State} (h : s.canonical) : answersCanonical (execTlbiComplete c s) := by
  unfold execTlbiComplete
  dsimp only
  refine answersCanonical_ite ?_ ?_
  · split
    · exact answersCanonical_ite (State.updCol_canonical h (fun _ h1 => Column.mk_canonical h1)) h
    · exact h
  · split
    · exact answersCanonical_ite (State.mk_canonical h) h
    · exact h

theorem Column.markServed_canonical {x : Column} {e} (h : x.canonical) : (x.markServed e).canonical :=
  Column.ite_canonical h (Column.ite_canonical (Column.setCtx_canonical h) (Column.setWarp_canonical h))

theorem execTinkerRestart_canonical {c} {s : State} (h : s.canonical) : answersCanonical (execTinkerRestart c s) :=
  answersCanonical_ite h (State.setCol_canonical h (Column.mk_canonical (State.col_canonical h)))

/-! ## Fabric -/

theorem State.routerStep_canonical {s : State} {r} (h : s.canonical) : (s.routerStep r).canonical :=
  State.ite_canonical (State.mk_canonical h) (State.setCol_canonical (State.mk_canonical h) (Column.ite_canonical (Column.ite_canonical
    (Column.mk_canonical (State.col_canonical h)) (Column.mk_canonical (State.col_canonical h))) (Column.mk_canonical (Column.ite_canonical
    (Column.mk_canonical (State.col_canonical h)) (Column.mk_canonical (State.col_canonical h))))))

theorem execInjectionWindow_canonical {s : State} (h : s.canonical) : answersCanonical (execInjectionWindow s) :=
  answersCanonical_next (State.mapCols_canonical h fun _ _ hx => Column.mk_canonical hx)

theorem Column.takeFlit_canonical {x : Column} {f : Flit → Bool} (h : x.canonical) {t} (ht : x.takeFlit f = some t) : t.2.canonical := by
  obtain ⟨_, _, rfl⟩ := Option.map_eq_some_iff.1 ht
  exact Column.mk_canonical h

theorem Column.sendBay_canonical {x : Column} {c} {f} (h : x.canonical) : (x.sendBay c f).canonical :=
  Column.ite_canonical (Column.mk_canonical h) (Column.mk_canonical h)

theorem Column.sendCore_canonical {x : Column} {c} {f} (h : x.canonical) : (x.sendCore c f).canonical :=
  Column.ite_canonical (Column.mk_canonical h) (Column.mk_canonical h)

theorem Column.answered_canonical {x : Column} {f} (h : x.canonical) : (x.answered f).2.canonical := by
  unfold Column.answered
  split
  · exact h
  · exact Column.mk_canonical h

theorem Column.nacked_canonical {x : Column} {f} {clk} (h : x.canonical) : (x.nacked f clk).canonical := by
  unfold Column.nacked
  split
  · exact h
  · exact Column.mk_canonical h

theorem execRdata_canonical {c} {s : State} (h : s.canonical) : answersCanonical (execRdata c s) := by
  unfold execRdata
  split
  · exact h
  · next h1 =>
      split
      · exact State.setCol_canonical h (Column.mk_canonical (Column.takeFlit_canonical (State.col_canonical h) h1))
      · dsimp only
        split
        · next h2 =>
            exact State.setCol_canonical h (Column.setCmd_canonical (canonical_of_snd h2 (Column.answered_canonical (Column.mk_canonical
              (Column.takeFlit_canonical (State.col_canonical h) h1)))))
        · next h3 =>
            exact State.setCol_canonical h (canonical_of_snd h3 (Column.answered_canonical (Column.mk_canonical (Column.takeFlit_canonical
              (State.col_canonical h) h1))))

theorem execMgmt_canonical {c} {s : State} (h : s.canonical) : answersCanonical (execMgmt c s) := by
  unfold execMgmt
  split
  · exact h
  · next h1 =>
      exact State.setCol_canonical h (Column.takeFlit_canonical (State.col_canonical h) h1)

/-! ## Slices -/

theorem Column.present_canonical {x : Column} {clk} {f} (h : x.canonical) : (x.present clk f).canonical := by
  unfold Column.present
  split
  · exact Column.updBay_canonical h
  · exact Column.updBay_canonical h

theorem execRd_canonical {c} {s : State} (h : s.canonical) : answersCanonical (execRd c s) := by
  unfold execRd
  split
  · exact h
  · next h1 =>
      exact State.setCol_canonical h (Column.present_canonical (Column.takeFlit_canonical (State.col_canonical h) h1))

theorem execWdata_canonical {c} {s : State} (h : s.canonical) : answersCanonical (execWdata c s) := by
  unfold execWdata
  split
  · exact h
  · next h1 =>
      exact answersCanonical_ite (State.setCol_canonical h (Column.mk_canonical (Column.takeFlit_canonical (State.col_canonical h) h1)))
        (State.setCol_canonical h (Column.present_canonical (Column.mk_canonical (Column.takeFlit_canonical (State.col_canonical h) h1))))

theorem Column.readLine_canonical {x : Column} {free} {ctx} {line} (h : x.canonical) : (x.readLine free ctx line).2.canonical := by
  unfold Column.readLine
  refine Column.foldl_snd_canonical (fun _ _ h1 => ?_) h
  split
  · next h2 =>
      exact canonical_of_snd h2 (Column.fetchSector_canonical h1)

theorem Column.serveEngine_canonical {x : Column} {free} {c} {r} {f} (h : x.canonical) : (x.serveEngine free c r f).canonical := by
  unfold Column.serveEngine
  refine Column.ite_canonical ?_ ?_
  · split
    · next h1 =>
        split
        · exact Column.setCmd_canonical (canonical_of_snd h1 (Column.readLine_canonical h))
        · exact Column.ite_canonical (canonical_of_snd h1 (Column.readLine_canonical h)) (Column.sendBay_canonical (Column.sendBay_canonical
            (Column.ite_canonical (Column.lastUse_canonical (canonical_of_snd h1 (Column.readLine_canonical h))) (canonical_of_snd h1
            (Column.readLine_canonical h)))))
  · dsimp only
    split
    · exact Column.setCmd_canonical (Column.bayWrites_canonical h)
    · exact Column.ite_canonical (Column.bayWrites_canonical h) (Column.sendBay_canonical (Column.bayWrites_canonical h))

theorem State.send_canonical {s : State} {c} {r} (h : s.canonical) : (s.send c r).canonical :=
  State.ite_canonical (State.setCol_canonical h (Column.mk_canonical (State.col_canonical h))) (State.ite_canonical (State.setCol_canonical
    h (Column.mk_canonical (State.col_canonical h))) (State.ite_canonical (State.setCol_canonical h (Column.mk_canonical
    (State.col_canonical h))) (State.setCol_canonical h (Column.mk_canonical (State.col_canonical h)))))

theorem State.lookup_canonical {s : State} {c} {r} (h : s.canonical) : (s.lookup c r).canonical := by
  unfold State.lookup
  dsimp only
  split
  · exact State.send_canonical h
  · exact State.send_canonical h
  · exact State.ite_canonical (State.setCol_canonical h (Column.mk_canonical (State.col_canonical h))) (State.ite_canonical
      (State.send_canonical (State.setCol_canonical h (Column.mk_canonical (State.col_canonical h)))) (State.setCol_canonical h
      (Column.mk_canonical (State.col_canonical h))))
  · exact State.ite_canonical (State.setCol_canonical h (Column.mk_canonical (State.col_canonical h))) (State.ite_canonical
      (State.send_canonical (State.setCol_canonical h (Column.mk_canonical (State.col_canonical h)))) (State.setCol_canonical h
      (Column.mk_canonical (State.col_canonical h))))

theorem State.admitReq_canonical {s : State} {c} {r} (h : s.canonical) : (s.admitReq c r).canonical :=
  State.lookup_canonical (State.setCol_canonical h (Column.mk_canonical (State.col_canonical h)))

theorem State.serve_canonical {s : State} {c} {r} (h : s.canonical) : (s.serve c r).canonical := by
  unfold State.serve
  dsimp only
  split
  · split
    · exact State.setCol_canonical h (Column.ite_canonical (Column.updBay_canonical (Column.updBay_canonical (State.col_canonical h)))
        (Column.updBay_canonical (State.col_canonical h)))
    · exact State.setCol_canonical h (Column.ite_canonical (Column.updBay_canonical (Column.updBay_canonical (State.col_canonical h)))
        (Column.updBay_canonical (State.col_canonical h)))
    · exact State.setCol_canonical h (Column.landPut_canonical (Column.ite_canonical (Column.updBay_canonical (Column.updBay_canonical
        (State.col_canonical h))) (Column.updBay_canonical (State.col_canonical h))))
  · exact State.setCol_canonical h (Column.serveEngine_canonical (Column.ite_canonical (Column.updBay_canonical (Column.updBay_canonical
      (State.col_canonical h))) (Column.updBay_canonical (State.col_canonical h))))
  · exact State.setCol_canonical h (Column.ite_canonical (Column.updBay_canonical (Column.updBay_canonical (State.col_canonical h)))
      (Column.updBay_canonical (State.col_canonical h)))
  · exact State.ite_canonical (State.afterPart_canonical (State.setCol_canonical h (Column.ite_canonical (Column.lastUse_canonical
      (Column.performBay_canonical (Column.ite_canonical (Column.updBay_canonical (Column.updBay_canonical (State.col_canonical h)))
      (Column.updBay_canonical (State.col_canonical h))))) (Column.performBay_canonical (Column.ite_canonical (Column.updBay_canonical
      (Column.updBay_canonical (State.col_canonical h))) (Column.updBay_canonical (State.col_canonical h))))))) (State.setCol_canonical h
      (Column.updBay_canonical (Column.fillL1_canonical (Column.recallU_canonical (Column.ite_canonical (Column.updBay_canonical
      (Column.updBay_canonical (State.col_canonical h))) (Column.updBay_canonical (State.col_canonical h)))))))

theorem Column.refused_canonical {x : Column} {c} {clk} {hint} {r} (h : x.canonical) : (x.refused c clk hint r).canonical := by
  unfold Column.refused
  dsimp only
  split
  · exact Column.ite_canonical (Column.sendBay_canonical (Column.updBay_canonical h)) (Column.updBay_canonical h)
  · exact Column.updBay_canonical h

theorem State.sliceRequest_canonical {s : State} {c} {rid} (h : s.canonical) : (s.sliceRequest c rid).canonical := by
  unfold State.sliceRequest
  dsimp only
  split
  · exact h
  · refine State.ite_canonical ?_ ?_
    · split
      · exact State.updCol_canonical h (fun _ h1 => Column.updBay_canonical h1)
      · exact State.ite_canonical h (State.atL1_canonical (State.updCol_canonical h (fun _ h2 => Column.updBay_canonical h2)))
    · refine State.ite_canonical (State.ite_canonical h (State.ite_canonical (State.send_canonical h) (State.ite_canonical h
        (State.ite_canonical (State.lookup_canonical h) (State.serve_canonical h))))) ?_
      refine State.ite_canonical h ?_
      split
      · exact State.ite_canonical (State.setCol_canonical h (Column.refused_canonical (State.col_canonical h))) h
      · refine State.ite_canonical h ?_
        split
        · exact State.ite_canonical (State.admitReq_canonical (State.setCol_canonical h (Column.mk_canonical (State.col_canonical h)))) h
        · exact h

theorem State.readHbm_canonical {s : State} {c} {read : ℕ → Bool} (h : s.canonical) : (s.readHbm c read).canonical :=
  State.ite_canonical h (State.mk_host_canonical (State.updCol_canonical h (fun _ h1 => Column.mk_canonical h1)) (HostSide.mk_canonical
    (State.host_canonical (State.updCol_canonical h (fun _ h2 => Column.mk_canonical h2)))))

theorem State.hbmFill_canonical {s : State} {c} {line} (h : s.canonical) : (s.hbmFill c line).canonical := by
  unfold State.hbmFill
  dsimp only
  split
  · exact h
  · exact State.ite_canonical (State.foldl_canonical (fun _ _ h1 => State.lookup_canonical h1) (State.setCol_canonical (State.ite_canonical
      h (State.readHbm_canonical h)) (Column.mk_canonical (State.col_canonical (State.ite_canonical h (State.readHbm_canonical h))))))
      (State.foldl_canonical (fun _ _ h2 => State.send_canonical h2) (State.setCol_canonical (State.ite_canonical h (State.readHbm_canonical
      h)) (Column.mk_canonical (State.col_canonical (State.ite_canonical h (State.readHbm_canonical h))))))

theorem State.nackRetry_canonical {s : State} {c} {rid} (h : s.canonical) : (s.nackRetry c rid).canonical := by
  unfold State.nackRetry
  dsimp only
  split
  · exact h
  · exact State.ite_canonical (State.setCol_canonical h (Column.ite_canonical (Column.count_canonical (Column.updBay_canonical
      (State.col_canonical h))) (Column.updBay_canonical (State.col_canonical h)))) h

theorem Column.resendEngine_canonical {x : Column} {clk} (h : x.canonical) : (x.resendEngine clk).canonical :=
  Column.foldl_canonical (fun _ _ h1 => Column.ite_canonical h1 (Column.mk_canonical h1)) h

theorem State.advanceBay_canonical {s : State} {c} (h : s.canonical) : (s.advanceBay c).canonical :=
  State.foldl_canonical (fun _ _ h1 => State.sliceRequest_canonical (State.nackRetry_canonical h1)) (State.updCol_canonical
    (State.foldl_canonical (fun _ _ h2 => State.hbmFill_canonical h2) h) (fun _ h3 => Column.resendEngine_canonical (Column.updBay_canonical
    h3)))

theorem execNackRetry_canonical {c} {rid} {s : State} (h : s.canonical) : answersCanonical (execNackRetry c rid s) :=
  State.nackRetry_canonical h

theorem execSliceRequest_canonical {c} {rid} {s : State} (h : s.canonical) : answersCanonical (execSliceRequest c rid s) :=
  State.sliceRequest_canonical h

theorem execHbmFill_canonical {c} {line} {s : State} (h : s.canonical) : answersCanonical (execHbmFill c line s) :=
  State.hbmFill_canonical h

/-! ## BayEvents -/

theorem Column.writeMode_canonical {x : Column} {mode} (h : x.canonical) : (x.writeMode mode).canonical :=
  Column.ite_canonical (Column.updBay_canonical h) (Column.updBay_canonical h)

theorem Column.settleMode_canonical {x : Column} (h : x.canonical) : x.settleMode.canonical := by
  unfold Column.settleMode
  dsimp only
  split
  · exact Column.updBay_canonical h
  · exact Column.ite_canonical (Column.updBay_canonical (Column.updBay_canonical h)) (Column.ite_canonical (Column.updBay_canonical
      (Column.updBay_canonical h)) (Column.updBay_canonical h))

theorem execBayModeSwitch_canonical {c} {mode} {s : State} (h : s.canonical) : answersCanonical (execBayModeSwitch c mode s) :=
  State.updCol_canonical h (fun _ h1 => Column.writeMode_canonical h1)

theorem Column.dropCopies_canonical {x : Column} {lo} {hi} (h : x.canonical) : (x.dropCopies lo hi).canonical :=
  Column.foldl_canonical (fun _ _ h1 => Column.updBay_canonical h1) (Column.mk_canonical h)

theorem Column.clearRange_canonical {x : Column} {lo} {hi} (h : x.canonical) : (x.clearRange lo hi).canonical := Column.wf_clearRange lo hi
    h

theorem Column.writeCarve_canonical {x : Column} {ways} (h : x.canonical) : (x.writeCarve ways).canonical :=
  Column.ite_canonical (Column.updBay_canonical h) (Column.ite_canonical (Column.updBay_canonical h) (Column.dropCopies_canonical
    (Column.clearRange_canonical (Column.updBay_canonical h))))

theorem execCarveChange_canonical {c} {ways} {s : State} (h : s.canonical) : answersCanonical (execCarveChange c ways s) :=
  State.updCol_canonical h (fun _ h1 => Column.writeCarve_canonical h1)

/-- The flush's ways are named apart: they are a long list. -/
theorem execCarveGrowDone_canonical {c} {s : State} (h : s.canonical) : answersCanonical (execCarveGrowDone c s) := by
  have hx : (s.col c).canonical := State.col_canonical h
  unfold execCarveGrowDone
  generalize s.col c = x at hx
  dsimp only
  generalize x.bay.flushWays _ _ = b
  refine answersCanonical_ite h (answersCanonical_ite (State.setCol_canonical h (Column.mk_canonical hx)) ?_)
  exact answersCanonical_next (State.mk_host_canonical (State.setCol_canonical h (Column.clearRange_canonical (Column.mk_canonical hx)))
    (HostSide.mk_canonical (State.host_canonical h)))

theorem Column.writeCtl_canonical {x : Column} {v} (h : x.canonical) : (x.writeCtl v).canonical :=
  Column.ite_canonical (Column.updBay_canonical h) (Column.ite_canonical (Column.writeCarve_canonical (Column.ite_canonical
    (Column.writeMode_canonical (Column.updBay_canonical h)) (Column.updBay_canonical h))) (Column.ite_canonical (Column.writeMode_canonical
    (Column.updBay_canonical h)) (Column.updBay_canonical h)))

theorem execBayRgnHtWrite_canonical {c} {n} {v} {s : State} (h : s.canonical) : answersCanonical (execBayRgnHtWrite c n v s) :=
  State.updCol_canonical h (fun _ h1 => Column.updBay_canonical h1)

theorem State.writeAlias_canonical {s : State} {c} {n} {back} {v} (h : s.canonical) : (s.writeAlias c n back v).canonical :=
  State.ite_canonical (State.updCol_canonical h (fun _ h1 => Column.updBay_canonical h1)) (State.updCol_canonical h (fun _ h2 =>
    Column.updBay_canonical h2))

theorem State.settleAlias_canonical {s : State} {c} (h : s.canonical) : (s.settleAlias c).canonical :=
  State.foldl_canonical (fun _ _ h1 => State.updCol_canonical h1 (fun _ h2 => Column.updBay_canonical h2)) h

theorem execBayAliasWrite_canonical {c} {n} {back} {v} {s : State} (h : s.canonical) : answersCanonical (execBayAliasWrite c n back v s) :=
  answersCanonical_ite (State.updCol_canonical h (fun _ h1 => Column.updBay_canonical h1)) (State.writeAlias_canonical h)

theorem execSlstatRead_canonical {c} {sl} {s : State} (h : s.canonical) : answersCanonical (execSlstatRead c sl s) :=
  answersCanonical_ite h (State.updCol_canonical (State.mk_host_canonical h (HostSide.mk_canonical (State.host_canonical h))) (fun _ h1 =>
    Column.updBay_canonical h1))

theorem State.holeWord_canonical {s : State} {c} {line} {r} (h : s.canonical) : (s.holeWord c line r).canonical := by
  unfold State.holeWord
  split
  · exact State.updCol_canonical h (fun _ h1 => Column.updBay_canonical h1)
  · exact State.ite_canonical (State.afterPart_canonical (State.updCol_canonical h (fun _ h2 => Column.updBay_canonical h2)))
      (State.ite_canonical (State.setThreadOf_canonical (State.updCol_canonical h (fun _ h3 => Column.setHolds_canonical
      (Column.mk_canonical (Column.foldl_canonical (fun _ _ h4 => Column.updBay_canonical h4) h3))))) (State.mk_canonical
      (State.raise_canonical (State.mk_canonical (State.asAgent_canonical (State.setThreadOf_canonical (State.updCol_canonical h (fun _ h5
      => Column.setHolds_canonical (Column.mk_canonical (Column.foldl_canonical (fun _ _ h6 => Column.updBay_canonical h6) h5))))))))))

theorem State.failEngine_canonical {s : State} {c} {line} {r} {f} (h : s.canonical) : (s.failEngine c line r f).canonical := by
  unfold State.failEngine
  dsimp only
  refine State.ite_canonical ?_ ?_
  · refine State.updCol_canonical (State.updCol_canonical h (fun _ h1 => Column.updBay_canonical h1)) (fun _ h2 => ?_)
    split
    · exact Column.setCmd_canonical h2
    · exact h2
  · refine State.updCol_canonical (State.updCol_canonical h (fun _ h3 => Column.updBay_canonical h3)) (fun _ h4 => ?_)
    split
    · next h5 =>
        exact Column.setCmd_canonical (canonical_of_snd h5 (Column.answered_canonical h4))
    · next h6 =>
        exact canonical_of_snd h6 (Column.answered_canonical h4)

theorem State.reportLine_canonical {s : State} {c} {line} {region} (h : s.canonical) : (s.reportLine c line region).canonical :=
  State.report_canonical h

theorem Column.landHost_canonical {x : Column} {region} {line} {bytes} (h : x.canonical) : (x.landHost region line bytes).canonical :=
  Column.mk_canonical (Column.foldl_canonical (fun _ _ h1 => Column.ite_canonical h1 (Column.putBytes_canonical h1)) h)

theorem State.failReq_canonical {s : State} {c} {line} {region} {r} (h : s.canonical) : (s.failReq c line region r).canonical := by
  unfold State.failReq
  split
  · exact State.failEngine_canonical h
  · exact State.ite_canonical (State.reportLine_canonical (State.updCol_canonical h (fun _ h1 => Column.updBay_canonical h1)))
      (State.holeWord_canonical h)

theorem State.hostDone_canonical {s : State} {c} {rid} {error} {data} (h : s.canonical) : (s.hostDone c rid error data).canonical := by
  unfold State.hostDone
  dsimp only
  split
  · exact h
  · exact State.ite_canonical h (State.ite_canonical (State.foldl_canonical (fun _ _ h1 => State.lookup_canonical h1)
      (State.acknowledged_canonical (State.ite_canonical (State.reportLine_canonical (State.updCol_canonical (State.updCol_canonical h (fun
      _ h2 => Column.updBay_canonical h2)) (fun _ h3 => Column.updBay_canonical h3))) (State.mk_host_canonical (State.updCol_canonical h
      (fun _ h4 => Column.updBay_canonical h4)) (HostSide.write_canonical (State.host_canonical (State.updCol_canonical h (fun _ h5 =>
      Column.updBay_canonical h5)))))))) (State.ite_canonical (State.foldl_canonical (fun _ _ h6 => State.failReq_canonical h6)
      (State.updCol_canonical h (fun _ h7 => Column.updBay_canonical h7))) (State.foldl_canonical (fun _ _ h8 => State.send_canonical h8)
      (State.updCol_canonical (State.mk_host_canonical (State.updCol_canonical h (fun _ h9 => Column.updBay_canonical h9))
      (HostSide.write_canonical (State.host_canonical (State.updCol_canonical h (fun _ h10 => Column.updBay_canonical h10))))) (fun _ h11 =>
      Column.landHost_canonical h11)))))

theorem execHostLinkCompletion_canonical {c} {rid} {error} {data} {s : State} (h : s.canonical) : answersCanonical (execHostLinkCompletion c
    rid error data s) :=
  State.hostDone_canonical h

theorem execHostLinkRetriesExhausted_canonical {c} {rid} {s : State} (h : s.canonical) : answersCanonical (execHostLinkRetriesExhausted c
    rid s) :=
  State.hostDone_canonical h

theorem State.setPte_canonical {s : State} {c} {l} {e} (h : s.canonical) : (s.setPte c l e).canonical :=
  State.updCol_canonical h (fun _ h1 => Column.putBytes_canonical h1)

theorem Column.carryOut_canonical {x : Column} {c} {f : ℕ → ℕ} (h : x.canonical) : (x.carryOut c f).canonical :=
  Column.mk_canonical h

theorem Column.carry_canonical {x : Column} {c} {f : ℕ → ℕ} (h : x.canonical) : (x.carry c f).canonical :=
  Column.mk_canonical (Column.updBay_canonical h)

theorem State.carryPage_canonical {s : State} {c} {f : ℕ → ℕ} (h : s.canonical) : (s.carryPage c f).canonical :=
  State.updCol_canonical (State.mapCols_canonical h fun _ _ hx => Column.carryOut_canonical hx) fun _ hx => Column.carry_canonical hx

theorem State.recallFrame_canonical {s : State} {c} {base} {size} (h : s.canonical) : (s.recallFrame c base size).canonical :=
  State.updCol_canonical h (fun _ h1 => Column.foldl_canonical (fun _ _ h2 => Column.evictL1_canonical h2) h1)

theorem State.copyFrame_canonical {s : State} {c} {ctx} {old} {new} {size} (h : s.canonical) :
    (s.copyFrame c ctx old new size).canonical := by
  unfold State.copyFrame
  dsimp only
  refine State.mk_host_canonical (State.setCol_canonical h (Column.foldl_canonical (fun x l hx => ?_)
    (Column.clearRange_canonical (State.col_canonical h)))) (HostSide.ite_canonical (HostSide.foldl_canonical
      (fun _ _ hg => HostSide.write_canonical hg) (State.host_canonical h)) (State.host_canonical h))
  exact Memory.wf_writeBytes _ _ hx

theorem State.movePage_canonical {s : State} {c} {l} {new} (h : s.canonical) : (s.movePage c l new).canonical :=
  State.carryPage_canonical (State.foldl_canonical (fun _ _ h1 => State.updCol_canonical (State.setPte_canonical h1) (fun _ h2 =>
    Column.dropTlb_canonical h2)) (State.copyFrame_canonical (State.recallFrame_canonical h)))

theorem execMigratePage_canonical {ctx} {c} {va} {dest} {s : State} (h : s.canonical) : answersCanonical (execMigratePage ctx c va dest s)
    := by
  unfold execMigratePage
  split
  · exact h
  · exact answersCanonical_ite h (answersCanonical_ite (State.updCol_canonical (State.recallFrame_canonical (State.setPte_canonical h)) (fun
      _ h1 => Column.updBay_canonical h1)) (answersCanonical_ite h (answersCanonical_ite (State.recallFrame_canonical h)
      (State.updCol_canonical (State.movePage_canonical h) (fun _ h2 => Column.updBay_canonical h2)))))

theorem execStrandBeatError_canonical {c} {strand} {a} {again} {s : State} (h : s.canonical) : answersCanonical (execStrandBeatError c
    strand a again s) :=
  answersCanonical_ite h (answersCanonical_ite (State.updCol_canonical h (fun _ h1 => Column.updBay_canonical h1)) (State.mk_host_canonical
    h (HostSide.mk_canonical (State.host_canonical h))))

theorem State.rehome_canonical {s : State} {c} {limit} {l} (h : s.canonical) : (s.rehome c limit l).canonical := by
  unfold State.rehome
  dsimp only
  split
  · exact State.movePage_canonical h
  · exact h

theorem execStrandRetire_canonical {c} {strand} {s : State} (h : s.canonical) : answersCanonical (execStrandRetire c strand s) :=
  answersCanonical_ite h (State.event_canonical (State.updCol_canonical (State.updCol_canonical (State.foldl_canonical (fun _ _ h1 =>
    State.rehome_canonical h1) (State.setCol_canonical h (Column.mk_canonical (State.col_canonical h)))) (fun _ h2 =>
    Column.dropCopies_canonical (Column.clearRange_canonical h2))) (fun _ h3 => Column.foldl_canonical (fun _ _ h4 =>
    Column.raiseEvent_canonical h4) h3)))

theorem execLinkCheckError_canonical {router} {port} {again} {s : State} (h : s.canonical) : answersCanonical (execLinkCheckError router
    port again s) := by
  unfold execLinkCheckError
  split
  · exact h
  · exact answersCanonical_ite h (answersCanonical_ite (State.mk_host_canonical h (HostSide.mk_canonical (State.host_canonical h)))
      (State.event_canonical (State.mk_canonical h)))

theorem State.restartGroup_canonical {s : State} {node} {gid} (h : s.canonical) : (s.restartGroup node gid).canonical :=
  State.setGroupState_canonical (State.endGroup_canonical h)

theorem State.containReport_canonical {s : State} {node} {gid} {c} {code} {lost} (h : s.canonical) : (s.containReport node gid c code
    lost).canonical :=
  State.report_canonical h

theorem State.sweepFlits_canonical {s : State} {f : Flit → Option Flit} (h : s.canonical) : (s.sweepFlits f).canonical :=
  State.mapCols_canonical h fun _ _ hx => Column.mk_canonical hx

theorem State.clearGang_canonical {s : State} {l} (h : s.canonical) : (s.clearGang l).canonical :=
  State.sweepFlits_canonical (State.foldl_canonical (fun _ _ h1 => State.updCol_canonical h1 (fun _ h2 => Column.mk_canonical h2)) h)

theorem State.moveGang_canonical {s : State} {gang} {c} {p} (h : s.canonical) : (s.moveGang gang c p).canonical :=
  State.sweepFlits_canonical (State.updCol_canonical (State.updCol_canonical h (fun _ h1 => Column.mk_canonical h1)) (fun _ h2 =>
    Column.mk_canonical h2))

theorem State.fenceLaunch_canonical {s : State} {node} {c} (h : s.canonical) : (s.fenceLaunch node c).canonical := by
  unfold State.fenceLaunch
  dsimp only
  split
  · exact State.endLaunch_canonical (State.foldl_canonical (fun _ _ h1 => State.containReport_canonical h1) h)
  · exact State.foldl_canonical (fun _ _ h2 => State.startToken_canonical h2) (State.ite_canonical (State.clearGang_canonical
      (State.moveGang_canonical (State.setNode_canonical (State.updCol_canonical (State.updCol_canonical (State.foldl_canonical (fun _ _ h3
      => State.restartGroup_canonical h3) (State.foldl_canonical (fun _ _ h4 => State.containReport_canonical h4) h)) (fun _ h5 =>
      Column.mk_canonical h5)) (fun _ h6 => Column.mk_canonical h6))))) (State.moveGang_canonical (State.setNode_canonical
      (State.updCol_canonical (State.updCol_canonical (State.foldl_canonical (fun _ _ h7 => State.restartGroup_canonical h7)
      (State.foldl_canonical (fun _ _ h8 => State.containReport_canonical h8) h)) (fun _ h9 => Column.mk_canonical h9)) (fun _ h10 =>
      Column.mk_canonical h10)))))

theorem State.retireLaunch_canonical {s : State} {node} {c} (h : s.canonical) : (s.retireLaunch node c).canonical :=
  State.tryFinish_canonical (State.foldl_canonical (fun _ _ h1 => State.endGroup_canonical h1) (State.setNode_canonical
    (State.foldl_canonical (fun _ _ h2 => State.containReport_canonical h2) h)))

theorem State.retirePages_canonical {s : State} {c} (h : s.canonical) : (s.retirePages c).canonical :=
  State.foldl_canonical (fun _ _ h1 => State.setPte_canonical h1) h

theorem Column.loseCore_canonical {x : Column} {fence} (h : x.canonical) : (x.loseCore fence).canonical :=
  Column.mk_canonical h

theorem execContainment_canonical {c} {memory} {s : State} (h : s.canonical) : answersCanonical (execContainment c memory s) :=
  answersCanonical_ite h (answersCanonical_next (State.foldl_canonical (fun _ _ h1 => State.ite_canonical (State.ite_canonical
    (State.retireLaunch_canonical h1) h1) (State.fenceLaunch_canonical h1)) (State.ite_canonical (State.updCol_canonical
    (State.ite_canonical (State.updCol_canonical (State.retirePages_canonical h) (fun _ h2 => Column.mk_canonical h2)) h) (fun _ h3 =>
    Column.loseCore_canonical h3)) (State.ite_canonical (State.updCol_canonical (State.retirePages_canonical h) (fun _ h4 =>
    Column.mk_canonical h4)) h))))

/-! ## Exchange -/

theorem State.keepFlit_canonical {s : State} {c} {f} (h : s.canonical) {t} (ht : s.keepFlit c f = some t) : t.canonical := by
  obtain ⟨_, _, rfl⟩ := Option.map_eq_some_iff.1 ht
  exact State.setGroupState_canonical h

theorem Column.setExchange_canonical {x : Column} {n} {e} (h : x.canonical) : (x.setExchange n e).canonical :=
  Column.setWarp_canonical h

theorem Column.setVpend_canonical {x : Column} {n} {id} {f : VPend → VPend} (h : x.canonical) : (x.setVpend n id f).canonical :=
  Column.setWarp_canonical h

theorem Column.exchangeError_canonical {x : Column} {n} {e} {c} (h : x.canonical) : (x.exchangeError n e c).canonical :=
  Column.setExchange_canonical (Column.ite_canonical (Column.setVpend_canonical h) (Column.setWarp_canonical h))

theorem Column.touchMail_canonical {x : Column} {region} {line} {write} (h : x.canonical) : (x.touchMail region line write).canonical :=
  Column.updBay_canonical h

theorem Column.takeMail_canonical {x : Column} {region} {sysMib} {key} (h : x.canonical) {t} (ht : x.takeMail region sysMib key = some t) :
    t.2.canonical := by
  unfold Column.takeMail at ht
  dsimp only at ht
  split at ht
  · cases ht
    exact Column.touchMail_canonical (Column.mk_canonical h)
  · cases ht

theorem Column.dropEntry_canonical {x : Column} {n} (h : x.canonical) : (x.dropEntry n).canonical := by
  unfold Column.dropEntry
  split
  · exact h
  · exact Column.ite_canonical (Column.mk_canonical h) h

theorem Column.exchangeValue_canonical {x : Column} {n} {e} (h : x.canonical) : (x.exchangeValue n e).canonical :=
  Column.ite_canonical (Column.ite_canonical (Column.setGroup_canonical (Column.setVpend_canonical h)) (Column.setVpend_canonical h)) h

theorem Column.finishExchange_canonical {x : Column} {n} (h : x.canonical) : (x.finishExchange n).canonical := by
  unfold Column.finishExchange
  dsimp only
  split
  · exact Column.dropEntry_canonical h
  · exact Column.ite_canonical (Column.ite_canonical (Column.exchangeValue_canonical (Column.dropEntry_canonical h))
      (Column.setWarp_canonical (Column.exchangeValue_canonical (Column.dropEntry_canonical h)))) (Column.dropEntry_canonical h)

theorem State.receive_canonical {s : State} {c} {n} (h : s.canonical) : (s.receive c n).canonical := by
  unfold State.receive
  split
  · exact h
  · refine State.ite_canonical h ?_
    dsimp only
    refine State.setCol_canonical h ?_
    refine Column.finishExchange_canonical ?_
    refine Column.ite_canonical ?_ ?_
    · refine Column.exchangeError_canonical ?_
      refine Column.setExchange_canonical ?_
      refine Column.foldl_fst_canonical (fun _ _ h1 => ?_) (State.col_canonical h)
      split
      · exact h1
      · next h2 =>
          exact Column.takeMail_canonical h1 h2
    · refine Column.setExchange_canonical ?_
      refine Column.foldl_fst_canonical (fun _ _ h3 => ?_) (State.col_canonical h)
      split
      · exact h3
      · next h4 =>
          exact Column.takeMail_canonical h3 h4

theorem execXredCombine_canonical {c} {n} {s : State} (h : s.canonical) : answersCanonical (execXredCombine c n s) := by
  unfold execXredCombine
  split
  · exact h
  · dsimp only
    refine answersCanonical_ite h ?_
    refine answersCanonical_next ?_
    refine State.setCol_canonical h ?_
    refine Column.finishExchange_canonical ?_
    refine Column.ite_canonical ?_ ?_
    · refine Column.exchangeError_canonical ?_
      refine Column.setExchange_canonical ?_
      refine Column.foldl_fst_canonical (fun _ _ h1 => ?_) (State.col_canonical h)
      split
      · next h2 =>
          exact Column.takeMail_canonical h1 h2
      · exact h1
    · refine Column.setExchange_canonical ?_
      refine Column.foldl_fst_canonical (fun _ _ h3 => ?_) (State.col_canonical h)
      split
      · next h4 =>
          exact Column.takeMail_canonical h3 h4
      · exact h3

theorem State.sendMessage_canonical {s : State} {c} {n} {e} {g} (h : s.canonical) : (s.sendMessage c n e g).canonical :=
  State.updCol_canonical h (fun _ h1 => Column.foldl_canonical (fun _ _ h2 => Column.sendCore_canonical h2) h1)

theorem State.resendExchanges_canonical {s : State} {c} (h : s.canonical) : (s.resendExchanges c).canonical := by
  unfold State.resendExchanges
  refine State.foldl_canonical (fun _ _ h1 => ?_) h
  split
  · exact h1
  · dsimp only
    refine State.foldl_canonical (fun _ _ h2 => ?_) h1
    refine State.ite_canonical h2 ?_
    split
    · exact h2
    · exact State.sendMessage_canonical (State.updCol_canonical h2 (fun _ h3 => Column.count_canonical (Column.setExchange_canonical h3)))

theorem State.inPlace_canonical {s : State} (h : s.canonical) : s.inPlace.canonical :=
  State.inPlaceUntil_canonical h

theorem State.beginExchange_canonical {s : State} {mid} {e} {regs} (h : s.canonical) : (s.beginExchange mid e regs).2.canonical := by
  unfold State.beginExchange
  split
  · next h1 =>
      exact State.updHere_canonical (State.updWarp_canonical (State.setNode_canonical (canonical_of_snd h1 (State.pendVl_canonical h))))
        (fun _ h2 => Column.mk_canonical h2)

theorem State.exchangeWord_canonical {s : State} {kind} {d} {a} {b} (h : s.canonical) : answersCanonical (s.exchangeWord kind d a b) := by
  unfold State.exchangeWord
  refine State.onCore_canonical h ?_
  refine outsideTx_canonical h (fun _ h1 => ?_)
  split
  · exact State.raiseErred_canonical h1
  · dsimp only
    split
    · exact State.trap_canonical h1
    · refine answersCanonical_ite (State.raise_canonical h1) ?_
      refine answersCanonical_ite (State.blockAt_canonical h1) ?_
      split
      · exact State.inPlace_canonical h1
      · exact answersCanonical_ite (State.inPlace_canonical h1) (State.updHere_canonical (State.receive_canonical (State.ite_canonical
          (State.addHold_canonical (State.foldl_canonical (fun _ _ h2 => State.sendMessage_canonical h2) (State.beginExchange_canonical
          h1))) (State.foldl_canonical (fun _ _ h3 => State.sendMessage_canonical h3) (State.beginExchange_canonical h1)))) (fun _ h4 =>
          Column.finishExchange_canonical h4))

theorem execXchXor_canonical {d} {a} {b} {s : State} (h : s.canonical) : answersCanonical (execXchXor d a b s) :=
  accept_canonical h (fun _ h1 => State.exchangeWord_canonical h1)

theorem execXchRot_canonical {d} {a} {b} {s : State} (h : s.canonical) : answersCanonical (execXchRot d a b s) :=
  accept_canonical h (fun _ h1 => State.exchangeWord_canonical h1)

theorem execXchBc_canonical {d} {a} {b} {s : State} (h : s.canonical) : answersCanonical (execXchBc d a b s) :=
  accept_canonical h (fun _ h1 => State.exchangeWord_canonical h1)

theorem execXchGath_canonical {a} {b} {s : State} (h : s.canonical) : answersCanonical (execXchGath a b s) :=
  accept_canonical h (fun _ h1 => State.exchangeWord_canonical h1)

theorem execXred_canonical {d} {a} {b} {s : State} (h : s.canonical) : answersCanonical (execXred d a b s) :=
  accept_canonical h (fun _ h1 => State.exchangeWord_canonical h1)

theorem execXbar_canonical {s : State} (h : s.canonical) : answersCanonical (execXbar s) := by
  unfold execXbar
  refine accept_canonical h (fun _ h1 => ?_)
  refine State.onCore_canonical h1 ?_
  refine outsideTx_canonical h1 (fun _ h2 => ?_)
  split
  · exact State.raiseErred_canonical h2
  · refine answersCanonical_ite (State.trap_canonical h2) ?_
    refine answersCanonical_ite (State.blockAt_canonical h2) ?_
    refine State.afterRelease_canonical h2 (fun _ h3 => ?_)
    split
    · exact State.inPlace_canonical h3
    · refine answersCanonical_ite (State.inPlace_canonical h3) ?_
      split
      · next h4 =>
          exact State.addHold_canonical (State.updHere_canonical (canonical_of_snd h4 (State.beginExchange_canonical
            (State.passToken_canonical h3))) (fun _ h5 => Column.sendCore_canonical (Column.setVpend_canonical h5)))

theorem execXdata_canonical {c} {s : State} (h : s.canonical) : answersCanonical (execXdata c s) := by
  unfold execXdata
  dsimp only
  split
  · exact h
  · next h1 =>
      split
      · exact State.setCol_canonical h (Column.takeFlit_canonical (State.col_canonical h) h1)
      · refine answersCanonical_ite h ?_
        split
        · exact answersCanonical_ite (State.setCol_canonical h (Column.sendBay_canonical (Column.mk_canonical (Column.takeFlit_canonical
            (State.col_canonical h) h1)))) (answersCanonical_ite (State.setCol_canonical h (Column.sendBay_canonical (Column.mk_canonical
            (Column.takeFlit_canonical (State.col_canonical h) h1)))) (State.setCol_canonical h (Column.sendBay_canonical
            (Column.touchMail_canonical (Column.mk_canonical (Column.takeFlit_canonical (State.col_canonical h) h1))))))
        · exact State.setCol_canonical h (Column.mk_canonical (Column.takeFlit_canonical (State.col_canonical h) h1))

theorem State.answerTo_canonical {s : State} {c} {f} {x : Column} {run : ℕ → Exchange → State} (h : s.canonical) (hx : x.canonical) (hrun :
    ∀ (a : ℕ) (a_1 : Exchange), (run a a_1).canonical) : (s.answerTo c f x run).canonical := by
  unfold State.answerTo
  split
  · next h1 =>
      exact State.keepFlit_canonical (State.setCol_canonical h hx) h1
  · split
    · exact hrun _ _
    · exact State.setCol_canonical h hx

theorem execAck_canonical {c} {s : State} (h : s.canonical) : answersCanonical (execAck c s) := by
  unfold execAck
  split
  · exact h
  · next h1 =>
      refine answersCanonical_ite (State.answerTo_canonical h (Column.takeFlit_canonical (State.col_canonical h) h1) (fun _ _ =>
        State.setCol_canonical h (Column.finishExchange_canonical (Column.setExchange_canonical (Column.takeFlit_canonical
        (State.col_canonical h) h1))))) ?_
      split
      · next h2 =>
          exact State.setCol_canonical h (Column.setCmd_canonical (canonical_of_snd h2 (Column.answered_canonical (Column.takeFlit_canonical
            (State.col_canonical h) h1))))
      · next h3 =>
          exact State.setCol_canonical h (canonical_of_snd h3 (Column.answered_canonical (Column.takeFlit_canonical (State.col_canonical h)
            h1)))

theorem execNack_canonical {c} {s : State} (h : s.canonical) : answersCanonical (execNack c s) := by
  unfold execNack
  split
  · exact h
  · next h1 =>
      exact answersCanonical_ite (State.setCol_canonical h (Column.nacked_canonical (Column.takeFlit_canonical (State.col_canonical h) h1)))
        (State.answerTo_canonical h (Column.takeFlit_canonical (State.col_canonical h) h1) (fun _ _ => State.ite_canonical
        (State.setCol_canonical h (Column.finishExchange_canonical (Column.exchangeError_canonical (Column.setExchange_canonical
        (Column.takeFlit_canonical (State.col_canonical h) h1))))) (State.setCol_canonical h (Column.setExchange_canonical
        (Column.takeFlit_canonical (State.col_canonical h) h1)))))

theorem execXctlArrival_canonical {c} {s : State} (h : s.canonical) : answersCanonical (execXctlArrival c s) := by
  unfold execXctlArrival
  dsimp only
  split
  · exact h
  · next h1 =>
      split
      · exact State.setCol_canonical h (Column.takeFlit_canonical (State.col_canonical h) h1)
      · exact answersCanonical_ite (answersCanonical_ite h (State.setCol_canonical h (Column.foldl_canonical (fun _ _ h2 =>
          Column.sendBay_canonical h2) (Column.mk_canonical (Column.takeFlit_canonical (State.col_canonical h) h1)))))
          (State.setCol_canonical h (Column.mk_canonical (Column.takeFlit_canonical (State.col_canonical h) h1)))

theorem execXctlRelease_canonical {c} {s : State} (h : s.canonical) : answersCanonical (execXctlRelease c s) := by
  unfold execXctlRelease
  split
  · exact h
  · next h1 =>
      exact State.answerTo_canonical h (Column.takeFlit_canonical (State.col_canonical h) h1) (fun _ _ => State.setCol_canonical h
        (Column.finishExchange_canonical (Column.acquireAt_canonical (Column.setWarp_canonical (Column.setVpend_canonical
        (Column.setExchange_canonical (Column.takeFlit_canonical (State.col_canonical h) h1)))))))

theorem execRouterCycle_canonical {s : State} (h : s.canonical) : answersCanonical (execRouterCycle s) :=
  answersCanonical_ite h (State.mk_canonical (State.foldl_canonical (fun _ _ h1 => State.routerStep_canonical h1) (State.foldl_canonical
    (fun _ _ h2 => State.resendExchanges_canonical h2) h)))

/-! ## Exit -/

theorem State.retire_canonical {s : State} {n} {b} (h : s.canonical) : (s.retire n b).canonical :=
  State.ite_canonical (State.passToken_canonical (State.rejoinUpdate_canonical (State.updHere_canonical (State.endRun_canonical h) (fun _ h1
    => Column.setWarp_canonical (Column.settleRegions_canonical (Column.setWarp_canonical h1)))))) (State.rejoinUpdate_canonical
    (State.updHere_canonical (State.endRun_canonical h) (fun _ h2 => Column.setWarp_canonical (Column.settleRegions_canonical
    (Column.setWarp_canonical h2)))))

theorem execExit_canonical {s : State} (h : s.canonical) : answersCanonical (execExit s) := by
  unfold execExit
  refine accept_canonical h (fun _ h1 => ?_)
  dsimp only
  split
  · exact State.raiseErred_canonical (State.setThreadOf_canonical (State.ite_canonical (State.abortTx_canonical h1) h1))
  · refine answersCanonical_ite (answersCanonical_next (State.ite_canonical (State.holdAt_canonical (State.ite_canonical
      (State.abortTx_canonical h1) h1)) (State.blockAt_canonical (State.ite_canonical (State.abortTx_canonical h1) h1)))) ?_
    split
    · exact State.retire_canonical (State.ite_canonical (State.abortTx_canonical h1) h1)
    · exact State.updHere_canonical (State.ite_canonical (State.abortTx_canonical h1) h1) (fun _ h2 => Column.setCtx_canonical h2)
    · exact State.updPath_canonical (State.ite_canonical (State.abortTx_canonical h1) h1)

/-! ## TxWords -/

theorem execTbegin_canonical {d} {s : State} (h : s.canonical) : answersCanonical (execTbegin d s) := by
  unfold execTbegin
  refine accept_canonical h (fun _ h1 => ?_)
  dsimp only
  split
  · split
    · exact answersCanonical_ite (State.abortTx_canonical h1) (State.vlResult_canonical (State.abortTx_canonical h1))
    · exact State.vlResult_canonical (State.updWarp_canonical (State.acquire_canonical h1))
  · exact State.vlResult_canonical (State.ite_canonical (State.abortTx_canonical h1) (State.updWarp_canonical h1))
  · exact State.vlResult_canonical (State.updHere_canonical h1 (fun _ h2 => Column.mk_canonical h2))
  · exact State.vlResult_canonical h1

theorem Column.applyWrites_canonical {x : Column} {w} (h : x.canonical) : (x.applyWrites w).canonical :=
  Column.foldl_canonical (fun _ _ h1 => Column.foldl_canonical (fun _ _ h2 => Column.putByte_canonical h2) h1) h

theorem State.commit_canonical {s : State} {t} (h : s.canonical) : (s.commit t).canonical :=
  State.ite_canonical (State.updWarp_canonical (State.setCol_canonical (State.setCol_canonical h (Column.foldl_canonical (fun _ _ h1 =>
    Column.settleLine_canonical (Column.recallU_canonical h1)) (State.here_canonical h))) (Column.foldl_canonical (fun _ _ h2 =>
    Column.ite_canonical (Column.lastUse_canonical (Column.mk_canonical h2)) (Column.mk_canonical h2)) (Column.foldl_canonical (fun _ _ h3
    => Column.mk_canonical h3) (Column.applyWrites_canonical (Column.foldl_canonical (fun _ _ h4 => Column.settleLine_canonical
    (Column.recallU_canonical h4)) (State.here_canonical h))))))) (State.abortTx_canonical (State.setCol_canonical h (Column.foldl_canonical
    (fun _ _ h5 => Column.settleLine_canonical (Column.recallU_canonical h5)) (State.here_canonical h))))

theorem execTend_canonical {s : State} (h : s.canonical) : answersCanonical (execTend s) := by
  unfold execTend
  refine accept_canonical h (fun _ h1 => ?_)
  split
  · exact State.illegal_canonical h1
  · exact answersCanonical_ite (State.holdAt_canonical (State.performDeferred_canonical h1)) (State.afterRelease_canonical
      (State.performDeferred_canonical h1) (fun _ h2 => answersCanonical_ite (State.blockAt_canonical h2) (State.commit_canonical h2)))

theorem execTabort_canonical {a} {s : State} (h : s.canonical) : answersCanonical (execTabort a s) :=
  accept_canonical h (fun _ h1 => answersCanonical_next (State.ite_canonical (State.abortTx_canonical h1) h1))

theorem execTstat_canonical {d} {s : State} (h : s.canonical) : answersCanonical (execTstat d s) :=
  accept_canonical h (fun _ h1 => State.vlScalar_canonical h1)

/-! ## Issue -/

theorem execPfx_canonical {k} {z} {r} {x} {p} {e} {u} {y} {t} {s : State} (h : s.canonical) : answersCanonical (execPfx k z r x p e u y t s)
    :=
  State.mk_canonical h

theorem Column.clearYields_canonical {x : Column} {q} (h : x.canonical) : (x.clearYields q).canonical :=
  Column.foldl_canonical (fun _ _ h1 => Column.ite_canonical (Column.setWarp_canonical h1) h1) h

theorem State.readyQuarter_canonical {s : State} {c} {q} (h : s.canonical) : (s.readyQuarter c q).canonical :=
  State.foldl_canonical (fun _ _ h1 => State.settleHolds_canonical (State.asAgent_canonical h1)) (State.updCol_canonical
    (State.foldl_canonical (fun _ _ h2 => State.reap_canonical h2) (State.foldl_canonical (fun _ _ h3 => State.landDue_canonical h3) h))
    (fun _ h4 => Column.foldl_canonical (fun _ _ h5 => Column.setWarp_canonical h5) h4))

theorem Column.startRun_canonical {x : Column} {q} {n} {clk} {b} {credits} (h : x.canonical) : (x.startRun q n clk b credits).canonical :=
  Column.setQuarter_canonical (Column.setWarp_canonical h)

theorem State.arbitrate_canonical {s : State} {c} {q} (h : s.canonical) : (s.arbitrate c q).canonical := by
  unfold State.arbitrate
  dsimp only
  refine State.updCol_canonical ?_ (fun _ h1 => Column.setQuarter_canonical (Column.clearYields_canonical h1))
  split
  · exact State.updCol_canonical h (fun _ h2 => Column.foldl_canonical (fun _ _ h3 => Column.count_canonical h3) h2)
  · exact State.updCol_canonical (State.updCol_canonical h (fun _ h4 => Column.foldl_canonical (fun _ _ h5 => Column.count_canonical h5)
      h4)) (fun _ h6 => Column.startRun_canonical h6)

theorem execRunArbitration_canonical {c} {q} {s : State} (h : s.canonical) : answersCanonical (execRunArbitration c q s) :=
  answersCanonical_ite h (State.mk_canonical (State.arbitrate_canonical (State.readyQuarter_canonical h)))

theorem execVariableLatencyLand_canonical {c} {agent} {id} {s : State} (h : s.canonical) : answersCanonical (execVariableLatencyLand c agent
    id s) := by
  unfold execVariableLatencyLand
  dsimp only
  split
  · exact State.landDue_canonical (State.ite_canonical (State.receive_canonical h) h)
  · split
    · exact State.landDue_canonical (State.ite_canonical (State.receive_canonical h) h)
    · exact answersCanonical_ite (State.landDue_canonical (State.ite_canonical (State.receive_canonical h) h)) (answersCanonical_next
        (State.ite_canonical (State.updCol_canonical (State.setThreadOf_canonical (State.foldl_canonical (fun _ _ h1 =>
        State.landWrite_canonical h1) (State.landDue_canonical (State.ite_canonical (State.receive_canonical h) h)))) (fun _ h2 =>
        Column.finishExchange_canonical h2)) (State.setThreadOf_canonical (State.foldl_canonical (fun _ _ h3 => State.landWrite_canonical
        h3) (State.landDue_canonical (State.ite_canonical (State.receive_canonical h) h))))))

theorem execSleepExpire_canonical {c} {agent} {slotB} {s : State} (h : s.canonical) : answersCanonical (execSleepExpire c agent slotB s) :=
    by
  unfold execSleepExpire
  dsimp only
  split
  · exact answersCanonical_ite (State.setPathOf_canonical h) h
  · exact h

theorem execRejoinTimeout_canonical {c} {slot} {s : State} (h : s.canonical) : answersCanonical (execRejoinTimeout c slot s) :=
  answersCanonical_ite (State.park_canonical h) h

theorem Column.portClear_canonical {x : Column} {i} (h : x.canonical) : (x.portClear i).canonical :=
  Column.mk_canonical h

theorem Column.handOver_canonical {x : Column} {i} (h : x.canonical) : (x.handOver i).2.canonical := by
  unfold Column.handOver
  dsimp only
  split
  · exact h
  · split
    · next h1 =>
        exact canonical_of_snd_snd h1 (Column.drain_canonical h)
    · next h2 =>
        exact canonical_of_snd_snd h2 (Column.drain_canonical h)

theorem execLaneContextStart_canonical {c} {i} {s : State} (h : s.canonical) : answersCanonical (execLaneContextStart c i s) :=
  answersCanonical_ite h (answersCanonical_ite (State.setCol_canonical (State.performDeferred_canonical h) (Column.setCtx_canonical
    (Column.portClear_canonical (Column.acquireL1_canonical (Column.handOver_canonical (State.col_canonical (State.performDeferred_canonical
    h))))))) (State.setCol_canonical (State.performDeferred_canonical h) (Column.setCtx_canonical (Column.handOver_canonical
    (State.col_canonical (State.performDeferred_canonical h))))))

theorem Column.freeCtx_canonical {x : Column} {i} (h : x.canonical) : (x.freeCtx i).canonical :=
  Column.mk_canonical (Column.portClear_canonical h)

theorem State.afterLane_canonical {s : State} {c} {n} (h : s.canonical) : (s.afterLane c n).canonical :=
  State.rejoinUpdate_canonical (State.updCol_canonical h (fun _ h1 => Column.setWarp_canonical (Column.settleRegions_canonical h1)))

theorem Column.releaseCtx_canonical {x : Column} {i} (h : x.canonical) : (x.releaseCtx i).2.canonical := by
  unfold Column.releaseCtx
  split
  · next h1 =>
      exact Column.dropClean_canonical (canonical_of_snd_snd h1 (Column.drain_canonical h))
  · next h2 =>
      exact Column.setCtx_canonical (canonical_of_snd_snd h2 (Column.drain_canonical h))

theorem Column.mergeLane_canonical {x : Column} {i} (h : x.canonical) : (x.mergeLane i).canonical :=
  Column.freeCtx_canonical (Column.setWarp_canonical h)

theorem execLaneReturn_canonical {c} {i} {s : State} (h : s.canonical) : answersCanonical (execLaneReturn c i s) := by
  unfold execLaneReturn
  dsimp only
  refine answersCanonical_ite (State.landDue_canonical h) ?_
  refine answersCanonical_ite (answersCanonical_ite (State.afterLane_canonical (State.setCol_canonical (State.landDue_canonical h)
    (Column.mergeLane_canonical (State.col_canonical (State.landDue_canonical h))))) (State.landDue_canonical h)) ?_
  refine answersCanonical_ite (State.mk_canonical (State.performDeferred_canonical (State.asAgent_canonical (State.landDue_canonical h))))
    ?_
  split
  · next h1 =>
      exact State.setCol_canonical (State.landDue_canonical h) (canonical_of_snd h1 (Column.releaseCtx_canonical (State.col_canonical
        (State.landDue_canonical h))))
  · next h2 =>
      exact answersCanonical_ite (answersCanonical_next (State.ite_canonical (State.passToken_canonical (State.afterLane_canonical
        (State.setCol_canonical (State.landDue_canonical h) (Column.freeCtx_canonical (Column.setWarp_canonical (canonical_of_snd h2
        (Column.releaseCtx_canonical (State.col_canonical (State.landDue_canonical h))))))))) (State.afterLane_canonical
        (State.setCol_canonical (State.landDue_canonical h) (Column.freeCtx_canonical (Column.setWarp_canonical (canonical_of_snd h2
        (Column.releaseCtx_canonical (State.col_canonical (State.landDue_canonical h)))))))))) (State.setCol_canonical
        (State.landDue_canonical h) (Column.mk_canonical (canonical_of_snd h2 (Column.releaseCtx_canonical (State.col_canonical
        (State.landDue_canonical h))))))

/-! ## Host -/

theorem HostSide.writeDuty_canonical {h : HostSide} {v} (hh : h.canonical) : (h.writeDuty v).canonical :=
  HostSide.ite_canonical (HostSide.mk_canonical hh) hh

theorem execDutyMapWrite_canonical {v} {s : State} (h : s.canonical) : answersCanonical (execDutyMapWrite v s) :=
  answersCanonical_next (State.ite_canonical (State.mk_host_canonical h (HostSide.writeDuty_canonical (State.host_canonical h))) h)

theorem HostSide.writeCfg_canonical {h : HostSide} {fn} {fault} {v} (hh : h.canonical) : (h.writeCfg fn fault v).canonical :=
  HostSide.ite_canonical (HostSide.drainKept_canonical (HostSide.setFn_canonical hh)) (HostSide.setFn_canonical hh)

theorem execRingCfgWrite_canonical {fn} {fault} {v} {s : State} (h : s.canonical) : answersCanonical (execRingCfgWrite fn fault v s) :=
  answersCanonical_next (State.ite_canonical (State.mk_host_canonical h (HostSide.writeCfg_canonical (State.host_canonical h))) h)

theorem HostSide.takeReports_canonical {h : HostSide} {fn} {v} (hh : h.canonical) : (h.takeReports fn v).canonical :=
  HostSide.ite_canonical hh (HostSide.drainKept_canonical (HostSide.setFn_canonical hh))

theorem execFringHead_canonical {fn} {v} {s : State} (h : s.canonical) : answersCanonical (execFringHead fn v s) :=
  answersCanonical_next (State.ite_canonical (State.mk_host_canonical h (HostSide.takeReports_canonical (State.host_canonical h))) h)

theorem HostSide.writeFactor_canonical {h : HostSide} {off} {v} (hh : h.canonical) : (h.writeFactor off v).canonical := by
  unfold HostSide.writeFactor
  dsimp only
  refine HostSide.ite_canonical (HostSide.writeDuty_canonical hh) ?_
  refine HostSide.ite_canonical (HostSide.ite_canonical (HostSide.mk_canonical hh) hh) ?_
  refine HostSide.ite_canonical (HostSide.mk_canonical hh) ?_
  refine HostSide.ite_canonical (HostSide.ite_canonical (HostSide.mk_canonical hh) hh) ?_
  refine HostSide.ite_canonical (HostSide.flush_canonical (HostSide.mk_canonical hh)) ?_
  refine HostSide.ite_canonical ?_ hh
  split
  · exact HostSide.ite_canonical (HostSide.setFn_canonical hh) hh
  · exact HostSide.writeCfg_canonical hh
  · exact HostSide.ite_canonical (HostSide.setFn_canonical hh) hh
  · exact HostSide.writeCfg_canonical hh
  · exact hh

theorem Column.writeReg_canonical {x : Column} {off} {v} (h : x.canonical) : (x.writeReg off v).canonical :=
  Column.ite_canonical (Column.writeCtl_canonical h) (Column.ite_canonical (Column.updBay_canonical h) (Column.ite_canonical
    (Column.ite_canonical (Column.updBay_canonical h) (Column.ite_canonical (Column.updBay_canonical h) (Column.ite_canonical
    (Column.updBay_canonical h) (Column.updBay_canonical h)))) (Column.ite_canonical h (Column.updBay_canonical h))))

theorem execRegisterWrite_canonical {sp} {off} {v} {s : State} (h : s.canonical) : answersCanonical (execRegisterWrite sp off v s) := by
  unfold execRegisterWrite
  refine answersCanonical_ite ?_ (answersCanonical_ite h (answersCanonical_ite (State.mk_host_canonical h (HostSide.writeFactor_canonical
    (State.host_canonical h))) (answersCanonical_ite (answersCanonical_ite (State.mk_host_canonical h (HostSide.setFn_canonical
    (State.host_canonical h))) (answersCanonical_ite (State.mk_host_canonical h (HostSide.takeReports_canonical (State.host_canonical h)))
    h)) h)))
  split
  · exact State.writeAlias_canonical h
  · exact State.updCol_canonical h (fun _ h1 => Column.writeReg_canonical h1)

theorem HostSide.answer_canonical {h : HostSide} {q} {status} {payload} (hh : h.canonical) : (h.answer q status payload).canonical :=
  HostSide.foldl_canonical (fun _ _ h1 => HostSide.send_canonical h1) (HostSide.mk_canonical hh)

theorem State.serveOp_canonical {s : State} {op} {need} {run : State → List Byte → State × ℕ × List Byte} (h : s.canonical) (hrun : ∀ (t :
    State), t.canonical → ∀ (a : List Byte), (run t a).1.canonical) : answersCanonical (s.serveOp op need run) := by
  unfold State.serveOp
  split
  · exact h
  · exact answersCanonical_ite h (answersCanonical_ite (State.mk_host_canonical h (HostSide.answer_canonical (State.host_canonical h)))
      (State.mk_host_canonical (hrun _ h _) (HostSide.answer_canonical (State.host_canonical (hrun _ h _)))))

theorem execUnknownOp_canonical {s : State} (h : s.canonical) : answersCanonical (execUnknownOp s) := by
  unfold execUnknownOp
  split
  · exact h
  · exact answersCanonical_ite h (State.mk_host_canonical h (HostSide.answer_canonical (State.host_canonical h)))

theorem execAttest_canonical {s : State} (h : s.canonical) : answersCanonical (execAttest s) :=
  State.serveOp_canonical h (fun _ h1 _ => h1)

theorem execTrain_canonical {s : State} (h : s.canonical) : answersCanonical (execTrain s) := by
  unfold execTrain
  refine State.serveOp_canonical h (fun _ h1 _ => ?_)
  dsimp only
  split
  · exact h1
  · exact State.mk_host_canonical h1 (HostSide.mk_canonical (State.host_canonical h1))

theorem execScrub_canonical {s : State} (h : s.canonical) : answersCanonical (execScrub s) := by
  unfold execScrub
  refine State.serveOp_canonical h (fun _ h1 _ => ?_)
  split
  · exact h1
  · exact State.readHbm_canonical h1

theorem execEth_canonical {s : State} (h : s.canonical) : answersCanonical (execEth s) := by
  unfold execEth
  refine State.serveOp_canonical h (fun _ h1 _ => ?_)
  dsimp only
  split
  · exact h1
  · exact State.mk_host_canonical h1 (HostSide.mk_canonical (State.host_canonical h1))

theorem execThermal_canonical {s : State} (h : s.canonical) : answersCanonical (execThermal s) := by
  unfold execThermal
  refine State.serveOp_canonical h (fun _ h1 _ => ?_)
  dsimp only
  split
  · exact h1
  · exact State.mk_host_canonical h1 (HostSide.ite_canonical (HostSide.mk_canonical (State.host_canonical h1)) (HostSide.mk_canonical
      (State.host_canonical h1)))

theorem State.allot_canonical {s : State} {node} (h : s.canonical) : (s.allot node).canonical :=
  State.foldl_canonical (fun _ _ h1 => State.setNode_canonical (State.updCol_canonical h1 (fun _ h2 => Column.updBay_canonical h2))) h

theorem State.settleLimits_canonical {s : State} {c} (h : s.canonical) : (s.settleLimits c).canonical :=
  State.foldl_canonical (fun _ _ h1 => State.setNode_canonical (State.updCol_canonical h1 (fun _ h2 => Column.updBay_canonical h2))) h

theorem State.settleParts_canonical {s : State} {c} (h : s.canonical) : (s.settleParts c).canonical :=
  State.foldl_canonical (fun _ _ h1 => State.updCol_canonical h1 (fun _ h2 => Column.updBay_canonical h2)) h

theorem State.startSteward_canonical {s : State} {node} (h : s.canonical) : (s.startSteward node).canonical :=
  State.mk_canonical h

theorem State.installService_canonical {s : State} {fn} {b} (h : s.canonical) : (s.installService fn b).1.canonical := by
  unfold State.installService
  dsimp only
  split
  · exact h
  · split
    · exact h
    · exact State.ite_canonical (State.allot_canonical (State.mk_host_canonical (State.setNode_canonical h) (HostSide.setFn_canonical
        (State.host_canonical (State.setNode_canonical h))))) (State.startSteward_canonical (State.allot_canonical (State.mk_host_canonical
        (State.setNode_canonical h) (HostSide.setFn_canonical (State.host_canonical (State.setNode_canonical h))))))

theorem State.rewriteService_canonical {s : State} {fn} {b} (h : s.canonical) : (s.rewriteService fn b).1.canonical := by
  unfold State.rewriteService
  split
  · exact h
  · dsimp only
    split
    · exact h
    · exact State.allot_canonical (State.setNode_canonical h)

theorem State.unbind_canonical {s : State} {fn} {node} (h : s.canonical) : (s.unbind fn node).canonical :=
  State.mk_host_canonical (State.foldl_canonical (fun _ _ h1 => State.updCol_canonical h1 (fun _ h2 => Column.updBay_canonical h2)) h)
    (HostSide.mk_canonical (HostSide.setFn_canonical (State.host_canonical (State.foldl_canonical (fun _ _ h3 => State.updCol_canonical h3
    (fun _ h4 => Column.updBay_canonical h4)) h))))

theorem State.removeService_canonical {s : State} {fn} (h : s.canonical) : (s.removeService fn).1.canonical := by
  unfold State.removeService
  split
  · exact h
  · split
    · exact State.unbind_canonical h
    · exact h

theorem execService_canonical {s : State} (h : s.canonical) : answersCanonical (execService s) := by
  unfold execService
  refine State.serveOp_canonical h (fun _ h1 _ => ?_)
  dsimp only
  split
  · exact State.installService_canonical h1
  · exact State.rewriteService_canonical h1
  · exact State.removeService_canonical h1
  · exact h1

theorem execQp_canonical {s : State} (h : s.canonical) : answersCanonical (execQp s) := by
  unfold execQp
  refine State.serveOp_canonical h (fun _ h1 _ => ?_)
  dsimp only
  split
  · exact h1
  · split
    · split
      · exact h1
      · exact State.mk_host_canonical h1 (HostSide.mk_canonical (State.host_canonical h1))
    · split
      · exact State.mk_host_canonical h1 (HostSide.mk_canonical (State.host_canonical h1))
      · exact h1
    · split
      · exact State.mk_host_canonical h1 (HostSide.mk_canonical (State.host_canonical h1))
      · exact h1
    · exact h1

theorem execPeerRdmaRequest_canonical {port} {qpn} {kind} {col} {pa} {data} {s : State} (h : s.canonical) : answersCanonical
    (execPeerRdmaRequest port qpn kind col pa data s) :=
  answersCanonical_ite (State.mk_host_canonical h (HostSide.mk_canonical (State.host_canonical h))) (answersCanonical_ite h
    (answersCanonical_ite (State.mk_host_canonical (State.updCol_canonical (State.updCol_canonical h (fun _ h1 => Column.foldl_canonical
    (fun _ _ h2 => Column.recallU_canonical h2) h1)) (fun _ h3 => Column.foldl_canonical (fun _ _ h4 => Column.updBay_canonical h4)
    (Column.putBytes_canonical h3))) (HostSide.mk_canonical (State.host_canonical (State.updCol_canonical (State.updCol_canonical h (fun _
    h5 => Column.foldl_canonical (fun _ _ h6 => Column.recallU_canonical h6) h5)) (fun _ h7 => Column.foldl_canonical (fun _ _ h8 =>
    Column.updBay_canonical h8) (Column.putBytes_canonical h7)))))) (State.mk_host_canonical (State.updCol_canonical h (fun _ h9 =>
    Column.foldl_canonical (fun _ _ h10 => Column.recallU_canonical h10) h9)) (HostSide.mk_canonical (State.host_canonical
    (State.updCol_canonical h (fun _ h11 => Column.foldl_canonical (fun _ _ h12 => Column.recallU_canonical h12) h11)))))))

theorem Column.loadTinker_canonical {x : Column} {image} (h : x.canonical) : (x.loadTinker image).canonical :=
  Column.putBytes_canonical (Column.mk_canonical (Column.dropCopies_canonical h))

theorem Column.takeUpdate_canonical {x : Column} (h : x.canonical) : x.takeUpdate.canonical := by
  unfold Column.takeUpdate
  split
  · exact Column.ite_canonical (Column.loadTinker_canonical h) h
  · exact h

theorem execTinkerEvent_canonical {c} {s : State} (h : s.canonical) : answersCanonical (execTinkerEvent c s) := by
  unfold execTinkerEvent
  dsimp only
  split
  · exact State.updCol_canonical (State.landAll_canonical h) (fun _ h1 => Column.takeUpdate_canonical h1)
  · refine answersCanonical_ite (State.updCol_canonical (State.landAll_canonical h) (fun _ h2 => Column.takeUpdate_canonical h2)) ?_
    split
    · exact State.setCol_canonical (State.updCol_canonical (State.landAll_canonical h) (fun _ h3 => Column.takeUpdate_canonical h3))
        (Column.markServed_canonical (Column.mk_canonical (State.col_canonical (State.updCol_canonical (State.landAll_canonical h) (fun _ h4
        => Column.takeUpdate_canonical h4)))))
    · exact State.mk_host_canonical (State.setCol_canonical (State.updCol_canonical (State.landAll_canonical h) (fun _ h5 =>
        Column.takeUpdate_canonical h5)) (Column.markServed_canonical (Column.mk_canonical (State.col_canonical (State.updCol_canonical
        (State.landAll_canonical h) (fun _ h6 => Column.takeUpdate_canonical h6)))))) (HostSide.send_canonical (HostSide.mk_canonical
        (State.host_canonical (State.setCol_canonical (State.updCol_canonical (State.landAll_canonical h) (fun _ h7 =>
        Column.takeUpdate_canonical h7)) (Column.markServed_canonical (Column.mk_canonical (State.col_canonical (State.updCol_canonical
        (State.landAll_canonical h) (fun _ h8 => Column.takeUpdate_canonical h8)))))))))

theorem execPfaultDone_canonical {s : State} (h : s.canonical) : answersCanonical (execPfaultDone s) := by
  refine State.serveOp_canonical h fun t ht p => ?_
  extract_lets tag action host t1
  have h1 : t1.canonical := State.mk_host_canonical ht (HostSide.mk_canonical (State.host_canonical ht))
  clear_value t1
  split
  · exact ht
  · split
    · exact h1
    · exact State.ite_canonical
        (State.restartItem_canonical (State.eret_canonical (State.updCol_canonical h1 fun _ hx => Column.mk_canonical hx)))
        (State.eret_canonical (State.updCol_canonical h1 fun _ hx => Column.mk_canonical hx))

theorem HostSide.record_canonical {h : HostSide} {stage} {image} (hh : h.canonical) : (h.record stage image).canonical :=
  HostSide.mk_canonical hh

theorem State.loadField_canonical {s : State} {image} (h : s.canonical) : (s.loadField image).canonical :=
  State.mk_host_canonical h (HostSide.mk_canonical (HostSide.record_canonical (State.host_canonical h)))

theorem State.loadTinkers_canonical {s : State} {image} (h : s.canonical) : (s.loadTinkers image).canonical :=
  State.ite_canonical (State.mk_host_canonical h (HostSide.record_canonical (State.host_canonical h))) (State.foldl_canonical (fun _ _ h1 =>
    State.updCol_canonical h1 (fun _ h2 => Column.takeUpdate_canonical (Column.mk_canonical h2))) (State.mk_host_canonical h
    (HostSide.record_canonical (State.host_canonical h))))

theorem State.bootFails_canonical {s : State} {step} (h : s.canonical) : (s.bootFails step).canonical :=
  State.mk_host_canonical h (HostSide.mk_canonical (State.host_canonical h))

theorem State.bootField_canonical {s : State} {fail} (h : s.canonical) : (s.bootField fail).canonical := by
  unfold State.bootField
  dsimp only
  exact State.ite_canonical (State.bootFails_canonical (State.mk_host_canonical h (HostSide.ite_canonical (HostSide.mk_canonical
    (State.host_canonical h)) (State.host_canonical h)))) (State.ite_canonical (State.bootFails_canonical (State.mk_canonical
    (State.setNode_canonical (State.foldl_canonical (fun _ _ h1 => State.updCol_canonical h1 (fun _ h2 => Column.updBay_canonical h2))
    (State.mk_host_canonical h (HostSide.ite_canonical (HostSide.mk_canonical (State.host_canonical h)) (State.host_canonical h)))))))
    (State.mk_host_canonical (State.setNode_canonical (State.foldl_canonical (fun _ _ h3 => State.updCol_canonical h3 (fun _ h4 =>
    Column.updBay_canonical h4)) (State.mk_host_canonical h (HostSide.ite_canonical (HostSide.mk_canonical (State.host_canonical h))
    (State.host_canonical h))))) (HostSide.mk_canonical (State.host_canonical (State.setNode_canonical (State.foldl_canonical (fun _ _ h5 =>
    State.updCol_canonical h5 (fun _ h6 => Column.updBay_canonical h6)) (State.mk_host_canonical h (HostSide.ite_canonical
    (HostSide.mk_canonical (State.host_canonical h)) (State.host_canonical h)))))))))

theorem execBoot_canonical {fail} {net} {s : State} (h : s.canonical) : answersCanonical (execBoot fail net s) := by
  unfold execBoot
  refine answersCanonical_ite h ?_
  refine answersCanonical_ite (State.bootFails_canonical h) ?_
  dsimp only
  split
  · exact State.bootFails_canonical (State.ite_canonical (State.mk_host_canonical h (HostSide.mk_canonical (State.host_canonical h))) h)
  · split
    · exact State.bootField_canonical (State.loadTinkers_canonical (State.loadField_canonical (State.mk_host_canonical (State.ite_canonical
        (State.mk_host_canonical h (HostSide.mk_canonical (State.host_canonical h))) h) (HostSide.record_canonical (State.host_canonical
        (State.ite_canonical (State.mk_host_canonical h (HostSide.mk_canonical (State.host_canonical h))) h))))))
    · exact State.bootFails_canonical (State.mk_host_canonical (State.ite_canonical (State.mk_host_canonical h (HostSide.mk_canonical
        (State.host_canonical h))) h) (HostSide.record_canonical (State.host_canonical (State.ite_canonical (State.mk_host_canonical h
        (HostSide.mk_canonical (State.host_canonical h))) h))))

theorem execFwupdate_canonical {s : State} (h : s.canonical) : answersCanonical (execFwupdate s) := by
  unfold execFwupdate
  refine State.serveOp_canonical h (fun _ h1 _ => ?_)
  dsimp only
  split
  · exact h1
  · split
    · exact State.loadTinkers_canonical h1
    · exact State.mk_host_canonical (State.loadField_canonical h1) (HostSide.mk_canonical (State.host_canonical (State.loadField_canonical
        h1)))

theorem Column.dropHost_canonical {x : Column} {region} (h : x.canonical) : (x.dropHost region).canonical :=
  Column.updBay_canonical (Column.foldl_canonical (fun _ _ h1 => Column.updBay_canonical h1) (Column.mk_canonical h))

theorem execFunctionLevelReset_canonical {vf} {s : State} (h : s.canonical) : answersCanonical (execFunctionLevelReset vf s) := by
  unfold execFunctionLevelReset
  split
  · exact h
  · exact answersCanonical_next (State.foldl_canonical (fun _ _ h1 => State.acknowledged_canonical h1) (State.unbind_canonical
      (State.foldl_canonical (fun _ _ h2 => State.updCol_canonical h2 (fun _ h3 => Column.dropHost_canonical h3)) (State.foldl_canonical
      (fun _ _ h4 => State.setNode_canonical h4) (State.foldl_canonical (fun _ _ h5 => State.endLaunch_canonical h5) h)))))

theorem execPtpSync_canonical {port} {offset} {s : State} (h : s.canonical) : answersCanonical (execPtpSync port offset s) :=
  answersCanonical_ite h (answersCanonical_ite (State.mk_host_canonical h (HostSide.mk_canonical (State.host_canonical h)))
    (State.mk_host_canonical h (HostSide.mk_canonical (State.host_canonical h))))

theorem Column.loseAll_canonical {x : Column} (h : x.canonical) : x.loseAll.canonical :=
  Column.mk_canonical h

theorem execEmergencyTrip_canonical {s : State} (h : s.canonical) : answersCanonical (execEmergencyTrip s) := by
  have hcols : ({ s with cols := Tab.mapVals (fun _ x => x.loseAll) s.cols } : State).canonical :=
    State.mapCols_canonical h fun _ _ hx => Column.loseAll_canonical hx
  exact answersCanonical_next (State.mk_host_canonical hcols (HostSide.mk_canonical (State.host_canonical h)))

theorem HostSide.sample_canonical {h : HostSide} {time} {avg1} {avg10} {junction} (hh : h.canonical) : (h.sample time avg1 avg10
    junction).canonical :=
  HostSide.ite_canonical (HostSide.mk_canonical (HostSide.ite_canonical (HostSide.mk_canonical hh) hh)) (HostSide.ite_canonical
    (HostSide.mk_canonical (HostSide.ite_canonical (HostSide.mk_canonical hh) hh)) (HostSide.ite_canonical (HostSide.mk_canonical hh) hh))

theorem State.runDuty_canonical {s : State} {a} (h : s.canonical) : (s.runDuty a).canonical := by
  unfold State.runDuty
  split
  · exact State.ite_canonical (State.foldl_canonical (fun _ _ h1 => State.readHbm_canonical h1) (State.mk_host_canonical h
      (HostSide.mk_canonical (State.host_canonical h)))) h
  · exact State.mk_host_canonical h (HostSide.mk_canonical (State.host_canonical h))
  · exact State.mk_host_canonical h (HostSide.mk_canonical (State.host_canonical h))
  · exact State.mk_host_canonical h (HostSide.sample_canonical (State.host_canonical h))

theorem State.duty_canonical {s : State} {d} (h : s.canonical) : (s.duty d).canonical :=
  State.ite_canonical (State.mk_host_canonical h (HostSide.mk_canonical (State.host_canonical h))) (State.runDuty_canonical h)

theorem State.runDuties_canonical {s : State} (h : s.canonical) : s.runDuties.canonical :=
  State.ite_canonical h (State.foldl_canonical (fun _ _ h1 => State.runDuty_canonical h1) (State.mk_host_canonical h (HostSide.mk_canonical
    (State.host_canonical h))))

theorem execEccScrub_canonical {s : State} (h : s.canonical) : answersCanonical (execEccScrub s) :=
  answersCanonical_next (State.ite_canonical (State.duty_canonical h) h)

theorem State.untrain_canonical {s : State} {c} (h : s.canonical) : (s.untrain c).canonical :=
  State.ite_canonical (State.duty_canonical (State.mk_host_canonical h (HostSide.mk_canonical (State.host_canonical h))))
    (State.mk_host_canonical h (HostSide.mk_canonical (State.host_canonical h)))

theorem execEthernetLinkBringUp_canonical {port} {up} {s : State} (h : s.canonical) : answersCanonical (execEthernetLinkBringUp port up s)
    :=
  answersCanonical_ite h (answersCanonical_ite (State.mk_host_canonical h (HostSide.mk_canonical (State.host_canonical h)))
    (answersCanonical_ite (State.duty_canonical h) (answersCanonical_next (State.ite_canonical (State.runDuty_canonical h) h))))

theorem execThermalSample_canonical {a} {avg1} {avg10} {junction} {s : State} (h : s.canonical) : answersCanonical (execThermalSample a avg1
    avg10 junction s) :=
  answersCanonical_ite h (answersCanonical_ite (execEmergencyTrip_canonical h) (answersCanonical_next (State.ite_canonical
    (State.duty_canonical h) h)))

theorem execTripPointCleared_canonical {s : State} (h : s.canonical) : answersCanonical (execTripPointCleared s) :=
  answersCanonical_ite h (State.event_canonical (State.acknowledged_canonical (State.mk_host_canonical h (HostSide.mk_canonical
    (State.host_canonical h)))))

/-! ## Dispatch -/

theorem exec_canonical_of_pipe_v {i} {s : State} (h : s.canonical) (hp : i.pipe = .v) : answersCanonical (exec i s) := by
  cases i with
  | iadd | isub | imin | imax | iabs | ineg | imul | imulh | imulhu | imad | and | or | xor | andn | shl | shr | sar | rol | popc | clz
  | brev | prmt | bfe | bfeu | bfi | idot4 | iaddi | andi | ori | xori | shli | shri | sari | roli | vmov | vbc | vgetl | vli | vlis
  | fadd | fsub | fmul | ffma | fmin | fmax | fabs | fneg | frnd | fscale | fgetexp | fclass | bfma2 | iminu | imaxu | badd2 | bsub2
  | bmul2 | hadd2 | hsub2 | hmul2 | hfma2 | bmin2 | bmax2 | hmin2 | hmax2 =>
    unfold exec
    exact accept_canonical h fun _ h => State.vectorTo_canonical h
  | icmp | icmpU | icmpi | fcmp | fcmpU =>
    unfold exec
    exact accept_canonical h fun _ h => State.maskTo_canonical h
  | iaddc | isubb =>
    unfold exec
    exact accept_canonical h fun _ h => State.pairTo_canonical h
  | sel | vsetl =>
    unfold exec
    exact accept_canonical h fun _ h => answersCanonical_next (State.push_canonical h)
  | _ => exact nomatch hp

theorem exec_canonical_of_pipe_x {i} {s : State} (h : s.canonical) (hp : i.pipe = .x) : answersCanonical (exec i s) := by
  cases i with
  | frcp | frsq | fsqrt | ftanh | fexp2 | flog2 | fsin | fcos | cvtF2i | cvtF2u | cvtI2f | cvtU2f | cvtF2b | cvtF2h | cvtB2f | cvtH2f
  | packE4m3 | packE5m2 | packTs8 | mxscale | mxapply | lpick | lrot | lxor | lspan | lpeers | lfirst | foldBc | scanInc | scanExc
  | segred | segscan =>
    unfold exec
    exact accept_canonical h fun _ h => State.vectorTo_canonical h
  | kpopc | kffs | fold | kst =>
    unfold exec
    exact accept_canonical h fun _ h => State.scalarTo_canonical h
  | ksome | kevery | kone | ksame =>
    unfold exec
    exact accept_canonical h fun _ h => State.condTo_canonical h
  | kand | kor | kxor | kandn | kld | knot | kact =>
    unfold exec
    exact accept_canonical h fun _ h => State.maskTo_canonical h
  | unpkE4m3 | unpkE5m2 | unpkTs8 =>
    unfold exec
    exact accept_canonical h fun _ h => State.pairTo_canonical h
  | _ => exact nomatch hp

theorem exec_canonical_of_pipe_s {i} {s : State} (h : s.canonical) (hi : i.computes = true) (hp : i.pipe = .s) : answersCanonical (exec i s)
    := by
  cases i with
  | sli | slis | sadd | ssub | smul | smulh | sand | sor | sxor | sandn | sshl | sshr | ssar | srol | smin | smax | sminu | smaxu
  | saddi | smov | spopc | sclz | perf =>
    unfold exec
    exact accept_canonical h fun _ h => State.scalarTo_canonical h
  | scmp | scmpU | scmpi | cand | cor | cxor | candn =>
    unfold exec
    exact accept_canonical h fun _ h => State.condTo_canonical h
  | clkr =>
    unfold exec
    exact accept_canonical h fun _ h => answersCanonical_ite (State.putS_canonical (State.putS_canonical h)) (State.trap_canonical h)
  | sread =>
    unfold exec
    exact accept_canonical h fun _ h => answersCanonical_ite (State.illegal_canonical h) (State.scalarTo_canonical h)
  | scsel =>
    unfold exec
    exact accept_canonical h fun _ h => answersCanonical_ite (State.scalarTo_canonical h) (answersCanonical_ite h (State.trap_canonical h))
  | nop | yield | exit | brk | swrite | br | brF | jmp | call | ret | jmpi | calli | split | join | brt | waitL | waitM | sleep | trap |
    eret
  | tlbi | winr | winw | ejctl | signal => exact absurd (show false = true from hi) Bool.false_ne_true
  | _ => exact nomatch hp


theorem exec_canonical_of_computes {i} {s : State} (h : s.canonical) (hi : i.computes = true) : answersCanonical (exec i s) := by
  cases hp : i.pipe with
  | v => exact exec_canonical_of_pipe_v h hp
  | x => exact exec_canonical_of_pipe_x h hp
  | s => exact exec_canonical_of_pipe_s h hi hp
  | m | e | none => simp [Instr.computes, hp] at hi

theorem exec_canonical_of_isWord {i} {s : State} (h : s.canonical) (hi : (i.isWord && !i.computes) = true) : answersCanonical (exec i s) :=
    by
  cases i with
  | brk => exact execBrk_canonical h
  | swrite => exact execSwrite_canonical h
  | sld => exact execSld_canonical h
  | sst => exact execSst_canonical h
  | br => exact execBr_canonical h
  | brF => exact execBrF_canonical h
  | jmp => exact execJmp_canonical h
  | call => exact execCall_canonical h
  | jmpi => exact execJmpi_canonical h
  | calli => exact execCalli_canonical h
  | split => exact execSplit_canonical h
  | brt => exact execBrt_canonical h
  | waitL => exact execWaitL_canonical h
  | waitM => exact execWaitM_canonical h
  | sleep => exact execSleep_canonical h
  | ld => exact execLd_canonical h
  | ldsB => exact execLdsB_canonical h
  | ldsH => exact execLdsH_canonical h
  | ldQ => exact execLdQ_canonical h
  | pf => exact execPf_canonical h
  | st => exact execSt_canonical h
  | stQ => exact execStQ_canonical h
  | ldl => exact execLdl_canonical h
  | stl => exact execStl_canonical h
  | ldAcqW => exact execLdAcqW_canonical h
  | ldAcqD => exact execLdAcqD_canonical h
  | stRelW => exact execStRelW_canonical h
  | stRelD => exact execStRelD_canonical h
  | atomAdd => exact execAtomAdd_canonical h
  | atomMin => exact execAtomMin_canonical h
  | atomMax => exact execAtomMax_canonical h
  | atomAnd => exact execAtomAnd_canonical h
  | atomOr => exact execAtomOr_canonical h
  | atomXor => exact execAtomXor_canonical h
  | atomXchg => exact execAtomXchg_canonical h
  | atomCas => exact execAtomCas_canonical h
  | atomMinu => exact execAtomMinu_canonical h
  | atomMaxu => exact execAtomMaxu_canonical h
  | atomInc => exact execAtomInc_canonical h
  | atomDec => exact execAtomDec_canonical h
  | atomFadd => exact execAtomFadd_canonical h
  | atomFmin => exact execAtomFmin_canonical h
  | atomFmax => exact execAtomFmax_canonical h
  | atomAdd64 => exact execAtomAdd64_canonical h
  | atomlAdd => exact execAtomlAdd_canonical h
  | atomlMin => exact execAtomlMin_canonical h
  | atomlMax => exact execAtomlMax_canonical h
  | atomlCas => exact execAtomlCas_canonical h
  | redAdd => exact execRedAdd_canonical h
  | redMin => exact execRedMin_canonical h
  | redMax => exact execRedMax_canonical h
  | redFadd => exact execRedFadd_canonical h
  | redBayAdd => exact execRedBayAdd_canonical h
  | redBayMin => exact execRedBayMin_canonical h
  | redBayMax => exact execRedBayMax_canonical h
  | redBayFadd => exact execRedBayFadd_canonical h
  | cclean => exact execCclean_canonical h
  | cinv => exact execCinv_canonical h
  | tbegin => exact execTbegin_canonical h
  | tabort => exact execTabort_canonical h
  | tstat => exact execTstat_canonical h
  | xchXor => exact execXchXor_canonical h
  | xchRot => exact execXchRot_canonical h
  | xchBc => exact execXchBc_canonical h
  | xchGath => exact execXchGath_canonical h
  | xred => exact execXred_canonical h
  | bnew => exact execBnew_canonical h
  | bfree => exact execBfree_canonical h
  | bexp => exact execBexp_canonical h
  | barr => exact execBarr_canonical h
  | bwait => exact execBwait_canonical h
  | bwaitg => exact execBwaitg_canonical h
  | btest => exact execBtest_canonical h
  | hwait => exact execHwait_canonical h
  | htest => exact execHtest_canonical h
  | hcancel => exact execHcancel_canonical h
  | hget d a => exact (execHget_canonical h : answersCanonical (execHget d a s))
  | hput => exact execHput_canonical h
  | copy => exact execCopy_canonical h
  | gath => exact execGath_canonical h
  | scat => exact execScat_canonical h
  | copyRst => exact execCopyRst_canonical h
  | mldw => exact execMldw_canonical h
  | mswap => exact execMswap_canonical h
  | mzero => exact execMzero_canonical h
  | mloop => exact execMloop_canonical h
  | mrd => exact execMrd_canonical h
  | mstr => exact execMstr_canonical h
  | cres => exact execCres_canonical h
  | crel => exact execCrel_canonical h
  | cstat => exact execCstat_canonical h
  | trap => exact execTrap_canonical h
  | eret => exact execEret_canonical h
  | tlbi => exact execTlbi_canonical h
  | winr => exact execWinr_canonical h
  | winw => exact execWinw_canonical h
  | ejctl => exact execEjctl_canonical h
  | signal => exact execSignal_canonical h
  | launch => exact execLaunch_canonical h
  | pfx => exact execPfx_canonical h
  | nop => exact execNop_canonical h
  | yield => exact execYield_canonical h
  | exit => exact execExit_canonical h
  | ret => exact execRet_canonical h
  | join => exact execJoin_canonical h
  | fence => exact execFence_canonical h
  | tend => exact execTend_canonical h
  | xbar => exact execXbar_canonical h
  | tokwait => exact execTokwait_canonical h
  | tokpass => exact execTokpass_canonical h
  | _ => cases hi

theorem exec_canonical_of_event {i} {s : State} (h : s.canonical) (hi : i.isWord = false) : answersCanonical (exec i s) := by
  cases i with
  | runArbitration => exact execRunArbitration_canonical h
  | variableLatencyLand => exact execVariableLatencyLand_canonical h
  | nackRetry => exact execNackRetry_canonical h
  | sleepExpire => exact execSleepExpire_canonical h
  | rejoinTimeout => exact execRejoinTimeout_canonical h
  | laneContextStart => exact execLaneContextStart_canonical h
  | laneReturn => exact execLaneReturn_canonical h
  | taskRecordCheck => exact execTaskRecordCheck_canonical h
  | launchRingEntry => exact execLaunchRingEntry_canonical h
  | launchComplete => exact execLaunchComplete_canonical h
  | makeResident => exact execMakeResident_canonical h
  | preemptGroup => exact execPreemptGroup_canonical h
  | quantumExpire => exact execQuantumExpire_canonical h
  | waitPriorityRise => exact execWaitPriorityRise_canonical h
  | startTimeReached => exact execStartTimeReached_canonical h
  | watchdog => exact execWatchdog_canonical h
  | claimSpan => exact execClaimSpan_canonical h
  | copyCommandStart => exact execCopyCommandStart_canonical h
  | copyTransfer => exact execCopyTransfer_canonical h
  | gatherTransfer => exact execGatherTransfer_canonical h
  | engineCommandDone => exact execEngineCommandDone_canonical h
  | barBytesDelivered => exact execBarBytesDelivered_canonical h
  | thresherCommandStart => exact execThresherCommandStart_canonical h
  | thresherKstep => exact execThresherKstep_canonical h
  | mloopRowsLanded => exact execMloopRowsLanded_canonical h
  | routerCycle => exact execRouterCycle_canonical h
  | injectionWindow => exact execInjectionWindow_canonical h
  | xdata => exact execXdata_canonical h
  | ack => exact execAck_canonical h
  | nack => exact execNack_canonical h
  | xctlArrival => exact execXctlArrival_canonical h
  | xctlRelease => exact execXctlRelease_canonical h
  | xredCombine => exact execXredCombine_canonical h
  | rd => exact execRd_canonical h
  | rdata => exact execRdata_canonical h
  | wdata => exact execWdata_canonical h
  | mgmt => exact execMgmt_canonical h
  | sliceRequest => exact execSliceRequest_canonical h
  | hbmFill => exact execHbmFill_canonical h
  | bayModeSwitch => exact execBayModeSwitch_canonical h
  | carveChange => exact execCarveChange_canonical h
  | carveGrowDone => exact execCarveGrowDone_canonical h
  | bayRgnHtWrite => exact execBayRgnHtWrite_canonical h
  | bayAliasWrite => exact execBayAliasWrite_canonical h
  | slstatRead => exact execSlstatRead_canonical h
  | dutyMapWrite => exact execDutyMapWrite_canonical h
  | ringCfgWrite => exact execRingCfgWrite_canonical h
  | registerWrite => exact execRegisterWrite_canonical h
  | attest => exact execAttest_canonical h
  | pfaultDone => exact execPfaultDone_canonical h
  | train => exact execTrain_canonical h
  | scrub => exact execScrub_canonical h
  | eth => exact execEth_canonical h
  | thermal => exact execThermal_canonical h
  | service => exact execService_canonical h
  | qp => exact execQp_canonical h
  | fwupdate => exact execFwupdate_canonical h
  | eccScrub => exact execEccScrub_canonical h
  | thermalSample p => exact (execThermalSample_canonical h : answersCanonical (execThermalSample p _ _ _ s))
  | emergencyTrip => exact execEmergencyTrip_canonical h
  | boot => exact execBoot_canonical h
  | functionLevelReset => exact execFunctionLevelReset_canonical h
  | ptpSync => exact execPtpSync_canonical h
  | peerRdmaRequest => exact execPeerRdmaRequest_canonical h
  | strandBeatError c n a again => exact (execStrandBeatError_canonical h : answersCanonical (execStrandBeatError c n a again s))
  | strandRetire => exact execStrandRetire_canonical h
  | linkCheckError => exact execLinkCheckError_canonical h
  | containment => exact execContainment_canonical h
  | migratePage => exact execMigratePage_canonical h
  | tlbiComplete => exact execTlbiComplete_canonical h
  | tinkerEvent => exact execTinkerEvent_canonical h
  | debugRestart => exact execDebugRestart_canonical h
  | debugCancel => exact execDebugCancel_canonical h
  | peerAcknowledge => exact execPeerAcknowledge_canonical h
  | peerLink => exact execPeerLink_canonical h
  | hostLinkCompletion => exact execHostLinkCompletion_canonical h
  | hostLinkRetriesExhausted => exact execHostLinkRetriesExhausted_canonical h
  | shadowPlaneLoaded => exact execShadowPlaneLoaded_canonical h
  | mstrTransfer => exact execMstrTransfer_canonical h
  | tinkerRestart => exact execTinkerRestart_canonical h
  | fringHead => exact execFringHead_canonical h
  | unknownOp => exact execUnknownOp_canonical h
  | ethernetLinkBringUp => exact execEthernetLinkBringUp_canonical h
  | tripPointCleared => exact execTripPointCleared_canonical h
  | _ => cases hi

theorem exec_canonical {i} {s : State} (h : s.canonical) : answersCanonical (exec i s) := by
  cases hc : i.computes
  · cases hw : i.isWord
    · exact exec_canonical_of_event h hw
    · exact exec_canonical_of_isWord h (by simp [hw, hc])
  · exact exec_canonical_of_computes h hc

/-! ## Cycle -/

theorem State.toMember_canonical {s : State} {u} {m} {pos} (h : s.canonical) : (s.toMember u m pos).canonical :=
  State.mk_canonical (State.updPath_canonical h)

theorem State.execMember_canonical {s : State} {m} {i} (h : s.canonical) : answersCanonical (s.execMember m i) := by
  unfold State.execMember
  split
  · exact exec_canonical h
  · split
    · exact exec_canonical h
    · split
      · next h1 =>
          exact exec_canonical (canonical_of_next h1 (exec_canonical h))
      · exact exec_canonical h

theorem State.member_canonical {s : State} {u} {m} (h : s.canonical) : answersCanonical (s.member u m) := by
  unfold State.member
  split
  · exact State.illegal_canonical (State.mk_canonical h)
  · exact State.trap_canonical h
  · dsimp only
    refine answersCanonical_ite (State.trap_canonical h) ?_
    split
    · exact State.raiseErred_canonical h
    · exact State.execMember_canonical h

theorem State.chained_canonical {s : State} {before : State} (h : s.canonical) : (s.chained before).canonical :=
  State.mk_canonical h

theorem State.members_canonical {before : State} {u} {a : State} {a1} (h : before.canonical) (ha : a.canonical) :
    answersCanonical (before.members u a a1) := by
  have hm {s : State} {m} {p} (hs : s.canonical) : answersCanonical ((s.toMember u m p).member u m) :=
    State.member_canonical (State.toMember_canonical hs)
  induction a1 generalizing a with
  | nil => exact ha
  | cons m ms ih =>
    have hc : answersCanonical (((if m.pos = u.start then a else a.chained before).toMember u m m.pos).member u m) :=
      hm (State.ite_canonical ha (State.chained_canonical ha))
    unfold State.members
    split
    · next hx =>
      have ht := canonical_of_next hx hc
      split
      · split
        · next hy => exact answersCanonical_next (State.ite_canonical (canonical_of_next hy (hm h)) ht)
        · exact hm h
      · exact answersCanonical_ite (ih ht) ht
    · exact hc

theorem State.countPacket_canonical {s : State} {fresh} {b} (h : s.canonical) : (s.countPacket fresh b).canonical := by
  unfold State.countPacket
  split
  · refine State.updHere_canonical h (fun _ h1 => ?_)
    dsimp only
    split
    · exact Column.setQuarter_canonical h1
    · exact h1
  · exact h

theorem State.stall_canonical {s : State} {u} (h : s.canonical) : (s.stall u).canonical := by
  unfold State.stall
  split
  · exact State.updHere_canonical h (fun _ h1 => Column.setWarp_canonical h1)
  · exact State.updPath_canonical h

theorem State.closePacket_canonical {s : State} (h : s.canonical) : s.closePacket.canonical := by
  unfold State.closePacket
  split
  · split
    · exact State.ite_canonical h (State.ite_canonical (State.endRun_canonical h) (State.ite_canonical (State.updHere_canonical
        (State.endRun_canonical h) (fun _ h1 => Column.count_canonical h1)) h))
    · exact h
  · exact h

theorem State.occupy_canonical {s : State} {ms} (h : s.canonical) : (s.occupy ms).canonical := by
  unfold State.occupy
  split
  · exact State.updHere_canonical h (fun _ h1 => Column.mk_canonical (Column.setQuarter_canonical h1))
  · exact State.updHere_canonical h (fun _ h2 => Column.mk_canonical h2)
  · exact h

theorem State.landFor_canonical {s : State} {c} {who} (h : s.canonical) : (s.landFor c who).canonical := by
  unfold State.landFor
  split
  · exact State.landDue_canonical (State.landDue_canonical h)
  · exact State.landDue_canonical h

theorem State.deliverAll_canonical {s : State} {c} (h : s.canonical) : (s.deliverAll c).canonical :=
  State.ite_canonical h (State.foldl_canonical (fun _ _ h1 => State.deliverCount_canonical h1) (State.updCol_canonical h (fun _ h2 =>
    Column.mk_canonical h2)))

theorem State.beginTurn_canonical {s : State} {c} {who} (h : s.canonical) : (s.beginTurn c who).canonical :=
  State.updPath_canonical (State.mk_canonical (State.asAgent_canonical (State.landFor_canonical (State.deliverAll_canonical h))))

theorem State.afterUnit_canonical {s : State} {u} {fresh} {b} (h : s.canonical) : (s.afterUnit u fresh b).canonical :=
  State.ite_canonical h (State.ite_canonical (State.countPacket_canonical h) (State.closePacket_canonical (State.stall_canonical
    (State.countPacket_canonical h))))

theorem State.startFetch_canonical {s : State} {pas} (h : s.canonical) : (s.startFetch pas).canonical := by
  unfold State.startFetch
  split
  · next h1 =>
      exact State.blockAt_canonical (State.startOp_canonical (canonical_of_snd h1 (State.newOp_canonical (State.occupy_canonical h))))

theorem State.issueUnit_canonical {s : State} {c} {who} (h : s.canonical) : answersCanonical (s.issueUnit c who) := by
  unfold State.issueUnit
  dsimp only
  refine answersCanonical_ite (State.startFetch_canonical (State.beginTurn_canonical h)) ?_
  split
  · next h1 =>
      exact State.trap_canonical (State.occupy_canonical (canonical_of_snd h1 (State.fetchPacket_canonical (State.beginTurn_canonical h))))
  · next h2 =>
      split
      · exact State.illegal_canonical (State.mk_canonical (State.occupy_canonical (canonical_of_snd h2 (State.fetchPacket_canonical
          (State.beginTurn_canonical h)))))
      · refine answersCanonical_ite (State.occupy_canonical (State.settleHolds_canonical (canonical_of_snd h2 (State.fetchPacket_canonical
          (State.beginTurn_canonical h))))) ?_
        refine answersCanonical_ite (State.startFetch_canonical (State.settleHolds_canonical (canonical_of_snd h2
          (State.fetchPacket_canonical (State.beginTurn_canonical h))))) ?_
        refine answersCanonical_ite (State.blockAt_canonical (State.occupy_canonical (State.settleHolds_canonical (canonical_of_snd h2
          (State.fetchPacket_canonical (State.beginTurn_canonical h)))))) ?_
        refine answersCanonical_ite (State.blockAt_canonical (State.occupy_canonical (State.settleHolds_canonical (canonical_of_snd h2
          (State.fetchPacket_canonical (State.beginTurn_canonical h)))))) ?_
        split
        · next h3 =>
            exact State.afterUnit_canonical (canonical_of_next h3 (State.members_canonical (State.occupy_canonical
              (State.settleHolds_canonical (canonical_of_snd h2 (State.fetchPacket_canonical (State.beginTurn_canonical h)))))
              (State.occupy_canonical (State.settleHolds_canonical (canonical_of_snd h2 (State.fetchPacket_canonical
              (State.beginTurn_canonical h)))))))
        · exact State.members_canonical (State.occupy_canonical (State.settleHolds_canonical (canonical_of_snd h2
            (State.fetchPacket_canonical (State.beginTurn_canonical h))))) (State.occupy_canonical (State.settleHolds_canonical
            (canonical_of_snd h2 (State.fetchPacket_canonical (State.beginTurn_canonical h)))))

theorem State.issueTurn_canonical {s : State} {c} {who} (h : s.canonical) : answersCanonical (s.issueTurn c who) := by
  unfold State.issueTurn
  refine answersCanonical_ite h ?_
  split
  · exact trivial
  · exact State.issueUnit_canonical h

theorem State.passTime_canonical {s : State} (h : s.canonical) : s.passTime.canonical :=
  State.ite_canonical (State.mk_canonical h) (State.ite_canonical (State.mk_host_canonical h (HostSide.mk_canonical (State.host_canonical
    h))) (State.ite_canonical (State.mk_canonical h) (State.mk_host_canonical h (HostSide.mk_canonical (State.host_canonical h)))))

theorem State.passRuntime_canonical {s : State} (h : s.canonical) : s.passRuntime.canonical :=
  State.mk_canonical h

theorem State.beginCycle_canonical {s : State} {c} (h : s.canonical) : (s.beginCycle c).canonical :=
  State.advanceBay_canonical (State.settleLimits_canonical (State.settleParts_canonical (State.settleAlias_canonical (State.updCol_canonical
    h (fun _ h1 => Column.settleMode_canonical (Column.updBay_canonical (Column.foldl_canonical (fun _ _ h2 => Column.setWarp_canonical h2)
    h1)))))))

theorem State.carryHolds_canonical {s : State} {c} {who} (h : s.canonical) : (s.carryHolds c who).canonical :=
  State.ite_canonical h (State.ite_canonical h (State.mk_canonical (State.settleHolds_canonical (State.asAgent_canonical h))))

theorem State.tick_canonical {s : State} (h : s.canonical) : s.tick.canonical := by
  unfold State.tick
  dsimp only
  refine State.foldl_canonical (fun _ _ h1 => ?_) (State.foldl_canonical (fun _ _ h2 => State.carryHolds_canonical (State.landDue_canonical
    h2)) (State.foldl_canonical (fun _ _ h3 => State.beginCycle_canonical h3) (State.runDuties_canonical (State.passRuntime_canonical
    (State.passTime_canonical (State.mk_canonical h))))))
  split
  · exact State.performDeferred_canonical h1
  · exact h1

theorem State.turnCheckOn_canonical {s : State} {node} (h : s.canonical) : (s.turnCheckOn node).canonical :=
  State.ite_canonical h (State.foldl_canonical (fun _ _ h1 => State.updCol_canonical h1 (fun _ h2 => Column.foldl_canonical (fun _ _ h3 =>
    Column.setWarp_canonical h3) h2)) (State.setNode_canonical h))

theorem State.turn_canonical {s : State} {a} (h : s.canonical) : answersCanonical (s.turn a) := by
  unfold State.turn
  split
  · exact State.issueTurn_canonical h
  · exact exec_canonical h
  · exact State.tick_canonical h
  · exact State.turnCheckOn_canonical h
  · exact answersCanonical_next (State.ite_canonical (State.updCol_canonical h (fun _ h1 => Column.mk_canonical h1)) h)
  · exact State.mk_host_canonical h (HostSide.mk_canonical (State.host_canonical h))
  · exact State.untrain_canonical h
  · exact answersCanonical_next (State.ite_canonical (State.mk_host_canonical h (HostSide.mk_canonical (State.host_canonical h))) h)
  · exact answersCanonical_next (State.ite_canonical (State.mk_host_canonical h (HostSide.mk_canonical (State.host_canonical h))) h)

theorem State.firstChange_canonical {s : State} {a} (h : s.canonical) {t} (ht : s.firstChange a = some t) : answersCanonical t := by
  induction a with
  | nil => cases ht
  | cons i is ih =>
    have hi : answersCanonical (exec i s) := exec_canonical h
    unfold State.firstChange at ht
    split at ht
    · next hx =>
      split at ht
      · exact ih ht
      · cases ht
        rwa [hx] at hi
    · cases ht
      exact hi

theorem State.auto_canonical {s : State} (h : s.canonical) : answersCanonical s.auto := by
  unfold State.auto
  split
  · exact State.issueTurn_canonical h
  · cases hf : s.firstChange s.events with
    | none => exact State.tick_canonical h
    | some t => exact State.firstChange_canonical h hf

theorem State.next_canonical {s : State} (h : s.canonical) : answersCanonical s.next := by
  unfold State.next
  dsimp only
  split
  · exact answersCanonical_ite trivial (State.auto_canonical (State.mk_canonical h))
  · exact answersCanonical_ite (State.mk_canonical h) (State.turn_canonical (State.mk_canonical h))

/-! ## Step -/

theorem step_canonical {s : State} (h : s.canonical) : answersCanonical (step s) :=
  State.next_canonical h

/-! ## The obligation -/

/-- Settles O48: every operation of a step keeps the form, since each byte is written by one function of each memory that keeps it. -/
theorem memoryStaysCanonical : Obligations.MemoryStaysCanonical := by
  intro s t hcols hhost ht
  have hs : s.canonical := ⟨hcols, hhost⟩
  exact canonical_of_next ht (step_canonical hs)

end Sys2Proof.Machine
end

section
/-! Addresses and their checks: the lanes' addresses (R25), what the check of one address finds (R142, R163), and what the trap of a word with
failing lanes names. -/

namespace Sys2Proof.Machine

/-! ## The lanes of a memory word -/

theorem mem_lanesIn {m : Lanes} {l : Nat} : l ∈ lanesIn m ↔ l < 32 ∧ m.getLsbD l = true := by
  rw [lanesIn, laneList, List.mem_filter, List.mem_range]

theorem lanesIn_pairwise (m : Lanes) : (lanesIn m).Pairwise (· < ·) := List.pairwise_lt_range.filter _

theorem State.laneAddrs_lanes (s : State) (a b : BitVec 6) : (s.laneAddrs a b).map Prod.fst = lanesIn s.part := by
  simp [State.laneAddrs, List.map_map, Function.comp_def]

theorem State.lanesIn_part (s : State) :
    lanesIn s.part = (List.range 32).filter fun l => s.active.getLsbD l && (s.readK s.pfx.k.toNat).getLsbD l := by
  simp only [lanesIn, laneList, State.part, BitVec.getLsbD_and]

theorem State.toNat_of_mem_laneAddrs {s : State} {a b : BitVec 6} {l : Nat} {x : Dword} (h : (l, x) ∈ s.laneAddrs a b) :
    x.toNat = ((s.sr a).toNat + (lane (s.vr b) l).toNat) % 18446744073709551616 := by
  simp only [State.laneAddrs, List.mem_map, Prod.mk.injEq] at h
  obtain ⟨l, -, rfl, rfl⟩ := h
  have hl := (lane (s.vr b) l).isLt
  rw [BitVec.toNat_add, BitVec.toNat_setWidth, Nat.mod_eq_of_lt (hl.trans (by decide))]

theorem State.scalarOffset_toNat (s : State) (i : BitVec 8) :
    (s.scalarOffset i).toNat = 8 * (i.toNat + if s.pfx.e then 256 * s.pfx.x.toNat else 0) := by
  have hi := i.isLt
  have hx := s.pfx.x.isLt
  have happ : (s.pfx.x ++ i).toNat = 256 * s.pfx.x.toNat + i.toNat := by
    rw [BitVec.toNat_append, ← Nat.shiftLeft_add_eq_or_of_lt hi, Nat.shiftLeft_eq, Nat.mul_comm]
  unfold State.scalarOffset
  split <;> simp only [BitVec.toNat_mul, BitVec.toNat_setWidth, happ, BitVec.toNat_ofNat] <;> omega

/-! ## The check of one address -/

theorem State.checkAddr_of_cross {s : State} {n : Need} {a : Dword} (h : offsetIn s.gcol a = none) : s.checkAddr n a = (.bad .cross 0, s) := by
  unfold State.checkAddr
  rw [h]

/-- Does the page of an offset, in the state that its translation leaves, refuse the access (R35, R142)? The right to write is taken from the
bytes of the code images themselves (log 104). -/
def State.denies (u : State) (n : Need) (e : TlbEntry) (off : Nat) : Prop :=
  e.kind ≠ 0 ∨ (n.r = true ∧ e.r = false) ∨ (n.w = true ∧ (e.w = false ∨
    (u.inCode u.cur.col u.ctxNum off = true ∧ ¬ (u.cur.who = .tinker ∧ tinkerRange off = true))))

theorem State.denied_iff (u : State) (n : Need) (e : TlbEntry) (off : Nat) :
    (e.kind ≠ 0 ∨ (n.r ∧ ¬ e.r) ∨
      (n.w ∧ (¬ e.w ∨ (u.inCode u.cur.col u.ctxNum off && !(decide (u.cur.who = .tinker) && tinkerRange off))))) ↔ u.denies n e off := by
  simp [State.denies, imp_iff_not_or]

section
variable {s u : State} {n : Need} {a : Dword} {off : Nat} {e : TlbEntry} (ho : offsetIn s.gcol a = some off)
include ho

theorem State.checkAddr_of_misaligned (h : off % n.size ≠ 0) : s.checkAddr n a = (.bad .align 0, s) := by
  unfold State.checkAddr
  rw [ho]
  exact if_pos h

theorem State.checkAddr_of_pageFault (h : off % n.size = 0) (hp : s.pageOf off = (none, u)) : s.checkAddr n a = (.bad .pageFault 0, u) := by
  unfold State.checkAddr
  rw [ho]
  simp [h, hp]

theorem State.checkAddr_of_denies (h : off % n.size = 0) (hp : s.pageOf off = (some e, u)) (hd : u.denies n e off) :
    s.checkAddr n a = (.bad .prot 0, u) := by
  have hc := (State.denied_iff u n e off).2 hd
  unfold State.checkAddr
  simp only [ho, h, hp, ne_eq, not_true_eq_false, if_false]
  exact if_pos hc

theorem State.checkAddr_of_page (h : off % n.size = 0) (hp : s.pageOf off = (some e, u)) (hd : ¬ u.denies n e off) :
    s.checkAddr n a =
      match u.here.bay.openKind u.ctxNum (e.at_ off) with
      | .hole => (.bad .paHole (e.at_ off), u)
      | .aliased _ => if n.atom then (.bad .atomTarget (e.at_ off), u) else (.ok (e.at_ off) e.shg, u)
      | _ => (.ok (e.at_ off) e.shg, u) := by
  have hc := mt (State.denied_iff u n e off).1 hd
  unfold State.checkAddr
  simp only [ho, h, hp, ne_eq, not_true_eq_false, if_false]
  exact if_neg hc

end

/-! ## The trap of a word with failing lanes -/

/-- What the trap of a word names: the cause of highest priority, the failing lanes, and the address of the lowest of them (R142, R163). -/
structure namesFailing (r : List (Nat × Dword × Checked)) (c : Cause) (m : Lanes) (x : Dword) : Prop where
  lanes : ∀ l, l < 32 → (m.getLsbD l = true ↔ ∃ y c' pa, (l, y, .bad c' pa) ∈ r)
  first : ∀ l y c' pa, (l, y, .bad c' pa) ∈ r → c.code ≤ c'.code
  found : ∃ l y pa, (l, y, .bad c pa) ∈ r
  lowest : ∃ l c' pa, (l, x, .bad c' pa) ∈ r ∧ ∀ l' y c'' pa', (l', y, .bad c'' pa') ∈ r → l ≤ l'

theorem worst_append_ok (r : List (Nat × Dword × Checked)) (l : Nat) (y : Dword) (pa : Nat) (g : Bool) :
    worst (r ++ [(l, y, .ok pa g)]) = worst r := by
  rw [worst, List.foldl_append]
  rfl

theorem worst_append_bad (r : List (Nat × Dword × Checked)) (l : Nat) (y : Dword) (c : Cause) (pa : Nat) :
    worst (r ++ [(l, y, .bad c pa)]) = some (match worst r with
      | none => (c, 1#32 <<< l, y)
      | some (d, m, a) => (if c.rank < d.rank then c else d, m ||| (1#32 <<< l), a)) := by
  rw [worst, List.foldl_append]
  change (match worst r with | none => _ | some (d, m, a) => _) = _
  cases worst r <;> rfl

theorem getLsbD_one_shiftLeft (l j : Nat) : (1#32 <<< l).getLsbD j = decide (j < 32 ∧ j = l) := by
  simp only [BitVec.getLsbD_shiftLeft, BitVec.getLsbD_one]
  grind

section
variable {r : List (Nat × Dword × Checked)} {l : Nat} {y : Dword}

/-- No lane fails. -/
def noneFails (r : List (Nat × Dword × Checked)) : Prop := ∀ l y c pa, (l, y, .bad c pa) ∉ r

theorem namesFailing_append_ok {c m x pa g} (h : namesFailing r c m x) : namesFailing (r ++ [(l, y, .ok pa g)]) c m x :=
  ⟨by simpa using h.lanes, by simpa using h.first, by simpa using h.found, by simpa using h.lowest⟩

theorem namesFailing_of_noneFails {c pa} (h : noneFails r) : namesFailing (r ++ [(l, y, .bad c pa)]) c (1#32 <<< l) y where
  lanes j hj := by
    rw [getLsbD_one_shiftLeft]
    simp [hj, List.mem_append, h _ _ _ _]
  first := by simp +contextual [List.mem_append, h _ _ _ _]
  found := ⟨l, y, pa, by simp⟩
  lowest := ⟨l, c, pa, by simp, by simp +contextual [List.mem_append, h _ _ _ _]⟩

theorem namesFailing_append_bad {c d m x pa} (h : namesFailing r d m x) (hl : ∀ k z o, (k, z, o) ∈ r → k < l) :
    namesFailing (r ++ [(l, y, .bad c pa)]) (if c.rank < d.rank then c else d) (m ||| (1#32 <<< l)) x where
  lanes j hj := by
    rw [BitVec.getLsbD_or, Bool.or_eq_true, h.lanes j hj, getLsbD_one_shiftLeft]
    constructor
    · rintro (⟨z, c', pa', hm⟩ | hm)
      · exact ⟨z, c', pa', by simp [hm]⟩
      · exact ⟨y, c, pa, by simp_all⟩
    · rintro ⟨z, c', pa', hm⟩
      rcases List.mem_append.1 hm with hm | hm
      · exact .inl ⟨z, c', pa', hm⟩
      · exact .inr (by simp_all)
  first k z c' pa' hm := by
    have hd : (if c.rank < d.rank then c else d).code ≤ d.code ∧ (if c.rank < d.rank then c else d).code ≤ c.code := by
      split <;> simp_all only [Cause.rank] <;> omega
    rcases List.mem_append.1 hm with hm | hm
    · exact hd.1.trans (h.first k z c' pa' hm)
    · simp only [List.mem_singleton, Prod.mk.injEq, Checked.bad.injEq] at hm
      obtain ⟨-, -, rfl, -⟩ := hm
      exact hd.2
  found := by
    obtain ⟨k, z, pa', hm⟩ := h.found
    split
    · exact ⟨l, y, pa, by simp⟩
    · exact ⟨k, z, pa', by simp [hm]⟩
  lowest := by
    obtain ⟨k, c', pa', hm, hlow⟩ := h.lowest
    refine ⟨k, c', pa', by simp [hm], fun j z c'' pa'' hj => ?_⟩
    rcases List.mem_append.1 hj with hj | hj
    · exact hlow j z c'' pa'' hj
    · simp only [List.mem_singleton, Prod.mk.injEq] at hj
      exact hj.1 ▸ (hl k x _ hm).le

/-- No lane fails, or those that do are named, where the lanes stand in ascending order. -/
theorem worst_names (hs : (r.map Prod.fst).Pairwise (· < ·)) :
    (worst r = none → noneFails r) ∧ ∀ c m x, worst r = some (c, m, x) → namesFailing r c m x := by
  induction r using List.reverseRecOn with
  | nil => simp [worst, noneFails]
  | append_singleton r e ih =>
    obtain ⟨l, y, k⟩ := e
    rw [List.map_append, List.pairwise_append] at hs
    obtain ⟨hr, -, hl⟩ := hs
    have hl' : ∀ k z o, (k, z, o) ∈ r → k < l := fun k z o hm => hl k (List.mem_map_of_mem hm) l (by simp)
    obtain ⟨hnone, hsome⟩ := ih hr
    cases k with
    | ok pa g =>
      rw [worst_append_ok]
      exact ⟨fun h => by simpa [noneFails] using hnone h, fun c m x h => namesFailing_append_ok (hsome c m x h)⟩
    | bad c pa =>
      rw [worst_append_bad]
      cases hw : worst r with
      | none =>
        refine ⟨nofun, fun c' m x h => ?_⟩
        cases h
        exact namesFailing_of_noneFails (hnone hw)
      | some w =>
        obtain ⟨d, m, x⟩ := w
        refine ⟨nofun, fun c' m' x' h => ?_⟩
        cases h
        exact namesFailing_append_bad (hsome d m x hw) hl'

end

/-! ## A word with failing lanes -/

theorem State.checkLanes_lanes (s : State) (n : Need) (l : List (Nat × Dword)) : (s.checkLanes n l).1.map Prod.fst = l.map Prod.fst := by
  induction l generalizing s with
  | nil => rfl
  | cons e l ih => exact congrArg (e.1 :: ·) (ih (s.checkAddr n e.2).2)

theorem State.checked_of_worst {s u : State} {n : Need} {addrs run r c m x} (hw : ∀ f, s.cur.who ≠ .factor f) (ht : s.ownTx = none)
    (hr : s.checkLanes n addrs = (r, u)) (h : worst r = some (c, m, x)) :
    s.checked n addrs run = .next (u.raise c { lanes := m, detail := x }) := by
  unfold State.checked
  split
  · next f hf => exact absurd hf (hw f)
  · simp [hr, ht, h]

/-- Settles O19: the trap's cause, lanes and address follow the lanes' outcomes, one lane after another. -/
theorem addressesAreFormedAndChecked : Obligations.AddressesAreFormedAndChecked := by
  unfold Obligations.AddressesAreFormedAndChecked
  refine ⟨fun s a b i => ⟨?_, fun l x => State.toNat_of_mem_laneAddrs, s.scalarOffset_toNat i⟩,
    fun s u n a off e => ⟨State.checkAddr_of_cross, fun ho => ⟨State.checkAddr_of_misaligned ho, fun h =>
      ⟨State.checkAddr_of_pageFault ho h, fun hp => ⟨State.checkAddr_of_denies ho h hp, fun hd hk => ?_, fun hd hn hk => ?_, fun hd hk => ?_⟩⟩⟩⟩,
    fun s u d a b z r hw ht hr c m x h => ?_⟩
  · rw [State.laneAddrs_lanes, State.lanesIn_part]
  · rw [State.checkAddr_of_page ho h hp hd, hk]
  · obtain ⟨k, hk⟩ := hk
    rw [State.checkAddr_of_page ho h hp hd, hk]
    simp [hn]
  · rw [State.checkAddr_of_page ho h hp hd, hk]
  · have hs : (r.map Prod.fst).Pairwise (· < ·) := by
      have hl := s.checkLanes_lanes { size := 2 ^ z.toNat, r := true } (s.laneAddrs a b)
      rw [hr] at hl
      rw [hl, State.laneAddrs_lanes]
      exact lanesIn_pairwise _
    obtain ⟨hlanes, hfirst, hfound, hlowest⟩ := (worst_names hs).2 c m x h
    exact ⟨completes_of (fun s => s.loadWord (2 ^ z.toNat) false d.toNat a b none) rfl (State.checked_of_worst hw ht hr h), hlanes, hfirst, hfound, hlowest⟩

end Sys2Proof.Machine
end

section
/-! Local store: what stores and atomics leave in it, lane after lane (R50, R147, R158). -/

namespace Sys2Proof.Machine

/-! ## Bytes of a number -/

@[simp] theorem length_bytesOf (n x : Nat) : (bytesOf n x).length = n := by simp [bytesOf]

theorem getD_bytesOf {n i : Nat} (x : Nat) (h : i < n) : (bytesOf n x).getD i 0#8 = BitVec.ofNat 8 (x >>> (8 * i)) := by
  simp [bytesOf, h]

theorem natOfBytes_bytesOf (n x : Nat) : natOfBytes (bytesOf n x) = x % 256 ^ n := by
  induction n generalizing x with
  | zero => simp [bytesOf, natOfBytes, Nat.mod_one]
  | succ n ih =>
    have hs : bytesOf (n + 1) x = BitVec.ofNat 8 x :: bytesOf n (x / 256) := by
      simp only [bytesOf, List.range_succ_eq_map, List.map_cons, List.map_map, List.cons.injEq, Nat.mul_zero, Nat.shiftRight_zero, true_and]
      refine List.map_congr_left fun i _ => ?_
      rw [Function.comp_apply, Nat.succ_eq_add_one, Nat.mul_add, Nat.add_comm, Nat.shiftRight_add, Nat.shiftRight_eq_div_pow x]
    rw [hs, natOfBytes, ih, BitVec.toNat_ofNat, pow_succ' 256, Nat.mod_mul]

/-- A low byte of a number cut to n bytes is the number's. -/
theorem ofNat_shiftRight_mod {n i : Nat} (x : Nat) (h : i < n) :
    BitVec.ofNat 8 ((x % 2 ^ (8 * n)) >>> (8 * i)) = BitVec.ofNat 8 (x / 2 ^ (8 * i)) := by
  refine BitVec.eq_of_getLsbD_eq fun j hj => ?_
  have hlt : 8 * i + j < 8 * n := by omega
  rw [BitVec.getLsbD_ofNat, BitVec.getLsbD_ofNat]
  simp [Nat.testBit_shiftRight, Nat.testBit_mod_two_pow, Nat.testBit_div_two_pow, Nat.add_comm j, hlt]

theorem lane_vecOf (f : Nat → Word) {l : Nat} (hl : l < 32) : lane (vecOf f) l = f l := by
  refine BitVec.eq_of_getLsbD_eq fun i hi => ?_
  have hd : (32 * l + i) / 32 = l := by omega
  have hm : (32 * l + i) % 32 = i := by omega
  rw [getLsbD_lane _ hi, getLsbD_vecOf _ (by omega), hd, hm]

/-! ## One store after another -/

section
variable {size : Nat} {offs : List (Nat × Nat)}

/-- A value of `size` bytes stored for each lane, in order. -/
def storeAll (size : Nat) (value : List Host.Cell → Nat × Nat → Nat) (offs : List (Nat × Nat)) (m : List Host.Cell) : List Host.Cell :=
  offs.foldl (fun m p => Memory.writeBytes m p.2 (bytesOf size (value m p))) m

variable {value : List Host.Cell → Nat × Nat → Nat}

theorem storeAll_cons (p : Nat × Nat) (m : List Host.Cell) :
    storeAll size value (p :: offs) m = storeAll size value offs (Memory.writeBytes m p.2 (bytesOf size (value m p))) := rfl

theorem storeAll_append (pre post : List (Nat × Nat)) (m : List Host.Cell) :
    storeAll size value (pre ++ post) m = storeAll size value post (storeAll size value pre m) := List.foldl_append

theorem read_storeAll_other {o : Nat} (m : List Host.Cell) (h : ∀ p ∈ offs, o < p.2 ∨ p.2 + size ≤ o) :
    Memory.read (storeAll size value offs m) o = Memory.read m o := by
  induction offs generalizing m with
  | nil => rfl
  | cons p offs ih =>
    have hp : ¬ (p.2 ≤ o ∧ o < p.2 + size) := by
      have := h p (by simp)
      omega
    refine (ih _ fun q hq => h q (by simp [hq])).trans ?_
    rw [Memory.read_writeBytes, length_bytesOf, if_neg hp]

/-- The last value stored at a place stands there, where places are equal or apart. -/
theorem read_storeAll_last {p : Nat × Nat} {pre post : List (Nat × Nat)} {i : Nat} (m : List Host.Cell)
    (h : ∀ q ∈ post, q.2 + size ≤ p.2 ∨ p.2 + size ≤ q.2) (hi : i < size) :
    Memory.read (storeAll size value (pre ++ p :: post) m) (p.2 + i) =
      BitVec.ofNat 8 (value (storeAll size value pre m) p >>> (8 * i)) := by
  rw [storeAll_append, storeAll_cons]
  refine (read_storeAll_other _ fun q hq => ?_).trans ?_
  · have := h q hq
    omega
  · rw [Memory.read_writeBytes, length_bytesOf, if_pos (by omega), Nat.add_sub_cancel_left, getD_bytesOf _ hi]

end

/-- Places that are multiples of the size are equal or apart. -/
theorem apart_of_dvd {size a b : Nat} (ha : a % size = 0) (hb : b % size = 0) (h : a ≠ b) : a + size ≤ b ∨ b + size ≤ a := by
  obtain ⟨i, rfl⟩ := Nat.dvd_of_mod_eq_zero ha
  obtain ⟨j, rfl⟩ := Nat.dvd_of_mod_eq_zero hb
  rcases Nat.lt_trichotomy i j with hij | rfl | hij
  · exact .inl (by simpa [Nat.mul_succ] using Nat.mul_le_mul_left size hij)
  · exact absurd rfl h
  · exact .inr (by simpa [Nat.mul_succ] using Nat.mul_le_mul_left size hij)

/-! ## The lanes of a local word -/

/-- A lane's offset in local store (R25). -/
def State.localOff (s : State) (a b : BitVec 6) (l : Nat) : Nat := ((s.sr a).toNat + (lane (s.vr b) l).toNat) % 18446744073709551616

/-- What the check of a lane of a local word finds. -/
def State.localCheck (s : State) (size o : Nat) : Checked :=
  if o % size ≠ 0 then .bad .align 0 else if s.group.size < o + size then .bad .localRange 0 else .ok o false

theorem State.mem_localChecks {s : State} {size : Nat} {a b : BitVec 6} {l : Nat} {y : Dword} {k : Checked}
    (h : (l, y, k) ∈ s.localChecks size a b) : l ∈ lanesIn s.part ∧ k = s.localCheck size (s.localOff a b l) := by
  simp only [State.localChecks, List.mem_map, Prod.mk.injEq, Prod.exists] at h
  obtain ⟨l, y, hm, rfl, rfl, rfl⟩ := h
  have hl : l ∈ (s.laneAddrs a b).map Prod.fst := List.mem_map_of_mem hm
  rw [State.laneAddrs_lanes] at hl
  rw [State.toNat_of_mem_laneAddrs hm]
  exact ⟨hl, rfl⟩

theorem State.exists_localChecks (s : State) (size : Nat) (a b : BitVec 6) {l : Nat} (h : l ∈ lanesIn s.part) :
    ∃ y, (l, y, s.localCheck size (s.localOff a b l)) ∈ s.localChecks size a b := by
  rw [← s.laneAddrs_lanes a b, List.mem_map] at h
  obtain ⟨⟨l, y⟩, hm, rfl⟩ := h
  refine ⟨y, List.mem_map.2 ⟨_, hm, ?_⟩⟩
  rw [State.toNat_of_mem_laneAddrs hm]
  rfl

theorem State.localChecks_pairwise (s : State) (size : Nat) (a b : BitVec 6) :
    ((s.localChecks size a b).map Prod.fst).Pairwise (· < ·) := by
  have h : (s.localChecks size a b).map Prod.fst = lanesIn s.part := by
    rw [← s.laneAddrs_lanes a b, State.localChecks, List.map_map]
    rfl
  exact h ▸ lanesIn_pairwise _

/-- Every lane lies aligned and within the group's declared bytes. -/
def State.localFits (s : State) (size : Nat) (a b : BitVec 6) : Prop :=
  ∀ l ∈ lanesIn s.part, s.localOff a b l % size = 0 ∧ s.localOff a b l + size ≤ s.group.size

/-- The lanes with their offsets, in ascending order. -/
def State.localOffs (s : State) (a b : BitVec 6) : List (Nat × Nat) := (lanesIn s.part).map fun l => (l, s.localOff a b l)

section
variable {s : State} {size : Nat} {a b : BitVec 6} {run : List (Nat × Nat) → State → Host.Outcome State Fault Refusal}

theorem State.localCheck_of_fits {l : Nat} (h : s.localFits size a b) (hl : l ∈ lanesIn s.part) :
    s.localCheck size (s.localOff a b l) = .ok (s.localOff a b l) false := by
  obtain ⟨h1, h2⟩ := h l hl
  rw [State.localCheck, if_neg (by omega), if_neg (by omega)]

theorem State.worst_localChecks_of_fits (h : s.localFits size a b) : worst (s.localChecks size a b) = none := by
  cases hw : worst (s.localChecks size a b) with
  | none => rfl
  | some w =>
    obtain ⟨c, m, x⟩ := w
    obtain ⟨l, y, pa, hm⟩ := ((worst_names (s.localChecks_pairwise size a b)).2 c m x hw).found
    obtain ⟨hl, hk⟩ := State.mem_localChecks hm
    rw [State.localCheck_of_fits h hl] at hk
    cases hk

theorem State.passed_localChecks_of_fits (h : s.localFits size a b) : passed (s.localChecks size a b) = s.localOffs a b := by
  have hc : s.localChecks size a b =
      (s.laneAddrs a b).map fun p => (p.1, p.2, Checked.ok (s.localOff a b p.1) false) := by
    refine List.map_congr_left fun p hp => ?_
    have hl : p.1 ∈ (s.laneAddrs a b).map Prod.fst := List.mem_map_of_mem hp
    rw [State.laneAddrs_lanes] at hl
    rw [State.toNat_of_mem_laneAddrs hp, ← State.localCheck_of_fits h hl]
    rfl
  rw [passed, hc, List.filterMap_map, State.localOffs, ← s.laneAddrs_lanes a b, List.map_map]
  exact congrFun (List.filterMap_eq_map') _

/-- A factor core has no local store. -/
theorem State.localChecked_eq (hw : ∀ f, s.cur.who ≠ .factor f) :
    s.localChecked size a b run =
      match worst (s.localChecks size a b) with
      | some (c, m, x) => if s.ownTx.isSome then .next (s.abortTx .fault 0 x) else .next (s.raise c { lanes := m, detail := x })
      | none => run (passed (s.localChecks size a b)) s := by
  unfold State.localChecked
  cases hc : s.cur.who with
  | factor f => exact absurd hc (hw f)
  | warp | lane | tinker => cases worst (s.localChecks size a b) <;> rfl

theorem State.localChecked_of_fits (hw : ∀ f, s.cur.who ≠ .factor f) (h : s.localFits size a b) :
    s.localChecked size a b run = run (s.localOffs a b) s := by
  rw [State.localChecked_eq hw, State.worst_localChecks_of_fits h, State.passed_localChecks_of_fits h]

theorem State.localChecked_of_fails {c m x} (hw : ∀ f, s.cur.who ≠ .factor f) (ht : s.ownTx = none)
    (h : worst (s.localChecks size a b) = some (c, m, x)) :
    s.localChecked size a b run = .next (s.raise c { lanes := m, detail := x }) := by
  rw [State.localChecked_eq hw, h, ht]
  rfl

/-- A failing lane traps the cause of highest priority among the failing lanes. -/
theorem State.exists_worst_localChecks {l : Nat} {c : Cause} (hl : l ∈ lanesIn s.part) (h : s.localCheck size (s.localOff a b l) = .bad c 0) :
    ∃ c' m x, worst (s.localChecks size a b) = some (c', m, x) ∧ c'.code ≤ c.code ∧
      ∃ k ∈ lanesIn s.part, ∃ pa, s.localCheck size (s.localOff a b k) = .bad c' pa := by
  obtain ⟨y, hy⟩ := s.exists_localChecks size a b hl
  rw [h] at hy
  obtain ⟨hnone, hsome⟩ := worst_names (s.localChecks_pairwise size a b)
  cases hw : worst (s.localChecks size a b) with
  | none => exact absurd hy (hnone hw l y c 0)
  | some w =>
    obtain ⟨c', m, x⟩ := w
    have hn := hsome c' m x hw
    obtain ⟨k, z, pa, hm⟩ := hn.found
    obtain ⟨hk, he⟩ := State.mem_localChecks hm
    exact ⟨c', m, x, rfl, hn.first l y c 0 hy, k, hk, pa, he.symm⟩

theorem State.exists_worst_align {l : Nat} (hl : l ∈ lanesIn s.part) (h : s.localOff a b l % size ≠ 0) :
    ∃ m x, worst (s.localChecks size a b) = some (.align, m, x) := by
  obtain ⟨c, m, x, hw, hc, k, -, pa, hk⟩ := State.exists_worst_localChecks hl (if_pos h)
  have hca : c = .align := by
    unfold State.localCheck at hk
    (repeat' split at hk) <;> cases hk
    · rfl
    · exact absurd hc (by decide)
  exact ⟨m, x, hca ▸ hw⟩

theorem State.exists_worst_localRange {l : Nat} (hl : l ∈ lanesIn s.part) (h : s.localOff a b l % size = 0)
    (hr : s.group.size < s.localOff a b l + size) (ha : ∀ k ∈ lanesIn s.part, s.localOff a b k % size = 0) :
    ∃ m x, worst (s.localChecks size a b) = some (.localRange, m, x) := by
  obtain ⟨c, m, x, hw, -, k, hkl, pa, hk⟩ :=
    State.exists_worst_localChecks hl ((if_neg (not_not.2 h)).trans (if_pos hr) : s.localCheck size (s.localOff a b l) = .bad .localRange 0)
  have hcr : c = .localRange := by
    rw [State.localCheck, if_neg (not_not.2 (ha k hkl))] at hk
    split at hk <;> cases hk
    rfl
  exact ⟨m, x, hcr ▸ hw⟩

end

/-! ## Loads and stores -/

theorem dataRegs_eq (z : BitVec 2) (d : Nat) : dataRegs (2 ^ z.toNat) d = if z = 3#2 then [d, d + 1] else [d] := by
  have h : ∀ z : BitVec 2, max 1 (2 ^ z.toNat / 4) = if z = 3#2 then 2 else 1 := by decide
  rw [dataRegs, h]
  split <;> rfl

theorem laneData_eq (s : State) (z : BitVec 2) (d l : Nat) :
    s.laneData (2 ^ z.toNat) d l =
      ((lane (s.readV d) l).toNat + if z = 3#2 then 4294967296 * (lane (s.readV (d + 1)) l).toNat else 0) % 2 ^ (8 * 2 ^ z.toNat) := by
  rw [State.laneData, dataRegs_eq]
  split <;> simp [Nat.mul_comm, Nat.add_comm]

theorem find_map_key {β : Type} (g : Nat → β) {L : List Nat} {l : Nat} (h : l ∈ L) :
    ((L.map fun k => (k, g k)).find? fun e => e.1 == l) = some (l, g l) := by
  induction L with
  | nil => cases h
  | cons k L ih =>
    by_cases hk : k = l
    · simp [hk]
    · rw [List.map_cons, List.find?_cons_of_neg (by simpa using hk)]
      exact ih ((List.mem_cons.1 h).resolve_left (Ne.symm hk))

/-- An ascending list, cut at a member. -/
theorem eq_filter_append_cons {L : List Nat} {k : Nat} (hs : L.Pairwise (· < ·)) (h : k ∈ L) :
    L = L.filter (· < k) ++ k :: L.filter (k < ·) := by
  induction L with
  | nil => cases h
  | cons j L ih =>
    obtain ⟨hj, hs⟩ := List.pairwise_cons.1 hs
    rcases List.mem_cons.1 h with rfl | h
    · have h1 : L.filter (· < k) = [] := List.filter_eq_nil_iff.2 fun i hi => by simpa using (hj i hi).le
      have h2 : L.filter (k < ·) = L := List.filter_eq_self.2 fun i hi => by simpa using hj i hi
      simp [h1, h2]
    · have hjk := hj k h
      rw [List.filter_cons_of_pos (by simpa using hjk), List.filter_cons_of_neg (by simpa using hjk.le), List.cons_append, ← ih hs h]

/-- The places of the lanes of an ascending list. -/
def placed (off : Nat → Nat) (L : List Nat) : List (Nat × Nat) := L.map fun l => (l, off l)

/-- The memory that a lane finds: the lanes before it have stored. -/
def memBefore (size : Nat) (value : List Host.Cell → Nat × Nat → Nat) (off : Nat → Nat) (L : List Nat) (m : List Host.Cell) (l : Nat) :
    List Host.Cell :=
  storeAll size value (placed off (L.filter (· < l))) m

section
variable {size : Nat} {value : List Host.Cell → Nat × Nat → Nat} {off : Nat → Nat} {L : List Nat} {m : List Host.Cell}

theorem read_storeAll_placed_other {o : Nat} (h : ∀ l ∈ L, o < off l ∨ off l + size ≤ o) :
    Memory.read (storeAll size value (placed off L) m) o = Memory.read m o := by
  refine read_storeAll_other m fun p hp => ?_
  obtain ⟨l, hl, rfl⟩ := List.mem_map.1 hp
  exact h l hl

/-- The last lane's value stands where lanes meet. -/
theorem read_storeAll_placed_last {l i : Nat} (hs : L.Pairwise (· < ·)) (ha : ∀ k ∈ L, off k % size = 0) (hl : l ∈ L)
    (h : ∀ k ∈ L, l < k → off k ≠ off l) (hi : i < size) :
    Memory.read (storeAll size value (placed off L) m) (off l + i) =
      BitVec.ofNat 8 (value (memBefore size value off L m l) (l, off l) >>> (8 * i)) := by
  have hc : placed off L = placed off (L.filter (· < l)) ++ (l, off l) :: placed off (L.filter (l < ·)) := by
    conv_lhs => rw [eq_filter_append_cons hs hl]
    simp [placed]
  rw [hc]
  refine read_storeAll_last m (fun q hq => ?_) hi
  obtain ⟨k, hk, rfl⟩ := List.mem_map.1 hq
  obtain ⟨hk, hlk⟩ := List.mem_filter.1 hk
  exact apart_of_dvd (ha k hk) (ha l hl) (h k hk (by simpa using hlk))

end

/-! ## The words -/

/-- The parts of 32 bits of the lanes' values. -/
def State.localLoaded (s : State) (size : Nat) (a b : BitVec 6) (i : Nat) : Vec :=
  vecOf fun l => BitVec.ofNat 32 ((((((s.localOffs a b).map fun p =>
    (p.1, natOfBytes (Memory.readBytes s.group.store p.2 size))).find? fun g => g.1 == l).map Prod.snd).getD 0) >>> (32 * i))

theorem State.lane_localLoaded {s : State} (size : Nat) (a b : BitVec 6) (i : Nat) {l : Nat} (hl : l ∈ lanesIn s.part) :
    (lane (s.localLoaded size a b i) l).toNat =
      natOfBytes (Memory.readBytes s.group.store (s.localOff a b l) size) / 2 ^ (32 * i) % 4294967296 := by
  rw [State.localLoaded, lane_vecOf _ (mem_lanesIn.1 hl).1, State.localOffs, List.map_map]
  have hf := find_map_key (fun k => natOfBytes (Memory.readBytes s.group.store (s.localOff a b k) size)) hl
  simp only [Function.comp_def, hf, Option.map_some, Option.getD_some, BitVec.toNat_ofNat, Nat.shiftRight_eq_div_pow]

section
variable {s : State} (a b : BitVec 6) (z : BitVec 2) (hw : ∀ f, s.cur.who ≠ .factor f)
include hw

theorem State.ldl_completes (d : BitVec 6) (h : s.localFits (2 ^ z.toNat) a b) :
    let regs := if z = 3#2 then [d.toNat, d.toNat + 1] else [d.toNat]
    s.completes (.ldl d a b z) (s.vlResult (regs.map fun r => .v r s.part)
      ((regs.zip (List.range regs.length)).map fun e => .v e.1 s.part (s.localLoaded (2 ^ z.toNat) a b e.2)) true) := by
  intro regs
  have hr : dataRegs (2 ^ z.toNat) d.toNat = regs := dataRegs_eq z d.toNat
  rw [← hr]
  intro ht
  rw [exec_ldl, execLdl]
  exact (accept_of_takes ht).trans (State.localChecked_of_fits hw h)

/-- The store after an STL. -/
def State.localStored (s : State) (size d : Nat) (a b : BitVec 6) : List Host.Cell :=
  storeAll size (fun _ p => s.laneData size d p.1) (s.localOffs a b) s.group.store

theorem State.stl_completes (d : BitVec 6) (h : s.localFits (2 ^ z.toNat) a b) :
    s.completes (.stl d a b z) (s.updStore fun _ => s.localStored (2 ^ z.toNat) d.toNat a b) := by
  intro ht
  rw [exec_stl, execStl]
  exact (accept_of_takes ht).trans (State.localChecked_of_fits hw h)

theorem State.ldl_fails (d : BitVec 6) {c m x} (ht : s.ownTx = none) (h : worst (s.localChecks (2 ^ z.toNat) a b) = some (c, m, x)) :
    s.completes (.ldl d a b z) (s.raise c { lanes := m, detail := x }) := by
  intro hk
  rw [exec_ldl, execLdl]
  exact (accept_of_takes hk).trans (State.localChecked_of_fails hw ht h)

theorem State.stl_fails (d : BitVec 6) {c m x} (ht : s.ownTx = none) (h : worst (s.localChecks (2 ^ z.toNat) a b) = some (c, m, x)) :
    s.completes (.stl d a b z) (s.raise c { lanes := m, detail := x }) := by
  intro hk
  rw [exec_stl, execStl]
  exact (accept_of_takes hk).trans (State.localChecked_of_fails hw ht h)

end

/-! ## Atomics, lane after lane -/

/-- The word of local store at an offset. -/
def localWord (m : List Host.Cell) (o : Nat) : Word := BitVec.ofNat 32 (natOfBytes (Memory.readBytes m o 4))

theorem readBytes_congr {m n : List Host.Cell} {a k : Nat} (h : ∀ i, i < k → Memory.read m (a + i) = Memory.read n (a + i)) :
    Memory.readBytes m a k = Memory.readBytes n a k :=
  List.map_congr_left fun i hi => h i (List.mem_range.1 hi)

theorem localWord_of_bytes {m : List Host.Cell} {o : Nat} {w : Word}
    (h : ∀ i, i < 4 → Memory.read m (o + i) = BitVec.ofNat 8 (w.toNat >>> (8 * i))) : localWord m o = w := by
  have hb : Memory.readBytes m o 4 = bytesOf 4 w.toNat := List.map_congr_left fun i hi => h i (List.mem_range.1 hi)
  have hw : w.toNat < 256 ^ 4 := w.isLt
  rw [localWord, hb, natOfBytes_bytesOf, Nat.mod_eq_of_lt hw, BitVec.ofNat_toNat, BitVec.setWidth_eq]

/-- What an atomic leaves at a lane's place (R154). -/
def State.atomValue (s : State) (op d : Nat) (m : List Host.Cell) (p : Nat × Nat) : Nat :=
  (atomOp op (localWord m p.2) (lane (s.readV d) p.1) (lane (s.readV (d + 1)) p.1)).toNat

/-- What a lane finds: the memory that the lanes before it have left. -/
def State.atomFinds (s : State) (op d : Nat) (off : Nat → Nat) (L : List Nat) (m : List Host.Cell) (l : Nat) : Word :=
  localWord (memBefore 4 (s.atomValue op d) off L m l) (off l)

section
variable {s : State} {op d : Nat} {off : Nat → Nat} {L : List Nat} {m : List Host.Cell} (ha : ∀ k ∈ L, off k % 4 = 0)
include ha

/-- A lane that no lane before it meets finds the store as it was. -/
theorem State.atomFinds_first {l : Nat} (hl : l ∈ L) (h : ∀ k ∈ L, k < l → off k ≠ off l) :
    s.atomFinds op d off L m l = localWord m (off l) := by
  refine congrArg (fun b => BitVec.ofNat 32 (natOfBytes b)) (readBytes_congr fun i hi => read_storeAll_placed_other fun k hk => ?_)
  obtain ⟨hk, hkl⟩ := List.mem_filter.1 hk
  have := apart_of_dvd (ha k hk) (ha l hl) (h k hk (by simpa using hkl))
  omega

variable (hs : L.Pairwise (· < ·))
include hs

/-- A lane finds what the last lane before it at its place left. -/
theorem State.atomFinds_next {k l : Nat} (hk : k ∈ L) (hkl : k < l) (he : off k = off l) (h : ∀ j ∈ L, k < j → j < l → off j ≠ off l) :
    s.atomFinds op d off L m l = atomOp op (s.atomFinds op d off L m k) (lane (s.readV d) k) (lane (s.readV (d + 1)) k) := by
  refine localWord_of_bytes fun i hi => ?_
  have hp : (L.filter (· < l)).Pairwise (· < ·) := hs.filter _
  have hf : (L.filter (· < l)).filter (· < k) = L.filter (· < k) := by
    rw [List.filter_filter]
    exact List.filter_congr fun j _ => by simp; omega
  rw [← he]
  refine (read_storeAll_placed_last hp (fun j hj => ha j (List.mem_filter.1 hj).1) (List.mem_filter.2 ⟨hk, by simpa using hkl⟩)
    (fun j hj hkj => ?_) hi).trans ?_
  · obtain ⟨hj, hjl⟩ := List.mem_filter.1 hj
    exact he ▸ h j hj hkj (by simpa using hjl)
  · rw [memBefore, hf]
    rfl

/-- The last lane at a place leaves its value there. -/
theorem State.localWord_atoms_last {l : Nat} (hl : l ∈ L) (h : ∀ k ∈ L, l < k → off k ≠ off l) :
    localWord (storeAll 4 (s.atomValue op d) (placed off L) m) (off l) =
      atomOp op (s.atomFinds op d off L m l) (lane (s.readV d) l) (lane (s.readV (d + 1)) l) :=
  localWord_of_bytes fun _ hi => read_storeAll_placed_last hs ha hl h hi

end

/-- The step of one lane of an ATOML word on the store and what the lanes found. -/
def State.atomStep (s : State) (op d : Nat) (acc : List Host.Cell × List (Nat × Nat)) (p : Nat × Nat) : List Host.Cell × List (Nat × Nat) :=
  let old := natOfBytes (Memory.readBytes acc.1 p.2 4)
  let a : Acc := { lane := p.1, pa := p.2, size := 4, x := (lane (s.readV d) p.1).toNat, y := (lane (s.readV (d + 1)) p.1).toNat }
  (Memory.writeBytes acc.1 p.2 (bytesOf 4 (a.apply op old)), acc.2 ++ [(p.1, old)])

theorem State.atomStep_fst {s : State} {op d : Nat} (hop : op ≠ 15) (acc : List Host.Cell × List (Nat × Nat)) (p : Nat × Nat) :
    (s.atomStep op d acc p).1 = Memory.writeBytes acc.1 p.2 (bytesOf 4 (s.atomValue op d acc.1 p)) := by
  simp [State.atomStep, Acc.apply, hop, State.atomValue, localWord]

theorem State.atomSteps (s : State) {op : Nat} (d : Nat) (hop : op ≠ 15) (off : Nat → Nat) {L : List Nat} (m : List Host.Cell)
    (hs : L.Pairwise (· < ·)) :
    (placed off L).foldl (s.atomStep op d) (m, []) = (storeAll 4 (s.atomValue op d) (placed off L) m,
      L.map fun l => (l, natOfBytes (Memory.readBytes (memBefore 4 (s.atomValue op d) off L m l) (off l) 4))) := by
  induction L using List.reverseRecOn with
  | nil => rfl
  | append_singleton L l ih =>
    obtain ⟨hL, -, hl⟩ := List.pairwise_append.1 hs
    have hlt : ∀ k ∈ L, k < l := fun k hk => hl k hk l (by simp)
    have hb : ∀ k ∈ L, (L ++ [l]).filter (· < k) = L.filter (· < k) := fun k hk => by
      simp [List.filter_append, (hlt k hk).le]
    have hf : (L ++ [l]).filter (· < l) = L := by
      rw [List.filter_append, List.filter_eq_self.2 fun k hk => by simpa using hlt k hk]
      simp
    have hp : placed off (L ++ [l]) = placed off L ++ [(l, off l)] := by simp [placed]
    rw [hp, List.foldl_append, ih hL, List.foldl_cons, List.foldl_nil, storeAll_append, List.map_append]
    refine Prod.ext (State.atomStep_fst hop _ _) (congrArg₂ (· ++ ·) (List.map_congr_left fun k hk => ?_) ?_)
    · rw [memBefore, memBefore, hb k hk]
    · simp only [List.map_cons, List.map_nil, memBefore, hf]

/-- The value that each lane of an ATOML word returns. -/
def State.atomLoaded (s : State) (op d : Nat) (a b : BitVec 6) : Vec :=
  vecOf fun l => BitVec.ofNat 32 (((((s.localOffs a b).foldl (s.atomStep op d) (s.group.store, [])).2.find? fun g => g.1 == l).map
    Prod.snd).getD 0)

theorem State.lane_atomLoaded (s : State) {op : Nat} (d : Nat) (hop : op ≠ 15) (a b : BitVec 6) {l : Nat} (hl : l ∈ lanesIn s.part) :
    lane (s.atomLoaded op d a b) l = s.atomFinds op d (s.localOff a b) (lanesIn s.part) s.group.store l := by
  have hsteps := s.atomSteps d hop (s.localOff a b) s.group.store (lanesIn_pairwise s.part)
  rw [State.atomLoaded, lane_vecOf _ (mem_lanesIn.1 hl).1]
  change BitVec.ofNat 32 (((((placed (s.localOff a b) (lanesIn s.part)).foldl (s.atomStep op d) (s.group.store, [])).2.find?
    fun g => g.1 == l).map Prod.snd).getD 0) = _
  rw [hsteps, find_map_key _ hl]
  rfl

/-- What ATOML leaves in the store. -/
def State.atomStored (s : State) (op d : Nat) (a b : BitVec 6) : List Host.Cell :=
  storeAll 4 (s.atomValue op d) (s.localOffs a b) s.group.store

theorem State.atomLocal_of_fits {s : State} {op : Nat} (d : Nat) {a b : BitVec 6} (hop : op ≠ 15) (hw : ∀ f, s.cur.who ≠ .factor f)
    (h : s.localFits 4 a b) :
    s.atomLocal op d a b =
      .next ((s.updStore fun _ => s.atomStored op d a b).vlResult [.v d s.part] [.v d s.part (s.atomLoaded op d a b)] true) := by
  have hsteps : ((s.localOffs a b).foldl (s.atomStep op d) (s.group.store, [])).1 = s.atomStored op d a b :=
    congrArg Prod.fst (s.atomSteps d hop (s.localOff a b) s.group.store (lanesIn_pairwise s.part))
  rw [← hsteps]
  exact State.localChecked_of_fits hw h

/-- An ATOML word whose lanes all fit. -/
theorem State.atoml_completes {s : State} {i : Instr} {op d : Nat} {a b : BitVec 6} (hi : exec i s = accept i.cls s fun s => s.atomLocal op d a b)
    (hop : op ≠ 15) (hw : ∀ f, s.cur.who ≠ .factor f) (h : s.localFits 4 a b) :
    s.completes i ((s.updStore fun _ => s.atomStored op d a b).vlResult [.v d s.part] [.v d s.part (s.atomLoaded op d a b)] true) :=
  completes_of _ hi (State.atomLocal_of_fits d hop hw h)

/-- Settles O25: stores and atomics go over the lanes in ascending order, and offsets that are aligned meet or are apart. -/
theorem localMemoryWordsComplete : Obligations.LocalMemoryWordsComplete := by
  unfold Obligations.LocalMemoryWordsComplete
  refine ⟨fun s d a b z hw => ⟨fun h => ⟨⟨s.localLoaded (2 ^ z.toNat) a b, s.ldl_completes a b z hw d h, fun l hl i _ => s.lane_localLoaded _ a b i hl⟩,
    s.localStored (2 ^ z.toNat) d.toNat a b, s.stl_completes a b z hw d h, fun o ho => read_storeAll_placed_other ho, fun l hl hlast i hi => ?_⟩,
    fun ht l hl => ⟨fun h hr ha => ?_, fun h => ?_⟩⟩, fun s d a b p hw h e he => ?_⟩
  · rw [← ofNat_shiftRight_mod _ hi, ← laneData_eq]
    exact read_storeAll_placed_last (lanesIn_pairwise _) (fun k hk => (h k hk).1) hl hlast hi
  · obtain ⟨m, x, hx⟩ := State.exists_worst_localRange hl h hr ha
    exact ⟨m, x, s.ldl_fails a b z hw d ht hx, s.stl_fails a b z hw d ht hx⟩
  · obtain ⟨m, x, hx⟩ := State.exists_worst_align hl h
    exact ⟨m, x, s.ldl_fails a b z hw d ht hx, s.stl_fails a b z hw d ht hx⟩
  · obtain ⟨i, op, r⟩ := e
    have hs := lanesIn_pairwise s.part
    have ha : ∀ k ∈ lanesIn s.part, s.localOff a b k % 4 = 0 := fun k hk => (h k hk).1
    have hi : exec i s = accept i.cls s (fun s => s.atomLocal op r a b) ∧ op ≠ 15 := by
      simp only [List.mem_cons, Prod.mk.injEq, List.not_mem_nil, or_false] at he
      rcases he with ⟨rfl, rfl, rfl⟩ | ⟨rfl, rfl, rfl⟩ | ⟨rfl, rfl, rfl⟩ | ⟨rfl, rfl, rfl⟩ <;> exact ⟨rfl, by decide⟩
    have hx {l} (hl : l ∈ lanesIn s.part) := s.lane_atomLoaded r hi.2 a b hl
    have hleft {l} (hl : l ∈ lanesIn s.part) := congrArg (fun x => atomOp op x (lane (s.readV r) l) (lane (s.readV (r + 1)) l)) (hx hl).symm
    refine ⟨s.atomStored op r a b, s.atomLoaded op r a b, State.atoml_completes hi.1 hi.2 hw h, fun o ho => read_storeAll_placed_other ho,
      fun l hl hf => ?_, fun l hl k hk hkl hkl' hj => ?_, fun l hl hlast => ?_⟩
    · exact (hx hl).trans (State.atomFinds_first ha hl hf)
    · exact (hx hl).trans ((State.atomFinds_next ha hs hk hkl hkl' hj).trans (hleft hk))
    · exact (State.localWord_atoms_last ha hs hl hlast).trans (hleft hl)

end Sys2Proof.Machine
end

section
/-! The elements of a transfer and the places that they lie at: boxes and loops (R231, R232), an element's owner and offset (R214, R215, R225), the
fate of coordinates out of bounds (R227), and the elements of a copy, a gather and a scatter (R230, R247, R248). -/

namespace Sys2Proof.Machine

/-! ## Grids and loops -/

theorem length_grid (bs : List Nat) : (grid bs).length = bs.foldr (· * ·) 1 := by
  induction bs with
  | nil => rfl
  | cons n bs ih => simp [grid, List.length_flatMap, ih, Nat.mul_comm]

theorem below_cons {n i : Nat} {bs is : List Nat} : below (n :: bs) (i :: is) ↔ i < n ∧ below bs is := by
  constructor
  · rintro ⟨hl, h⟩
    exact ⟨h 0 (by simp), by simpa using hl, fun d hd => h (d + 1) (by simpa using hd)⟩
  · rintro ⟨hi, hl, h⟩
    refine ⟨by simpa using hl, fun d hd => ?_⟩
    cases d with
    | zero => exact hi
    | succ d => exact h d (by simpa using hd)

theorem eq_nil_of_below {o : List Nat} (h : below [] o) : o = [] := List.eq_nil_of_length_eq_zero h.1

theorem exists_cons_of_below {n : Nat} {bs o : List Nat} (h : below (n :: bs) o) : ∃ i is, o = i :: is ∧ i < n ∧ below bs is := by
  cases o with
  | nil => cases h.1
  | cons i is => exact ⟨i, is, rfl, below_cons.1 h⟩

/-- Every row of a concatenation of rows of one length begins at a multiple of it. -/
theorem getElem?_flatMap_const {α β : Type} {f : α → List β} {n : Nat} (hf : ∀ a, (f a).length = n) {l : List α} {k i : Nat} {a : α}
    (hk : l[k]? = some a) (hi : i < n) : (l.flatMap f)[i + n * k]? = (f a)[i]? := by
  induction l generalizing k with
  | nil => cases hk
  | cons b l ih =>
    rw [List.flatMap_cons]
    cases k with
    | zero =>
      cases hk
      exact List.getElem?_append_left (by rw [hf]; exact hi)
    | succ k =>
      rw [List.getElem?_append_right (by rw [hf, Nat.mul_succ]; omega), hf, ← ih hk]
      congr 1
      rw [Nat.mul_succ]
      omega

/-- A vector stands in the grid at its place. -/
theorem getElem?_grid {bs o : List Nat} (h : below bs o) : (grid bs)[placeIn bs o]? = some o := by
  induction bs generalizing o with
  | nil => rw [eq_nil_of_below h]; rfl
  | cons n bs ih =>
    obtain ⟨i, is, rfl, hi, h⟩ := exists_cons_of_below h
    rw [grid, placeIn, getElem?_flatMap_const (fun _ => by simp) (ih h) hi]
    simp [hi]

theorem below_of_mem_grid {bs o : List Nat} (h : o ∈ grid bs) : below bs o := by
  induction bs generalizing o with
  | nil => rw [List.mem_singleton.1 h]; exact ⟨rfl, fun _ hd => absurd hd (Nat.not_lt_zero _)⟩
  | cons n bs ih =>
    simp only [grid, List.mem_flatMap, List.mem_map, List.mem_range] at h
    obtain ⟨is, hm, i, hi, rfl⟩ := h
    exact below_cons.2 ⟨hi, ih hm⟩

theorem nextVec_cons (n i : Nat) (ns is : List Nat) :
    nextVec (n :: ns) (i :: is) = if i + 1 < n then some ((i + 1) :: is) else (nextVec ns is).map fun r => 0 :: r := rfl

theorem nextVec_some {bs v w : List Nat} (h : below bs v) (hw : nextVec bs v = some w) : below bs w ∧ placeIn bs w = placeIn bs v + 1 := by
  induction bs generalizing v w with
  | nil => cases hw
  | cons n bs ih =>
    obtain ⟨i, is, rfl, hi, h⟩ := exists_cons_of_below h
    rw [nextVec_cons] at hw
    by_cases hn : i + 1 < n
    · rw [if_pos hn] at hw
      cases hw
      exact ⟨below_cons.2 ⟨hn, h⟩, by simp only [placeIn]; omega⟩
    · rw [if_neg hn] at hw
      obtain ⟨r, hr, rfl⟩ := Option.map_eq_some_iff.1 hw
      obtain ⟨hb, hp⟩ := ih h hr
      refine ⟨below_cons.2 ⟨by omega, hb⟩, ?_⟩
      simp only [placeIn, hp, Nat.mul_succ]
      omega

theorem nextVec_none {bs v : List Nat} (h : below bs v) (hv : nextVec bs v = none) : placeIn bs v + 1 = bs.foldr (· * ·) 1 := by
  induction bs generalizing v with
  | nil => rw [eq_nil_of_below h]; rfl
  | cons n bs ih =>
    obtain ⟨i, is, rfl, hi, h⟩ := exists_cons_of_below h
    rw [nextVec_cons] at hv
    by_cases hn : i + 1 < n
    · rw [if_pos hn] at hv
      cases hv
    · rw [if_neg hn] at hv
      have hp := ih h (Option.map_eq_none_iff.1 hv)
      rw [List.foldr_cons, ← hp, placeIn, Nat.mul_succ]
      omega

/-! ## An element's place -/

theorem TD.off_eq (t : TD) : t.off = t.base.toNat % 281474976710656 := rfl

theorem TD.baseGcol_eq (t : TD) (own : Nat) :
    t.baseGcol own = if t.base.getLsbD 63 then (t.base.extractLsb' 55 8).toNat else own := by
  simp [TD.baseGcol, bitsOf, BitVec.extractLsb'_toNat]

theorem set_getD_self (i : List Nat) (k : Nat) : i.set k (i.getD k 0) = i := by
  by_cases h : k < i.length
  · simp [h]
  · exact List.set_eq_of_length_le (by omega)

/-- The owner and the local last coordinate of an element (R225). -/
def TD.owner (t : TD) (own n last : Nat) : Nat × Nat :=
  if t.dist = 0 then (t.baseGcol own, last)
  else if t.dist = 1 then (last / t.block, last % t.block)
  else (last / t.block % n, last / (t.block * n) * t.block + last % t.block)

theorem TD.locate_g (t : TD) (own n : Nat) (i : List Nat) : (t.locate own n i).g = (t.owner own n (i.getD (t.rank - 1) 0)).1 := by
  unfold TD.locate
  dsimp only
  split <;> rfl

theorem TD.locate_e (t : TD) (own n : Nat) (i : List Nat) :
    (t.locate own n i).e = t.element (i.set (t.rank - 1) (t.owner own n (i.getD (t.rank - 1) 0)).2) := by
  unfold TD.locate
  dsimp only
  split <;> rfl

theorem TD.locate_off (t : TD) (own n : Nat) (i : List Nat) (h : isMx t.format = false) :
    (t.locate own n i).off = t.base.toNat % 281474976710656 + (t.locate own n i).e * fmtBytes t.format := by
  simp only [TD.locate, h, Bool.false_eq_true, if_false, TD.off_eq]

theorem TD.locate_mx (t : TD) (own n : Nat) (i : List Nat) (h : isMx t.format = true) :
    (t.locate own n i).off = t.off + mxElemOff (t.format - 0x10) (t.locate own n i).e ∧
      (t.locate own n i).scale = t.off + mxScaleOff (t.format - 0x10) (t.locate own n i).e := by
  simp only [TD.locate, h, if_true, and_self]

theorem mxfp4_iff {f : Nat} (h : isMx f = true) : f - 0x10 = 2 ↔ f = 0x12 := by
  simp only [isMx, Bool.and_eq_true, decide_eq_true_eq] at h
  omega

theorem TD.locate_mx_scale (t : TD) (own n : Nat) (i : List Nat) (h : isMx t.format = true) :
    (t.locate own n i).scale = t.base.toNat % 281474976710656 +
      (t.locate own n i).e / 4096 * (if t.format = 0x12 then 2176 else 4224) + (t.locate own n i).e % 4096 / 32 := by
  rw [(t.locate_mx own n i h).2, mxScaleOff, mxTile, TD.off_eq]
  simp only [mxfp4_iff h, Nat.add_assoc]

theorem TD.locate_mx_off (t : TD) (own n : Nat) (i : List Nat) (h : isMx t.format = true) :
    (t.locate own n i).off = t.base.toNat % 281474976710656 +
      (t.locate own n i).e / 4096 * (if t.format = 0x12 then 2176 else 4224) + 128 +
        if t.format = 0x12 then (t.locate own n i).e % 4096 / 2 else (t.locate own n i).e % 4096 := by
  rw [(t.locate_mx own n i h).1, mxElemOff, mxTile, TD.off_eq]
  simp only [mxfp4_iff h, Nat.add_assoc]

theorem TD.owner_whole {t : TD} (own n last : Nat) (h : t.dist = 0) :
    t.owner own n last = (if t.base.getLsbD 63 then (t.base.extractLsb' 55 8).toNat else own, last) := by
  rw [TD.owner, if_pos h, TD.baseGcol_eq]

theorem TD.owner_blocks {t : TD} (own n last : Nat) (h : t.dist = 1) : t.owner own n last = (last / t.block, last % t.block) := by
  simp [TD.owner, h]

theorem TD.owner_cyclic {t : TD} (own n last : Nat) (h : t.dist = 2) :
    t.owner own n last = (last / t.block % n, last / (t.block * n) * t.block + last % t.block) := by
  simp [TD.owner, h]

theorem TD.element_linear (t : TD) (i : List Nat) (h : t.layout = 0) :
    t.element i = (((List.range t.rank).drop 0).map fun d => i.getD d 0 * t.strideOf d).sum := by
  simp only [TD.element, h, if_true, List.drop_zero, List.sum_eq_foldl]

theorem filter_two_le_range (r : Nat) : (List.range r).filter (fun d => decide (2 ≤ d)) = (List.range r).drop 2 := by
  match r with
  | 0 | 1 => rfl
  | r + 2 =>
    have h : List.range (r + 2) = 0 :: 1 :: List.range' 2 r := by simp [List.range_eq_range', List.range'_succ]
    rw [h]
    refine (List.filter_cons_of_neg (by decide)).trans ((List.filter_cons_of_neg (by decide)).trans (List.filter_eq_self.2 fun d hd => ?_))
    exact decide_eq_true (List.mem_range'_1.1 hd).1

theorem TD.element_tiled (t : TD) (i : List Nat) (h : t.layout = 1) :
    t.element i = i.getD 1 0 / t.tile1 / t.super1 * t.strideOf 1 +
      i.getD 0 0 / t.tile0 / t.super0 * (t.tile0 * t.tile1 * t.super0 * t.super1) +
      (i.getD 1 0 / t.tile1 % t.super1 * t.super0 + i.getD 0 0 / t.tile0 % t.super0) * (t.tile0 * t.tile1) +
      (i.getD 1 0 % t.tile1 * t.tile0 + i.getD 0 0 % t.tile0) +
      (((List.range t.rank).drop 2).map fun d => i.getD d 0 * t.strideOf d).sum := by
  simp only [TD.element, h, one_ne_zero, if_false, filter_two_le_range, List.sum_eq_foldl, Nat.add_assoc]

/-! ## Coordinates out of bounds -/

theorem TD.inBounds_iff (t : TD) (n : Nat) (c : List Int) (d : Nat) : t.inBounds n c d ↔ t.outside n c d = none := by
  simp [TD.inBounds, TD.outside, TD.limit]

theorem TD.outside_of_not_inBounds {t : TD} {n : Nat} {c : List Int} {d : Nat} (h : ¬ t.inBounds n c d) : t.outside n c d = some (t.mode d) := by
  have h' : ¬ (0 ≤ c.getD d 0 ∧ c.getD d 0 < (t.limit n d : Nat)) := h
  simp only [TD.outside, if_neg h']

theorem TD.outside_eq_some {t : TD} {n : Nat} {c : List Int} {d m : Nat} : t.outside n c d = some m ↔ ¬ t.inBounds n c d ∧ t.mode d = m := by
  by_cases h : t.inBounds n c d
  · simp [h, (t.inBounds_iff n c d).1 h]
  · simp [h, TD.outside_of_not_inBounds h]

theorem TD.nearest_of_inBounds {t : TD} {n : Nat} {c : List Int} {d : Nat} (h : t.inBounds n c d) : t.nearest n c d = (c.getD d 0).toNat := by
  obtain ⟨h0, h1⟩ := h
  unfold TD.nearest
  rw [if_neg (by omega)]
  exact Nat.min_eq_left (by omega)

/-- A coordinate is out of bounds under a mode. -/
def TD.outUnder (t : TD) (n : Nat) (c : List Int) (m : Nat) : Prop := ∃ d, d < t.rank ∧ ¬ t.inBounds n c d ∧ t.mode d = m

theorem TD.not_outUnder {t : TD} {n : Nat} {c : List Int} {m : Nat} :
    ¬ t.outUnder n c m ↔ ∀ d, d < t.rank → ¬ t.inBounds n c d → t.mode d ≠ m := by
  simp [TD.outUnder]

theorem TD.any_outside {t : TD} {n : Nat} {c : List Int} {m : Nat} :
    ((List.range t.rank).any fun d => t.outside n c d == some m) = true ↔ t.outUnder n c m := by
  simp [TD.outUnder, TD.outside_eq_some]

theorem TD.fate_of_find_some {t : TD} {n : Nat} {c : List Int} {d : Nat}
    (h : ((List.range t.rank).find? fun d => t.outside n c d == some 0) = some d) : t.fate n c = .bad d := by
  simp only [TD.fate, h]

theorem TD.fate_of_find_none {t : TD} {n : Nat} {c : List Int} (h : ((List.range t.rank).find? fun d => t.outside n c d == some 0) = none) :
    t.fate n c =
      if (List.range t.rank).any fun d => t.outside n c d == some 2 then .fill
      else if (List.range t.rank).any fun d => t.outside n c d == some 1 then .clamped ((List.range t.rank).map (t.nearest n c))
      else .at_ ((List.range t.rank).map (t.nearest n c)) := by
  simp only [TD.fate, h]
  rfl

/-- What becomes of coordinates (R227): ERROR comes before FILL, and FILL before CLAMP (log 128). -/
theorem TD.fate_cases (t : TD) (n : Nat) (c : List Int) :
    (∃ d, t.fate n c = .bad d ∧ ¬ t.inBounds n c d ∧ t.mode d = 0) ∨
    (¬ t.outUnder n c 0 ∧
      ((t.fate n c = .fill ∧ t.outUnder n c 2) ∨
       (¬ t.outUnder n c 2 ∧
        ((t.fate n c = .clamped ((List.range t.rank).map (t.nearest n c)) ∧ t.outUnder n c 1) ∨
         (t.fate n c = .at_ ((List.range t.rank).map (t.nearest n c)) ∧ ¬ t.outUnder n c 1))))) := by
  cases hf : (List.range t.rank).find? fun d => t.outside n c d == some 0 with
  | some d =>
    have ho := List.find?_some hf
    rw [beq_iff_eq, TD.outside_eq_some] at ho
    exact .inl ⟨d, TD.fate_of_find_some hf, ho⟩
  | none =>
    have h0 : ¬ t.outUnder n c 0 := by
      rw [← TD.any_outside, List.any_eq_true]
      rintro ⟨d, hd, ho⟩
      exact List.find?_eq_none.1 hf d hd ho
    rw [TD.fate_of_find_none hf]
    refine .inr ⟨h0, ?_⟩
    by_cases h2 : t.outUnder n c 2
    · exact .inl ⟨if_pos (TD.any_outside.2 h2), h2⟩
    · refine .inr ⟨h2, ?_⟩
      by_cases h1 : t.outUnder n c 1
      · exact .inl ⟨(if_neg (mt TD.any_outside.1 h2)).trans (if_pos (TD.any_outside.2 h1)), h1⟩
      · exact .inr ⟨(if_neg (mt TD.any_outside.1 h2)).trans (if_neg (mt TD.any_outside.1 h1)), h1⟩

/-- What a descriptor's element for reading is, or its fault. -/
theorem TD.source_spec (t : TD) (own n side ipos : Nat) (c : List Int) :
    match t.source own n side ipos c with
    | .error f => f.code = 3 ∧ f.side = side ∧ f.coords = c ∧ ¬ t.inBounds n c f.dim ∧ t.mode f.dim = 0
    | .ok x => t.reads own n c x := by
  unfold TD.source
  rcases t.fate_cases n c with ⟨d, hf, h⟩ | ⟨h0, ⟨hf, h2⟩ | ⟨h2, ⟨hf, -⟩ | ⟨hf, -⟩⟩⟩
  · rw [hf]
    exact ⟨rfl, rfl, rfl, h⟩
  · rw [hf]
    exact ⟨TD.not_outUnder.1 h0, fun _ => rfl, fun h => absurd h2 (TD.not_outUnder.2 h)⟩
  · rw [hf]
    exact ⟨TD.not_outUnder.1 h0, fun h => absurd h h2, fun _ => rfl⟩
  · rw [hf]
    exact ⟨TD.not_outUnder.1 h0, fun h => absurd h h2, fun _ => rfl⟩

/-- What a descriptor's element for writing is, or its fault. -/
theorem TD.target_spec {t : TD} (hm : ∀ d, d < t.rank → t.mode d ≤ 2) (own n side ipos : Nat) (c : List Int) :
    match t.target own n side ipos c with
    | .error f => f.code = 3 ∧ f.side = side ∧ f.coords = c ∧ ¬ t.inBounds n c f.dim ∧ t.mode f.dim = 0
    | .ok x => t.takes own n c x := by
  unfold TD.target
  have hall (h0 : ¬ t.outUnder n c 0) (h1 : ¬ t.outUnder n c 1) (h2 : ¬ t.outUnder n c 2) : ∀ d, d < t.rank → t.inBounds n c d := by
    intro d hd
    by_contra hb
    have := TD.not_outUnder.1 h0 d hd hb
    have := TD.not_outUnder.1 h1 d hd hb
    have := TD.not_outUnder.1 h2 d hd hb
    have := hm d hd
    omega
  have hsome {m} (h : t.outUnder n c m) : ¬ ∀ d, d < t.rank → t.inBounds n c d := fun hb => by
    obtain ⟨d, hd, hn, -⟩ := h
    exact hn (hb d hd)
  rcases t.fate_cases n c with ⟨d, hf, h⟩ | ⟨h0, ⟨hf, h2⟩ | ⟨h2, ⟨hf, h1⟩ | ⟨hf, h1⟩⟩⟩
  · rw [hf]
    exact ⟨rfl, rfl, rfl, h⟩
  · rw [hf]
    exact ⟨TD.not_outUnder.1 h0, fun _ => rfl, fun h => absurd h (hsome h2)⟩
  · rw [hf]
    exact ⟨TD.not_outUnder.1 h0, fun _ => rfl, fun h => absurd h (hsome h1)⟩
  · rw [hf]
    have hb := hall h0 h1 h2
    refine ⟨TD.not_outUnder.1 h0, fun h => ?_, fun _ => ?_⟩
    · obtain ⟨d, hd, hn⟩ := h
      exact absurd (hb d hd) hn
    · exact congrArg (fun i => some (t.locate own n i)) (List.map_congr_left fun d hd => TD.nearest_of_inBounds (hb d (List.mem_range.1 hd)))

/-! ## Coordinates moved -/

@[simp] theorem length_addAt (c : List Int) (d : Nat) (x : Int) : (addAt c d x).length = c.length := by simp [addAt]

theorem getD_addAt (c : List Int) (d : Nat) (x : Int) {k : Nat} (hk : k < c.length) :
    (addAt c d x).getD k 0 = c.getD k 0 + if d = k then x else 0 := by
  unfold addAt
  split
  · next h => subst h; simp [hk]
  · next h => simp [h]

section
variable {β : Type} {key : β → Nat} {val : β → Int} {p : β → Prop} [DecidablePred p]

/-- Coordinates moved by those of some moves that are of one side. -/
def movedBy (p : β → Prop) [DecidablePred p] (key : β → Nat) (val : β → Int) (l : List β) (c : List Int) : List Int :=
  l.foldl (fun c e => if p e then addAt c (key e) (val e) else c) c

theorem length_movedBy (l : List β) (c : List Int) : (movedBy p key val l c).length = c.length := by
  induction l generalizing c with
  | nil => rfl
  | cons e l ih =>
    refine (ih _).trans ?_
    dsimp only
    split <;> simp

theorem getD_movedBy (l : List β) {c : List Int} {k : Nat} (hk : k < c.length) :
    (movedBy p key val l c).getD k 0 = c.getD k 0 + (l.map fun e => if p e ∧ key e = k then val e else 0).sum := by
  induction l generalizing c with
  | nil => simp [movedBy]
  | cons e l ih =>
    have hstep : (if p e then addAt c (key e) (val e) else c).getD k 0 = c.getD k 0 + if p e ∧ key e = k then val e else 0 := by
      by_cases hp : p e
      · simp only [hp, if_true, true_and, getD_addAt c _ _ hk]
      · simp [hp]
    have hlen : k < (if p e then addAt c (key e) (val e) else c).length := by split <;> simpa
    rw [List.map_cons, List.sum_cons, ← add_assoc, ← hstep, ← ih hlen]
    rfl

end

/-- The second coordinate that a loop entry moves (R231, R232). -/
def Rec.secondDim (r : Rec) (l : Loop) : Nat := if l.side = 1 then l.dim else if r.gather then l.dim else r.perm.getD l.dim l.dim

theorem Rec.starts_eq (r : Rec) (coords : List Int) (it : List Nat) :
    r.starts coords it =
      (movedBy (fun e => e.1.side ≠ 1) (fun e => e.1.dim) (fun e => (e.2 : Int) * e.1.step) (r.loops.zip it) (coords.take r.a.rank),
        movedBy (fun e => e.1.side ≠ 0) (fun e => r.secondDim e.1) (fun e => (e.2 : Int) * e.1.step) (r.loops.zip it)
          (coords.drop r.a.rank)) := by
  unfold Rec.starts
  generalize coords.take r.a.rank = c1
  generalize coords.drop r.a.rank = c2
  induction r.loops.zip it generalizing c1 c2 with
  | nil => rfl
  | cons e l ih =>
    rw [List.foldl_cons]
    obtain ⟨e, n⟩ := e
    have hstep : (match e.side with
        | 0 => (addAt c1 e.dim ((n : Int) * e.step), c2)
        | 1 => (c1, addAt c2 e.dim ((n : Int) * e.step))
        | _ => (addAt c1 e.dim ((n : Int) * e.step), addAt c2 (if r.gather then e.dim else r.perm.getD e.dim e.dim) ((n : Int) * e.step))) =
        (if e.side ≠ 1 then addAt c1 e.dim ((n : Int) * e.step) else c1,
          if e.side ≠ 0 then addAt c2 (r.secondDim e) ((n : Int) * e.step) else c2) := by
      unfold Rec.secondDim
      split <;> simp_all
    exact (congrArg (List.foldl _ · l) hstep).trans (ih _ _)

section
variable {r : Rec} {coords : List Int} {it : List Nat}

theorem Rec.length_starts_fst (h : r.a.rank ≤ coords.length) : (r.starts coords it).1.length = r.a.rank := by
  rw [Rec.starts_eq, length_movedBy, List.length_take, Nat.min_eq_left h]

theorem Rec.length_starts_snd : (r.starts coords it).2.length = coords.length - r.a.rank := by
  rw [Rec.starts_eq, length_movedBy, List.length_drop]

theorem Rec.getD_starts_fst {d : Nat} (h : r.a.rank ≤ coords.length) (hd : d < r.a.rank) :
    (r.starts coords it).1.getD d 0 = coords.getD d 0 + r.moved it fun l => decide (l.side ≠ 1) && decide (l.dim = d) := by
  have ht : (coords.take r.a.rank).getD d 0 = coords.getD d 0 := by simp [List.getD_eq_getElem?_getD, hd]
  rw [Rec.starts_eq, getD_movedBy _ (by rw [List.length_take]; omega), ht, Rec.moved]
  simp

theorem Rec.getD_starts_snd {d : Nat} (hs : ∀ l ∈ r.loops, l.side ≤ 2) (hd : r.a.rank + d < coords.length) :
    (r.starts coords it).2.getD d 0 = coords.getD (r.a.rank + d) 0 + r.moved it fun l =>
      (decide (l.side = 1) && decide (l.dim = d)) ||
        (decide (l.side = 2) && decide ((if r.gather then l.dim else r.perm.getD l.dim l.dim) = d)) := by
  have ht : (coords.drop r.a.rank).getD d 0 = coords.getD (r.a.rank + d) 0 := by simp [List.getD_eq_getElem?_getD]
  rw [Rec.starts_eq, getD_movedBy _ (by rw [List.length_drop]; omega), ht, Rec.moved]
  refine congrArg (fun l => _ + List.sum l) (List.map_congr_left fun e he => if_congr ?_ rfl rfl)
  have h2 := hs e.1 (List.of_mem_zip he).1
  simp only [Rec.secondDim, Bool.or_eq_true, Bool.and_eq_true, decide_eq_true_eq]
  by_cases h1 : e.1.side = 1
  · simp [h1]
  · simp only [h1, if_false, false_and, false_or]
    have : e.1.side ≠ 0 ↔ e.1.side = 2 := by omega
    rw [this]

end

/-! ## A box's offsets -/

theorem sum_range_ite (g : Nat → Int) {n d : Nat} (h : d < n) : ((List.range n).map fun i => if i = d then g i else 0).sum = g d := by
  have hs := Finset.sum_ite_eq' (Finset.range n) d g
  rw [if_pos (Finset.mem_range.2 h)] at hs
  exact hs

theorem zip_range_eq_map (o : List Nat) : o.zip (List.range o.length) = (List.range o.length).map fun i => (o.getD i 0, i) := by
  refine List.ext_getElem (by simp) fun i h1 h2 => ?_
  simp at h1
  simp [h1]

/-- Coordinates moved by the components of a vector, each in its own dimension. -/
def movedAlong (key : Nat → Nat) (o : List Nat) (c : List Int) : List Int :=
  (o.zip (List.range o.length)).foldl (fun c e => addAt c (key e.2) (e.1 : Int)) c

theorem movedAlong_eq (key : Nat → Nat) (o : List Nat) (c : List Int) :
    movedAlong key o c = movedBy (fun _ => True) (fun e => key e.2) (fun e => (e.1 : Int)) (o.zip (List.range o.length)) c := by
  simp only [movedAlong, movedBy, if_true]

theorem length_movedAlong (key : Nat → Nat) (o : List Nat) (c : List Int) : (movedAlong key o c).length = c.length := by
  rw [movedAlong_eq, length_movedBy]

theorem getD_movedAlong (key : Nat → Nat) {o : List Nat} {c : List Int} {d : Nat} (hd : d < o.length) (hk : key d < c.length)
    (hinj : ∀ i, i < o.length → key i = key d → i = d) :
    (movedAlong key o c).getD (key d) 0 = c.getD (key d) 0 + (o.getD d 0 : Int) := by
  rw [movedAlong_eq, getD_movedBy _ hk, zip_range_eq_map, List.map_map]
  refine congrArg (_ + ·) ((congrArg List.sum (List.map_congr_left fun i hi => ?_)).trans (sum_range_ite (fun i => (o.getD i 0 : Int)) hd))
  refine if_congr ⟨fun h => hinj i (List.mem_range.1 hi) h.2, fun h => ⟨trivial, h ▸ rfl⟩⟩ rfl rfl

/-- A dimension that no component moves stays. -/
theorem getD_movedAlong_other {key : Nat → Nat} {o : List Nat} {c : List Int} {k : Nat} (hk : k < c.length)
    (h : ∀ i, i < o.length → key i ≠ k) : (movedAlong key o c).getD k 0 = c.getD k 0 := by
  rw [movedAlong_eq, getD_movedBy _ hk, zip_range_eq_map, List.map_map]
  have hz : ((List.range o.length).map fun i => if True ∧ key i = k then (o.getD i 0 : Int) else 0).sum = 0 :=
    List.sum_eq_zero fun x hx => by
      obtain ⟨i, hi, rfl⟩ := List.mem_map.1 hx
      exact if_neg fun hc => h i (List.mem_range.1 hi) hc.2
  exact (congrArg (_ + ·) hz).trans (add_zero _)

/-! ## Valid records -/

theorem length_eraseDups_le (l : List Nat) : l.eraseDups.length ≤ l.length := by
  induction h : l.length using Nat.strong_induction_on generalizing l with
  | _ n ih =>
    cases l with
    | nil => simp
    | cons a l =>
      have hf := List.length_filter_le (fun b => !b == a) l
      rw [List.length_cons] at h
      have := ih _ (by omega) (l.filter fun b => !b == a) rfl
      rw [List.eraseDups_cons, List.length_cons]
      omega

/-- A list that has no duplicates to erase. -/
theorem nodup_of_length_eraseDups {l : List Nat} (h : l.eraseDups.length = l.length) : l.Nodup := by
  induction l with
  | nil => exact List.nodup_nil
  | cons a l ih =>
    rw [List.eraseDups_cons, List.length_cons, List.length_cons, Nat.add_right_cancel_iff] at h
    have h1 := length_eraseDups_le (l.filter fun b => !b == a)
    have h2 := List.length_filter_le (fun b => !b == a) l
    have hf : l.filter (fun b => !b == a) = l := List.filter_eq_self.2 (List.length_filter_eq_length_iff.1 (by omega))
    rw [hf] at h
    refine List.nodup_cons.2 ⟨fun ha => ?_, ih h⟩
    have := List.filter_eq_self.1 hf a ha
    simp at this

theorem tdOf_rank (b : List Byte) : (tdOf (b.take 96)).rank = fieldOf b 1 1 := by
  simp [tdOf, fieldOf, List.drop_take, List.take_take]

theorem recOf_a_rank (gather : Bool) (b : List Byte) : (recOf gather b).a.rank = fieldOf b 1 1 := by
  cases gather <;> exact tdOf_rank b

@[simp] theorem recOf_gather (gather : Bool) (b : List Byte) : (recOf gather b).gather = gather := by cases gather <;> rfl

theorem TD.rank_of_valid {t : TD} (h : t.valid = true) : 1 ≤ t.rank ∧ t.rank ≤ 7 := by
  simp only [TD.valid, Bool.and_eq_true, decide_eq_true_eq] at h
  tauto

theorem TD.mode_le (t : TD) (d : Nat) : t.mode d ≤ 3 := by
  have : t.mode d < 2 ^ (2 * d + 1 + 1 - 2 * d) := Nat.mod_lt _ (by positivity)
  rw [show 2 * d + 1 + 1 - 2 * d = 2 by omega] at this
  omega

theorem TD.modes_of_valid {t : TD} (h : t.valid = true) : ∀ d, d < t.rank → t.mode d ≤ 2 := by
  intro d hd
  have h7 := (TD.rank_of_valid h).2
  have hle := t.mode_le d
  simp only [TD.valid, Bool.and_eq_true, List.all_eq_true] at h
  obtain ⟨⟨⟨-, hdims⟩, -⟩, -⟩ := h
  have := hdims d (List.mem_range.2 (by omega))
  rw [if_pos hd] at this
  simp only [Bool.and_eq_true, decide_eq_true_eq] at this
  omega

section
variable {bytes : List Byte}

/-- What the validity of any record says of its descriptors and loops (R224, R231). -/
theorem Rec.base_of_valid {r : Rec} (h : r.valid = true) : r.a.valid = true ∧ r.b.valid = true ∧ ∀ l ∈ r.loops, l.side ≤ 2 := by
  simp only [Rec.valid, Bool.and_eq_true, List.all_eq_true, decide_eq_true_eq] at h
  obtain ⟨⟨⟨⟨⟨⟨ha, hb⟩, -⟩, -⟩, -⟩, hl⟩, -⟩ := h
  exact ⟨ha, hb, fun l hm => (hl l hm).1.1.2⟩

theorem Rec.gather_of_valid (h : (recOf true bytes).valid = true) :
    (recOf true bytes).r.valid = true ∧ (recOf true bytes).b.rank = (recOf true bytes).r.rank := by
  simp only [Rec.valid, Bool.and_eq_true, recOf_gather, if_true, decide_eq_true_eq] at h
  tauto

theorem Rec.copy_of_valid (h : (recOf false bytes).valid = true) :
    (recOf false bytes).a.rank = (recOf false bytes).b.rank ∧ (recOf false bytes).permOk = true := by
  simp only [Rec.valid, Bool.and_eq_true, recOf_gather, Bool.false_eq_true, if_false, decide_eq_true_eq] at h
  tauto

theorem length_perm (bytes : List Byte) : (recOf false bytes).perm.length = (recOf false bytes).a.rank := by
  rw [recOf_a_rank]
  exact (List.length_map _).trans List.length_range

/-- A copy's permutation of its dimensions (R230). -/
theorem Rec.perm_of_valid (h : (recOf false bytes).valid = true) :
    (∀ d, d < (recOf false bytes).a.rank → (recOf false bytes).perm.getD d d < (recOf false bytes).a.rank) ∧
      ∀ d e, d < (recOf false bytes).a.rank → e < (recOf false bytes).a.rank →
        (recOf false bytes).perm.getD d d = (recOf false bytes).perm.getD e e → d = e := by
  have hp := (Rec.copy_of_valid h).2
  have hl := length_perm bytes
  simp only [Rec.permOk, Bool.and_eq_true, List.all_eq_true, decide_eq_true_eq] at hp
  obtain ⟨⟨hlt, hdup⟩, -⟩ := hp
  have hn := nodup_of_length_eraseDups hdup
  have hget {d} (hd : d < (recOf false bytes).a.rank) : (recOf false bytes).perm.getD d d = (recOf false bytes).perm[d]'(hl ▸ hd) :=
    List.getD_eq_getElem _ _ _
  refine ⟨fun d hd => ?_, fun d e hd he hde => ?_⟩
  · rw [hget hd]
    exact hlt _ (List.getElem_mem _)
  · rw [hget hd, hget he] at hde
    exact (hn.getElem_inj_iff).1 hde

theorem length_box : ((recOf false bytes).box).length = 7 := (List.length_map _).trans List.length_range

end

/-! ## The elements of a copy -/

theorem foldl_pair {α β γ : Type} (f : α → γ → α) (g : β → γ → β) (l : List γ) (a : α) (b : β) :
    l.foldl (fun acc e => (f acc.1 e, g acc.2 e)) (a, b) = (l.foldl f a, l.foldl g b) := by
  induction l generalizing a b with
  | nil => rfl
  | cons e l ih => exact ih _ _

/-- One element of a copy, at its coordinates. -/
def Rec.copyPair (r : Rec) (own n : Nat) (sc dc : List Int) : Except CmdFault Pair :=
  match r.a.source own n 0 0 sc with
  | .error f => .error f
  | .ok src =>
    match r.b.target own n 1 0 dc with
    | .error f => .error f
    | .ok dst => .ok { src := src, dst := dst, sc := sc, dc := dc }

/-- The source and destination coordinates at an offset of a copy's box. -/
def Rec.copyFrom (r : Rec) (coords : List Int) (it o : List Nat) : List Int := movedAlong id o (r.starts coords it).1
def Rec.copyTo (r : Rec) (coords : List Int) (it o : List Nat) : List Int := movedAlong (fun d => r.perm.getD d d) o (r.starts coords it).2

theorem Rec.copyPairs_eq (r : Rec) (own n : Nat) (coords : List Int) (it : List Nat) :
    r.copyPairs own n coords it =
      (grid (r.box.take r.a.rank)).map fun o => r.copyPair own n (r.copyFrom coords it o) (r.copyTo coords it o) := by
  refine List.map_congr_left fun o _ => ?_
  have hf := foldl_pair (fun c (e : Nat × Nat) => addAt c e.2 (e.1 : Int)) (fun c (e : Nat × Nat) => addAt c (r.perm.getD e.2 e.2) (e.1 : Int))
    (o.zip (List.range o.length)) (r.starts coords it).1 (r.starts coords it).2
  exact congrArg (fun c => r.copyPair own n c.1 c.2) hf

theorem Rec.copyPair_ok {r : Rec} {own n : Nat} {sc dc : List Int} {p : Pair} (hm : ∀ d, d < r.b.rank → r.b.mode d ≤ 2)
    (h : r.copyPair own n sc dc = .ok p) : p.sc = sc ∧ p.dc = dc ∧ r.a.reads own n sc p.src ∧ r.b.takes own n dc p.dst := by
  have hs := r.a.source_spec own n 0 0 sc
  have ht := TD.target_spec hm own n 1 0 dc
  unfold Rec.copyPair at h
  split at h
  · cases h
  · next src hx =>
    rw [hx] at hs
    split at h
    · cases h
    · next dst hy =>
      rw [hy] at ht
      cases h
      exact ⟨rfl, rfl, hs, ht⟩

theorem Rec.copyPair_error {r : Rec} {own n : Nat} {sc dc : List Int} {f : CmdFault} (hm : ∀ d, d < r.b.rank → r.b.mode d ≤ 2)
    (h : r.copyPair own n sc dc = .error f) :
    f.code = 3 ∧ ((f.side = 0 ∧ f.coords = sc ∧ ¬ r.a.inBounds n sc f.dim ∧ r.a.mode f.dim = 0) ∨
      (f.side = 1 ∧ f.coords = dc ∧ ¬ r.b.inBounds n dc f.dim ∧ r.b.mode f.dim = 0)) := by
  have hs := r.a.source_spec own n 0 0 sc
  have ht := TD.target_spec hm own n 1 0 dc
  unfold Rec.copyPair at h
  split at h
  · next g hx =>
    rw [hx] at hs
    cases h
    exact ⟨hs.1, .inl hs.2⟩
  · split at h
    · next g hy =>
      rw [hy] at ht
      cases h
      exact ⟨ht.1, .inr ht.2⟩
    · cases h

/-! ## The elements of a row -/

/-- The index of a position, as coordinates of the table. -/
def Rec.tableIndex (r : Rec) (k : Int) : List Int := List.replicate (r.b.rank - 1) 0 ++ [k]

theorem Rec.getD_tableIndex (r : Rec) (k : Int) : (r.tableIndex k).getD (r.b.rank - 1) 0 = k := by
  simp [Rec.tableIndex, List.getD_eq_getElem?_getD]

/-- The element of the table's row at an index: none where the index is filled (R247, R248). -/
def Rec.tableLoc (r : Rec) (own n : Nat) (k : Int) (o : List Nat) : Option Loc :=
  if r.b.outside n (r.tableIndex k) (r.b.rank - 1) = some 2 then none
  else some (r.b.locate own n (o ++ [r.b.nearest n (r.tableIndex k) (r.b.rank - 1)]))

theorem Rec.tableLoc_eq (r : Rec) (own n : Nat) (k : Int) (o : List Nat) :
    r.tableLoc own n k o =
      if r.b.mode (r.b.rank - 1) = 2 ∧ ¬ (0 ≤ k ∧ k < (r.b.limit n (r.b.rank - 1) : Nat)) then none
      else some (r.b.locate own n (o ++ [r.b.nearest n (r.tableIndex k) (r.b.rank - 1)])) := by
  refine if_congr (TD.outside_eq_some.trans (and_comm.trans (and_congr_right fun _ => not_congr ?_))) rfl rfl
  rw [TD.inBounds, Rec.getD_tableIndex]
  rfl

/-- The coordinates of an element of a row at a position. -/
def Rec.rowCoords (r : Rec) (coords : List Int) (it : List Nat) (p : Nat) (o : List Nat) : List Int :=
  movedAlong id o (addAt (r.starts coords it).2 (r.b.rank - 1) (p : Int))

/-- One element of a gather or a scatter. -/
def Rec.rowPair (r : Rec) (scat : Bool) (own n : Nat) (p : Nat) (tl : Option Loc) (tc rc : List Int) : Except CmdFault Pair :=
  if scat then
    match r.r.source own n 0 p rc with
    | .error f => .error f
    | .ok src => .ok { src := src, dst := tl, sc := rc, dc := tc, ipos := p }
  else
    match r.r.target own n 1 p rc with
    | .error f => .error f
    | .ok dst => .ok { src := tl, dst := dst, sc := tc, dc := rc, ipos := p }

theorem Rec.rowPairs_error {r : Rec} {k : Int} {n : Nat} (scat : Bool) (own : Nat) (coords : List Int) (it : List Nat) (p : Nat)
    (h : r.b.outside n (r.tableIndex k) (r.b.rank - 1) = some 0) :
    r.rowPairs scat own n coords it p k = [.error { code := 4, dim := r.b.rank - 1, side := 3, coords := r.tableIndex k, ipos := p }] := by
  unfold Rec.rowPairs
  dsimp only
  unfold Rec.tableIndex at h
  rw [h]
  rfl

theorem Rec.rowPairs_eq {r : Rec} {k : Int} {n : Nat} (scat : Bool) (own : Nat) (coords : List Int) (it : List Nat) (p : Nat)
    (h : r.b.outside n (r.tableIndex k) (r.b.rank - 1) ≠ some 0) :
    r.rowPairs scat own n coords it p k = (grid ((List.range (r.b.rank - 1)).map r.b.sizeOf)).map fun o =>
      r.rowPair scat own n p (r.tableLoc own n k o)
        ((o ++ [r.b.nearest n (r.tableIndex k) (r.b.rank - 1)]).map fun (x : Nat) => (x : Int)) (r.rowCoords coords it p o) := by
  have hnear : r.b.nearest n (r.tableIndex k) (r.b.rank - 1) =
      if k < 0 then 0 else min k.toNat (r.b.limit n (r.b.rank - 1) - 1) := by
    unfold TD.nearest
    rw [r.getD_tableIndex k]
    rfl
  unfold Rec.rowPairs
  dsimp only
  split
  · next h0 => exact absurd h0 h
  · refine List.map_congr_left fun o _ => ?_
    simp only [Rec.rowPair, Rec.tableLoc, hnear]
    rfl

theorem Rec.rowPair_ok {r : Rec} {scat : Bool} {own n p : Nat} {tl : Option Loc} {tc rc : List Int} {x : Pair}
    (hm : ∀ d, d < r.r.rank → r.r.mode d ≤ 2) (h : r.rowPair scat own n p tl tc rc = .ok x) :
    x.ipos = p ∧ if scat then x.dst = tl ∧ r.r.reads own n rc x.src else x.src = tl ∧ r.r.takes own n rc x.dst := by
  have hs := r.r.source_spec own n 0 p rc
  have ht := TD.target_spec hm own n 1 p rc
  unfold Rec.rowPair at h
  cases scat with
  | true =>
    rw [if_pos rfl] at h ⊢
    split at h
    · cases h
    · next src hx =>
      rw [hx] at hs
      cases h
      exact ⟨rfl, rfl, hs⟩
  | false =>
    rw [if_neg Bool.false_ne_true] at h ⊢
    split at h
    · cases h
    · next dst hy =>
      rw [hy] at ht
      cases h
      exact ⟨rfl, rfl, ht⟩

/-! ## The obligation -/

section
variable {bytes : List Byte} {own n : Nat} {coords : List Int} {it : List Nat}

theorem Rec.length_copyPairs (r : Rec) : (r.copyPairs own n coords it).length = (r.box.take r.a.rank).foldr (· * ·) 1 := by
  rw [Rec.copyPairs_eq, List.length_map, length_grid]

theorem getElem?_copyPairs {r : Rec} {j : Nat} {o : List Nat} {x : Except CmdFault Pair} (ho : (grid (r.box.take r.a.rank))[j]? = some o)
    (hx : (r.copyPairs own n coords it)[j]? = some x) : r.copyPair own n (r.copyFrom coords it o) (r.copyTo coords it o) = x := by
  rw [Rec.copyPairs_eq, List.getElem?_map, ho] at hx
  exact Option.some.inj hx

/-- The offset of a copy's box has the rank of its descriptors. -/
theorem length_of_mem_copyGrid {o : List Nat} (h : (recOf false bytes).valid = true)
    (ho : o ∈ grid ((recOf false bytes).box.take (recOf false bytes).a.rank)) : o.length = (recOf false bytes).a.rank := by
  have h7 := (TD.rank_of_valid (Rec.base_of_valid h).1).2
  rw [(below_of_mem_grid ho).1, List.length_take, length_box, Nat.min_eq_left h7]

theorem Rec.copyCoords_of_valid (it : List Nat) {o : List Nat} (h : (recOf false bytes).valid = true) (hc : coords.length = 2 * (recOf false bytes).a.rank)
    (ho : o.length = (recOf false bytes).a.rank) :
    ((recOf false bytes).copyFrom coords it o).length = (recOf false bytes).a.rank ∧
    ((recOf false bytes).copyTo coords it o).length = (recOf false bytes).a.rank ∧ ∀ d, d < (recOf false bytes).a.rank →
      ((recOf false bytes).copyFrom coords it o).getD d 0 = ((recOf false bytes).starts coords it).1.getD d 0 + (o.getD d 0 : Int) ∧
      ((recOf false bytes).copyTo coords it o).getD ((recOf false bytes).perm.getD d d) 0 =
        ((recOf false bytes).starts coords it).2.getD ((recOf false bytes).perm.getD d d) 0 + (o.getD d 0 : Int) := by
  have hl1 : ((recOf false bytes).starts coords it).1.length = (recOf false bytes).a.rank := Rec.length_starts_fst (by omega)
  have hl2 : ((recOf false bytes).starts coords it).2.length = (recOf false bytes).a.rank := by rw [Rec.length_starts_snd]; omega
  obtain ⟨hlt, hinj⟩ := Rec.perm_of_valid h
  refine ⟨(length_movedAlong ..).trans hl1, (length_movedAlong ..).trans hl2, fun d hd => ⟨?_, ?_⟩⟩
  · exact getD_movedAlong id (ho ▸ hd) (by rw [hl1]; exact hd) fun i _ hi => hi
  · exact getD_movedAlong _ (ho ▸ hd) (by rw [hl2]; exact hlt d hd) fun i hi he => hinj i d (ho ▸ hi) hd he

theorem Rec.rowCoords_of_valid (it : List Nat) (p : Nat) {o : List Nat} (h : (recOf true bytes).valid = true)
    (hc : coords.length = (recOf true bytes).a.rank + (recOf true bytes).r.rank) (ho : o.length = (recOf true bytes).b.rank - 1) :
    ((recOf true bytes).rowCoords coords it p o).length = (recOf true bytes).b.rank ∧
    (∀ d, d < (recOf true bytes).b.rank - 1 →
      ((recOf true bytes).rowCoords coords it p o).getD d 0 = ((recOf true bytes).starts coords it).2.getD d 0 + (o.getD d 0 : Int)) ∧
    ((recOf true bytes).rowCoords coords it p o).getD ((recOf true bytes).b.rank - 1) 0 =
      ((recOf true bytes).starts coords it).2.getD ((recOf true bytes).b.rank - 1) 0 + (p : Int) := by
  have hr := (Rec.gather_of_valid h).2
  have h1 := (TD.rank_of_valid (Rec.base_of_valid h).2.1).1
  have hl : ((recOf true bytes).starts coords it).2.length = (recOf true bytes).b.rank := by rw [Rec.length_starts_snd]; omega
  have hl' : (addAt ((recOf true bytes).starts coords it).2 ((recOf true bytes).b.rank - 1) (p : Int)).length = (recOf true bytes).b.rank := by
    rw [length_addAt, hl]
  refine ⟨(length_movedAlong ..).trans hl', fun d hd => ?_, ?_⟩
  · refine (getD_movedAlong id (ho ▸ hd) (by rw [hl', id]; omega) fun i _ hi => hi).trans (congrArg (· + _) ?_)
    rw [getD_addAt _ _ _ (by rw [hl, id]; omega), if_neg (by rw [id]; omega), add_zero, id]
  · refine (getD_movedAlong_other (by rw [hl']; omega) fun i hi he => ?_).trans ?_
    · rw [id] at he
      omega
    · rw [getD_addAt _ _ _ (by rw [hl]; omega), if_pos rfl]

/-- Settles O52: a transfer's coordinates are its starts with the box's components added one by one, each in a dimension of its own. -/
theorem transferElementsAreLocated : Obligations.TransferElementsAreLocated := by
  unfold Obligations.TransferElementsAreLocated
  refine ⟨fun bs o => getElem?_grid, length_grid, fun bs v h => ⟨fun w => nextVec_some h, nextVec_none h⟩,
    fun t own n i h1 hi => ⟨fun hd => ⟨?_, ?_⟩, fun hd => ⟨?_, ?_⟩, fun hd => ⟨?_, ?_⟩, t.locate_off own n i, fun hm => ⟨?_, ?_⟩⟩,
    fun t i hi => ⟨t.element_linear i, fun hl _ => t.element_tiled i hl⟩,
    fun bytes gather coords it hv hc => ⟨fun d hd => ?_, fun d hd => ?_, fun p d hd => ?_⟩,
    fun bytes own n coords it j hv hc => ⟨Rec.length_copyPairs _, fun o ho => ?_⟩,
    fun bytes scat own n coords it p k hv hc => ⟨fun hm hb => ?_, fun hb => ⟨?_, fun j o x ho hx => ?_⟩⟩⟩
  · rw [TD.locate_g, TD.owner_whole _ _ _ hd]
  · rw [TD.locate_e, TD.owner_whole _ _ _ hd, set_getD_self]
  · rw [TD.locate_g, TD.owner_blocks _ _ _ hd]
  · rw [TD.locate_e, TD.owner_blocks _ _ _ hd]
  · rw [TD.locate_g, TD.owner_cyclic _ _ _ hd]
  · rw [TD.locate_e, TD.owner_cyclic _ _ _ hd]
  · exact t.locate_mx_scale own n i hm
  · exact t.locate_mx_off own n i hm
  · exact Rec.getD_starts_fst (by omega) hd
  · exact (Rec.getD_starts_snd (Rec.base_of_valid hv).2.2 (by omega)).trans (by rw [recOf_gather])
  · rw [Rec.indexAt, getD_addAt _ _ _ (by rw [Rec.length_starts_fst (by omega)]; exact hd)]
    simp only [eq_comm]
  · have hl := length_of_mem_copyGrid hv (List.mem_of_getElem? ho)
    have hm := TD.modes_of_valid (Rec.base_of_valid hv).2.1
    obtain ⟨h1, h2, h⟩ := Rec.copyCoords_of_valid it hv hc hl
    exact ⟨_, _, h1, h2, h, fun p hp => Rec.copyPair_ok hm (getElem?_copyPairs ho hp),
      fun f hf => Rec.copyPair_error hm (getElem?_copyPairs ho hf)⟩
  · exact Rec.rowPairs_error scat own coords it p (TD.outside_eq_some.2 ⟨hb, hm⟩)
  · rw [Rec.rowPairs_eq scat own coords it p fun h => (TD.outside_eq_some.1 h).1 (hb (TD.outside_eq_some.1 h).2), List.length_map, length_grid]
  · rw [Rec.rowPairs_eq scat own coords it p fun h => (TD.outside_eq_some.1 h).1 (hb (TD.outside_eq_some.1 h).2), List.getElem?_map, ho] at hx
    have hl : o.length = (recOf true bytes).b.rank - 1 := by
      rw [(below_of_mem_grid (List.mem_of_getElem? ho)).1, List.length_map, List.length_range]
    obtain ⟨hi, hx⟩ := Rec.rowPair_ok (TD.modes_of_valid (Rec.gather_of_valid hv).1) (Option.some.inj hx)
    obtain ⟨h1, h2, h3⟩ := Rec.rowCoords_of_valid it p hv hc hl
    refine ⟨hi, _, h1, h2, h3, ?_⟩
    rw [Rec.tableLoc_eq] at hx
    exact hx

end

end Sys2Proof.Machine
end

section
/-! The bytes that a transfer writes: the values and codes of its elements (R226, R244), its writes and blocks (R244, R245), the messages that
carry them (R236, R251, R310) and its writes in the crib (R262), and the bytes that a message leaves at a bay (R33, R219). -/

namespace Sys2Proof.Machine

/-! ## Element values and conversions (R212, R244) -/

theorem signedOf_eq_toInt (w x : Nat) (hw : 0 < w) : signedOf w x = (BitVec.ofNat w x).toInt := by
  obtain ⟨n, rfl⟩ : ∃ n, w = n + 1 := ⟨w - 1, by omega⟩
  rw [signedOf, BitVec.toInt_eq_toNat_cond, BitVec.toNat_ofNat, Nat.add_sub_cancel, Nat.pow_succ]
  have hlt : x % (2 ^ n * 2) < 2 ^ n ↔ 2 * (x % (2 ^ n * 2)) < 2 ^ n * 2 := by omega
  simp only [hlt]

/-- A block format's value under its scale byte, in the statement's words. -/
theorem mxVal_eq_blockValue (f s c : Nat) : mxVal f s c = blockValue f s c := by
  have hv : mxVal f s c = if s = 0xFF then .nan else (elemVal f c).scale (scaleExp s) := by
    unfold mxVal
    split
    · rfl
    · cases elemVal f c <;> rfl
  rw [hv]
  rfl

theorem codeVal_spec (c s : Nat) : codeVal 1 c s = FVal.ofInt (BitVec.ofNat 8 c).toInt ∧ codeVal 2 c s = FVal.ofInt (BitVec.ofNat 32 c).toInt ∧
    codeVal 3 c s = fp32.decode c ∧ codeVal 4 c s = fp16.decode c ∧ codeVal 5 c s = bf16.decode c ∧ codeVal 6 c s = e4m3.decode c ∧
    codeVal 7 c s = e5m2.decode c ∧ ∀ f, f < 4 → codeVal (16 + f) c s = blockValue f s c := by
  refine ⟨?_, ?_, rfl, rfl, rfl, rfl, rfl, fun f hf => ?_⟩
  · rw [← signedOf_eq_toInt 8 c (by decide)]
    rfl
  · rw [← signedOf_eq_toInt 32 c (by decide)]
    rfl
  · rw [← mxVal_eq_blockValue]
    have hcases : f = 0 ∨ f = 1 ∨ f = 2 ∨ f = 3 := by omega
    rcases hcases with rfl | rfl | rfl | rfl <;> rfl

/-- What a conversion to a signed integer of w bits gives, in the statement's words (R244). -/
def intCode (w : Nat) (sat : Bool) : FVal → Nat
  | .nan => if sat then 0 else 2 ^ (w - 1)
  | .inf neg => if sat = true ∧ neg = false then 2 ^ (w - 1) - 1 else 2 ^ (w - 1)
  | .fin neg m e =>
    let v : Int := if neg then -(roundInt .rne neg m e : Int) else roundInt .rne neg m e
    if -(2 ^ (w - 1) : Nat) ≤ v ∧ v < (2 ^ (w - 1) : Nat) then (v % (2 ^ w : Nat)).toNat
    else if sat = true ∧ 0 ≤ v then 2 ^ (w - 1) - 1 else 2 ^ (w - 1)

theorem toIntCode_eq_intCode (n : Nat) (sat : Bool) (x : FVal) : toIntCode (n + 1) sat x = intCode (n + 1) sat x := by
  cases x with
  | nan => rfl
  | inf neg => cases sat <;> cases neg <;> rfl
  | fin neg m e =>
    simp only [toIntCode, intCode, Nat.add_sub_cancel, Nat.pow_succ]
    generalize roundInt .rne neg m e = r
    generalize hp : 2 ^ n = p
    have hpos : 0 < p := hp ▸ Nat.two_pow_pos n
    cases neg with
    | true =>
      by_cases hr : r ≤ p
      · have hin : -(p : Int) ≤ -(r : Int) ∧ -(r : Int) < p := by omega
        have hval : ((-(r : Int)) % ((p * 2 : Nat) : Int)).toNat = (p * 2 - r) % (p * 2) := by
          have hmod : (-(r : Int)) % ((p * 2 : Nat) : Int) = (((p * 2 - r) % (p * 2) : Nat) : Int) := by
            rw [Int.natCast_mod, Int.ofNat_sub (by omega), sub_eq_neg_add, Int.add_emod_right]
          rw [hmod, Int.toNat_natCast]
        simp only [if_true, if_pos hr, if_pos hin, hval]
      · have hout : ¬ (-(p : Int) ≤ -(r : Int) ∧ -(r : Int) < p) := by omega
        have hneg : ¬ (sat = true ∧ 0 ≤ -(r : Int)) := by omega
        simp only [if_true, if_neg hr, if_neg hout, if_neg hneg]
    | false =>
      by_cases hr : r < p
      · have hin : -(p : Int) ≤ (r : Int) ∧ (r : Int) < p := by omega
        have hval : ((r : Int) % ((p * 2 : Nat) : Int)).toNat = r := by
          rw [← Int.natCast_mod, Int.toNat_natCast, Nat.mod_eq_of_lt (by omega)]
        simp only [Bool.false_eq_true, if_false, if_pos hr, if_pos hin, hval]
      · have hout : ¬ (-(p : Int) ≤ (r : Int) ∧ (r : Int) < p) := by omega
        have hsat : (sat = true ∧ 0 ≤ (r : Int)) ↔ sat = true := and_iff_left (by omega)
        simp only [Bool.false_eq_true, if_false, if_neg hr, if_neg hout, hsat]

theorem convCode_spec (sat : Bool) (x : FVal) :
    let fp (g : FpFmt) : Nat := g.encode (if sat then g.sat (g.round .rne x) else g.round .rne x)
    convCode 3 sat x = fp fp32 ∧ convCode 4 sat x = fp fp16 ∧ convCode 5 sat x = fp bf16 ∧ convCode 7 sat x = fp e5m2 ∧
    convCode 6 sat x = e4m3.encode (e4m3.sat (e4m3.round .rne x)) ∧
    ∀ f w, (f, w) ∈ [(1, 8), (2, 32)] → convCode f sat x = intCode w sat x := by
  refine ⟨rfl, rfl, rfl, rfl, rfl, fun f w hfw => ?_⟩
  have hcases : (f = 1 ∧ w = 8) ∨ (f = 2 ∧ w = 32) := by simpa using hfw
  rcases hcases with ⟨rfl, rfl⟩ | ⟨rfl, rfl⟩
  · exact toIntCode_eq_intCode 7 sat x
  · exact toIntCode_eq_intCode 31 sat x

/-! ## The element that a transfer reads (R226, R247) -/

/-- The code of an MX element in its byte, in the statement's words. -/
theorem mxCode_eq_codeIn (f e b : Nat) (hb : b < 256) : mxCode f e b = codeIn f e b := by
  unfold mxCode codeIn
  split
  · obtain he | he : e % 2 = 0 ∨ e % 2 = 1 := by omega
    · simp [he]
    · simp [he]
  · exact Nat.mod_eq_of_lt hb

theorem natOfBytes_singleton (b : Byte) : natOfBytes [b] = b.toNat := by
  simp [natOfBytes]

section
variable (s : State) (k : Command) (t : TD) (scale : Bool) (m : Move)

theorem element_of_fill (hsrc : m.src = none) : s.element k t scale m =
    .ok { fmt := t.format
          code := if t.format = 0x12 then t.fill.toNat % 16 else if isMx t.format then t.fill.toNat % 256 else t.fill.toNat
          scale := t.fill.toNat / 256 % 256 } := by
  have hbits : bitsOf t.fill.toNat 15 8 = t.fill.toNat / 256 % 256 := by
    simp [bitsOf, Nat.shiftRight_eq_div_pow]
  rw [← hbits]
  simp only [State.element, hsrc]

theorem element_of_bytes {p : Place} {e : Nat} {b : List Byte} (hsrc : m.src = some (p, none, e))
    (hgot : s.got k p (fmtBytes t.format) (windowOf (decide (k.kind = .gath)) m.pair.ipos) = some b) (hb : b ≠ []) :
    s.element k t scale m =
      .ok { fmt := t.format, code := if isMx t.format then mxCode (t.format - 0x10) e (natOfBytes b) else natOfBytes b } := by
  obtain ⟨x, xs, rfl⟩ := List.exists_cons_of_ne_nil hb
  simp only [State.element, hsrc, hgot, Option.getD_some]

theorem element_of_scaled {p q : Place} {e : Nat} {b sb : Byte} (hsrc : m.src = some (p, some q, e))
    (hgot : s.got k p (fmtBytes t.format) (windowOf (decide (k.kind = .gath)) m.pair.ipos) = some [b]) (hscale : s.got k q 1 = some [sb])
    (hmx : isMx t.format = true) :
    s.element k t scale m =
      .ok { fmt := t.format, code := codeIn (t.format - 16) e b.toNat, scale := if scale then sb.toNat else 127 } := by
  rw [← mxCode_eq_codeIn _ _ _ b.isLt, ← natOfBytes_singleton b, ← natOfBytes_singleton sb]
  cases scale <;> simp [State.element, hsrc, hgot, hscale, hmx]

end

theorem fmtBytes_of_isMx {f : Nat} (h : isMx f = true) : fmtBytes f = 1 := by
  simp only [isMx, Bool.and_eq_true, decide_eq_true_eq] at h
  unfold fmtBytes
  rw [if_neg (by omega), if_neg (by omega), if_neg (by omega)]

theorem element_spec (s : State) (k : Command) (t : TD) (scale : Bool) (m : Move) :
    let w := windowOf (decide (k.kind = .gath)) m.pair.ipos
    (m.src = none → isMx t.format = false → s.element k t scale m = .ok { fmt := t.format, code := t.fill.toNat, scale := t.fill.toNat / 256 % 256 }) ∧
    (m.src = none → isMx t.format = true →
      s.element k t scale m = .ok { fmt := t.format, code := t.fill.toNat % (if t.format = 0x12 then 16 else 256), scale := t.fill.toNat / 256 % 256 }) ∧
    (∀ p e b, m.src = some (p, none, e) → isMx t.format = false → s.got k p (fmtBytes t.format) w = some b → b ≠ [] →
      s.element k t scale m = .ok { fmt := t.format, code := natOfBytes b }) ∧
    (∀ p q e b sb, m.src = some (p, some q, e) → isMx t.format = true → s.got k p 1 w = some [b] → s.got k q 1 = some [sb] →
      s.element k t scale m = .ok { fmt := t.format, code := codeIn (t.format - 16) e b.toNat, scale := if scale then sb.toNat else 127 }) := by
  refine ⟨fun hsrc hmx => ?_, fun hsrc hmx => ?_, fun p e b hsrc hmx hgot hb => ?_, fun p q e b sb hsrc hmx hgot hscale => ?_⟩
  · have hne : t.format ≠ 0x12 := by
      rintro h
      rw [h] at hmx
      exact absurd hmx (by decide)
    simp [element_of_fill s k t scale m hsrc, hmx, hne]
  · rw [element_of_fill s k t scale m hsrc, if_pos hmx]
    split <;> rfl
  · rw [element_of_bytes s k t scale m hsrc hgot hb]
    simp [hmx]
  · exact element_of_scaled s k t scale m hsrc (by rwa [fmtBytes_of_isMx hmx]) hscale hmx

/-! ## The writes of a transfer's elements (R244, R245) -/

theorem exp_of_element {s : State} {k : Command} {t : TD} {scale : Bool} {m : Move} {x : EltSrc} (h : s.element k t scale m = .ok x) : x.exp = 0 := by
  unfold State.element at h
  dsimp only at h
  split at h
  · cases h
    rfl
  · split at h
    · cases h
    · split at h
      · split at h
        · split at h
          · cases h
          · cases h
            rfl
        · cases h
          rfl
      · cases h
        rfl

theorem values_ok (s : State) (k : Command) (r : Rec) (ts : TD) (side : Nat) :
    ∀ (ms : List Move) (vs : List (Move × EltSrc)), s.values k r ts side ms = .ok vs →
      vs.map Prod.fst = ms ∧ ∀ v ∈ vs, s.element k ts (r.needsScale (r.aligned k.coords k.iter)) v.1 = .ok v.2
  | [], vs, h => by
    cases h
    exact ⟨rfl, by simp⟩
  | m :: ms, vs, h => by
    rw [State.values] at h
    split at h
    · cases h
    next x hx =>
      split at h
      · cases h
      next rest hrest =>
        cases h
        obtain ⟨hfst, helt⟩ := values_ok s k r ts side ms rest hrest
        refine ⟨by simp [hfst], fun v hv => ?_⟩
        rcases List.mem_cons.mp hv with rfl | hv
        · exact hx
        · exact helt v hv

/-- A fold that appends what each member gives is a `filterMap`. -/
theorem foldl_append_option {α β : Type} (f : α → Option β) (step : List β → α → List β) :
    ∀ (vs : List α) (l : List β), (∀ v ∈ vs, ∀ l, step l v = l ++ (f v).toList) → vs.foldl step l = l ++ vs.filterMap f
  | [], l, _ => by simp
  | v :: vs, l, h => by
    rw [List.foldl_cons, h v (by simp), foldl_append_option f step vs _ fun u hu => h u (by simp [hu]), List.filterMap_cons]
    cases f v <;> simp

/-- The write of an element that keeps its code, at its byte or its nibble. -/
def rawWrite (td : TD) (v : Move × EltSrc) (d : Place × Option Place × Nat) : StoreWrite :=
  (d.1.store, if td.format = 0x12 then .nibble d.1.addr (decide (d.2.2 % 2 = 1)) v.2.code else .bytes d.1.addr [BitVec.ofNat 8 v.2.code])

/-- Where the block of 32 of an element starts. -/
def blockStart (td : TD) (d : Place × Option Place × Nat) : Nat := d.1.addr - if td.format = 0x12 then d.2.2 % 32 / 2 else d.2.2 % 32

section
variable {td : TD} {n : Nat} {sat al : Bool} {m : Move} {x : EltSrc} {l : List StoreWrite} {d : Place × Option Place × Nat}

theorem Move.writes_of_no_dst (hd : m.dst = none) : m.writes td n sat al x l = l := by
  simp only [Move.writes, hd]

theorem Move.writes_of_not_mx (hd : m.dst = some d) (hmx : isMx td.format = false) (hexp : x.exp = 0) :
    m.writes td n sat al x l = l ++ [(d.1.store, .bytes d.1.addr
      (bytesOf (fmtBytes td.format) (if x.fmt = td.format then x.code else convCode td.format sat x.val)))] := by
  simp [Move.writes, hd, hmx, hexp]

theorem format_sub_eq_two {f : Nat} (hmx : isMx f = true) : f - 16 = 2 ↔ f = 0x12 := by
  simp only [isMx, Bool.and_eq_true, decide_eq_true_eq] at hmx
  omega

theorem Move.writes_of_raw (hd : m.dst = some d) (hmx : isMx td.format = true) (hfmt : x.fmt = td.format) (hexp : x.exp = 0) :
    m.writes td n sat false x l = l ++ [rawWrite td (m, x) d] := by
  simp [Move.writes, hd, hmx, hexp, hfmt, rawWrite, format_sub_eq_two hmx]

/-- A filled element of a block-aligned transfer leaves the scale byte to a write that has reached it. -/
theorem Move.writes_of_aligned {p q : Place} {e : Nat} (hd : m.dst = some (p, some q, e)) (hmx : isMx td.format = true) (hfmt : x.fmt = td.format)
    (hexp : x.exp = 0) :
    m.writes td n sat true x l = l ++ [rawWrite td (m, x) (p, some q, e), (q.store, .bytes q.addr [BitVec.ofNat 8 x.scale])] ∨
      (m.writes td n sat true x l = l ++ [rawWrite td (m, x) (p, some q, e)] ∧ m.src = none ∧ ∃ b, (q.store, .bytes q.addr b) ∈ l) := by
  simp only [Move.writes, hd, hmx, hexp, hfmt, rawWrite, format_sub_eq_two hmx, if_true, and_self]
  split
  next q' hq =>
    obtain rfl : q = q' := Option.some.inj (Option.filter_eq_some_iff.mp hq).1
    exact .inl rfl
  next hq =>
    have hdone := Option.filter_eq_none_iff.mp hq q rfl
    simp only [Bool.not_eq_true, Bool.not_eq_false', Bool.and_eq_true, Option.isNone_iff_eq_none, List.any_eq_true, decide_eq_true_eq] at hdone
    obtain ⟨hsrc, ⟨st, w⟩, hw, hst, haddr⟩ := hdone
    cases w with
    | bytes a b =>
      have ha : a = q.addr := of_decide_eq_true haddr
      subst ha hst
      exact .inr ⟨rfl, hsrc, b, hw⟩
    | nibble => cases haddr
    | block => cases haddr

theorem Move.writes_of_aligned_no_scale {p : Place} {e : Nat} (hd : m.dst = some (p, none, e)) (hmx : isMx td.format = true)
    (hfmt : x.fmt = td.format) (hexp : x.exp = 0) : m.writes td n sat true x l = l ++ [rawWrite td (m, x) (p, none, e)] := by
  simp [Move.writes, hd, hmx, hexp, hfmt, rawWrite, format_sub_eq_two hmx]

theorem Move.writes_of_block (hd : m.dst = some d) (hmx : isMx td.format = true) (hfmt : x.fmt ≠ td.format) :
    m.writes td n sat al x l = mergeBlock l d.1.store (td.format - 16) (blockStart td d) ((d.2.1.map Place.addr).getD 0)
      ((m.pair.dst.map fun g => td.owned n g.g d.2.2).getD 0xFFFFFFFF#32) (d.2.2 % 32) x := by
  simp [Move.writes, hd, hmx, hfmt, blockStart, format_sub_eq_two hmx]

end

/-- The writes of a transfer's elements, in transfer order. -/
def transferWrites (td : TD) (n : Nat) (sat al : Bool) (vs : List (Move × EltSrc)) (l : List StoreWrite) : List StoreWrite :=
  vs.foldl (fun l v => v.1.writes td n sat al v.2 l) l

section
variable {td : TD} {n : Nat} {sat : Bool} {vs : List (Move × EltSrc)}

theorem transferWrites_of_not_mx {al : Bool} (hmx : isMx td.format = false) (hexp : ∀ v ∈ vs, v.2.exp = 0) :
    transferWrites td n sat al vs [] = vs.filterMap fun v => v.1.dst.map fun d => (d.1.store, .bytes d.1.addr
      (bytesOf (fmtBytes td.format) (if v.2.fmt = td.format then v.2.code else convCode td.format sat v.2.val))) := by
  refine (foldl_append_option _ _ vs [] fun v hv l => ?_).trans (List.nil_append _)
  cases hd : v.1.dst with
  | none => simp [Move.writes_of_no_dst hd]
  | some d => exact Move.writes_of_not_mx hd hmx (hexp v hv)

theorem transferWrites_of_raw (hmx : isMx td.format = true) (hfmt : ∀ v ∈ vs, v.2.fmt = td.format) (hexp : ∀ v ∈ vs, v.2.exp = 0) :
    transferWrites td n sat false vs [] = vs.filterMap fun v => v.1.dst.map (rawWrite td v) := by
  refine (foldl_append_option _ _ vs [] fun v hv l => ?_).trans (List.nil_append _)
  cases hd : v.1.dst with
  | none => simp [Move.writes_of_no_dst hd]
  | some d => exact Move.writes_of_raw hd hmx (hfmt v hv) (hexp v hv)

/-! ### Block-aligned transfers -/

variable (n sat)

/-- Does every write of whole bytes write one? -/
def singleBytes (l : List StoreWrite) : Prop := ∀ w ∈ l, ∀ a b, w.2 = .bytes a b → ∃ x, b = [x]

theorem singleBytes_append {l l' : List StoreWrite} (h : singleBytes l) (h' : singleBytes l') : singleBytes (l ++ l') := by
  intro w hw
  rcases List.mem_append.mp hw with hw | hw
  · exact h w hw
  · exact h' w hw

theorem singleBytes_raw (td : TD) (v : Move × EltSrc) (d : Place × Option Place × Nat) : singleBytes [rawWrite td v d] := by
  intro w hw a b hb
  obtain rfl := List.mem_singleton.mp hw
  unfold rawWrite at hb
  split at hb
  · cases hb
  · cases hb
    exact ⟨_, rfl⟩

theorem singleBytes_scale (st : Nat × Nat) (a : Nat) (x : Byte) : singleBytes [(st, .bytes a [x])] := by
  intro w hw a' b hb
  obtain rfl := List.mem_singleton.mp hw
  cases hb
  exact ⟨_, rfl⟩

/-- What a block-aligned transfer's writes hold of an element: its own, its scale's if it is read, and some scale's. -/
def elementWritten (td : TD) (l : List StoreWrite) (v : Move × EltSrc) (p q : Place) (e : Nat) : Prop :=
  rawWrite td v (p, some q, e) ∈ l ∧ (v.1.src ≠ none → (q.store, .bytes q.addr [BitVec.ofNat 8 v.2.scale]) ∈ l) ∧
    ∃ x, (q.store, .bytes q.addr [x]) ∈ l

theorem elementWritten_mono {l l' : List StoreWrite} {v : Move × EltSrc} {p q : Place} {e : Nat} (h : elementWritten td l v p q e) (hl : l ⊆ l') :
    elementWritten td l' v p q e := by
  obtain ⟨hraw, hscale, x, hx⟩ := h
  exact ⟨hl hraw, fun hs => hl (hscale hs), x, hl hx⟩

/-- One element of a block-aligned transfer keeps the earlier writes, and adds its own. -/
theorem Move.writes_aligned_step {v : Move × EltSrc} {l : List StoreWrite} (hmx : isMx td.format = true) (hfmt : v.2.fmt = td.format)
    (hexp : v.2.exp = 0) (hl : singleBytes l) :
    l ⊆ v.1.writes td n sat true v.2 l ∧ singleBytes (v.1.writes td n sat true v.2 l) ∧
      ∀ p q e, v.1.dst = some (p, some q, e) → elementWritten td (v.1.writes td n sat true v.2 l) v p q e := by
  match hd : v.1.dst with
  | none =>
    rw [Move.writes_of_no_dst hd]
    exact ⟨List.Subset.refl l, hl, fun p q e h => by cases h⟩
  | some (p, none, e) =>
    rw [Move.writes_of_aligned_no_scale hd hmx hfmt hexp]
    exact ⟨List.subset_append_left _ _, singleBytes_append hl (singleBytes_raw td v _), fun p q e h => by cases h⟩
  | some (p, some q, e) =>
    rcases Move.writes_of_aligned hd hmx hfmt hexp with hw | ⟨hw, hsrc, b, hb⟩
    · rw [hw]
      refine ⟨List.subset_append_left _ _,
        singleBytes_append hl (singleBytes_append (singleBytes_raw td v _) (singleBytes_scale q.store q.addr _)), fun p' q' e' h => ?_⟩
      cases h
      exact ⟨by simp, fun _ => by simp, BitVec.ofNat 8 v.2.scale, by simp⟩
    · rw [hw]
      refine ⟨List.subset_append_left _ _, singleBytes_append hl (singleBytes_raw td v _), fun p' q' e' h => ?_⟩
      cases h
      obtain ⟨y, rfl⟩ := hl _ hb _ _ rfl
      exact ⟨by simp, fun hs => absurd hsrc hs, y, List.mem_append_left _ hb⟩

theorem transferWrites_aligned (hmx : isMx td.format = true) : ∀ (vs : List (Move × EltSrc)) (l : List StoreWrite),
    (∀ v ∈ vs, v.2.fmt = td.format) → (∀ v ∈ vs, v.2.exp = 0) → singleBytes l →
    l ⊆ transferWrites td n sat true vs l ∧
      ∀ v ∈ vs, ∀ p q e, v.1.dst = some (p, some q, e) → elementWritten td (transferWrites td n sat true vs l) v p q e
  | [], l, _, _, _ => ⟨List.Subset.refl l, by simp⟩
  | v :: vs, l, hfmt, hexp, hl => by
    obtain ⟨hsub, hsingle, hv⟩ := Move.writes_aligned_step n sat hmx (hfmt v (by simp)) (hexp v (by simp)) hl
    obtain ⟨hsub', hvs⟩ := transferWrites_aligned hmx vs (v.1.writes td n sat true v.2 l) (fun u hu => hfmt u (by simp [hu]))
      (fun u hu => hexp u (by simp [hu])) hsingle
    refine ⟨List.Subset.trans hsub hsub', fun u hu p q e hd => ?_⟩
    rcases List.mem_cons.mp hu with rfl | hu
    · exact elementWritten_mono (hv p q e hd) hsub'
    · exact hvs u hu p q e hd

/-! ### Blocks converted to an MX format -/

/-- Is a write the merged one of the block that starts at an address of a store? -/
def isBlockAt (st : Nat × Nat) (a : Nat) (w : StoreWrite) : Bool :=
  decide (w.1 = st) && match w.2 with | .block _ a' _ _ _ => decide (a' = a) | _ => false

theorem isBlockAt_iff {st : Nat × Nat} {a : Nat} {w : StoreWrite} :
    isBlockAt st a w = true ↔ w.1 = st ∧ ∃ f sc own l, w.2 = .block f a sc own l := by
  obtain ⟨s, w⟩ := w
  cases w <;> simp [isBlockAt]

/-- A merged write with one more element. -/
def withElement (k : Nat) (e : EltSrc) (w : StoreWrite) : StoreWrite :=
  match w.2 with
  | .block f a sc own l => (w.1, .block f a sc own (l ++ [(k, e)]))
  | _ => w

theorem mergeBlock_eq (l : List StoreWrite) (st : Nat × Nat) (f a sc : Nat) (own : BitVec 32) (k : Nat) (e : EltSrc) :
    mergeBlock l st f a sc own k e =
      if l.any (isBlockAt st a) then l.map fun w => if isBlockAt st a w then withElement k e w else w
      else l ++ [(st, .block f a sc own [(k, e)])] := rfl

/-- The merged writes of some elements, each given by its store, its block's start, its position there and its value: every one is in a block, and
every block holds its elements in their order. -/
def blocksHold (f : Nat) (ds : List ((Nat × Nat) × Nat × Nat × EltSrc)) (ws : List StoreWrite) : Prop :=
  (∀ d ∈ ds, ∃ w ∈ ws, isBlockAt d.1 d.2.1 w = true) ∧
  ∀ w ∈ ws, ∃ a sc own l, w.2 = .block f a sc own l ∧ l = ds.filterMap fun d => if d.1 = w.1 ∧ d.2.1 = a then some (d.2.2.1, d.2.2.2) else none

theorem filterMap_append_singleton {α β : Type} (f : α → Option β) (ds : List α) (d : α) :
    (ds ++ [d]).filterMap f = ds.filterMap f ++ (f d).toList := by
  rw [List.filterMap_append]
  cases h : f d <;> simp [h]

theorem blocksHold_mergeBlock {f : Nat} {ds : List ((Nat × Nat) × Nat × Nat × EltSrc)} {ws : List StoreWrite} (h : blocksHold f ds ws)
    (st : Nat × Nat) (a sc : Nat) (own : BitVec 32) (k : Nat) (e : EltSrc) :
    blocksHold f (ds ++ [(st, a, k, e)]) (mergeBlock ws st f a sc own k e) := by
  obtain ⟨hall, hblock⟩ := h
  rw [mergeBlock_eq]
  split
  next hex =>
    have hkeep : ∀ (st' : Nat × Nat) (a' : Nat) (w : StoreWrite), isBlockAt st' a' w = true →
        isBlockAt st' a' (if isBlockAt st a w then withElement k e w else w) = true := by
      rintro st' a' ⟨s, w⟩ hw
      obtain ⟨hs, f', sc', own', l', hw⟩ := isBlockAt_iff.mp hw
      obtain rfl : w = .block f' a' sc' own' l' := hw
      split
      · exact isBlockAt_iff.mpr ⟨hs, f', sc', own', l' ++ [(k, e)], rfl⟩
      · exact isBlockAt_iff.mpr ⟨hs, f', sc', own', l', rfl⟩
    refine ⟨fun d hd => ?_, fun w hw => ?_⟩
    · have hw : ∃ w ∈ ws, isBlockAt d.1 d.2.1 w = true := by
        rcases List.mem_append.mp hd with hd | hd
        · exact hall d hd
        · obtain rfl := List.mem_singleton.mp hd
          exact List.any_eq_true.mp hex
      obtain ⟨w, hw, hb⟩ := hw
      exact ⟨_, List.mem_map_of_mem hw, hkeep _ _ _ hb⟩
    · obtain ⟨⟨s, w⟩, hmem, rfl⟩ := List.mem_map.mp hw
      obtain ⟨a', sc', own', l', hb, hl⟩ := hblock _ hmem
      obtain rfl : w = .block f a' sc' own' l' := hb
      by_cases hat : isBlockAt st a (s, .block f a' sc' own' l') = true
      · rw [if_pos hat]
        obtain ⟨hs, f'', sc'', own'', l'', hb'⟩ := isBlockAt_iff.mp hat
        cases hb'
        refine ⟨a, sc', own', l' ++ [(k, e)], rfl, ?_⟩
        rw [filterMap_append_singleton, if_pos ⟨hs.symm, rfl⟩, hl]
        rfl
      · rw [if_neg hat]
        refine ⟨a', sc', own', l', rfl, ?_⟩
        rw [filterMap_append_singleton, if_neg, hl]
        · simp
        · rintro ⟨rfl, rfl⟩
          exact hat (isBlockAt_iff.mpr ⟨rfl, f, sc', own', l', rfl⟩)
  next hno =>
    have hnone : ∀ w ∈ ws, ¬ isBlockAt st a w = true := fun w hw hb => hno (List.any_eq_true.mpr ⟨w, hw, hb⟩)
    refine ⟨fun d hd => ?_, fun w hw => ?_⟩
    · rcases List.mem_append.mp hd with hd | hd
      · obtain ⟨w, hw, hb⟩ := hall d hd
        exact ⟨w, List.mem_append_left _ hw, hb⟩
      · obtain rfl := List.mem_singleton.mp hd
        exact ⟨_, List.mem_append_right _ (List.mem_singleton_self _), isBlockAt_iff.mpr ⟨rfl, f, sc, own, [(k, e)], rfl⟩⟩
    · rcases List.mem_append.mp hw with hw | hw
      · obtain ⟨a', sc', own', l', hb, hl⟩ := hblock w hw
        refine ⟨a', sc', own', l', hb, ?_⟩
        rw [filterMap_append_singleton, if_neg, hl]
        · simp
        · rintro ⟨hst, rfl⟩
          exact hnone w hw (isBlockAt_iff.mpr ⟨hst.symm, f, sc', own', l', hb⟩)
      · obtain rfl := List.mem_singleton.mp hw
        refine ⟨a, sc, own, [(k, e)], rfl, ?_⟩
        rw [filterMap_append_singleton, if_pos ⟨rfl, rfl⟩, List.filterMap_eq_nil_iff.mpr]
        · rfl
        · intro d hd
          refine if_neg ?_
          rintro ⟨hst, rfl⟩
          obtain ⟨w, hw, hb⟩ := hall d hd
          exact hnone w hw ((show d.1 = st from hst) ▸ hb)

/-- An element's place among the blocks of its destination. -/
def blockElement (td : TD) (v : Move × EltSrc) : Option ((Nat × Nat) × Nat × Nat × EltSrc) :=
  v.1.dst.map fun d => (d.1.store, blockStart td d, d.2.2 % 32, v.2)

theorem transferWrites_blocks (al : Bool) (hmx : isMx td.format = true) : ∀ (vs : List (Move × EltSrc)) (ds : List ((Nat × Nat) × Nat × Nat × EltSrc))
    (l : List StoreWrite), (∀ v ∈ vs, v.2.fmt ≠ td.format) → blocksHold (td.format - 16) ds l →
    blocksHold (td.format - 16) (ds ++ vs.filterMap (blockElement td)) (transferWrites td n sat al vs l)
  | [], ds, l, _, h => by simpa [transferWrites] using h
  | v :: vs, ds, l, hfmt, h => by
    have hvs : ∀ u ∈ vs, u.2.fmt ≠ td.format := fun u hu => hfmt u (by simp [hu])
    cases hd : v.1.dst with
    | none =>
      rw [List.filterMap_cons_none (by simp [blockElement, hd])]
      simpa [transferWrites, Move.writes_of_no_dst hd] using transferWrites_blocks al hmx vs ds l hvs h
    | some d =>
      rw [List.filterMap_cons_some (show blockElement td v = some (d.1.store, blockStart td d, d.2.2 % 32, v.2) by simp [blockElement, hd]), List.append_cons]
      refine transferWrites_blocks al hmx vs _ (v.1.writes td n sat al v.2 l) hvs ?_
      rw [Move.writes_of_block hd hmx (hfmt v (by simp))]
      exact blocksHold_mergeBlock h _ _ _ _ _ _

theorem transferWrites_of_mx (al : Bool) (hmx : isMx td.format = true) (hfmt : ∀ v ∈ vs, v.2.fmt ≠ td.format) :
    let ws := transferWrites td n sat al vs []
    (∀ v ∈ vs, ∀ d, v.1.dst = some d → ∃ w ∈ ws, w.1 = d.1.store ∧ ∃ sc own l, w.2 = .block (td.format - 16) (blockStart td d) sc own l) ∧
      ∀ w ∈ ws, ∃ a sc own l, w.2 = .block (td.format - 16) a sc own l ∧ l = vs.filterMap fun v => v.1.dst.bind fun d =>
        if d.1.store = w.1 ∧ blockStart td d = a then some (d.2.2 % 32, v.2) else none := by
  have hnil : blocksHold (td.format - 16) [] [] := ⟨by simp, by simp⟩
  obtain ⟨hall, hblock⟩ := transferWrites_blocks n sat al hmx vs [] [] hfmt hnil
  rw [List.nil_append] at hall hblock
  refine ⟨fun v hv d hd => ?_, fun w hw => ?_⟩
  · have hmem : (d.1.store, blockStart td d, d.2.2 % 32, v.2) ∈ vs.filterMap (blockElement td) :=
      List.mem_filterMap.mpr ⟨v, hv, by simp [blockElement, hd]⟩
    obtain ⟨w, hw, hb⟩ := hall _ hmem
    obtain ⟨hst, f, sc, own, l, hwb⟩ := isBlockAt_iff.mp hb
    obtain ⟨a, sc', own', l', hwb', _⟩ := hblock w hw
    rw [hwb] at hwb'
    cases hwb'
    exact ⟨w, hw, hst, sc, own, l, hwb⟩
  · obtain ⟨a, sc, own, l, hb, hl⟩ := hblock w hw
    refine ⟨a, sc, own, l, hb, hl.trans ?_⟩
    rw [List.filterMap_filterMap]
    refine congrArg (fun f => List.filterMap f vs) (funext fun v => ?_)
    cases hd : v.1.dst <;> simp [blockElement, hd]

end

/-! ## Writes grouped by their lines (R251, R310) -/

theorem Tab.mem_iff_find {α : Type} {t : Tab α} {n : Nat} {x : α} :
    ∀ {b : Nat}, Tab.sortedFrom b t = true → ((n, x) ∈ t ↔ Tab.find? t n = some x) := by
  induction t with
  | nil => simp
  | cons e t ih =>
    obtain ⟨k, y⟩ := e
    intro b hs
    simp only [Tab.sortedFrom, Bool.and_eq_true, decide_eq_true_eq] at hs
    by_cases hk : k = n
    · subst hk
      have hnone := Tab.sortedFrom_find_none hs.2 (Nat.lt_succ_self k)
      simp [Tab.find?, ih hs.2, hnone, eq_comm]
    · simp [Tab.find?, ih hs.2, hk, Ne.symm hk]

theorem Tab.keys_pairwise {α : Type} {t : Tab α} :
    ∀ {b : Nat}, Tab.sortedFrom b t = true → (∀ n ∈ t.map Prod.fst, b ≤ n) ∧ (t.map Prod.fst).Pairwise (· < ·) := by
  induction t with
  | nil => simp
  | cons e t ih =>
    obtain ⟨k, y⟩ := e
    intro b hs
    simp only [Tab.sortedFrom, Bool.and_eq_true, decide_eq_true_eq] at hs
    obtain ⟨hlow, hpw⟩ := ih hs.2
    refine ⟨fun n hn => ?_, List.pairwise_cons.mpr ⟨fun n hn => hlow n hn, hpw⟩⟩
    rcases List.mem_cons.mp hn with rfl | hn
    · exact hs.1
    · exact hs.1.trans ((Nat.le_succ k).trans (hlow n hn))

/-- The writes of a line, in their order. -/
def lineOps (l : List StoreWrite) (line : Nat) : List BayWrite := (l.filter fun w => decide (w.2.line = line)).map Prod.snd

theorem lineOps_eq_nil_iff {l : List StoreWrite} {line : Nat} : lineOps l line = [] ↔ ¬ ∃ w ∈ l, w.2.line = line := by
  simp [lineOps]

/-- Writes grouped by line. -/
def groupLines (l : List StoreWrite) : Tab (List BayWrite) := l.foldl (fun t w => Tab.upd [] t w.2.line (· ++ [w.2])) []

theorem groupLines_append_singleton (l : List StoreWrite) (w : StoreWrite) :
    groupLines (l ++ [w]) = Tab.put (groupLines l) w.2.line (Tab.get [] (groupLines l) w.2.line ++ [w.2]) := by
  simp [groupLines, Tab.upd]

theorem sorted_groupLines (l : List StoreWrite) : Tab.sortedFrom 0 (groupLines l) = true := by
  induction l using List.reverseRecOn with
  | nil => rfl
  | append_singleton l w ih =>
    rw [groupLines_append_singleton]
    exact Tab.sortedFrom_put (Nat.zero_le _) ih

theorem find_groupLines (l : List StoreWrite) (n : Nat) :
    Tab.find? (groupLines l) n = if lineOps l n = [] then none else some (lineOps l n) := by
  induction l using List.reverseRecOn with
  | nil => rfl
  | append_singleton l w ih =>
    rw [groupLines_append_singleton, Tab.find_put]
    by_cases hn : n = w.2.line
    · subst hn
      have hops : lineOps (l ++ [w]) w.2.line = lineOps l w.2.line ++ [w.2] := by simp [lineOps]
      rw [if_pos rfl, hops, if_neg (by simp), Tab.get, ih]
      split
      next h => simp [h]
      · rfl
    · have hops : lineOps (l ++ [w]) n = lineOps l n := by simp [lineOps, Ne.symm hn]
      rw [if_neg hn, hops, ih]

theorem mem_groupLines {l : List StoreWrite} {g : Nat × List BayWrite} : g ∈ groupLines l ↔ g.2 = lineOps l g.1 ∧ ∃ w ∈ l, w.2.line = g.1 := by
  obtain ⟨n, ops⟩ := g
  rw [Tab.mem_iff_find (sorted_groupLines l), find_groupLines]
  by_cases h : lineOps l n = []
  · simp only [if_pos h, reduceCtorEq, false_iff, not_and]
    exact fun _ => lineOps_eq_nil_iff.mp h
  · have hex := not_not.mp (mt lineOps_eq_nil_iff.mpr h)
    rw [if_neg h, Option.some.injEq]
    exact ⟨fun e => ⟨e.symm, hex⟩, fun e => e.1.symm⟩

theorem mem_groupLines_keys {l : List StoreWrite} {n : Nat} : n ∈ (groupLines l).map Prod.fst ↔ ∃ w ∈ l, w.2.line = n := by
  constructor
  · intro h
    obtain ⟨g, hg, rfl⟩ := List.mem_map.mp h
    exact (mem_groupLines.mp hg).2
  · intro h
    exact List.mem_map.mpr ⟨(n, lineOps l n), mem_groupLines.mpr ⟨rfl, h⟩, rfl⟩

theorem nodup_groupLines_keys (l : List StoreWrite) : ((groupLines l).map Prod.fst).Nodup :=
  (Tab.keys_pairwise (sorted_groupLines l)).2.imp Nat.ne_of_lt

theorem eraseDups_of_forall_eq {α : Type} [BEq α] [LawfulBEq α] {l : List α} {a : α} (hne : l ≠ []) (h : ∀ x ∈ l, x = a) : l.eraseDups = [a] := by
  obtain ⟨x, l, rfl⟩ := List.exists_cons_of_ne_nil hne
  obtain rfl := h x (by simp)
  have hrest : l.filter (fun b => !b == x) = [] := List.filter_eq_nil_iff.mpr fun b hb => by simp [h b (by simp [hb])]
  rw [List.eraseDups_cons, hrest, List.eraseDups_nil]

section
variable {ws : List StoreWrite} {st : Nat × Nat}

theorem storesOf_of_one (hne : ws ≠ []) (h : ∀ w ∈ ws, w.1 = st) : storesOf ws = [st] :=
  eraseDups_of_forall_eq (by simpa using hne) (by simpa using h)

theorem byLine_of_one (h : ∀ w ∈ ws, w.1 = st) : byLine ws st = groupLines ws := by
  unfold byLine groupLines
  rw [List.filter_eq_self.mpr fun w hw => decide_eq_true (h w hw)]

theorem groupLines_ne_nil (hne : ws ≠ []) : groupLines ws ≠ [] := by
  obtain ⟨w, l, rfl⟩ := List.exists_cons_of_ne_nil hne
  have hmem : (w.2.line, lineOps (w :: l) w.2.line) ∈ groupLines (w :: l) := mem_groupLines.mpr ⟨rfl, w, by simp, rfl⟩
  exact List.ne_nil_of_mem hmem

end

/-! ## Messages to the bays -/

/-- The messages of a command that write at a column's bay, one for each line. -/
def writeFlits (k : Command) (ep c : Nat) (ws : List StoreWrite) : List Flit :=
  (groupLines ws).map fun g => { k.flit 2 2 c g.1 with ops := g.2, hint := ep }

theorem writeFlits_addr (k : Command) (ep c : Nat) (ws : List StoreWrite) :
    (writeFlits k ep c ws).map (·.addr) = ((groupLines ws).map Prod.fst).map (128 * ·) := by
  simp only [writeFlits, List.map_map]
  rfl

theorem nodup_writeFlits_addr (k : Command) (ep c : Nat) (ws : List StoreWrite) : ((writeFlits k ep c ws).map (·.addr)).Nodup := by
  rw [writeFlits_addr]
  exact (nodup_groupLines_keys ws).map fun a b h => by
    have h : 128 * a = 128 * b := h
    omega

theorem mem_writeFlits_addr (k : Command) (ep c : Nat) (ws : List StoreWrite) (l : Nat) :
    128 * l ∈ (writeFlits k ep c ws).map (·.addr) ↔ ∃ w ∈ ws, w.2.line = l := by
  rw [writeFlits_addr, List.mem_map_of_injective fun a b h => by
    have h : 128 * a = 128 * b := h
    omega]
  exact mem_groupLines_keys

theorem mem_writeFlits {k : Command} {ep c : Nat} {ws : List StoreWrite} {f : Flit} (hf : f ∈ writeFlits k ep c ws) :
    f.type = 2 ∧ f.dst = 256 + c ∧ f.ctx = k.ctx ∧ f.hint = ep ∧ f.ops = lineOps ws (lineOf f.addr) ∧ 128 * lineOf f.addr = f.addr := by
  obtain ⟨g, hg, rfl⟩ := List.mem_map.mp hf
  have hline : lineOf (128 * g.1) = g.1 := Nat.mul_div_cancel_left _ (by decide)
  refine ⟨rfl, rfl, rfl, rfl, ?_, ?_⟩
  · change g.2 = lineOps ws (lineOf (128 * g.1))
    rw [hline]
    exact (mem_groupLines.mp hg).1
  · change 128 * lineOf (128 * g.1) = 128 * g.1
    rw [hline]

section
variable {s : State} {k : Command} {ep c : Nat} {ws : List StoreWrite}

theorem postWrites_far (hne : ws ≠ []) (hc : c ≠ k.col) (h : ∀ w ∈ ws, w.1 = (0, c)) :
    (s.postWrites k ep ws).1 = { k with toSend := k.toSend ++ writeFlits k ep c ws, unacked := k.unacked + (writeFlits k ep c ws).length } := by
  simp only [State.postWrites, storesOf_of_one hne h, List.foldl_cons, List.foldl_nil, byLine_of_one h, if_neg hc]
  rfl

theorem postWrites_own (hne : ws ≠ []) (h : ∀ w ∈ ws, w.1 = (0, k.col)) :
    s.postWrites k ep ws = ({ k with unacked := k.unacked + (writeFlits k ep k.col ws).length },
      s.updCol k.col fun x => x.askOwn k s.clk ((writeFlits k ep k.col ws).map fun f => (f, 0#4))) := by
  simp only [State.postWrites, storesOf_of_one hne h, List.foldl_cons, List.foldl_nil, byLine_of_one h, if_true]
  rfl

theorem postWrites_far_spec (hne : ws ≠ []) (hc : c ≠ k.col) (h : ∀ w ∈ ws, w.1 = (0, c)) :
    ∃ new : List Flit, (s.postWrites k ep ws).1.toSend = k.toSend ++ new ∧
      (s.postWrites k ep ws).1.unacked = k.unacked + new.length ∧ (new.map (·.addr)).Nodup ∧
      (∀ l, 128 * l ∈ new.map (·.addr) ↔ ∃ w ∈ ws, w.2.line = l) ∧
      ∀ f ∈ new, f.type = 2 ∧ f.dst = 256 + c ∧ f.ctx = k.ctx ∧ f.hint = ep ∧
        f.ops = (ws.filter fun w => decide (128 * w.2.line = f.addr)).map Prod.snd := by
  rw [postWrites_far hne hc h]
  refine ⟨writeFlits k ep c ws, rfl, rfl, nodup_writeFlits_addr k ep c ws, mem_writeFlits_addr k ep c ws, fun f hf => ?_⟩
  obtain ⟨htype, hdst, hctx, hhint, hops, haddr⟩ := mem_writeFlits hf
  refine ⟨htype, hdst, hctx, hhint, hops.trans ?_⟩
  have hline (w : StoreWrite) : w.2.line = lineOf f.addr ↔ 128 * w.2.line = f.addr := by omega
  simp only [lineOps, hline]

end

/-! ## A transfer's writes at its own bay -/

/-- Asking the slices of the own bay adds one request for each message, and changes nothing else that is read here. -/
theorem askOwn_fold (k : Command) (clk : Nat) : ∀ (l : List ((Flit × BitVec 4) × Nat)) (x : Column),
    let y := l.foldl (fun x e => x.updBay (·.post (x.engineReq e.1.1 k.id e.1.2 (clk + e.2)))) x
    (y.mem = x.mem ∧ y.undefined = x.undefined ∧ y.groups = x.groups ∧ y.cmds = x.cmds) ∧ ∃ new, y.bay.reqs = x.bay.reqs ++ new ∧
      List.Forall₂ (fun e q => q.line = lineOf e.1.1.addr ∧ q.cmd = k.id ∧ q.put = none ∧ q.eng = some e.1.1) l new
  | [], x => ⟨⟨rfl, rfl, rfl, rfl⟩, [], (List.append_nil _).symm, .nil⟩
  | e :: l, x => by
    obtain ⟨hkeep, new, hreqs, hnew⟩ := askOwn_fold k clk l (x.updBay (·.post (x.engineReq e.1.1 k.id e.1.2 (clk + e.2))))
    refine ⟨hkeep, { x.engineReq e.1.1 k.id e.1.2 (clk + e.2) with id := x.bay.nextReq } :: new, ?_, .cons ⟨rfl, rfl, rfl, rfl⟩ hnew⟩
    rw [List.foldl_cons, hreqs, List.append_cons]
    rfl

theorem askOwn_spec (x : Column) (k : Command) (clk : Nat) (fl : List Flit) :
    let y := x.askOwn k clk (fl.map fun f => (f, 0#4))
    (y.mem = x.mem ∧ y.undefined = x.undefined ∧ y.groups = x.groups ∧ y.cmds = x.cmds) ∧ ∃ new, y.bay.reqs = x.bay.reqs ++ new ∧
      List.Forall₂ (fun f q => q.line = lineOf f.addr ∧ q.cmd = k.id ∧ q.put = none ∧ q.eng = some f) fl new := by
  obtain ⟨hkeep, new, hreqs, hnew⟩ := askOwn_fold k clk ((fl.map fun f => (f, 0#4)).zip (List.range (fl.map fun f => (f, 0#4)).length)) x
  refine ⟨hkeep, new, hreqs, ?_⟩
  have hfl : fl = ((fl.map fun f => (f, 0#4)).zip (List.range (fl.map fun f => (f, 0#4)).length)).map fun e => e.1.1 := by
    have hcomp : (fun e : (Flit × BitVec 4) × Nat => e.1.1) = Prod.fst ∘ Prod.fst := rfl
    rw [hcomp, ← List.map_map, List.map_fst_zip (by simp), List.map_map]
    exact (List.map_id fl).symm
  rw [hfl]
  exact List.forall₂_map_left_iff.mpr hnew

theorem sendEngine_of_nothing {k : Command} (x : Column) (h : k.toSend = []) : x.sendEngine k = x.setCmd k := by
  simp only [Column.sendEngine, h, List.foldl_nil]
  cases k
  cases h
  rfl

theorem perform_of_values {s : State} {k : Command} {r : Rec} {ms : List Move} {vs : List (Move × EltSrc)}
    (h : s.values k r (r.ends (decide (k.kind = .scat))).1 (r.ends (decide (k.kind = .scat))).2.2.1 ms = .ok vs) :
    ∃ bytes peers, s.perform k r ms =
      let ws := transferWrites (r.ends (decide (k.kind = .scat))).2.1 (s.gcols k).2.2 r.sat (r.aligned k.coords k.iter) vs []
      let p := s.postWrites { k with written := true, bytes := bytes, peers := peers } r.epd ws
      let t := p.2.updCol p.1.col fun x => (x.setCmd p.1).sendEngine p.1
      if p.1.unacked = 0 ∧ p.1.toSend.isEmpty ∧ p.1.cribOut.isEmpty then t.endTransfer p.1 r else t := by
  rw [State.perform]
  simp only [h]
  exact ⟨_, _, rfl⟩

theorem forall2_right_mem {α β : Type} {R : α → β → Prop} {l : List α} {l' : List β} (h : List.Forall₂ R l l') :
    ∀ b ∈ l', ∃ a ∈ l, R a b := by
  induction h with
  | nil => simp
  | cons hab _ ih =>
    intro b hb
    rcases List.mem_cons.mp hb with rfl | hb
    · exact ⟨_, List.mem_cons_self, hab⟩
    · obtain ⟨a, ha, hr⟩ := ih b hb
      exact ⟨a, List.mem_cons_of_mem _ ha, hr⟩

theorem forall2_map_eq {α β γ : Type} {R : α → β → Prop} {f : α → γ} {g : β → γ} (hfg : ∀ a b, R a b → g b = f a)
    {l : List α} {l' : List β} (h : List.Forall₂ R l l') : l'.map g = l.map f := by
  induction h with
  | nil => rfl
  | cons hab _ ih => rw [List.map_cons, List.map_cons, hfg _ _ hab, ih]

/-- A transfer whose writes all lie at its own bay asks the bay's slices for them, a request for each line, and changes no memory. -/
theorem perform_own {s : State} {k : Command} {r : Rec} {ms : List Move} {vs : List (Move × EltSrc)}
    (h : s.values k r (r.ends (decide (k.kind = .scat))).1 (r.ends (decide (k.kind = .scat))).2.2.1 ms = .ok vs)
    (hcmd : (s.col k.col).cmd k.id = some k) (hsend : k.toSend = []) (hun : k.unacked = 0) {ws : List StoreWrite}
    (hws : ws = transferWrites (r.ends (decide (k.kind = .scat))).2.1 (s.gcols k).2.2 r.sat (r.aligned k.coords k.iter) vs [])
    (hne : ws ≠ []) (hown : ∀ w ∈ ws, w.1 = (0, k.col)) :
    let t := s.perform k r ms
    s.sameMemory t ∧ ∃ new : List Req, (t.col k.col).bay.reqs = (s.col k.col).bay.reqs ++ new ∧
      ((t.col k.col).cmd k.id).map (·.unacked) = some new.length ∧
      List.Forall₂ (fun f q => q.line = lineOf f.addr ∧ q.cmd = k.id ∧ q.put = none ∧ q.eng = some f) (writeFlits k r.epd k.col ws) new := by
  obtain ⟨bytes, peers, ht⟩ := perform_of_values h
  rw [← hws] at ht
  let k1 : Command := { k with written := true, bytes := bytes, peers := peers }
  have hflits : writeFlits k1 r.epd k.col ws = writeFlits k r.epd k.col ws := rfl
  have hpost := @postWrites_own s k1 r.epd ws hne hown
  rw [show k1.col = k.col from rfl, hflits] at hpost
  let k2 : Command := { k1 with unacked := k1.unacked + (writeFlits k r.epd k.col ws).length }
  have hpos : 0 < (writeFlits k r.epd k.col ws).length := by
    rw [writeFlits, List.length_map]
    exact List.length_pos_iff.mpr (groupLines_ne_nil hne)
  have hk2 : k2.unacked = (writeFlits k r.epd k.col ws).length := by
    change k.unacked + _ = _
    omega
  have ht' : s.perform k r ms = (s.updCol k.col fun x => x.askOwn k1 s.clk ((writeFlits k r.epd k.col ws).map fun f => (f, 0#4))).updCol k.col
      fun x => (x.setCmd k2).setCmd k2 := by
    rw [ht]
    change (let p := s.postWrites k1 r.epd ws
            let t := p.2.updCol p.1.col fun x => (x.setCmd p.1).sendEngine p.1
            if p.1.unacked = 0 ∧ p.1.toSend.isEmpty ∧ p.1.cribOut.isEmpty then t.endTransfer p.1 r else t) = _
    rw [hpost]
    change (if k2.unacked = 0 ∧ _ then _ else State.updCol _ k.col fun x => (x.setCmd k2).sendEngine k2) = _
    rw [if_neg fun hz => by omega]
    exact congrArg (State.updCol _ k.col) (funext fun x => sendEngine_of_nothing _ hsend)
  obtain ⟨⟨hmem, hundef, hgroups, hcmds⟩, new, hreqs, hnew⟩ := askOwn_spec (s.col k.col) k1 s.clk (writeFlits k r.epd k.col ws)
  dsimp only
  rw [ht']
  refine ⟨State.sameMemory_of fun c => ?_, new, ?_, ?_, hnew⟩
  · by_cases hc : c = k.col
    · simp only [State.col_updCol, if_pos hc, if_true, Column.setCmd_mem, Column.setCmd_groups]
      rw [hc]
      exact ⟨hmem, hundef, hgroups⟩
    · simp [hc]
  · simpa using hreqs
  · have hcmd' : ((s.col k.col).askOwn k1 s.clk ((writeFlits k r.epd k.col ws).map fun f => (f, 0#4))).cmd k.id = some k := by
      rw [Column.cmd, hcmds]
      exact hcmd
    have hid : k.id = k2.id := rfl
    simp only [State.col_updCol, if_true, Column.cmd_setCmd, if_pos hid, hcmd', Option.map_some, hk2, hnew.length_eq]

theorem perform_own_spec {s : State} {k : Command} {r : Rec} {ms : List Move} {vs : List (Move × EltSrc)}
    (h : s.values k r (r.ends (decide (k.kind = .scat))).1 (r.ends (decide (k.kind = .scat))).2.2.1 ms = .ok vs)
    (hcmd : (s.col k.col).cmd k.id = some k) (hsend : k.toSend = []) (hun : k.unacked = 0) {ws : List StoreWrite}
    (hws : ws = transferWrites (r.ends (decide (k.kind = .scat))).2.1 (s.gcols k).2.2 r.sat (r.aligned k.coords k.iter) vs [])
    (hne : ws ≠ []) (hown : ∀ w ∈ ws, w.1 = (0, k.col)) :
    let t := s.perform k r ms
    s.sameMemory t ∧ ∃ new : List Req, (t.col k.col).bay.reqs = (s.col k.col).bay.reqs ++ new ∧ (new.map (·.line)).Nodup ∧
      (∀ l, l ∈ new.map (·.line) ↔ ∃ w ∈ ws, w.2.line = l) ∧ ((t.col k.col).cmd k.id).map (·.unacked) = some new.length ∧
      ∀ q ∈ new, q.cmd = k.id ∧ q.put = none ∧ ∃ f, q.eng = some f ∧ f.type = 2 ∧ f.ctx = k.ctx ∧ f.hint = r.epd ∧
        f.ops = (ws.filter fun w => decide (w.2.line = q.line)).map Prod.snd := by
  obtain ⟨hmem, new, hreqs, hun', hnew⟩ := perform_own h hcmd hsend hun hws hne hown
  have hlines : new.map (·.line) = (groupLines ws).map Prod.fst := by
    have hline : (fun f : Flit => lineOf f.addr) ∘ (fun g : Nat × List BayWrite => ({ k.flit 2 2 k.col g.1 with ops := g.2, hint := r.epd } : Flit)) =
        Prod.fst := funext fun g => Nat.mul_div_cancel_left g.1 (by decide)
    have heq : new.map (·.line) = (writeFlits k r.epd k.col ws).map fun f => lineOf f.addr := forall2_map_eq (fun f q hq => hq.1) hnew
    rw [heq, writeFlits, List.map_map, hline]
  refine ⟨hmem, new, hreqs, hlines ▸ nodup_groupLines_keys ws, fun l => hlines ▸ mem_groupLines_keys, hun', fun q hq => ?_⟩
  obtain ⟨f, hf, hline, hid, hput, heng⟩ := forall2_right_mem hnew q hq
  obtain ⟨htype, _, hctx, hhint, hops, _⟩ := mem_writeFlits hf
  exact ⟨hid, hput, f, heng, htype, hctx, hhint, hline ▸ hops⟩

theorem values_spec (s : State) (k : Command) (r : Rec) (ms : List Move) (vs : List (Move × EltSrc)) :
    let ends := r.ends (decide (k.kind = .scat))
    let td := ends.2.1
    let al := r.aligned k.coords k.iter
    let ws := vs.foldl (fun l v => v.1.writes td (s.gcols k).2.2 r.sat al v.2 l) []
    let raw (v : Move × EltSrc) (d : Place × Option Place × Nat) : StoreWrite :=
      (d.1.store, if td.format = 0x12 then .nibble d.1.addr (decide (d.2.2 % 2 = 1)) v.2.code else .bytes d.1.addr [BitVec.ofNat 8 v.2.code])
    s.values k r ends.1 ends.2.2.1 ms = .ok vs →
    vs.map Prod.fst = ms ∧ (∀ v ∈ vs, s.element k ends.1 (r.needsScale al) v.1 = .ok v.2) ∧
    (isMx td.format = false → ws = vs.filterMap fun v => v.1.dst.map fun d => (d.1.store, .bytes d.1.addr
      (bytesOf (fmtBytes td.format) (if v.2.fmt = td.format then v.2.code else convCode td.format r.sat v.2.val)))) ∧
    (isMx td.format = true → (∀ v ∈ vs, v.2.fmt = td.format) → al = false → ws = vs.filterMap fun v => v.1.dst.map (raw v)) ∧
    (isMx td.format = true → (∀ v ∈ vs, v.2.fmt = td.format) → al = true → ∀ v ∈ vs, ∀ p q e, v.1.dst = some (p, some q, e) →
      raw v (p, some q, e) ∈ ws ∧ (v.1.src ≠ none → (q.store, .bytes q.addr [BitVec.ofNat 8 v.2.scale]) ∈ ws) ∧
        ∃ x, (q.store, .bytes q.addr [x]) ∈ ws) ∧
    (isMx td.format = true → (∀ v ∈ vs, v.2.fmt ≠ td.format) →
      let start (d : Place × Option Place × Nat) : Nat := d.1.addr - if td.format = 0x12 then d.2.2 % 32 / 2 else d.2.2 % 32
      (∀ v ∈ vs, ∀ d, v.1.dst = some d → ∃ w ∈ ws, w.1 = d.1.store ∧ ∃ sc own l, w.2 = .block (td.format - 16) (start d) sc own l) ∧
      ∀ w ∈ ws, ∃ a sc own l, w.2 = .block (td.format - 16) a sc own l ∧ l = vs.filterMap fun v => v.1.dst.bind fun d =>
        if d.1.store = w.1 ∧ start d = a then some (d.2.2 % 32, v.2) else none) ∧
    ((s.col k.col).cmd k.id = some k → ws ≠ [] → k.toSend = [] → k.cribOut = [] → k.unacked = 0 → (∀ w ∈ ws, w.1 = (0, k.col)) →
      let t := s.perform k r ms
      s.sameMemory t ∧ ∃ new : List Req, (t.col k.col).bay.reqs = (s.col k.col).bay.reqs ++ new ∧ (new.map (·.line)).Nodup ∧
        (∀ l, l ∈ new.map (·.line) ↔ ∃ w ∈ ws, w.2.line = l) ∧ ((t.col k.col).cmd k.id).map (·.unacked) = some new.length ∧
        ∀ q ∈ new, q.cmd = k.id ∧ q.put = none ∧ ∃ f, q.eng = some f ∧ f.type = 2 ∧ f.ctx = k.ctx ∧ f.hint = r.epd ∧
          f.ops = (ws.filter fun w => decide (w.2.line = q.line)).map Prod.snd) := by
  intro ends td al ws raw h
  obtain ⟨hfst, helt⟩ := values_ok s k r _ _ ms vs h
  have hexp : ∀ v ∈ vs, v.2.exp = 0 := fun v hv => exp_of_element (helt v hv)
  refine ⟨hfst, helt, fun hmx => transferWrites_of_not_mx hmx hexp, fun hmx hfmt hal => ?_, fun hmx hfmt hal v hv p q e hd => ?_,
    fun hmx hfmt => transferWrites_of_mx _ _ al hmx hfmt, fun hcmd hne hsend _ hun hown => perform_own_spec h hcmd hsend hun rfl hne hown⟩
  · have hws : ws = transferWrites td (s.gcols k).2.2 r.sat false vs [] := by rw [← hal]; rfl
    exact hws.trans (transferWrites_of_raw hmx hfmt hexp)
  · have hws : ws = transferWrites td (s.gcols k).2.2 r.sat true vs [] := by rw [← hal]; rfl
    rw [hws]
    exact (transferWrites_aligned _ _ hmx vs [] hfmt hexp (by simp [singleBytes])).2 v hv p q e hd

/-! ## The bytes that writes leave (R33, R244)

`BayWrite.apply` puts its bytes before those written so far, so that the first entry of an address is its latest; `overlay` reads it. -/

theorem overlay_nil (get : Nat → Byte) : overlay get [] = get := rfl

theorem overlay_append (get : Nat → Byte) (d done : List (Nat × Byte)) : overlay get (d ++ done) = overlay (overlay get done) d := by
  funext a
  simp only [overlay, List.find?_append]
  cases d.find? fun p => p.1 == a <;> rfl

theorem overlay_cons (get : Nat → Byte) (p : Nat × Byte) (d : List (Nat × Byte)) (a : Nat) :
    overlay get (p :: d) a = if p.1 = a then p.2 else overlay get d a := by
  by_cases h : p.1 = a
  · simp [overlay, h]
  · simp [overlay, h]

theorem overlay_of_not_mem {d : List (Nat × Byte)} {a : Nat} (get : Nat → Byte) (h : ∀ p ∈ d, p.1 ≠ a) : overlay get d a = get a := by
  have hnone : d.find? (fun p => p.1 == a) = none := List.find?_eq_none.mpr fun p hp => by simpa using h p hp
  simp only [overlay, hnone]

/-- The bytes of some writes with the latest first, an address as often as it is written. -/
def applyAll (get : Nat → Byte) (ops : List BayWrite) : List (Nat × Byte) := ops.foldl (fun d o => o.apply get d) []

/-- The entries of a table of bytes of which none stands earlier for the same address. -/
def firstEntries (l : List (Nat × Byte)) : List (Nat × Byte) :=
  l.foldl (fun acc p => if acc.any fun q => q.1 == p.1 then acc else acc ++ [p]) []

theorem writtenBytes_eq (get : Nat → Byte) (ops : List BayWrite) : writtenBytes get ops = firstEntries (applyAll get ops) := rfl

theorem firstEntries_append_singleton (l : List (Nat × Byte)) (p : Nat × Byte) :
    firstEntries (l ++ [p]) = if (firstEntries l).any fun q => q.1 == p.1 then firstEntries l else firstEntries l ++ [p] := by
  simp [firstEntries]

theorem find_firstEntries (l : List (Nat × Byte)) (a : Nat) : (firstEntries l).find? (fun q => q.1 == a) = l.find? fun q => q.1 == a := by
  induction l using List.reverseRecOn with
  | nil => rfl
  | append_singleton l p ih =>
    rw [firstEntries_append_singleton, List.find?_append, ← ih]
    split
    next hany =>
      by_cases hp : p.1 = a
      · subst hp
        obtain ⟨q, hq, hqp⟩ := List.any_eq_true.mp hany
        have hsome : ((firstEntries l).find? fun q => q.1 == p.1).isSome := List.find?_isSome.mpr ⟨q, hq, hqp⟩
        obtain ⟨q', hq'⟩ := Option.isSome_iff_exists.mp hsome
        rw [hq', Option.some_or]
      · simp [hp]
    · exact List.find?_append

theorem nodup_firstEntries (l : List (Nat × Byte)) : ((firstEntries l).map Prod.fst).Nodup := by
  induction l using List.reverseRecOn with
  | nil => exact List.nodup_nil
  | append_singleton l p ih =>
    rw [firstEntries_append_singleton]
    split
    · exact ih
    next hany =>
      rw [List.map_append, List.nodup_append]
      refine ⟨ih, by simp, fun a ha b hb hab => hany ?_⟩
      obtain ⟨q, hq, rfl⟩ := List.mem_map.mp ha
      rw [List.map_singleton, List.mem_singleton] at hb
      exact List.any_eq_true.mpr ⟨q, hq, by simp [hab, hb]⟩

theorem overlay_firstEntries (get : Nat → Byte) (l : List (Nat × Byte)) (a : Nat) : overlay get (firstEntries l) a = overlay get l a := by
  simp only [overlay, find_firstEntries]

theorem mem_of_mem_firstEntries {l : List (Nat × Byte)} {p : Nat × Byte} (h : p ∈ firstEntries l) : p ∈ l := by
  induction l using List.reverseRecOn with
  | nil => exact h
  | append_singleton l q ih =>
    rw [firstEntries_append_singleton] at h
    split at h
    · exact List.mem_append_left _ (ih h)
    · rcases List.mem_append.mp h with h | h
      · exact List.mem_append_left _ (ih h)
      · exact List.mem_append_right _ h

theorem mem_firstEntries_of_find {l : List (Nat × Byte)} {p : Nat × Byte} (h : l.find? (fun q => q.1 == p.1) = some p) : p ∈ firstEntries l := by
  rw [← find_firstEntries] at h
  exact List.mem_of_find?_eq_some h

/-- The entries of bytes written from an address on, the last one first. -/
def byteEntries (pa : Nat) (b : List Byte) : List (Nat × Byte) := ((b.zip (List.range b.length)).map fun e => (pa + e.2, e.1)).reverse

theorem apply_bytes (get : Nat → Byte) (done : List (Nat × Byte)) (pa : Nat) (b : List Byte) :
    (BayWrite.bytes pa b).apply get done = byteEntries pa b ++ done := by
  have hfold (l : List (Byte × Nat)) : ∀ d : List (Nat × Byte),
      l.foldl (fun d e => (pa + e.2, e.1) :: d) d = (l.map fun e => (pa + e.2, e.1)).reverse ++ d := by
    induction l with
    | nil => simp
    | cons e l ih => simp [ih]
  exact hfold _ done

theorem mem_byteEntries {pa : Nat} {b : List Byte} {p : Nat × Byte} : p ∈ byteEntries pa b ↔ ∃ i, i < b.length ∧ p = (pa + i, b.getD i 0#8) := by
  rw [byteEntries, List.mem_reverse, List.mem_map]
  constructor
  · rintro ⟨e, he, rfl⟩
    obtain ⟨j, hj, rfl⟩ := List.mem_iff_getElem.mp he
    have hj' : j < b.length := by simpa using hj
    exact ⟨j, hj', by simp [hj']⟩
  · rintro ⟨i, hi, rfl⟩
    exact ⟨(b[i], i), List.mem_iff_getElem.mpr ⟨i, by simpa using hi, by simp⟩, by simp [hi]⟩

theorem find_byteEntries {pa i : Nat} {b : List Byte} (hi : i < b.length) :
    (byteEntries pa b).find? (fun q => q.1 == pa + i) = some (pa + i, b.getD i 0#8) := by
  have hsome : ((byteEntries pa b).find? fun q => q.1 == pa + i).isSome :=
    List.find?_isSome.mpr ⟨_, mem_byteEntries.mpr ⟨i, hi, rfl⟩, by simp⟩
  obtain ⟨q, hq⟩ := Option.isSome_iff_exists.mp hsome
  obtain ⟨j, _, rfl⟩ := mem_byteEntries.mp (List.mem_of_find?_eq_some hq)
  have hj : pa + j = pa + i := by simpa using List.find?_some hq
  rw [hq, show j = i by omega]

theorem find_byteEntries_none {pa a : Nat} {b : List Byte} (ha : a < pa ∨ pa + b.length ≤ a) : (byteEntries pa b).find? (fun q => q.1 == a) = none := by
  refine List.find?_eq_none.mpr fun q hq => ?_
  obtain ⟨i, hi, rfl⟩ := mem_byteEntries.mp hq
  have hne : pa + i ≠ a := by omega
  simpa using hne

/-! ## Writes of whole bytes, one after another -/

section
variable (get : Nat → Byte)

theorem applyAll_append_singleton (ops : List BayWrite) (w : BayWrite) : applyAll get (ops ++ [w]) = w.apply get (applyAll get ops) := by
  simp [applyAll]

/-- Of several writes of bytes the last one over an address stands. -/
theorem find_applyAll_bytes {pre : List BayWrite} {a i : Nat} {b : List Byte} (hi : i < b.length) (post : List BayWrite)
    (hpost : ∀ w ∈ post, ∃ a' b', w = .bytes a' b' ∧ (a + i < a' ∨ a' + b'.length ≤ a + i)) :
    (applyAll get (pre ++ .bytes a b :: post)).find? (fun q => q.1 == a + i) = some (a + i, b.getD i 0#8) := by
  induction post using List.reverseRecOn with
  | nil =>
    rw [applyAll_append_singleton, apply_bytes, List.find?_append, find_byteEntries hi]
    rfl
  | append_singleton post w ih =>
    obtain ⟨a', b', rfl, hout⟩ := hpost w (by simp)
    rw [← List.cons_append, ← List.append_assoc, applyAll_append_singleton, apply_bytes, List.find?_append, find_byteEntries_none hout, Option.none_or]
    exact ih fun u hu => hpost u (by simp [hu])

theorem mem_applyAll_bytes (ops : List BayWrite) (hops : ∀ w ∈ ops, ∃ a b, w = .bytes a b) {p : Nat × Byte} (hp : p ∈ applyAll get ops) :
    ∃ w ∈ ops, ∃ a b, w = .bytes a b ∧ a ≤ p.1 ∧ p.1 < a + b.length := by
  induction ops using List.reverseRecOn with
  | nil => cases hp
  | append_singleton ops w ih =>
    obtain ⟨a, b, rfl⟩ := hops w (by simp)
    rw [applyAll_append_singleton, apply_bytes] at hp
    rcases List.mem_append.mp hp with hp | hp
    · obtain ⟨i, hi, rfl⟩ := mem_byteEntries.mp hp
      exact ⟨_, by simp, a, b, rfl, Nat.le_add_right a i, Nat.add_lt_add_left hi a⟩
    · obtain ⟨u, hu, h⟩ := ih (fun u hu => hops u (by simp [hu])) hp
      exact ⟨u, by simp [hu], h⟩

end

/-! ## Writes in the crib (R262, R282) -/

theorem nodup_eraseDups {α : Type} [BEq α] [LawfulBEq α] : ∀ l : List α, l.eraseDups.Nodup
  | [] => by simp
  | x :: l => by
    rw [List.eraseDups_cons, List.nodup_cons, List.mem_eraseDups]
    exact ⟨by simp, nodup_eraseDups (l.filter fun b => !b == x)⟩
termination_by l => l.length
decreasing_by exact Nat.lt_succ_of_le (List.length_filter_le _ l)

section
variable {l : List (Nat × Byte)}

theorem mem_bySixteen {u : List (Nat × Byte)} (hu : u ∈ bySixteen l) : ∃ a, u = l.filter fun p => decide (p.1 / 16 = a) := by
  obtain ⟨a, _, rfl⟩ := List.mem_map.mp hu
  exact ⟨a, rfl⟩

theorem mem_flatMap_bySixteen {p : Nat × Byte} : p ∈ (bySixteen l).flatMap id ↔ p ∈ l := by
  simp only [bySixteen, List.mem_flatMap, List.mem_map, List.mem_eraseDups, id_eq]
  constructor
  · rintro ⟨_, ⟨a, _, rfl⟩, hp⟩
    exact List.mem_of_mem_filter hp
  · intro hp
    exact ⟨_, ⟨p.1 / 16, ⟨p, hp, rfl⟩, rfl⟩, List.mem_filter.mpr ⟨hp, by simp⟩⟩

theorem nodup_bySixteen (h : (l.map Prod.fst).Nodup) : ((bySixteen l).flatMap fun u => u.map Prod.fst).Nodup := by
  rw [bySixteen, List.flatMap_map, List.nodup_flatMap]
  refine ⟨fun a _ => h.sublist (List.filter_sublist.map _), (nodup_eraseDups _).imp fun {a b} hab => ?_⟩
  rw [Function.onFun, List.disjoint_left]
  intro x hx hy
  obtain ⟨p, hp, rfl⟩ := List.mem_map.mp hx
  obtain ⟨q, hq, hqp⟩ := List.mem_map.mp hy
  have hp : p.1 / 16 = a := of_decide_eq_true (List.mem_filter.mp hp).2
  have hq : q.1 / 16 = b := of_decide_eq_true (List.mem_filter.mp hq).2
  exact hab (by rw [← hp, ← hq, hqp])

end

/-- Some writes in the order of their lines, those of a line in their own. -/
def lineOrdered (ws : List StoreWrite) : List BayWrite := (groupLines ws).flatMap (·.2)

theorem mem_lineOrdered {ws : List StoreWrite} {o : BayWrite} : o ∈ lineOrdered ws ↔ ∃ w ∈ ws, w.2 = o := by
  simp only [lineOrdered, List.mem_flatMap, mem_groupLines]
  constructor
  · rintro ⟨g, ⟨hops, _⟩, ho⟩
    rw [hops, lineOps, List.mem_map] at ho
    obtain ⟨w, hw, rfl⟩ := ho
    exact ⟨w, List.mem_of_mem_filter hw, rfl⟩
  · rintro ⟨w, hw, rfl⟩
    exact ⟨(w.2.line, lineOps ws w.2.line), ⟨rfl, w, hw, rfl⟩, List.mem_map.mpr ⟨w, List.mem_filter.mpr ⟨hw, by simp⟩, rfl⟩⟩

/-- Of the writes in line order, those after one are later ones of its line and those of higher lines. -/
theorem lineOrdered_split {before after : List StoreWrite} {w : StoreWrite} :
    ∃ pre post, lineOrdered (before ++ w :: after) = pre ++ w.2 :: post ∧
      ∀ o ∈ post, (∃ u ∈ after, u.2 = o) ∨ (∃ u ∈ before ++ w :: after, u.2 = o ∧ w.2.line < o.line) := by
  have hmem : (w.2.line, lineOps (before ++ w :: after) w.2.line) ∈ groupLines (before ++ w :: after) :=
    mem_groupLines.mpr ⟨rfl, w, by simp, rfl⟩
  obtain ⟨t1, t2, ht⟩ := List.append_of_mem hmem
  have hops : lineOps (before ++ w :: after) w.2.line = lineOps before w.2.line ++ w.2 :: lineOps after w.2.line := by simp [lineOps]
  refine ⟨t1.flatMap (·.2) ++ lineOps before w.2.line, lineOps after w.2.line ++ t2.flatMap (·.2), ?_, fun o ho => ?_⟩
  · rw [lineOrdered, ht, hops]
    simp
  · rcases List.mem_append.mp ho with ho | ho
    · obtain ⟨u, hu, rfl⟩ := List.mem_map.mp ho
      exact .inl ⟨u, List.mem_of_mem_filter hu, rfl⟩
    · obtain ⟨g, hg, hog⟩ := List.mem_flatMap.mp ho
      have hgl : g ∈ groupLines (before ++ w :: after) := by
        rw [ht]
        simp [hg]
      have hlt : w.2.line < g.1 := by
        have hpw := (Tab.keys_pairwise (sorted_groupLines (before ++ w :: after))).2
        rw [ht, List.map_append, List.map_cons, List.pairwise_append] at hpw
        exact List.rel_of_pairwise_cons hpw.2.1 (List.mem_map_of_mem hg)
      rw [(mem_groupLines.mp hgl).1] at hog
      obtain ⟨u, hu, rfl⟩ := List.mem_map.mp hog
      obtain ⟨hu, hline⟩ := List.mem_filter.mp hu
      exact .inr ⟨u, hu, rfl, by rwa [of_decide_eq_true hline]⟩

theorem postWrites_crib {s : State} {k : Command} {ep c : Nat} {ws : List StoreWrite} (hne : ws ≠ []) (h : ∀ w ∈ ws, w.1 = (1, c)) :
    (s.postWrites k ep ws).1.cribOut = k.cribOut ++ (bySixteen (writtenBytes (Memory.read (Tab.get {} (s.col k.col).cribs c).bytes)
      (lineOrdered ws))).map fun u => (c, u) := by
  simp only [State.postWrites, storesOf_of_one hne h, List.foldl_cons, List.foldl_nil, byLine_of_one h]
  rfl

/-- An aligned element whose bytes divide a line lies in the line that its first byte lies in. -/
theorem add_lt_of_aligned {a i n : Nat} (hi : i < n) (hal : n = 1 ∨ a % n = 0) (hdiv : 128 % n = 0) : a + i < 128 * (a / 128 + 1) := by
  rcases hal with rfl | hal
  · omega
  · obtain ⟨q, hq⟩ := Nat.dvd_of_mod_eq_zero hal
    obtain ⟨m, hm⟩ := Nat.dvd_of_mod_eq_zero hdiv
    have hnext : 128 * (a / 128 + 1) = n * (m * (a / 128 + 1)) := by rw [← Nat.mul_assoc, ← hm]
    have hlt : n * q < n * (m * (a / 128 + 1)) := by
      rw [← hnext, ← hq]
      omega
    have hq1 : q + 1 ≤ m * (a / 128 + 1) := Nat.lt_of_mul_lt_mul_left hlt
    have hle : n * (q + 1) ≤ n * (m * (a / 128 + 1)) := Nat.mul_le_mul_left n hq1
    rw [Nat.mul_add, Nat.mul_one] at hle
    omega

theorem postWrites_crib_spec {s : State} {k : Command} {ep c : Nat} {ws : List StoreWrite} (hne : ws ≠ []) (h : ∀ w ∈ ws, w.1 = (1, c))
    (hbytes : ∀ w ∈ ws, ∃ a b, w.2 = .bytes a b) :
    ∃ new : List (List (Nat × Byte)), (s.postWrites k ep ws).1.cribOut = k.cribOut ++ (new.map fun u => (c, u)) ∧
      (new.flatMap fun u => u.map Prod.fst).Nodup ∧ (∀ u ∈ new, ∃ a, ∀ p ∈ u, p.1 / 16 = a) ∧
      (∀ before a b after i, ws = before ++ ((1, c), .bytes a b) :: after → i < b.length → (b.length = 1 ∨ a % b.length = 0) → 128 % b.length = 0 →
        (∀ w ∈ after, ∀ a' b', w.2 = .bytes a' b' → a + i < a' ∨ a' + b'.length ≤ a + i) → (a + i, b.getD i 0#8) ∈ new.flatMap id) ∧
      ∀ p ∈ new.flatMap id, ∃ w ∈ ws, ∃ a b, w.2 = .bytes a b ∧ a ≤ p.1 ∧ p.1 < a + b.length := by
  refine ⟨_, postWrites_crib hne h, nodup_bySixteen (nodup_firstEntries _), fun u hu => ?_, fun before a b after i hws hi hal hdiv hafter => ?_,
    fun p hp => ?_⟩
  · obtain ⟨a, rfl⟩ := mem_bySixteen hu
    exact ⟨a, fun p hp => of_decide_eq_true (List.mem_filter.mp hp).2⟩
  · rw [mem_flatMap_bySixteen, writtenBytes_eq]
    refine mem_firstEntries_of_find ?_
    obtain ⟨pre, post, hsplit, hpost⟩ := @lineOrdered_split before after ((1, c), .bytes a b)
    rw [hws, hsplit]
    refine find_applyAll_bytes _ hi post fun o ho => ?_
    rcases hpost o ho with ⟨u, hu, rfl⟩ | ⟨u, hu, rfl, hline⟩
    · obtain ⟨a', b', hb'⟩ := hbytes u (by simp [hws, hu])
      exact ⟨a', b', hb', hafter u hu a' b' hb'⟩
    · obtain ⟨a', b', hb'⟩ := hbytes u (hws ▸ hu)
      refine ⟨a', b', hb', .inl ?_⟩
      rw [hb'] at hline
      have hline : a / 128 < a' / 128 := hline
      have hlt := add_lt_of_aligned hi hal hdiv
      omega
  · rw [mem_flatMap_bySixteen, writtenBytes_eq] at hp
    obtain ⟨o, ho, a, b, rfl, ha⟩ := mem_applyAll_bytes _ (lineOrdered ws) (fun o ho => by
      obtain ⟨w, hw, rfl⟩ := mem_lineOrdered.mp ho
      exact hbytes w hw) (mem_of_mem_firstEntries hp)
    obtain ⟨w, hw, hwo⟩ := mem_lineOrdered.mp ho
    exact ⟨w, hw, a, b, hwo, ha⟩

theorem read_foldl_write {a : Nat} : ∀ (bs : List (Nat × Byte)) (m : List Host.Cell), (∀ p ∈ bs, p.1 ≠ a) →
    Memory.read (bs.foldl (fun m p => Memory.write m p.1 p.2) m) a = Memory.read m a
  | [], m, _ => rfl
  | p :: bs, m, h => by
    rw [List.foldl_cons, read_foldl_write bs _ fun q hq => h q (by simp [hq]), Memory.read_write, if_neg (h p (by simp)).symm]

theorem read_foldl_write_mem : ∀ (bs : List (Nat × Byte)) (m : List Host.Cell), (bs.map Prod.fst).Nodup → ∀ p ∈ bs,
    Memory.read (bs.foldl (fun m p => Memory.write m p.1 p.2) m) p.1 = p.2
  | [], m, _, p, hp => by cases hp
  | q :: bs, m, hnd, p, hp => by
    rw [List.map_cons, List.nodup_cons] at hnd
    rcases List.mem_cons.mp hp with rfl | hp
    · rw [List.foldl_cons, read_foldl_write bs _ fun q hq heq => hnd.1 ((show q.1 = p.1 from heq) ▸ List.mem_map_of_mem hq), Memory.read_write, if_pos rfl]
    · exact read_foldl_write_mem bs _ hnd.2 p hp

theorem pourCrib_spec (s : State) (k : Command) (launch : Nat) (bs : List (Nat × Byte)) (rest : List (Nat × List (Nat × Byte)))
    (hout : k.cribOut = (launch, bs) :: rest) (hnd : (bs.map Prod.fst).Nodup) :
    let y := (s.pourCrib k).col k.col
    let crib (x : Column) (a : Nat) := Memory.read (Tab.get {} x.cribs launch).bytes a
    (∀ p ∈ bs, crib y p.1 = p.2) ∧ ∀ a, (∀ p ∈ bs, p.1 ≠ a) → crib y a = crib (s.col k.col) a := by
  have hbytes : (Tab.get {} ((s.pourCrib k).col k.col).cribs launch).bytes =
      bs.foldl (fun m p => Memory.write m p.1 p.2) (Tab.get {} (s.col k.col).cribs launch).bytes := by
    simp [State.pourCrib, hout, Column.putCrib]
  dsimp only
  rw [hbytes]
  exact ⟨read_foldl_write_mem bs _ hnd, fun a ha => read_foldl_write bs _ ha⟩

/-! ## A write and the bytes before it -/

theorem overlay_congr {g g' : Nat → Byte} {a : Nat} (h : g a = g' a) (d : List (Nat × Byte)) : overlay g d a = overlay g' d a := by
  simp only [overlay, h]

/-- Element codes put into their bytes one after another. -/
def putCodes (f : Nat) (place : Nat → Nat) (get : Nat → Byte) (cs : List (Nat × Nat)) (d : List (Nat × Byte)) : List (Nat × Byte) :=
  cs.foldl (fun d c => (place c.2, BitVec.ofNat 8 (mxPut f c.2 (overlay get d (place c.2)).toNat c.1)) :: d) d

theorem putCodes_cons (f : Nat) (place : Nat → Nat) (get : Nat → Byte) (c : Nat × Nat) (cs : List (Nat × Nat)) (d : List (Nat × Byte)) :
    putCodes f place get (c :: cs) d =
      putCodes f place get cs ((place c.2, BitVec.ofNat 8 (mxPut f c.2 (overlay get d (place c.2)).toNat c.1)) :: d) := rfl

theorem putCodes_append {f : Nat} {place : Nat → Nat} {get g : Nat → Byte} {done : List (Nat × Byte)} :
    ∀ (cs : List (Nat × Nat)) (d : List (Nat × Byte)), (∀ c ∈ cs, overlay get done (place c.2) = g (place c.2)) →
      putCodes f place get cs (d ++ done) = putCodes f place g cs d ++ done
  | [], d, _ => rfl
  | c :: cs, d, h => by
    have hc : overlay get (d ++ done) (place c.2) = overlay g d (place c.2) := by
      rw [overlay_append]
      exact overlay_congr (h c (by simp)) d
    rw [putCodes_cons, putCodes_cons, hc, ← List.cons_append]
    exact putCodes_append cs _ fun c' hc' => h c' (by simp [hc'])

theorem mem_putCodes {f : Nat} {place : Nat → Nat} {get : Nat → Byte} {p : Nat × Byte} : ∀ (cs : List (Nat × Nat)) (d : List (Nat × Byte)),
    p ∈ putCodes f place get cs d → p ∈ d ∨ ∃ c ∈ cs, p.1 = place c.2
  | [], d, h => .inl h
  | c :: cs, d, h => by
    rcases mem_putCodes cs _ h with h | ⟨c', hc', hp⟩
    · rcases List.mem_cons.mp h with rfl | h
      · exact .inr ⟨c, by simp, rfl⟩
      · exact .inl h
    · exact .inr ⟨c', by simp [hc'], hp⟩

/-- Where an element of a block lies. -/
def blockPlace (f elems k : Nat) : Nat := elems + if f = 2 then k / 2 else k

theorem blockPlace_lt {f elems k : Nat} (hk : k < 32) : blockPlace f elems k < elems + 32 := by
  unfold blockPlace
  split <;> omega

/-- The values of a block with the written elements in it, the others as the store holds them. -/
def blockVals (get : Nat → Byte) (f elems scale : Nat) (own : BitVec 32) (elts : List (Nat × EltSrc)) : List FVal :=
  (List.range 32).map fun k =>
    match elts.reverse.find? fun e => e.1 == k with
    | some e => e.2.val
    | none => if own.getLsbD k = false then .fin false 0 0 else mxVal f (get scale).toNat (mxCode f k (get (blockPlace f elems k)).toNat)

/-- The codes of a requantized block that belong to elements of its tensor, with their positions. -/
def ownCodes (codes : List Nat) (own : BitVec 32) : List (Nat × Nat) := (codes.zip (List.range 32)).filter fun c => own.getLsbD c.2

theorem lt_of_mem_ownCodes {codes : List Nat} {own : BitVec 32} {c : Nat × Nat} (h : c ∈ ownCodes codes own) : c.2 < 32 :=
  List.mem_range.mp (List.of_mem_zip (List.mem_of_mem_filter h)).2

theorem apply_block (get : Nat → Byte) (done : List (Nat × Byte)) (f elems scale : Nat) (own : BitVec 32) (elts : List (Nat × EltSrc)) :
    (BayWrite.block f elems scale own elts).apply get done =
      putCodes f (blockPlace f elems) get (ownCodes (requantize f (blockVals (overlay get done) f elems scale own elts)).2 own)
        ((scale, BitVec.ofNat 8 (requantize f (blockVals (overlay get done) f elems scale own elts)).1) :: done) := rfl

theorem blockVals_congr {get g : Nat → Byte} {f elems scale : Nat} (own : BitVec 32) (elts : List (Nat × EltSrc)) (hscale : get scale = g scale)
    (hplace : ∀ k, k < 32 → get (blockPlace f elems k) = g (blockPlace f elems k)) :
    blockVals get f elems scale own elts = blockVals g f elems scale own elts := by
  refine List.map_congr_left fun k hk => ?_
  rw [hscale, hplace k (List.mem_range.mp hk)]

/-- A write reads what the bytes before it left, and puts its own bytes before them. -/
theorem apply_eq {w : BayWrite} (hw : w.inHbm) {get g : Nat → Byte} {done : List (Nat × Byte)} (h : ∀ a, a < 4294967296 → overlay get done a = g a) :
    w.apply get done = w.apply g [] ++ done := by
  cases w with
  | bytes pa b => rw [apply_bytes, apply_bytes, List.append_nil]
  | nibble pa hi x =>
    have hpa : overlay get done pa = g pa := h pa hw
    simp only [BayWrite.apply, hpa, overlay_nil, List.cons_append, List.nil_append]
  | block f elems scale own elts =>
    obtain ⟨helems, hscale⟩ := hw
    have hplace : ∀ k, k < 32 → overlay get done (blockPlace f elems k) = g (blockPlace f elems k) := fun k hk =>
      h _ ((blockPlace_lt hk).trans_le helems)
    rw [apply_block, apply_block, overlay_nil, blockVals_congr own elts (h scale hscale) hplace, ← List.singleton_append]
    exact putCodes_append _ _ fun c hc => hplace c.2 (lt_of_mem_ownCodes hc)

theorem lt_of_mem_apply {w : BayWrite} (hw : w.inHbm) {g : Nat → Byte} {p : Nat × Byte} (hp : p ∈ w.apply g []) : p.1 < 4294967296 := by
  cases w with
  | bytes pa b =>
    rw [apply_bytes, List.append_nil] at hp
    obtain ⟨i, hi, rfl⟩ := mem_byteEntries.mp hp
    exact (Nat.add_lt_add_left hi pa).trans_le hw
  | nibble pa hi x =>
    obtain rfl := List.mem_singleton.mp hp
    exact hw
  | block f elems scale own elts =>
    obtain ⟨helems, hscale⟩ := hw
    rw [apply_block] at hp
    rcases mem_putCodes _ _ hp with hp | ⟨c, hc, hp⟩
    · obtain rfl := List.mem_singleton.mp hp
      exact hscale
    · rw [hp]
      exact (blockPlace_lt (lt_of_mem_ownCodes hc)).trans_le helems

/-- The bytes of some writes and of one more after them. -/
theorem applyAll_snoc (get : Nat → Byte) (ops : List BayWrite) {w : BayWrite} (hw : w.inHbm) :
    applyAll get (ops ++ [w]) = w.apply (overlay get (applyAll get ops)) [] ++ applyAll get ops := by
  rw [applyAll_append_singleton]
  exact apply_eq hw fun a _ => rfl

theorem applyAll_congr {get g : Nat → Byte} (h : ∀ a, a < 4294967296 → get a = g a) (ops : List BayWrite) (hops : ∀ o ∈ ops, o.inHbm) :
    applyAll get ops = applyAll g ops := by
  induction ops using List.reverseRecOn with
  | nil => rfl
  | append_singleton ops w ih =>
    rw [applyAll_append_singleton, applyAll_snoc g ops (hops w (by simp)), ih fun o ho => hops o (by simp [ho])]
    exact apply_eq (hops w (by simp)) fun a ha => overlay_congr (h a ha) _

theorem lt_of_mem_applyAll (get : Nat → Byte) (ops : List BayWrite) (hops : ∀ o ∈ ops, o.inHbm) : ∀ p ∈ applyAll get ops, p.1 < 4294967296 := by
  induction ops using List.reverseRecOn with
  | nil => intro p hp; cases hp
  | append_singleton ops w ih =>
    intro p hp
    rw [applyAll_snoc get ops (hops w (by simp))] at hp
    rcases List.mem_append.mp hp with hp | hp
    · exact lt_of_mem_apply (hops w (by simp)) hp
    · exact ih (fun o ho => hops o (by simp [ho])) p hp

/-! ## Bytes written at a bay -/

theorem mem_insertBy {α : Type} {before : α → α → Bool} {x y : α} (l : List α) : y ∈ insertBy before x l ↔ y = x ∨ y ∈ l := by
  induction l with
  | nil => simp [insertBy]
  | cons z l ih =>
    rw [insertBy]
    split
    · exact List.mem_cons
    · rw [List.mem_cons, ih, List.mem_cons]
      tauto

theorem mem_sortBy {α : Type} (before : α → α → Bool) {y : α} (l : List α) : y ∈ sortBy before l ↔ y ∈ l := by
  induction l using List.reverseRecOn with
  | nil => rfl
  | append_singleton l x ih =>
    have hsort : sortBy before (l ++ [x]) = insertBy before x (sortBy before l) := by simp [sortBy]
    rw [hsort, mem_insertBy, ih, List.mem_append, List.mem_singleton, or_comm]

theorem mem_linesOf {pas : List Nat} {line : Nat} : line ∈ linesOf pas ↔ ∃ p ∈ pas, lineOf p = line := by
  rw [linesOf, mem_sortBy]
  induction pas using List.reverseRecOn with
  | nil => simp
  | append_singleton pas p ih =>
    rw [List.foldl_append, List.foldl_cons, List.foldl_nil]
    simp only [List.mem_append, List.mem_singleton, or_and_right, exists_or, exists_eq_left]
    rw [← ih]
    split
    next hin =>
      rw [or_iff_left_of_imp]
      rintro rfl
      exact List.contains_iff_mem.mp hin
    · rw [List.mem_append, List.mem_singleton, @eq_comm _ line]

section
variable {x y : Column} {free : Nat}

theorem uncached_congr (hl1 : y.l1 = x.l1) (hreqs : y.bay.reqs = x.bay.reqs) {line : Nat} (h : x.uncached line) : y.uncached line := by
  simpa only [Column.uncached, Column.l1Find, Column.l1Line, Column.puts, hl1, hreqs] using h

/-- There is nothing to recall of a line that no cache holds and no write-back is under way for. -/
theorem recallU_of_uncached {line : Nat} (h : x.uncached line) : x.recallU free line = x := by
  have hfold : ∀ cs : List Nat, (∀ c ∈ cs, c < 9) → x.recallFrom free line cs = x := by
    intro cs
    induction cs with
    | nil => intro _; rfl
    | cons c cs ih =>
      intro hcs
      obtain ⟨hfind, hputs⟩ := h c (hcs c (by simp))
      have hrest := ih fun c' hc' => hcs c' (by simp [hc'])
      simp only [Column.recallFrom] at hrest ⊢
      simpa [hfind, hputs] using hrest
  exact hfold (List.range 9) fun c hc => List.mem_range.mp hc

@[simp] theorem Bay.evictWay_reqs (b : Bay) (sl key : Nat) : (b.evictWay sl key).reqs = b.reqs := by
  unfold Bay.evictWay
  dsimp only
  split
  · split <;> rfl
  · rfl

@[simp] theorem Bay.touch_reqs (b : Bay) (region line : Nat) (sectors : BitVec 4) (dirty : Bool) (ep : Nat) :
    (b.touch region line sectors dirty ep).reqs = b.reqs := by
  unfold Bay.touch
  dsimp only
  split
  · rfl
  · split
    · rfl
    · split
      · split <;> rfl
      · exact Bay.evictWay_reqs _ _ _

theorem byteAt_foldl_putByte (a : Nat) : ∀ (bs : List (Nat × Byte)) (x : Column), (bs.map Prod.fst).Nodup →
    (bs.foldl (fun x p => x.putByte p.1 p.2) x).byteAt free a = overlay (x.byteAt free) bs a
  | [], x, _ => rfl
  | p :: bs, x, hnd => by
    rw [List.map_cons, List.nodup_cons] at hnd
    rw [List.foldl_cons, byteAt_foldl_putByte a bs _ hnd.2, overlay_cons]
    by_cases hp : p.1 = a
    · subst hp
      rw [if_pos rfl, overlay_of_not_mem _ fun q hq heq => hnd.1 (List.mem_map.mpr ⟨q, hq, heq⟩), Column.byteAt_putByte, if_pos rfl]
    · rw [if_neg hp]
      exact overlay_congr (by rw [Column.byteAt_putByte, if_neg (Ne.symm hp)]) bs

theorem foldl_putByte_keeps : ∀ (bs : List (Nat × Byte)) (x : Column),
    (bs.foldl (fun x p => x.putByte p.1 p.2) x).l1 = x.l1 ∧ (bs.foldl (fun x p => x.putByte p.1 p.2) x).bay = x.bay
  | [], _ => ⟨rfl, rfl⟩
  | p :: bs, x => foldl_putByte_keeps bs (x.putByte p.1 p.2)

/-- The bytes of one line of HBM written at a bay where there is nothing to recall of it. -/
def storeHbmLine (region ep : Nat) (bs : List (Nat × Byte)) (x : Column) (line : Nat) : Column :=
  let mine := bs.filter fun p => decide (lineOf p.1 = line)
  let mask := mine.foldl (fun (m : BitVec 128) p => m ||| (1#128 <<< (p.1 % 128))) 0#128
  let sectors := mine.foldl (fun (m : BitVec 4) p => m ||| sectorsOf (p.1 % 128) 1) 0#4
  ((mine.foldl (fun x p => x.putByte p.1 p.2) x).clearMarks line mask).updBay fun b => b.touch region line sectors true ep

theorem storeHbmLine_keeps (region ep : Nat) (bs : List (Nat × Byte)) (x : Column) (line : Nat) :
    (storeHbmLine region ep bs x line).l1 = x.l1 ∧ (storeHbmLine region ep bs x line).bay.reqs = x.bay.reqs := by
  obtain ⟨hl1, hbay⟩ := foldl_putByte_keeps (bs.filter fun p => decide (lineOf p.1 = line)) x
  exact ⟨hl1, (Bay.touch_reqs _ _ _ _ _ _).trans (congrArg Bay.reqs hbay)⟩

theorem byteAt_storeHbmLine {region ep line : Nat} {bs : List (Nat × Byte)} (hnd : (bs.map Prod.fst).Nodup) (a : Nat) :
    (storeHbmLine region ep bs x line).byteAt free a = overlay (x.byteAt free) (bs.filter fun p => decide (lineOf p.1 = line)) a :=
  byteAt_foldl_putByte a _ x (hnd.sublist (List.filter_sublist.map _))

theorem overlay_filter_line {get : Nat → Byte} {bs : List (Nat × Byte)} {line a : Nat} :
    overlay get (bs.filter fun p => decide (lineOf p.1 = line)) a = if lineOf a = line then overlay get bs a else get a := by
  split
  next hline =>
    have hfind : (bs.filter fun p => decide (lineOf p.1 = line)).find? (fun p => p.1 == a) = bs.find? fun p => p.1 == a := by
      rw [List.find?_filter]
      refine congrArg (fun f => List.find? f bs) (funext fun p => ?_)
      by_cases hp : p.1 = a <;> simp [hp, hline]
    simp only [overlay, hfind]
  next hline =>
    refine overlay_of_not_mem get fun p hp heq => hline ?_
    rw [← heq]
    exact of_decide_eq_true (List.mem_filter.mp hp).2

theorem byteAt_foldl_storeHbmLine {region ep : Nat} {bs : List (Nat × Byte)} (hnd : (bs.map Prod.fst).Nodup) (a : Nat) (lines : List Nat) :
    (lines.foldl (storeHbmLine region ep bs) x).byteAt free a = if lineOf a ∈ lines then overlay (x.byteAt free) bs a else x.byteAt free a := by
  induction lines using List.reverseRecOn with
  | nil => simp
  | append_singleton lines line ih =>
    rw [List.foldl_append, List.foldl_cons, List.foldl_nil, byteAt_storeHbmLine hnd, overlay_filter_line]
    by_cases hline : lineOf a = line
    · rw [if_pos hline, if_pos (by simp [hline])]
      simp only [overlay] at ih ⊢
      split
      next hfind => rfl
      next hfind => simpa [hfind] using ih
    · rw [if_neg hline, ih]
      simp [hline]

theorem foldl_eq_of_inv {α β : Type} (P : β → Prop) {step step' : β → α → β} : ∀ (l : List α) (x : β),
    (∀ x, P x → ∀ a ∈ l, step x a = step' x a ∧ P (step' x a)) → P x → l.foldl step x = l.foldl step' x ∧ P (l.foldl step' x)
  | [], _, _, hx => ⟨rfl, hx⟩
  | a :: l, x, h, hx => by
    obtain ⟨heq, hp⟩ := h x hx a (by simp)
    rw [List.foldl_cons, List.foldl_cons, heq]
    exact foldl_eq_of_inv P l _ (fun y hy b hb => h y hy b (by simp [hb])) hp

theorem kindOf_of_hbm (b : Bay) (region : Nat) {pa : Nat} (h : pa < 4294967296) : b.kindOf region pa = .hbm := by
  simp [Bay.kindOf, h]

theorem bayStore_of_hbm (free region ep : Nat) {bs : List (Nat × Byte)} (hun : ∀ l, x.uncached l) (hhbm : ∀ p ∈ bs, p.1 < 4294967296) :
    x.bayStore free region ep bs = (linesOf (bs.map Prod.fst)).foldl (storeHbmLine region ep bs) x ∧
      ∀ l, ((linesOf (bs.map Prod.fst)).foldl (storeHbmLine region ep bs) x).uncached l := by
  refine foldl_eq_of_inv (fun x : Column => ∀ l, x.uncached l) (linesOf (bs.map Prod.fst)) x (fun y hy line hline => ?_) hun
  obtain ⟨hl1, hreqs⟩ := storeHbmLine_keeps region ep bs y line
  refine ⟨?_, fun l => uncached_congr hl1 hreqs (hy l)⟩
  obtain ⟨a, ha, rfl⟩ := mem_linesOf.mp hline
  obtain ⟨p, hp, rfl⟩ := List.mem_map.mp ha
  have hlow : 128 * lineOf p.1 < 4294967296 := (Nat.mul_div_le p.1 128).trans_lt (hhbm p hp)
  dsimp only
  rw [recallU_of_uncached (hy _), kindOf_of_hbm y.bay region hlow]
  rfl

theorem byteAt_bayStore (region ep : Nat) {bs : List (Nat × Byte)} (hun : ∀ l, x.uncached l) (hhbm : ∀ p ∈ bs, p.1 < 4294967296)
    (hnd : (bs.map Prod.fst).Nodup) (a : Nat) : (x.bayStore free region ep bs).byteAt free a = overlay (x.byteAt free) bs a := by
  rw [(bayStore_of_hbm free region ep hun hhbm).1, byteAt_foldl_storeHbmLine hnd]
  split
  · rfl
  next hline =>
    refine (overlay_of_not_mem _ fun p hp heq => hline ?_).symm
    exact mem_linesOf.mpr ⟨a, List.mem_map.mpr ⟨p, hp, heq⟩, rfl⟩

theorem bayByte_of_hbm (region : Nat) {pa : Nat} (h : pa < 4294967296) : x.bayByte free region pa = x.byteAt free pa := by
  rw [Column.bayByte, kindOf_of_hbm x.bay region h]

theorem writtenBytes_bayByte (region : Nat) {ops : List BayWrite} (hops : ∀ o ∈ ops, o.inHbm) :
    writtenBytes (x.bayByte free region) ops = firstEntries (applyAll (x.byteAt free) ops) := by
  rw [writtenBytes_eq, applyAll_congr (fun a ha => bayByte_of_hbm region ha) ops hops]

/-- Engine writes into HBM where no line is cached leave the bytes that they give in their order, and still no line cached. -/
theorem byteAt_bayWrites (region ep : Nat) {ops : List BayWrite} (hun : ∀ l, x.uncached l) (hops : ∀ o ∈ ops, o.inHbm) (a : Nat) :
    (x.bayWrites free region ep ops).byteAt free a = overlay (x.byteAt free) (applyAll (x.byteAt free) ops) a := by
  rw [Column.bayWrites, writtenBytes_bayByte region hops, byteAt_bayStore region ep hun
    (fun p hp => lt_of_mem_applyAll _ ops hops p (mem_of_mem_firstEntries hp)) (nodup_firstEntries _), overlay_firstEntries]

theorem uncached_bayWrites (region ep : Nat) {ops : List BayWrite} (hun : ∀ l, x.uncached l) (hops : ∀ o ∈ ops, o.inHbm) (l : Nat) :
    (x.bayWrites free region ep ops).uncached l := by
  rw [Column.bayWrites, writtenBytes_bayByte region hops]
  obtain ⟨heq, hkeep⟩ := bayStore_of_hbm free region ep hun fun p hp => lt_of_mem_applyAll _ ops hops p (mem_of_mem_firstEntries hp)
  rw [heq]
  exact hkeep l

theorem byteAt_bayWrites_one (region ep : Nat) {w : BayWrite} (hun : ∀ l, x.uncached l) (hw : w.inHbm) (a : Nat) :
    (x.bayWrites free region ep [w]).byteAt free a = overlay (x.byteAt free) (w.apply (x.byteAt free) []) a :=
  byteAt_bayWrites region ep hun (by simpa using hw) a

/-- Writes are performed one after another. -/
theorem byteAt_bayWrites_snoc (region ep : Nat) {ops : List BayWrite} {w : BayWrite} (hun : ∀ l, x.uncached l)
    (hops : ∀ o ∈ w :: ops, o.inHbm) (a : Nat) :
    (x.bayWrites free region ep (ops ++ [w])).byteAt free a = ((x.bayWrites free region ep ops).bayWrites free region ep [w]).byteAt free a := by
  have hw : w.inHbm := hops w (by simp)
  have hrest : ∀ o ∈ ops, o.inHbm := fun o ho => hops o (by simp [ho])
  have hall : ∀ o ∈ ops ++ [w], o.inHbm := fun o ho => hops o (by simpa [or_comm] using ho)
  have hbyte : (x.bayWrites free region ep ops).byteAt free = overlay (x.byteAt free) (applyAll (x.byteAt free) ops) :=
    funext (byteAt_bayWrites region ep hun hrest)
  rw [byteAt_bayWrites region ep hun hall, byteAt_bayWrites_one region ep (uncached_bayWrites region ep hun hrest) hw, applyAll_snoc _ ops hw,
    overlay_append, hbyte]

end

/-! ## The codes of block formats (R101, R210, R211, R219) -/

/-- A nonzero magnitude that is not above another has no higher exponent. -/
theorem top_le_of_cmpMag {m1 m2 : Nat} {e1 e2 : Int} (h1 : m1 ≠ 0) (h2 : m2 ≠ 0) (h : cmpMag m1 e1 m2 e2 ≠ .gt) :
    (m1.log2 : Int) + e1 ≤ m2.log2 + e2 := by
  by_contra hlt
  refine h ?_
  simp only [cmpMag, if_neg h1, if_neg h2]
  rw [if_neg (by omega), if_pos (by omega)]

/-- A mantissa brought to the exponent of its format keeps at most one bit above the fraction. -/
theorem mantissa_lt (fb m : Nat) (e q : Int) (hq : (m.log2 : Int) + e - fb ≤ q) :
    (if q ≤ e then m <<< (e - q).toNat else m >>> (q - e).toNat) < 2 ^ (fb + 1) := by
  have hm : m < 2 ^ (m.log2 + 1) := Nat.lt_log2_self
  split
  · rw [Nat.shiftLeft_eq]
    calc m * 2 ^ (e - q).toNat < 2 ^ (m.log2 + 1) * 2 ^ (e - q).toNat := Nat.mul_lt_mul_of_pos_right hm (Nat.two_pow_pos _)
      _ = 2 ^ (m.log2 + 1 + (e - q).toNat) := (Nat.pow_add _ _ _).symm
      _ ≤ 2 ^ (fb + 1) := Nat.pow_le_pow_right (by decide) (by omega)
  · rw [Nat.shiftRight_eq_div_pow, Nat.div_lt_iff_lt_mul (Nat.two_pow_pos _), ← Nat.pow_add]
    exact hm.trans_le (Nat.pow_le_pow_right (by decide) (by omega))

/-- The code of a value whose exponent is at most the format's highest fits in the format's bits. -/
theorem encode_fin_lt {f : FpFmt} {neg : Bool} {m : Nat} {e : Int} (heb : 1 ≤ f.eb)
    (htop : m ≠ 0 → (m.log2 : Int) + e + f.bias ≤ 2 ^ f.eb - 1) : f.encode (.fin neg m e) < 2 ^ (f.eb + f.fb + 1) := by
  have hpow : 2 ^ (f.eb + f.fb + 1) = 2 ^ (f.eb + f.fb) + 2 ^ (f.eb + f.fb) := by rw [Nat.pow_succ]; omega
  have hsg : (if neg then 2 ^ (f.eb + f.fb) else 0) ≤ 2 ^ (f.eb + f.fb) := by
    split
    · exact Nat.le_refl _
    · exact Nat.zero_le _
  have hfrac : 2 ^ f.fb ≤ 2 ^ (f.eb + f.fb) := Nat.pow_le_pow_right (by decide) (by omega)
  have hpos : 0 < 2 ^ (f.eb + f.fb) := Nat.two_pow_pos _
  simp only [FpFmt.encode]
  generalize (if neg then 2 ^ (f.eb + f.fb) else 0) = sg at hsg ⊢
  split
  · omega
  next hm =>
    have htop := htop hm
    have hlt := mantissa_lt f.fb m e (max ((m.log2 : Int) + e) (1 - (f.bias : Int)) - f.fb) (by omega)
    generalize (if _ ≤ e then m <<< _ else m >>> _) = n at hlt ⊢
    split
    · omega
    · have hcode : (max ((m.log2 : Int) + e) (1 - (f.bias : Int)) - f.fb + f.fb + f.bias).toNat ≤ 2 ^ f.eb - 1 := by
        have h2 : (1 : Int) ≤ 2 ^ f.eb - 1 := by
          have : 2 ^ 1 ≤ 2 ^ f.eb := Nat.pow_le_pow_right (by decide) heb
          zify at this
          omega
        have hnat : ((2 ^ f.eb - 1 : Nat) : Int) = 2 ^ f.eb - 1 := by
          rw [Nat.cast_sub (Nat.one_le_two_pow)]
          simp
        omega
      have hmul := Nat.mul_le_mul_right (2 ^ f.fb) hcode
      rw [Nat.sub_mul, Nat.one_mul, ← Nat.pow_add] at hmul
      rw [Nat.pow_succ] at hlt
      omega

/-- A saturated value's code fits in the format's bits. -/
theorem encode_sat_lt (f : FpFmt) (heb : 1 ≤ f.eb) (hcanon : f.canon < 2 ^ (f.eb + f.fb + 1)) (hmax : f.maxFin.1 ≠ 0)
    (htop : (f.maxFin.1.log2 : Int) + f.maxFin.2 + f.bias ≤ 2 ^ f.eb - 1) (x : FVal) : f.encode (f.sat x) < 2 ^ (f.eb + f.fb + 1) := by
  cases x with
  | nan => exact hcanon
  | inf n => exact encode_fin_lt heb fun _ => htop
  | fin n m e =>
    rw [FpFmt.sat]
    split
    · exact encode_fin_lt heb fun _ => htop
    next hle =>
      refine encode_fin_lt heb fun hm => ?_
      have := top_le_of_cmpMag hm hmax hle
      omega

theorem ts8Canon_lt {t : Int} {p : Nat × Nat} (h : ts8Canon t = some p) : p.1 < 256 := by
  have hs : (if t < 0 then 1 else 0) ≤ 1 := by split <;> omega
  have hpair {q : Nat × Nat} (hq : q ∈ [0, 1, 2, 3, 4, 5, 6].flatMap fun e1 => [0, 1, 2, 3, 4, 5, 6].map fun e2 => (e1, e2)) : q.1 ≤ 6 ∧ q.2 ≤ 6 := by
    revert q
    decide
  have hone {e : Nat} (he : e ∈ [0, 1, 2, 3, 4, 5, 6]) : e ≤ 6 := by
    revert e
    decide
  unfold ts8Canon at h
  dsimp only at h
  generalize (if t < 0 then 1 else 0) = s at hs h
  split at h
  · cases h
    decide
  · split at h
    next e he =>
      have := hone (List.mem_of_find?_eq_some he)
      cases h
      omega
    · split at h
      next q hq =>
        have := hpair (List.mem_of_find?_eq_some hq)
        cases h
        omega
      · split at h
        next q hq =>
          have := hpair (List.mem_of_find?_eq_some hq)
          cases h
          omega
        · cases h

theorem ts8Pack_lt (rm : Rm) (x : FVal) : ts8Pack rm x < 256 := by
  have hcanon (t : Int) : ((ts8Canon t).getD (0x77, 0)).1 < 256 := by
    cases h : ts8Canon t with
    | none => decide
    | some p => exact ts8Canon_lt h
  cases x with
  | nan => exact (by decide : 0x77 < 256)
  | inf n =>
    cases n
    · exact (by decide : 0x00 < 256)
    · exact (by decide : 0x88 < 256)
  | fin neg m e =>
    unfold ts8Pack
    dsimp only
    split
    · cases neg <;> decide
    · exact hcanon _

/-- How many codes a block format has. -/
def codeCount (f : Nat) : Nat := if f = 2 then 16 else 256

theorem mxEncode_lt (f : Nat) (x : FVal) : mxEncode f x < codeCount f := by
  unfold mxEncode codeCount
  split
  next hf =>
    subst hf
    exact encode_sat_lt e4m3 (by decide) (by decide) (by decide) (by decide) _
  · split
    next hf =>
      subst hf
      exact encode_sat_lt e5m2 (by decide) (by decide) (by decide) (by decide) _
    · split
      · exact encode_sat_lt e2m1 (by decide) (by decide) (by decide) (by decide) _
      · exact ts8Pack_lt _ _

theorem mxZero_lt (f : Nat) : mxZero f < codeCount f := by
  unfold mxZero codeCount
  split
  next hf => subst hf; decide
  · split <;> decide

/-! ## The scale of a block (R115, R219) -/

theorem exact_abs_fin (n : Bool) (m : Nat) (e : Int) : (FVal.fin n m e).exact.abs = (m : Rat) * 2 ^ e := by
  have hnonneg : (0 : Rat) ≤ (m : Rat) * 2 ^ e := mul_nonneg (Nat.cast_nonneg m) (zpow_nonneg (by norm_num) e)
  unfold Rat.abs
  cases n with
  | false => simp [FVal.exact, hnonneg]
  | true =>
    simp only [FVal.exact, if_true]
    split <;> linarith

theorem exact_eq_zero_iff (n : Bool) (m : Nat) (e : Int) : (FVal.fin n m e).exact = 0 ↔ m = 0 := by
  have hpow : (2 : Rat) ^ e ≠ 0 := zpow_ne_zero e (by norm_num)
  cases n <;> simp [FVal.exact, hpow]

theorem two_zpow_floorLog2 (m : Nat) (e : Int) : (2 : Rat) ^ floorLog2 m e = 2 ^ m.log2 * 2 ^ e := by
  rw [floorLog2, zpow_add₀ (by norm_num), zpow_natCast]

theorem floorLog2_le_exact {n : Bool} {m : Nat} {e : Int} (hm : m ≠ 0) : (2 : Rat) ^ floorLog2 m e ≤ (FVal.fin n m e).exact.abs := by
  rw [exact_abs_fin, two_zpow_floorLog2]
  refine mul_le_mul_of_nonneg_right ?_ (zpow_nonneg (by norm_num) e)
  exact_mod_cast Nat.log2_self_le hm

theorem exact_lt_floorLog2 (n : Bool) (m : Nat) (e : Int) : (FVal.fin n m e).exact.abs < (2 : Rat) ^ (floorLog2 m e + 1) := by
  have hpow : (2 : Rat) ^ (floorLog2 m e + 1) = 2 ^ (m.log2 + 1) * 2 ^ e := by
    rw [zpow_add₀ (by norm_num), two_zpow_floorLog2, pow_succ]
    ring
  rw [exact_abs_fin, hpow]
  refine mul_lt_mul_of_pos_right ?_ (zpow_pos (by norm_num) e)
  exact_mod_cast Nat.lt_log2_self

/-- The top exponent of some values: that of a nonzero one, and no other's is higher. -/
def isTopExp (xs : List FVal) (t : Int) : Prop :=
  (∃ n m e, .fin n m e ∈ xs ∧ m ≠ 0 ∧ floorLog2 m e = t) ∧ ∀ n m e, .fin n m e ∈ xs → m ≠ 0 → floorLog2 m e ≤ t

theorem topExp_spec (xs : List FVal) : (topExp xs = none ∧ ∀ n m e, .fin n m e ∈ xs → m = 0) ∨ ∃ t, topExp xs = some t ∧ isTopExp xs t := by
  induction xs with
  | nil => exact .inl ⟨rfl, by simp⟩
  | cons x xs ih =>
    have hskip (hx : ∀ n m e, x = .fin n m e → m = 0) (htop : topExp (x :: xs) = topExp xs) :
        (topExp (x :: xs) = none ∧ ∀ n m e, .fin n m e ∈ x :: xs → m = 0) ∨ ∃ t, topExp (x :: xs) = some t ∧ isTopExp (x :: xs) t := by
      rw [htop]
      rcases ih with ⟨hnone, hzero⟩ | ⟨t, ht, ⟨n, m, e, hmem, hm, hfl⟩, hmax⟩
      · refine .inl ⟨hnone, fun n m e h => ?_⟩
        rcases List.mem_cons.mp h with h | h
        · exact hx n m e h.symm
        · exact hzero n m e h
      · refine .inr ⟨t, ht, ⟨n, m, e, List.mem_cons_of_mem _ hmem, hm, hfl⟩, fun n m e h hm => ?_⟩
        rcases List.mem_cons.mp h with h | h
        · exact absurd (hx n m e h.symm) hm
        · exact hmax n m e h hm
    cases x with
    | nan => exact hskip (by simp) rfl
    | inf n => exact hskip (by simp) rfl
    | fin n m e =>
      by_cases hm : m = 0
      · exact hskip (by simp [hm]) (by simp [topExp, hm])
      · refine .inr ?_
        rcases ih with ⟨hnone, hzero⟩ | ⟨t, ht, ⟨n', m', e', hmem, hm', hfl⟩, hmax⟩
        · refine ⟨floorLog2 m e, by simp [topExp, hm, hnone], ⟨n, m, e, by simp, hm, rfl⟩, fun n' m' e' h hm' => ?_⟩
          rcases List.mem_cons.mp h with h | h
          · cases h
            exact le_refl _
          · exact absurd (hzero n' m' e' h) hm'
        · refine ⟨max t (floorLog2 m e), by simp [topExp, hm, ht], ?_, fun n' m' e' h hm' => ?_⟩
          · rcases le_total t (floorLog2 m e) with hle | hle
            · exact ⟨n, m, e, by simp, hm, (max_eq_right hle).symm⟩
            · exact ⟨n', m', e', by simp [hmem], hm', by rw [hfl, max_eq_left hle]⟩
          · rcases List.mem_cons.mp h with h | h
            · cases h
              exact le_max_right _ _
            · exact (hmax n' m' e' h hm').trans (le_max_left _ _)

theorem blockScale_of_special (f : Nat) {xs : List FVal} (h : ∃ x ∈ xs, x.special = true) : blockScale f xs = 255 := by
  simp only [blockScale, if_pos (List.any_eq_true.mpr h)]

section
variable (f : Nat) {xs : List FVal} (h : ∀ x ∈ xs, x.special = false)
include h

theorem not_any_special : ¬ xs.any FVal.special = true := by
  rw [List.any_eq_true]
  rintro ⟨x, hx, hs⟩
  rw [h x hx] at hs
  cases hs

theorem blockScale_le : blockScale f xs ≤ 254 := by
  rw [blockScale, if_neg (not_any_special h)]
  split
  · omega
  · dsimp only
    split
    · omega
    · split <;> omega

theorem blockScale_of_zero (hzero : ∀ x ∈ xs, x.exact = 0) : blockScale f xs = 0 := by
  rw [blockScale, if_neg (not_any_special h)]
  rcases topExp_spec xs with ⟨hnone, _⟩ | ⟨t, _, ⟨n, m, e, hmem, hm, _⟩, _⟩
  · rw [hnone]
  · exact absurd ((exact_eq_zero_iff n m e).mp (hzero _ hmem)) hm

theorem fin_of_not_special {x : FVal} (hx : x ∈ xs) : ∃ n m e, x = .fin n m e := by
  have hs := h x hx
  cases x with
  | nan => cases hs
  | inf n => cases hs
  | fin n m e => exact ⟨n, m, e, rfl⟩

theorem blockScale_of_top {e : Int} (hsome : ∃ x ∈ xs, (2 : Rat) ^ e ≤ x.exact.abs) (hall : ∀ x ∈ xs, x.exact.abs < (2 : Rat) ^ (e + 1)) :
    (blockScale f xs : Int) = max 0 (min 254 (e + 127 - emaxOf f)) := by
  obtain ⟨x, hx, hlow⟩ := hsome
  obtain ⟨n, m, ex, rfl⟩ := fin_of_not_special h hx
  have hm : m ≠ 0 := by
    rintro rfl
    have hpos : (0 : Rat) < 2 ^ e := zpow_pos (by norm_num) e
    rw [exact_abs_fin, Nat.cast_zero, zero_mul] at hlow
    linarith
  have hlt (a b : Int) (hab : (2 : Rat) ^ a < 2 ^ b) : a < b := (zpow_lt_zpow_iff_right₀ (by norm_num)).mp hab
  rw [blockScale, if_neg (not_any_special h)]
  rcases topExp_spec xs with ⟨_, hzero⟩ | ⟨t, ht, ⟨n', m', e', hmem, hm', hfl⟩, hmax⟩
  · exact absurd (hzero n m ex hx) hm
  · have hle : e ≤ t := by
      have := hlt e _ (hlow.trans_lt (exact_lt_floorLog2 n m ex))
      have := hmax n m ex hx hm
      omega
    have hge : t < e + 1 := by
      rw [← hfl]
      exact hlt _ _ ((floorLog2_le_exact hm').trans_lt (hall _ hmem))
    obtain rfl : t = e := by omega
    rw [ht]
    dsimp only
    split
    · omega
    · split <;> omega

end

/-- A requantized block has the scale and the codes that the values call for, in the statement's words (R219). -/
theorem requantizes_of_codes {f s : Nat} {own : Nat → Prop} {new : Nat → FVal} {code : Nat → Nat}
    (hs : s = (requantize f ((List.range 32).map new)).1)
    (hcode : ∀ k, k < 32 → own k → code k = (requantize f ((List.range 32).map new)).2.getD k 0) : requantizes f own new s code := by
  have hmem (p : FVal → Prop) : (∃ x ∈ (List.range 32).map new, p x) ↔ ∃ k, k < 32 ∧ p (new k) := by simp
  have hall (p : FVal → Prop) : (∀ x ∈ (List.range 32).map new, p x) ↔ ∀ k, k < 32 → p (new k) := by simp
  have hfst : (requantize f ((List.range 32).map new)).1 = blockScale f ((List.range 32).map new) := by
    simp only [requantize]
    split <;> rfl
  rw [hfst] at hs
  refine ⟨fun hspec => ?_, fun hfin => ?_⟩
  · have h255 := blockScale_of_special f ((hmem fun x => x.special = true).mpr hspec)
    refine ⟨hs.trans h255, fun k hk hown => ?_⟩
    rw [hcode k hk hown]
    simp [requantize, h255, hk, mxZero]
  · have hfin := (hall fun x => x.special = false).mpr hfin
    have hle := blockScale_le f hfin
    refine ⟨fun k hk hown => ?_, fun hzero => ?_, fun e hsome hbound => ?_⟩
    · rw [hcode k hk hown, hs]
      simp only [requantize, if_neg (show blockScale f ((List.range 32).map new) ≠ 0xFF by omega)]
      simp only [List.map_map, List.getD_eq_getElem?_getD, List.getElem?_map, List.getElem?_range hk, Option.map_some, Option.getD_some]
      rfl
    · rw [hs]
      exact blockScale_of_zero f hfin ((hall fun x => x.exact = 0).mpr hzero)
    · rw [hs]
      exact blockScale_of_top f hfin ((hmem fun x => (2 : Rat) ^ e ≤ x.exact.abs).mpr hsome)
        ((hall fun x => x.exact.abs < (2 : Rat) ^ (e + 1)).mpr hbound)

theorem requantize_codes_lt (f : Nat) (xs : List FVal) : ∀ c ∈ (requantize f xs).2, c < codeCount f := by
  simp only [requantize]
  split
  · simp [mxZero_lt]
  · simp [mxEncode_lt]

theorem requantize_length (f : Nat) (xs : List FVal) : (requantize f xs).2.length = xs.length := by
  simp only [requantize]
  split <;> simp

theorem requantize_scale_le (f : Nat) (xs : List FVal) : (requantize f xs).1 ≤ 255 := by
  have hfst : (requantize f xs).1 = blockScale f xs := by
    simp only [requantize]
    split <;> rfl
  rw [hfst]
  by_cases h : ∃ x ∈ xs, x.special = true
  · exact (blockScale_of_special f h).le
  · have hfin : ∀ x ∈ xs, x.special = false := by simpa using h
    exact (blockScale_le f hfin).trans (by decide)

/-! ## A block's codes in its bytes (R213, R219) -/

theorem codeIn_mxPut_same (f k : Nat) (old : Byte) {c : Nat} (hc : c < codeCount f) : codeIn f k (BitVec.ofNat 8 (mxPut f k old.toNat c)).toNat = c := by
  have hold := old.isLt
  unfold codeCount at hc
  unfold codeIn mxPut
  rw [BitVec.toNat_ofNat]
  by_cases hf : f = 2
  · simp only [if_pos hf] at hc ⊢
    obtain hk | hk : k % 2 = 0 ∨ k % 2 = 1 := by omega
    · simp only [hk, if_true, pow_zero]
      omega
    · simp only [hk, if_neg (show ¬ 1 = 0 by decide), pow_one]
      omega
  · simp only [if_neg hf] at hc ⊢
    omega

theorem codeIn_mxPut_other {k k' : Nat} (old : Byte) (c : Nat) (hk : k % 2 ≠ k' % 2) :
    codeIn 2 k (BitVec.ofNat 8 (mxPut 2 k' old.toNat c)).toNat = codeIn 2 k old.toNat := by
  have hold := old.isLt
  simp only [codeIn, mxPut, if_true, BitVec.toNat_ofNat]
  obtain ⟨h, h'⟩ | ⟨h, h'⟩ : (k % 2 = 0 ∧ k' % 2 = 1) ∨ (k % 2 = 1 ∧ k' % 2 = 0) := by omega
  · simp only [h, h', if_neg (show ¬ 1 = 0 by decide), pow_zero]
    omega
  · simp only [h, h', if_true, pow_one]
    omega

/-- Only the two halves of a byte of MXFP4 share a place. -/
theorem blockPlace_eq {f elems k k' : Nat} (h : blockPlace f elems k = blockPlace f elems k') (hne : k ≠ k') : f = 2 ∧ k % 2 ≠ k' % 2 := by
  unfold blockPlace at h
  split at h
  next hf => exact ⟨hf, by omega⟩
  · omega

section
variable {f elems : Nat} {get : Nat → Byte}

theorem putCodes_append_singleton (cs : List (Nat × Nat)) (c : Nat × Nat) (d : List (Nat × Byte)) (place : Nat → Nat) :
    putCodes f place get (cs ++ [c]) d = (place c.2, BitVec.ofNat 8 (mxPut f c.2 (overlay get (putCodes f place get cs d) (place c.2)).toNat c.1)) ::
      putCodes f place get cs d := by
  simp [putCodes]

theorem overlay_putCodes_of_ne {place : Nat → Nat} {a : Nat} (d : List (Nat × Byte)) (cs : List (Nat × Nat)) (h : ∀ c ∈ cs, place c.2 ≠ a) :
    overlay get (putCodes f place get cs d) a = overlay get d a := by
  induction cs using List.reverseRecOn with
  | nil => rfl
  | append_singleton cs c ih =>
    rw [putCodes_append_singleton, overlay_cons, if_neg (h c (by simp)), ih fun c' hc' => h c' (by simp [hc'])]

/-- The code of one position is what is put there last; a code put elsewhere leaves it. -/
theorem codeIn_putCodes (d : List (Nat × Byte)) (cs : List (Nat × Nat)) (hnd : (cs.map Prod.snd).Nodup) (hlt : ∀ c ∈ cs, c.1 < codeCount f) :
    let byte (k : Nat) : Nat := (overlay get (putCodes f (blockPlace f elems) get cs d) (blockPlace f elems k)).toNat
    (∀ c ∈ cs, codeIn f c.2 (byte c.2) = c.1) ∧
      ∀ k, (∀ c ∈ cs, c.2 ≠ k) → codeIn f k (byte k) = codeIn f k (overlay get d (blockPlace f elems k)).toNat := by
  induction cs using List.reverseRecOn with
  | nil => exact ⟨by simp, fun k _ => rfl⟩
  | append_singleton cs c ih =>
    rw [List.map_append, List.map_singleton, List.nodup_append] at hnd
    obtain ⟨hnd, _, hnew⟩ := hnd
    obtain ⟨hput, hold⟩ := ih hnd fun c' hc' => hlt c' (by simp [hc'])
    have hother (k : Nat) (hk : c.2 ≠ k) :
        codeIn f k (overlay get (putCodes f (blockPlace f elems) get (cs ++ [c]) d) (blockPlace f elems k)).toNat =
          codeIn f k (overlay get (putCodes f (blockPlace f elems) get cs d) (blockPlace f elems k)).toNat := by
      rw [putCodes_append_singleton, overlay_cons]
      split
      next hplace =>
        have hplace : blockPlace f elems c.2 = blockPlace f elems k := hplace
        obtain ⟨rfl, hpar⟩ := blockPlace_eq hplace hk
        rw [codeIn_mxPut_other _ _ (Ne.symm hpar), hplace]
      · rfl
    refine ⟨fun c' hc' => ?_, fun k hk => ?_⟩
    · rcases List.mem_append.mp hc' with hc' | hc'
      · exact (hother c'.2 fun heq => hnew c'.2 (List.mem_map_of_mem hc') c.2 (by simp) heq.symm).trans (hput c' hc')
      · obtain rfl := List.mem_singleton.mp hc'
        dsimp only
        rw [putCodes_append_singleton, overlay_cons, if_pos rfl]
        exact codeIn_mxPut_same f c'.2 _ (hlt c' (by simp))
    · exact (hother k (hk c (by simp))).trans (hold k fun c' hc' => hk c' (by simp [hc']))

end

section
variable {codes : List Nat} {own : BitVec 32}

theorem nodup_ownCodes (hlen : codes.length = 32) : ((ownCodes codes own).map Prod.snd).Nodup := by
  have hsub : ((ownCodes codes own).map Prod.snd).Sublist ((codes.zip (List.range 32)).map Prod.snd) := List.filter_sublist.map _
  rw [List.map_snd_zip (by simp [hlen])] at hsub
  exact List.nodup_range.sublist hsub

theorem mem_ownCodes {k : Nat} (hlen : codes.length = 32) (hk : k < 32) (hown : own.getLsbD k = true) : (codes.getD k 0, k) ∈ ownCodes codes own := by
  refine List.mem_filter.mpr ⟨List.mem_iff_getElem.mpr ⟨k, by simp [hlen, hk], ?_⟩, hown⟩
  simp [hlen, hk]

theorem own_of_mem_ownCodes {c : Nat × Nat} (h : c ∈ ownCodes codes own) : own.getLsbD c.2 = true := (List.mem_filter.mp h).2

end

/-- A block's write requantizes the block with the written elements in it, and writes nothing outside (R244, R219, R214). -/
theorem block_spec {f elems scale : Nat} {own : BitVec 32} {elts : List (Nat × EltSrc)} {g y : Nat → Byte}
    (hy : ∀ a, y a = overlay g ((BayWrite.block f elems scale own elts).apply g []) a) (hscale : scale < elems ∨ elems + 32 ≤ scale) :
    let code (z : Nat → Byte) (k : Nat) : Nat := codeIn f k (z (blockPlace f elems k)).toNat
    let last (k : Nat) := elts.reverse.find? fun e => decide (e.1 = k)
    let new (k : Nat) : FVal := (last k).elim
      (if own.getLsbD k then blockValue f (g scale).toNat (code g k) else .fin false 0 0) fun e => e.2.val
    requantizes f (fun k => own.getLsbD k = true) new (y scale).toNat (code y) ∧
    (∀ k, k < 32 → own.getLsbD k = false → code y k = code g k) ∧
    ∀ a, a ≠ scale → (∀ k, k < 32 → a ≠ blockPlace f elems k) → y a = g a := by
  intro code last new
  have hvals : blockVals g f elems scale own elts = (List.range 32).map new := by
    refine List.map_congr_left fun k _ => ?_
    have hbeq : (elts.reverse.find? fun e => e.1 == k) = last k := rfl
    rw [hbeq]
    change _ = (last k).elim _ _
    cases last k with
    | some e => rfl
    | none =>
      simp only [Option.elim_none, code]
      rw [mxCode_eq_codeIn _ _ _ (g _).isLt, mxVal_eq_blockValue]
      cases own.getLsbD k <;> rfl
  have happly := apply_block g [] f elems scale own elts
  rw [overlay_nil, hvals] at happly
  have hlen : (requantize f ((List.range 32).map new)).2.length = 32 := by rw [requantize_length]; simp
  generalize hreq : requantize f ((List.range 32).map new) = r at happly hlen
  have hplace : ∀ k, k < 32 → blockPlace f elems k ≠ scale := fun k hk heq => by
    have hlt : blockPlace f elems k < elems + 32 := blockPlace_lt hk
    have hle : elems ≤ blockPlace f elems k := Nat.le_add_right _ _
    omega
  have hcodes := @codeIn_putCodes f elems g [(scale, BitVec.ofNat 8 r.1)] (ownCodes r.2 own) (nodup_ownCodes hlen)
    fun c hc => requantize_codes_lt f ((List.range 32).map new) c.1 (by rw [hreq]; exact (List.of_mem_zip (List.mem_of_mem_filter hc)).1)
  obtain ⟨hput, hkeep⟩ := hcodes
  refine ⟨requantizes_of_codes ?_ fun k hk hown => ?_, fun k hk hown => ?_, fun a ha hout => ?_⟩
  · rw [hy, happly, overlay_putCodes_of_ne _ _ fun c hc => hplace c.2 (lt_of_mem_ownCodes hc), overlay_cons, if_pos rfl, hreq, BitVec.toNat_ofNat]
    have := requantize_scale_le f ((List.range 32).map new)
    rw [hreq] at this
    omega
  · rw [hreq]
    change codeIn f k (y _).toNat = _
    rw [hy, happly]
    exact hput _ (mem_ownCodes hlen hk hown)
  · change codeIn f k (y _).toNat = codeIn f k (g _).toNat
    rw [hy, happly]
    have hne : ∀ c ∈ ownCodes r.2 own, c.2 ≠ k := by
      rintro c hc rfl
      rw [own_of_mem_ownCodes hc] at hown
      cases hown
    refine (hkeep k hne).trans ?_
    rw [overlay_cons, if_neg (hplace k hk).symm, overlay_nil]
  · rw [hy, happly, overlay_putCodes_of_ne _ _ fun c hc => (hout c.2 (lt_of_mem_ownCodes hc)).symm, overlay_cons, if_neg ha.symm, overlay_nil]

/-! ## What a message writes at a bay -/

theorem bytes_spec {pa : Nat} {b : List Byte} {g y : Nat → Byte} (hy : ∀ a, y a = overlay g ((BayWrite.bytes pa b).apply g []) a) :
    (∀ i, i < b.length → some (y (pa + i)) = b[i]?) ∧ ∀ a, (a < pa ∨ pa + b.length ≤ a) → y a = g a := by
  refine ⟨fun i hi => ?_, fun a ha => ?_⟩
  · rw [hy, apply_bytes, List.append_nil, overlay, find_byteEntries hi]
    simp [hi]
  · rw [hy, apply_bytes, List.append_nil, overlay, find_byteEntries_none ha]

theorem nibble_spec {pa : Nat} {hi : Bool} {v : Nat} {g y : Nat → Byte} (hy : ∀ a, y a = overlay g ((BayWrite.nibble pa hi v).apply g []) a) :
    (∀ a, a ≠ pa → y a = g a) ∧
      (y pa).toNat = if hi then (g pa).toNat % 16 + 16 * (v % 16) else (g pa).toNat / 16 * 16 + v % 16 := by
  refine ⟨fun a ha => ?_, ?_⟩
  · rw [hy, BayWrite.apply, overlay_cons, if_neg ha.symm, overlay_nil]
  · have hold := (g pa).isLt
    rw [hy, BayWrite.apply, overlay_cons, if_pos rfl, overlay_nil, BitVec.toNat_ofNat]
    cases hi with
    | true =>
      simp only [if_true]
      omega
    | false =>
      simp only [Bool.false_eq_true, if_false]
      omega

/-- Settles O53: an element's write is what its place and its descriptor's format give, by cases of the format; a transfer's messages are its writes
grouped by line; and a bay's bytes after a message are its writes' bytes laid over the bytes before, the latest first. -/
theorem transfersWriteTheirBytes : Obligations.TransfersWriteTheirBytes := by
  unfold Obligations.TransfersWriteTheirBytes
  refine ⟨codeVal_spec, ?_, element_spec, values_spec, fun s k ep c ws hne => ⟨postWrites_far_spec hne, postWrites_crib_spec hne⟩, pourCrib_spec,
    fun x free ctx ep ops w hun hops => ?_⟩
  · intro sat x
    obtain ⟨h3, h4, h5, h7, h6, hint⟩ := convCode_spec sat x
    refine ⟨h3, h4, h5, h7, h6, fun f w hfw => ?_⟩
    rw [hint f w hfw]
    cases x <;> rfl
  · have hw : w.inHbm := hops w (by simp)
    have hy : ∀ a, (x.bayWrites free ctx ep [w]).byteAt free a = _ := byteAt_bayWrites_one ctx ep hun hw
    refine ⟨fun a => byteAt_bayWrites ctx ep hun (by simp) a, byteAt_bayWrites_snoc ctx ep hun hops, fun pa b hb => ?_, fun pa hi v hb => ?_,
      fun fmt elems scale own elts hb _ hscale => ?_⟩
    · subst hb
      exact bytes_spec hy
    · subst hb
      exact nibble_spec hy
    · subst hb
      exact block_spec hy hscale

end Sys2Proof.Machine
end

section
/-! What two states have in common: the values of the register files, the bytes at a column's home, and what else a column holds. -/

namespace Sys2Proof.Machine

@[simp] theorem State.setCol_setCol (s : State) (c : Nat) (x y : Column) : (s.setCol c x).setCol c y = s.setCol c y := by
  simp [State.setCol]

/-! ## Register files -/

/-- Register files with the same values, whatever is pending. -/
def Thread.sameValues (t u : Thread) : Prop := u.v = t.v ∧ u.k = t.k ∧ u.s = t.s

theorem Thread.sameValues_refl (t : Thread) : t.sameValues t := ⟨rfl, rfl, rfl⟩

theorem Thread.sameValues_vpend (t : Thread) (vs : List VPend) : t.sameValues { t with vpend := vs } := ⟨rfl, rfl, rfl⟩

/-- Every agent of a column has register files with the same values in two columns. -/
def Column.sameValues (x y : Column) : Prop :=
  (∀ n, (x.warp n).th.sameValues (y.warp n).th) ∧ (∀ i, (x.ctx i).th.sameValues (y.ctx i).th) ∧ x.tinker.th.sameValues y.tinker.th

theorem Column.sameValues_refl (x : Column) : x.sameValues x :=
  ⟨fun _ => Thread.sameValues_refl _, fun _ => Thread.sameValues_refl _, Thread.sameValues_refl _⟩

theorem Column.sameValues_setWarp {x : Column} {n : Nat} {w : Warp} (h : (x.warp n).th.sameValues w.th) : x.sameValues (x.setWarp n w) := by
  refine ⟨fun m => ?_, fun _ => Thread.sameValues_refl _, Thread.sameValues_refl _⟩
  rw [Column.warp_setWarp]
  split
  next hm => subst hm; exact h
  next => exact Thread.sameValues_refl _

theorem Column.sameValues_setCtx {x : Column} {i : Nat} {k : LaneCtx} (h : (x.ctx i).th.sameValues k.th) : x.sameValues (x.setCtx i k) := by
  refine ⟨fun _ => Thread.sameValues_refl _, fun j => ?_, Thread.sameValues_refl _⟩
  rw [Column.ctx_setCtx]
  split
  next hj => subst hj; exact h
  next => exact Thread.sameValues_refl _

theorem State.sameRegisters_of {s t : State} (hf : t.factors = s.factors) (h : ∀ c, (s.col c).sameValues (t.col c)) : s.sameRegisters t := by
  intro c who
  obtain ⟨hwarp, hctx, htinker⟩ := h c
  cases who with
  | warp n b => exact hwarp n
  | lane i => exact hctx i
  | tinker => exact htinker
  | factor n => simp [State.threadOf, State.factor, hf]

theorem State.sameRegisters_updCol {s : State} {c : Nat} {f : Column → Column} (h : (s.col c).sameValues (f (s.col c))) :
    s.sameRegisters (s.updCol c f) := by
  refine State.sameRegisters_of rfl fun d => ?_
  rw [State.col_updCol]
  split
  next hd => subst hd; exact h
  next => exact Column.sameValues_refl _

/-- Register files replaced by some with the same values. -/
theorem State.sameRegisters_setThreadOf {s : State} {c : Nat} {w : Who} {t : Thread} (h : (s.threadOf c w).sameValues t) :
    s.sameRegisters (s.setThreadOf c w t) := by
  cases w with
  | warp n b => exact State.sameRegisters_updCol (Column.sameValues_setWarp h)
  | lane i => exact State.sameRegisters_updCol (Column.sameValues_setCtx h)
  | tinker => exact State.sameRegisters_updCol ⟨fun _ => Thread.sameValues_refl _, fun _ => Thread.sameValues_refl _, h⟩
  | factor n =>
    intro d v
    by_cases hv : v.base = (Who.factor n).base
    · obtain rfl : v = .factor n := by cases v <;> simp_all [Who.base]
      change (s.threadOf c (.factor n)).sameValues ((s.setThreadOf c (.factor n) t).threadOf c (.factor n))
      rw [State.threadOf_setThreadOf s c _ _ t rfl]
      exact h
    · rw [State.threadOf_setThreadOf_other _ _ _ _ _ _ (.inl hv)]
      exact Thread.sameValues_refl _

theorem State.sameRegisters_trans {s t u : State} (h : s.sameRegisters t) (g : t.sameRegisters u) : s.sameRegisters u := by
  intro c who
  obtain ⟨hv, hk, hs⟩ := h c who
  obtain ⟨gv, gk, gs⟩ := g c who
  exact ⟨gv.trans hv, gk.trans hk, gs.trans hs⟩

/-! ## The home -/

/-- Two columns whose homes hold the same bytes. -/
def Column.sameHome (x y : Column) : Prop := y.mem = x.mem ∧ y.undefined = x.undefined

theorem Column.sameHome.byteAt_eq {x y : Column} (h : x.sameHome y) (free a : Nat) : y.byteAt free a = x.byteAt free a := by
  obtain ⟨hmem, hundef⟩ := h
  simp only [Column.byteAt, hmem, hundef]

theorem Column.sameHome_foldl {α : Type} {f : Column → α → Column} {es : List α} {x y : Column} (hy : x.sameHome y)
    (h : ∀ z, x.sameHome z → ∀ e ∈ es, x.sameHome (f z e)) : x.sameHome (es.foldl f y) :=
  List.foldlRecOn es f hy h

/-! ## Columns that hold the same -/

/-- Columns whose agents have the same register files, with the same writes pending. -/
def Column.sameThreads (x y : Column) : Prop :=
  (∀ n, (y.warp n).th = (x.warp n).th) ∧ (∀ i, (y.ctx i).th = (x.ctx i).th) ∧ y.tinker.th = x.tinker.th

theorem Column.sameThreads_refl (x : Column) : x.sameThreads x := ⟨fun _ => rfl, fun _ => rfl, rfl⟩

theorem State.threadOf_setCol {s : State} {c : Nat} {y : Column} (h : (s.col c).sameThreads y) (d : Nat) (w : Who) :
    (s.setCol c y).threadOf d w = s.threadOf d w := by
  have hd : (s.col d).sameThreads ((s.setCol c y).col d) := by
    rw [State.col_setCol]
    split
    next hd => subst hd; exact h
    next => exact Column.sameThreads_refl _
  obtain ⟨hwarp, hctx, htinker⟩ := hd
  cases w with
  | warp n b => exact hwarp n
  | lane i => exact hctx i
  | tinker => exact htinker
  | factor n => rfl

/-- Columns that hold the same bytes, at the home and in local store, and the same register files. -/
def Column.sameHolds (x y : Column) : Prop := x.sameHome y ∧ y.groups = x.groups ∧ x.sameThreads y

theorem Column.sameHolds_trans {x y z : Column} (h : x.sameHolds y) (g : y.sameHolds z) : x.sameHolds z := by
  obtain ⟨⟨hmem, hundef⟩, hgroups, hwarp, hctx, htinker⟩ := h
  obtain ⟨⟨gmem, gundef⟩, ggroups, gwarp, gctx, gtinker⟩ := g
  exact ⟨⟨gmem.trans hmem, gundef.trans hundef⟩, ggroups.trans hgroups, fun n => (gwarp n).trans (hwarp n), fun i => (gctx i).trans (hctx i),
    gtinker.trans htinker⟩

theorem State.setCol_keeps {s : State} {c : Nat} {y : Column} (h : (s.col c).sameHolds y) : s.sameMemory (s.setCol c y) ∧ s.sameRegisters (s.setCol c y) := by
  obtain ⟨⟨hmem, hundef⟩, hgroups, hthreads⟩ := h
  refine ⟨State.sameMemory_of fun d => ?_, fun d w => ?_⟩
  · rw [State.col_setCol]
    split
    next hd => subst hd; exact ⟨hmem, hundef, hgroups⟩
    next => exact ⟨rfl, rfl, rfl⟩
  · rw [State.threadOf_setCol hthreads]
    exact ⟨rfl, rfl, rfl⟩

/-- A change of the words of a column alone. -/
theorem Column.sameHolds_mops (x : Column) (ms : List MemOp) : x.sameHolds { x with mops := ms } :=
  ⟨⟨rfl, rfl⟩, rfl, fun _ => rfl, fun _ => rfl, rfl⟩

end Sys2Proof.Machine
end

section
/-! Transactions: what an abort leaves of a warp and of the machine (R162), and what a commit writes at the home (R62, R63, R161). -/

namespace Sys2Proof.Machine

/-! ## A path after its transaction -/

theorem getLsbD_clear (c : BitVec 8) (n i : Nat) : (c &&& ~~~(1#8 <<< n)).getLsbD i = (c.getLsbD i && decide (i ≠ n)) := by
  have hone : (1#8 <<< n).getLsbD i = (decide (i < 8) && decide (i = n)) := by
    rw [BitVec.getLsbD_shiftLeft, BitVec.getLsbD_one]
    grind
  rw [BitVec.getLsbD_and, BitVec.getLsbD_not, hone]
  by_cases hi : i < 8
  · simp [hi]
  · simp [BitVec.getLsbD_of_ge c i (by omega)]

/-- A transaction's own path goes back to the word after TBEGIN. -/
theorem Tx.resume_own {t : Tx} {p : Path} (h : p.uid = t.path) :
    t.resume p = { p with pkt := t.pkt, wpos := t.wpos, fresh := decide (t.wpos = 0), wait := .none, c := p.c &&& ~~~(1#8 <<< t.cond) } :=
  if_pos h

/-! ## The abort of a warp -/

/-- The path in a PC slot of a warp, if it holds one. -/
def Warp.inSlot (w : Warp) (b : Bool) : Option Path := if b then w.b else w.a

theorem Warp.slotPath_of_inSlot {w : Warp} {b : Bool} {p : Path} (h : w.inSlot b = some p) : w.slotPath b = p := by
  change (w.inSlot b).getD {} = p
  rw [h]
  rfl

/-- A path that left its slot comes back beside the others: it takes no slot that holds a path, and touches neither the open transaction, the
status nor the register files. -/
theorem Warp.reenter_keeps (w : Warp) (t : Tx) :
    (w.reenter t).tx = w.tx ∧ (w.reenter t).tstat = w.tstat ∧ (w.reenter t).th = w.th ∧
      ∀ b p, w.inSlot b = some p → (w.reenter t).inSlot b = some p := by
  unfold Warp.reenter
  cases t.left with
  | none => exact ⟨rfl, rfl, rfl, fun _ _ h => h⟩
  | some p =>
    dsimp only
    split
    next ha => exact ⟨rfl, rfl, rfl, fun b q h => by cases b <;> simp_all [Warp.inSlot]⟩
    next =>
      split
      next hb => exact ⟨rfl, rfl, rfl, fun b q h => by cases b <;> simp_all [Warp.inSlot]⟩
      next => exact ⟨rfl, rfl, rfl, fun _ _ h => h⟩

/-- A path that left its slot comes back in slot A where that is free. -/
theorem Warp.reenter_a {w : Warp} {t : Tx} {p : Path} (h : t.left = some p) (ha : w.a = none) :
    (w.reenter t).a = some (t.resume { p with lanes := t.lanes &&& ~~~w.exited }) := by
  simp [Warp.reenter, h, ha]

section
variable {w : Warp} {t : Tx} (a : Abort) (user : Nat) (addr : Dword)

theorem Warp.abort_of_tx (h : w.tx = some t) :
    (w.abort a user addr).tx = none ∧ (w.abort a user addr).tstat = tstatOf a user addr ∧
      (w.abort a user addr).th = w.th.dropCond t.path t.cond ∧
      ∀ b p, w.inSlot b = some p → (w.abort a user addr).inSlot b = some (t.resume p) := by
  unfold Warp.abort
  rw [h]
  obtain ⟨htx, hstat, hth, hslot⟩ := Warp.reenter_keeps ({ w with
    tx := none, tstat := tstatOf a user addr, th := w.th.dropCond t.path t.cond, a := w.a.map t.resume, b := w.b.map t.resume
    stack := { w.stack with frames := Tab.mapVals (fun _ x => t.resumeFrame x) w.stack.frames } } : Warp) t
  refine ⟨htx, hstat, hth, fun b p hp => hslot b _ ?_⟩
  cases b with
  | false => exact congrArg (Option.map t.resume) hp
  | true => exact congrArg (Option.map t.resume) hp

theorem Warp.abort_left {p : Path} (h : w.tx = some t) (hl : t.left = some p) (ha : w.a = none) :
    (w.abort a user addr).a = some (t.resume { p with lanes := t.lanes &&& ~~~w.exited }) := by
  unfold Warp.abort
  rw [h]
  exact Warp.reenter_a hl (by simp [ha])

end

theorem toNat_append_eq {m n : Nat} (x : BitVec m) (y : BitVec n) : (x ++ y).toNat = x.toNat * 2 ^ n + y.toNat := by
  rw [BitVec.toNat_append, ← Nat.shiftLeft_add_eq_or_of_lt y.isLt, Nat.shiftLeft_eq]

/-- TSTAT: the code, the operand and the address, from the low bits up. -/
theorem tstatOf_toNat (a : Abort) {user : Nat} (addr : Dword) (h : user < 256) :
    (tstatOf a user addr).toNat = a.code + 256 * user + 65536 * (addr.toNat % 281474976710656) := by
  have hcode : a.code < 256 := by cases a <;> decide
  have haddr : (addr.extractLsb' 0 48).toNat = addr.toNat % 281474976710656 := by simp
  have hval : (tstatOf a user addr).toNat =
      ((addr.extractLsb' 0 48).toNat * 2 ^ 8 + (BitVec.ofNat 8 user).toNat) * 2 ^ 8 + (BitVec.ofNat 8 a.code).toNat := by
    rw [← toNat_append_eq, ← toNat_append_eq]
    rfl
  rw [hval, haddr, BitVec.toNat_ofNat, BitVec.toNat_ofNat, Nat.mod_eq_of_lt h, Nat.mod_eq_of_lt hcode]
  omega

/-! ## The abort of the issuing warp's transaction -/

theorem State.ownTx_eq_some {s : State} {t : Tx} (h : s.ownTx = some t) : s.warp.tx = some t ∧ t.path = s.path.uid := by
  unfold State.ownTx at h
  split at h
  next =>
    split at h
    next htx =>
      split at h
      next hpath => cases h; exact ⟨htx, hpath⟩
      next => cases h
    next => cases h
  next => cases h

theorem State.path_eq {s : State} {n : Nat} {b : Bool} (hw : s.cur.who = .warp n b) : s.path = s.warp.slotPath b := by
  simp [State.path, State.pathOf, State.warp, State.here, hw]

theorem Column.abortTx_eq {x : Column} {n : Nat} {t : Tx} (a : Abort) (user : Nat) (addr : Dword) (h : (x.warp n).tx = some t) :
    x.abortTx n a user addr = (x.setWarp n ((x.warp n).abort a user addr)).count (x.group (x.warp n).entry).launch 7 := by
  simp [Column.abortTx, h]

section
variable {s : State} {n : Nat} {b : Bool} {t : Tx} (a : Abort) (user : Nat) (addr : Dword) (hw : s.cur.who = .warp n b) (ht : s.warp.tx = some t)
include hw ht

theorem State.abortTx_eq : s.abortTx a user addr =
    s.updHere fun x => (x.setWarp n ((x.warp n).abort a user addr)).count (x.group (x.warp n).entry).launch 7 := by
  have hwarp : (s.here.warp n).tx = some t := by simpa [State.warp, hw] using ht
  have hslot : s.slot = n := by simp [State.slot, State.slotOf, hw]
  simp only [State.abortTx, hw, hslot]
  exact congrArg (s.setCol s.cur.col) (Column.abortTx_eq a user addr hwarp)

theorem State.warp_abortTx : (s.abortTx a user addr).warp = s.warp.abort a user addr := by
  rw [State.abortTx_eq a user addr hw ht]
  simp [State.warp, hw, Column.count, Column.warp, Column.setWarp]

theorem State.path_abortTx (hb : s.warp.inSlot b ≠ none) : (s.abortTx a user addr).path = t.resume s.path := by
  obtain ⟨p, hp⟩ := Option.ne_none_iff_exists'.mp hb
  obtain ⟨-, -, -, hslot⟩ := Warp.abort_of_tx a user addr ht
  have hwarp := State.warp_abortTx a user addr hw ht
  have hwho : (s.abortTx a user addr).cur.who = .warp n b := by rw [State.abortTx_eq a user addr hw ht]; exact hw
  rw [State.path_eq hwho, hwarp, State.path_eq hw, Warp.slotPath_of_inSlot hp, Warp.slotPath_of_inSlot (hslot b p hp)]

theorem State.sameMemory_abortTx : s.sameMemory (s.abortTx a user addr) := by
  rw [State.abortTx_eq a user addr hw ht]
  refine State.sameMemory_of fun c => ?_
  by_cases hc : c = s.cur.col <;> simp [hc, Column.count, State.here]

theorem State.sameRegisters_abortTx : s.sameRegisters (s.abortTx a user addr) := by
  rw [State.abortTx_eq a user addr hw ht]
  have hwarp : (s.here.warp n).tx = some t := by simpa [State.warp, hw] using ht
  obtain ⟨-, -, hth, -⟩ := Warp.abort_of_tx a user addr hwarp
  have hvalues : (s.here.warp n).th.sameValues ((s.here.warp n).abort a user addr).th := by rw [hth]; exact Thread.sameValues_refl _
  exact State.sameRegisters_updCol (Column.sameValues_setWarp hvalues)

end

/-! ## The write set of a commit -/

/-- One lane's writes, in their order. -/
def Column.applyLane (x : Column) (w : List (Nat × Nat × Byte)) (l : Nat) : Column :=
  (w.filter fun e => e.1 == l).foldl (fun x e => x.putByte e.2.1 e.2.2) x

/-- The writes of the lanes below a bound, the highest lane's first. -/
def Column.applyBelow (w : List (Nat × Nat × Byte)) : Nat → Column → Column
  | 0, x => x
  | n + 1, x => Column.applyBelow w n (x.applyLane w n)

theorem Column.applyWrites_eq (x : Column) (w : List (Nat × Nat × Byte)) : x.applyWrites w = Column.applyBelow w 32 x := by
  have h : ∀ n (x : Column), (List.range n).reverse.foldl (fun x l => x.applyLane w l) x = Column.applyBelow w n x := by
    intro n
    induction n with
    | zero => intro x; rfl
    | succ n ih => intro x; rw [List.range_succ, List.reverse_append, List.reverse_singleton, List.singleton_append, List.foldl_cons, ih]; rfl
  exact h 32 x

section
variable {free a : Nat}

theorem Column.byteAt_putBytesOf_other {es : List (Nat × Nat × Byte)} (h : ∀ e ∈ es, e.2.1 ≠ a) (x : Column) :
    (es.foldl (fun x e => x.putByte e.2.1 e.2.2) x).byteAt free a = x.byteAt free a := by
  induction es generalizing x with
  | nil => rfl
  | cons e es ih =>
    rw [List.foldl_cons, ih fun e' he => h e' (by simp [he]), Column.byteAt_putByte, if_neg (h e (by simp)).symm]

theorem Column.byteAt_applyLane_other {w : List (Nat × Nat × Byte)} {l : Nat} (h : ∀ e ∈ w, e.1 = l → e.2.1 ≠ a) (x : Column) :
    (x.applyLane w l).byteAt free a = x.byteAt free a := by
  refine Column.byteAt_putBytesOf_other (fun e he => ?_) x
  obtain ⟨hmem, hl⟩ := List.mem_filter.mp he
  exact h e hmem (beq_iff_eq.mp hl)

/-- A lane's last write to a byte stands. -/
theorem Column.byteAt_applyLane_last {before after : List (Nat × Nat × Byte)} {l : Nat} {v : Byte}
    (h : ∀ e ∈ after, ¬ (e.1 = l ∧ e.2.1 = a)) (x : Column) :
    (x.applyLane (before ++ (l, a, v) :: after) l).byteAt free a = v := by
  have hsplit : x.applyLane (before ++ (l, a, v) :: after) l = ((x.applyLane before l).putByte a v).applyLane after l := by
    simp [Column.applyLane]
  rw [hsplit, Column.byteAt_applyLane_other fun e he hl ha => h e he ⟨hl, ha⟩, Column.byteAt_putByte, if_pos rfl]

theorem Column.byteAt_applyBelow_other {w : List (Nat × Nat × Byte)} (n : Nat) (h : ∀ e ∈ w, e.1 < n → e.2.1 ≠ a) (x : Column) :
    (Column.applyBelow w n x).byteAt free a = x.byteAt free a := by
  induction n generalizing x with
  | zero => rfl
  | succ n ih =>
    rw [Column.applyBelow, ih fun e he hn => h e he (by omega), Column.byteAt_applyLane_other fun e he hn => h e he (by omega)]

/-- The lowest lane's last write to a byte stands (R63). -/
theorem Column.byteAt_applyBelow_lowest {before after : List (Nat × Nat × Byte)} {l : Nat} {v : Byte}
    (h : ∀ e ∈ after, ¬ (e.1 = l ∧ e.2.1 = a)) (hlow : ∀ e ∈ before ++ (l, a, v) :: after, e.2.1 = a → l ≤ e.1) (n : Nat) (hn : l < n)
    (x : Column) : (Column.applyBelow (before ++ (l, a, v) :: after) n x).byteAt free a = v := by
  induction n generalizing x with
  | zero => omega
  | succ n ih =>
    rw [Column.applyBelow]
    by_cases hln : l = n
    · subst hln
      rw [Column.byteAt_applyBelow_other l fun e he hl ha => absurd (hlow e he ha) (by omega), Column.byteAt_applyLane_last h]
    · exact ih (by omega) _

end

/-! ## A commit -/

/-- Nothing is merged at the bay before a commit where no L1 holds or has sent any line. -/
theorem Column.settled_of_uncached {x : Column} {free cache : Nat} (hc : cache < 9) (h : ∀ line, x.uncached line) (lines : List Nat) :
    lines.foldl (fun x ln => (x.recallU free ln).settleLine free cache ln) x = x := by
  refine List.foldlRecOn (motive := fun y => y = x) lines _ rfl fun y hy ln _ => ?_
  subst hy
  obtain ⟨hfind, hputs⟩ := h ln cache hc
  rw [recallU_of_uncached (h ln), Column.settleLine, Column.settlePuts, hputs]
  simp [hfind]

section
variable {s : State} {t : Tx} (hcache : s.cur.who.cache < 9) (hun : ∀ line, s.here.uncached line)
include hcache hun

theorem State.commit_eq_of_stands (hreads : ∀ r ∈ t.reads, s.here.byteAt s.free r.1 = r.2) (hhints : ∀ h ∈ t.hints, h.2.2.1 = false) :
    ∃ y : Column, (s.here.applyWrites t.writes).sameHome y ∧
      s.commit t = (s.setCol s.cur.col y).updWarp fun w => { w with tx := none, tstat := 0#64 } := by
  have hall : (t.reads.all fun r => s.here.byteAt s.free r.1 == r.2) = true := by simpa using hreads
  unfold State.commit
  dsimp only
  rw [Column.settled_of_uncached hcache hun, State.setCol_free, State.setCol_cur, if_pos hall, State.setCol_setCol]
  refine ⟨_, ?_, rfl⟩
  refine Column.sameHome_foldl (Column.sameHome_foldl ⟨rfl, rfl⟩ fun _ hz _ _ => hz) fun z hz e he => ?_
  rw [hhints e he]
  exact hz

theorem State.commit_eq_of_conflict (hreads : ∃ r ∈ t.reads, s.here.byteAt s.free r.1 ≠ r.2) :
    s.commit t = (s.setCol s.cur.col s.here).abortTx .conflict 0 0#64 := by
  have hall : ¬ (t.reads.all fun r => s.here.byteAt s.free r.1 == r.2) = true := by simpa using hreads
  unfold State.commit
  dsimp only
  rw [Column.settled_of_uncached hcache hun, State.setCol_free, if_neg hall]

end

theorem State.warp_updWarp {s : State} {n : Nat} {b : Bool} (f : Warp → Warp) (hw : s.cur.who = .warp n b) : (s.updWarp f).warp = f s.warp := by
  simp [State.updWarp, State.warp, hw]

theorem State.sameHome_updWarp (s : State) (f : Warp → Warp) : s.here.sameHome (s.updWarp f).here := by
  unfold State.updWarp
  split
  next => rw [State.here_updHere]; exact ⟨rfl, rfl⟩
  next => rw [State.here_updHere]; exact ⟨rfl, rfl⟩
  next => exact ⟨rfl, rfl⟩

section
variable {s : State} {n : Nat} {b : Bool} {t : Tx} (hw : s.cur.who = .warp n b) (hun : ∀ line, s.here.uncached line)
include hw hun

/-- A commit whose every byte read still stands applies its write set at the home, and nothing else is written there. -/
theorem State.commit_writes (hreads : ∀ r ∈ t.reads, s.here.byteAt s.free r.1 = r.2) (hhints : ∀ h ∈ t.hints, h.2.2.1 = false) :
    (s.commit t).warp.tx = none ∧ (s.commit t).warp.tstat = 0#64 ∧
      ∀ free a, (s.commit t).here.byteAt free a = (Column.applyBelow t.writes 32 s.here).byteAt free a := by
  have hcache : s.cur.who.cache < 9 := by simp [hw, Who.cache]
  obtain ⟨y, hy, hcommit⟩ := State.commit_eq_of_stands hcache hun hreads hhints
  have hw' : (s.setCol s.cur.col y).cur.who = .warp n b := hw
  rw [hcommit, State.warp_updWarp _ hw']
  refine ⟨rfl, rfl, fun free a => ?_⟩
  rw [(State.sameHome_updWarp _ _).byteAt_eq, ← Column.applyWrites_eq, State.here_setCol, hy.byteAt_eq]

/-- A commit of which a byte read has changed is an abort. -/
theorem State.commit_conflicts (htx : s.warp.tx = some t) (hreads : ∃ r ∈ t.reads, s.here.byteAt s.free r.1 ≠ r.2) :
    (s.commit t).warp.tx = none ∧ (s.commit t).warp.tstat = 1#64 ∧ s.sameMemory (s.commit t) := by
  have hcache : s.cur.who.cache < 9 := by simp [hw, Who.cache]
  have hw' : (s.setCol s.cur.col s.here).cur.who = .warp n b := hw
  have htx' : (s.setCol s.cur.col s.here).warp.tx = some t := by simpa [State.warp, State.here, hw] using htx
  obtain ⟨hnone, hstat, -, -⟩ := Warp.abort_of_tx .conflict 0 0#64 htx'
  have hset : s.sameMemory (s.setCol s.cur.col s.here) := State.sameMemory_of fun c => by by_cases hc : c = s.cur.col <;> simp [hc, State.here]
  rw [State.commit_eq_of_conflict hcache hun hreads, State.warp_abortTx .conflict 0 0#64 hw' htx']
  exact ⟨hnone, hstat, State.sameMemory_trans hset (State.sameMemory_abortTx .conflict 0 0#64 hw' htx')⟩

end

/-- Settles O28: an abort gives the warp its record and its path the place after TBEGIN, and touches neither memory nor register files; a commit
is the write set applied lane by lane from the highest, or an abort. -/
theorem transactionsAbortOrCommitWhole : Obligations.TransactionsAbortOrCommitWhole := by
  unfold Obligations.TransactionsAbortOrCommitWhole
  refine ⟨⟨fun w t p a user x htx hleft ha => ?_, fun s n b t a user x hw hown huser hslot => ?_⟩,
    fun s n b t hw htx hun hhints hlanes => ⟨fun hreads => ?_, State.commit_conflicts hw (fun ln c hc => hun c ln hc) htx⟩⟩
  · refine ⟨_, Warp.abort_left a user x htx hleft ha, ?_⟩
    rw [Tx.resume_own rfl]
    exact ⟨rfl, rfl, rfl, (getLsbD_clear _ _ _).trans (by simp), rfl⟩
  · obtain ⟨htx, hpath⟩ := State.ownTx_eq_some hown
    obtain ⟨hnone, hstat, -, -⟩ := Warp.abort_of_tx a user x htx
    have hwarp := State.warp_abortTx a user x hw htx
    have hb : s.warp.inSlot b ≠ none := by cases b <;> exact hslot
    have hresume := State.path_abortTx a user x hw htx hb
    rw [Tx.resume_own hpath.symm] at hresume
    dsimp only
    rw [hwarp, hresume]
    exact ⟨hnone, by rw [hstat, tstatOf_toNat a x huser], rfl, rfl, (getLsbD_clear _ _ _).trans (by simp),
      fun i hi => (getLsbD_clear _ _ _).trans (by simp [hi]), State.sameMemory_abortTx a user x hw htx, State.sameRegisters_abortTx a user x hw htx⟩
  · obtain ⟨hnone, hstat, hbyte⟩ := State.commit_writes hw (fun ln c hc => hun c ln hc) hreads hhints
    refine ⟨hnone, hstat, fun free a ha => ?_, fun free before l a v after hsplit hafter hlow => ?_⟩
    · rw [hbyte, Column.byteAt_applyBelow_other 32 fun e he _ => ha e he]
    · rw [hbyte, hsplit]
      rw [hsplit] at hlow hlanes
      exact Column.byteAt_applyBelow_lowest hafter hlow 32 (hlanes (l, a, v) (by simp)) s.here

end Sys2Proof.Machine
end

section
/-! Hits: a memory word all of whose accesses lie in one line that its L1 holds is performed as it issues (R50, R83, R85, R144, R145). -/

namespace Sys2Proof.Machine

/-! ## Bytes merged into a held line -/

/-- Byte o of a held line. -/
def CacheLine.byte (l : CacheLine) (o : Nat) : Byte := l.data.extractLsb' (8 * o) 8

theorem CacheLine.bytes_one (l : CacheLine) (o : Nat) : l.bytes o 1 = [l.byte o] := by
  simp [CacheLine.bytes, CacheLine.byte]

/-- A byte set at its place in a line's data. -/
theorem getLsbD_byteAtPlace (b : Byte) (off : Nat) {o i : Nat} (ho : o < 128) (hi : i < 8) :
    (b.setWidth 1024 <<< (8 * off)).getLsbD (8 * o + i) = (decide (o = off) && b.getLsbD i) := by
  rw [BitVec.getLsbD_shiftLeft, BitVec.getLsbD_setWidth]
  rcases Nat.lt_trichotomy o off with h | h | h
  · simp [show 8 * o + i < 8 * off by omega, h.ne]
  · subst h
    simp [show 8 * o + i < 1024 by omega, show i < 1024 by omega]
  · simp [h.ne', BitVec.getLsbD_of_ge b (8 * o + i - 8 * off) (by omega)]

theorem CacheLine.byte_merge (l : CacheLine) {off o : Nat} (b : Byte) (ho : o < 128) :
    (l.merge off b).byte o = if o = off then b else l.byte o := by
  have hones : 0xFF#1024 = (0xFF#8).setWidth 1024 := by simp
  refine BitVec.eq_of_getLsbD_eq fun i hi => ?_
  have hbit : (0xFF#8).getLsbD i = true := by interval_cases i <;> rfl
  have hlt : 8 * o + i < 1024 := by omega
  rw [CacheLine.byte, CacheLine.merge, BitVec.getLsbD_extractLsb', BitVec.getLsbD_or, BitVec.getLsbD_and, BitVec.getLsbD_not, hones,
    getLsbD_byteAtPlace _ off ho hi, getLsbD_byteAtPlace _ off ho hi]
  by_cases h : o = off
  · simp [h, hi, hbit]
  · simp [h, hi, hlt, CacheLine.byte]

theorem CacheLine.dirty_merge (l : CacheLine) {off o : Nat} (b : Byte) (ho : o < 128) :
    (l.merge off b).dirty.getLsbD o = (l.dirty.getLsbD o || decide (o = off)) := by
  have hone : (1#128 <<< off).getLsbD o = decide (o = off) := by
    rw [BitVec.getLsbD_shiftLeft, BitVec.getLsbD_one]
    grind
  rw [CacheLine.merge, BitVec.getLsbD_or, hone]

theorem CacheLine.byte_mergeBytes {o : Nat} (ho : o < 128) (bs : List Byte) : ∀ (l : CacheLine) (off : Nat),
    (l.mergeBytes off bs).byte o = if off ≤ o ∧ o < off + bs.length then bs.getD (o - off) 0#8 else l.byte o := by
  induction bs with
  | nil => intro l off; simp [CacheLine.mergeBytes]
  | cons b bs ih =>
    intro l off
    simp only [CacheLine.mergeBytes, ih, CacheLine.byte_merge l b ho, List.length_cons]
    by_cases h : o = off
    · subst h; simp
    · by_cases h' : off + 1 ≤ o ∧ o < off + 1 + bs.length
      · rw [if_pos h', if_pos (by omega)]
        obtain ⟨k, rfl⟩ : ∃ k, o = off + 1 + k := ⟨o - off - 1, by omega⟩
        simp [show off + 1 + k - off = k + 1 by omega]
      · rw [if_neg h', if_neg h, if_neg (by omega)]

theorem CacheLine.dirty_mergeBytes {o : Nat} (ho : o < 128) (bs : List Byte) : ∀ (l : CacheLine) (off : Nat),
    (l.mergeBytes off bs).dirty.getLsbD o = (l.dirty.getLsbD o || decide (off ≤ o ∧ o < off + bs.length)) := by
  induction bs with
  | nil => intro l off; simp [CacheLine.mergeBytes]
  | cons b bs ih =>
    intro l off
    simp only [CacheLine.mergeBytes, ih, CacheLine.dirty_merge l b ho, List.length_cons]
    grind

/-! ## One store after another -/

/-- A store's access merged into a held line. -/
def CacheLine.mergeAcc (l : CacheLine) (a : Acc) : CacheLine := l.mergeBytes (a.pa % 128) (bytesOf a.size a.x)

/-- An access covers a byte of its line. -/
abbrev Acc.covers (a : Acc) (o : Nat) : Prop := a.pa % 128 ≤ o ∧ o < a.pa % 128 + a.size

theorem CacheLine.byte_mergeAcc_other {l : CacheLine} {a : Acc} {o : Nat} (ho : o < 128) (h : ¬ a.covers o) : (l.mergeAcc a).byte o = l.byte o := by
  rw [CacheLine.mergeAcc, CacheLine.byte_mergeBytes ho, length_bytesOf, if_neg h]

theorem CacheLine.byte_mergeAcc {l : CacheLine} {a : Acc} {o : Nat} (ho : o < 128) (h : a.covers o) :
    (l.mergeAcc a).byte o = BitVec.ofNat 8 (a.x / 2 ^ (8 * (o - a.pa % 128))) := by
  have hlt : o - a.pa % 128 < a.size := by obtain ⟨h1, h2⟩ := h; omega
  rw [CacheLine.mergeAcc, CacheLine.byte_mergeBytes ho, length_bytesOf, if_pos h, getD_bytesOf _ hlt, Nat.shiftRight_eq_div_pow]

theorem CacheLine.dirty_mergeAcc {l : CacheLine} {a : Acc} {o : Nat} (ho : o < 128) (h : l.dirty.getLsbD o = true ∨ a.covers o) :
    (l.mergeAcc a).dirty.getLsbD o = true := by
  rw [CacheLine.mergeAcc, CacheLine.dirty_mergeBytes ho, length_bytesOf]
  rcases h with h | h
  · rw [h, Bool.true_or]
  · rw [decide_eq_true h, Bool.or_true]

theorem CacheLine.byte_merged_other {o : Nat} (ho : o < 128) {accs : List Acc} (h : ∀ a ∈ accs, ¬ a.covers o) (l : CacheLine) :
    (accs.foldl CacheLine.mergeAcc l).byte o = l.byte o := by
  induction accs generalizing l with
  | nil => rfl
  | cons a accs ih => rw [List.foldl_cons, ih fun e he => h e (by simp [he]), CacheLine.byte_mergeAcc_other ho (h a (by simp))]

theorem CacheLine.dirty_merged {o : Nat} (ho : o < 128) {accs : List Acc} {l : CacheLine} (h : l.dirty.getLsbD o = true) :
    (accs.foldl CacheLine.mergeAcc l).dirty.getLsbD o = true :=
  List.foldlRecOn (motive := fun l : CacheLine => l.dirty.getLsbD o = true) accs _ h fun _ hl _ _ => CacheLine.dirty_mergeAcc ho (.inl hl)

/-- The last access that covers a byte leaves its own there, dirty. -/
theorem CacheLine.merged_last {o : Nat} (ho : o < 128) {before after : List Acc} {a : Acc} (ha : a.covers o) (h : ∀ e ∈ after, ¬ e.covers o)
    (l : CacheLine) : ((before ++ a :: after).foldl CacheLine.mergeAcc l).byte o = BitVec.ofNat 8 (a.x / 2 ^ (8 * (o - a.pa % 128))) ∧
      ((before ++ a :: after).foldl CacheLine.mergeAcc l).dirty.getLsbD o = true := by
  rw [List.foldl_append, List.foldl_cons]
  exact ⟨by rw [CacheLine.byte_merged_other ho h, CacheLine.byte_mergeAcc ho ha], CacheLine.dirty_merged ho (CacheLine.dirty_mergeAcc ho (.inr ha))⟩

/-! ## A word that its L1 holds -/

/-- The lines of addresses that lie in one. -/
theorem linesOf_of_one {line : Nat} {pas : List Nat} (hne : pas ≠ []) (h : ∀ p ∈ pas, lineOf p = line) : linesOf pas = [line] := by
  obtain ⟨p, pas, rfl⟩ := List.exists_cons_of_ne_nil hne
  have hfold : pas.foldl (fun acc p => if acc.contains (lineOf p) then acc else acc ++ [lineOf p]) [line] = [line] :=
    List.foldlRecOn (motive := fun acc => acc = [line]) pas _ rfl fun acc hacc q hq => by simp [hacc, h q (by simp [hq])]
  rw [linesOf, List.foldl_cons, h p (by simp), List.contains_nil, if_neg (by decide), List.nil_append, hfold]
  rfl

/-- A word with accesses, all in one line and none in a marked sector. -/
def Column.inLine (x : Column) (m : MemOp) (line : Nat) : Prop := m.accs ≠ [] ∧ ∀ a ∈ m.accs, lineOf a.pa = line ∧ x.isBad a = false

theorem Column.inLine.linesOf_eq {x : Column} {m : MemOp} {line : Nat} (h : x.inLine m line) : linesOf (m.accs.map (·.pa)) = [line] := by
  obtain ⟨hne, hall⟩ := h
  refine linesOf_of_one (by simpa using hne) fun p hp => ?_
  obtain ⟨a, ha, rfl⟩ := List.mem_map.mp hp
  exact (hall a ha).1

theorem Column.inLine.part_eq {x : Column} {m : MemOp} {line : Nat} (h : x.inLine m line) : m.part line = m.accs ∧ m.others line = [] := by
  obtain ⟨-, hall⟩ := h
  exact ⟨List.filter_eq_self.mpr fun a ha => by simp [(hall a ha).1], List.filter_eq_nil_iff.mpr fun a ha => by simp [(hall a ha).1]⟩

theorem Column.inLine.good {x : Column} {m : MemOp} {line : Nat} (h : x.inLine m line) :
    m.accs.filter (fun a => !x.isBad a) = m.accs ∧ m.accs.filter (fun a => x.isBad a) = [] ∧ x.badLanes m.accs = 0#32 := by
  obtain ⟨-, hall⟩ := h
  refine ⟨List.filter_eq_self.mpr fun a ha => by simp [(hall a ha).2], List.filter_eq_nil_iff.mpr fun a ha => by simp [(hall a ha).2], ?_⟩
  exact List.foldlRecOn (motive := fun b => b = 0#32) m.accs _ rfl fun b hb a ha => by simp [hb, (hall a ha).2]

/-! ## Its issue -/

/-- A column once a word has been noted among its own, and has taken the L1's port. -/
def Column.begun (x : Column) (m : MemOp) (clk : Nat) : Column :=
  (Column.takePort { x.noteWrites m with mops := x.mops ++ [m] } m.cache clk).2

/-- Only the lines that an ejected lane has written are noted (R196). -/
theorem Column.noteWrites_keeps (x : Column) (m : MemOp) :
    (x.noteWrites m).l1 = x.l1 ∧ (x.noteWrites m).bay = x.bay ∧ (x.noteWrites m).badSectors = x.badSectors ∧ x.sameHolds (x.noteWrites m) := by
  have hctx : ∀ i l, x.sameThreads (x.setCtx i { x.ctx i with wrote := l }) := by
    refine fun i l => ⟨fun _ => rfl, fun j => ?_, rfl⟩
    rw [Column.ctx_setCtx]
    split
    next hj => subst hj; rfl
    next => rfl
  unfold Column.noteWrites
  split
  next =>
    split
    next => exact ⟨rfl, rfl, rfl, ⟨rfl, rfl⟩, rfl, hctx _ _⟩
    next => exact ⟨rfl, rfl, rfl, ⟨rfl, rfl⟩, rfl, Column.sameThreads_refl _⟩
  next => exact ⟨rfl, rfl, rfl, ⟨rfl, rfl⟩, rfl, Column.sameThreads_refl _⟩

theorem Column.begun_keeps (x : Column) (m : MemOp) (clk : Nat) :
    (x.begun m clk).l1 = x.l1 ∧ (x.begun m clk).bay = x.bay ∧ (x.begun m clk).badSectors = x.badSectors ∧ (x.begun m clk).mops = x.mops ++ [m] ∧
      x.sameHolds (x.begun m clk) := by
  obtain ⟨hl1, hbay, hbad, hholds⟩ := Column.noteWrites_keeps x m
  exact ⟨hl1, hbay, hbad, rfl, hholds⟩

section
variable {x : Column} {m : MemOp} {line : Nat} (clk : Nat)

theorem Column.l1Line_congr {x y : Column} (h : y.l1 = x.l1) (k : Nat) : y.l1Line k = x.l1Line k := by simp only [Column.l1Line, h]

theorem Column.l1Find_begun (cache line : Nat) : (x.begun m clk).l1Find cache line = x.l1Find cache line := by
  obtain ⟨hl1, -⟩ := Column.begun_keeps x m clk
  simp only [Column.l1Find, Column.l1Line, hl1]

theorem Column.l1Line_begun (k : Nat) : (x.begun m clk).l1Line k = x.l1Line k := by
  obtain ⟨hl1, -⟩ := Column.begun_keeps x m clk
  exact Column.l1Line_congr hl1 k

/-- A word does not wait for itself. -/
theorem Column.waitsTurn_begun : (x.begun m clk).waitsTurn m line = x.waitsTurn m line := by
  obtain ⟨-, hbay, -, hmops, -⟩ := Column.begun_keeps x m clk
  simp [Column.waitsTurn, Column.meets, Column.homeOf, hbay, hmops]

theorem Column.hitsNow_begun : (x.begun m clk).hitsNow m line = x.hitsNow m line := by
  obtain ⟨-, hbay, -⟩ := Column.begun_keeps x m clk
  have hby : (x.begun m clk).bypasses m line = x.bypasses m line := by simp only [Column.bypasses, hbay]
  have hhas : (x.begun m clk).l1Has m.cache line (m.sectors line) = x.l1Has m.cache line (m.sectors line) := by
    simp only [Column.l1Has, Column.l1Find_begun, Column.l1Line_begun]
  rw [Column.hitsNow, Column.hitsNow, hby, hhas, Column.waitsTurn_begun]

theorem Column.inLine_begun (h : x.inLine m line) : (x.begun m clk).inLine m line := by
  obtain ⟨-, -, hbad, -⟩ := Column.begun_keeps x m clk
  simpa only [Column.inLine, Column.isBad, hbad] using h

end

/-- A hit waits for no earlier word and lacks nothing. -/
theorem Column.hitsNow_iff {x : Column} {m : MemOp} {line : Nat} :
    x.hitsNow m line = true ↔ x.bypasses m line = false ∧ x.l1Has m.cache line (m.sectors line) = true ∧ x.waitsTurn m line = false := by
  simp [Column.hitsNow, and_assoc]

theorem Column.l1Has_iff {x : Column} {cache line : Nat} {a : BitVec 4} :
    x.l1Has cache line a = true ↔ ∃ k, x.l1Find cache line = some k ∧ (x.l1Line k).u = none ∧ a &&& ~~~(x.l1Line k).valid = 0#4 := by
  unfold Column.l1Has
  cases x.l1Find cache line with
  | none => simp
  | some k => simp

theorem Column.l1Has_and {x : Column} {cache line : Nat} {a : BitVec 4} (b : BitVec 4) (h : x.l1Has cache line a = true) :
    x.l1Has cache line (a &&& b) = true := by
  obtain ⟨k, hfind, hu, ha⟩ := Column.l1Has_iff.mp h
  refine Column.l1Has_iff.mpr ⟨k, hfind, hu, ?_⟩
  rw [BitVec.and_assoc, BitVec.and_comm b, ← BitVec.and_assoc, ha, BitVec.zero_and]

theorem Column.l1Lacks_of_l1Has {x : Column} {m : MemOp} {line : Nat} (h : x.l1Has m.cache line (m.sectors line) = true) :
    x.l1Lacks m line false = 0#4 := by
  obtain ⟨k, hfind, hu, hvalid⟩ := Column.l1Has_iff.mp h
  unfold Column.l1Lacks
  split
  next => rfl
  next => simpa [Column.l1Valid, hfind, hu] using hvalid

theorem State.atL1_of_hitsNow {s : State} {c : Nat} {m : MemOp} {line due : Nat} (h : (s.col c).hitsNow m line = true) :
    s.atL1 c m line due false = s.useL1 c m line true := by
  obtain ⟨-, hhas, hturn⟩ := Column.hitsNow_iff.mp h
  have hlacks := Column.l1Lacks_of_l1Has hhas
  simp [State.atL1, Column.l1Waits, hturn, hlacks]

/-- A word that hits is performed at its L1 as it issues (R83, R85). -/
theorem State.startOp_of_hit {s : State} {c : Nat} {m : MemOp} {line : Nat} (hin : (s.col c).inLine m line)
    (hnew : ∀ q ∈ (s.col c).mops, q.id ≠ m.id) (hhit : (s.col c).hitsNow m line = true) :
    s.startOp c m = (s.setCol c ((s.col c).begun m s.clk)).useL1 c m line true := by
  have hne : m.accs.isEmpty = false := by obtain ⟨hne, -⟩ := hin; simpa using hne
  have hfind : ((s.col c).begun m s.clk).mops.find? (fun q => decide (q.id = m.id)) = some m := by
    obtain ⟨-, -, -, hmops, -⟩ := Column.begun_keeps (s.col c) m s.clk
    rw [hmops, List.find?_append, List.find?_eq_none.mpr fun q hq => by simpa using hnew q hq]
    simp
  have hhit' : ((s.col c).begun m s.clk).hitsNow m line = true := by rw [Column.hitsNow_begun, hhit]
  obtain ⟨hby, -, -⟩ := Column.hitsNow_iff.mp hhit'
  have hport : ((s.updCol c fun x => { x.noteWrites m with mops := x.mops ++ [m] }).col c).takePort m.cache s.clk =
      (max s.clk (Tab.get 0 ((s.col c).noteWrites m).l1Port m.cache), (s.col c).begun m s.clk) := by
    rw [State.col_updCol, if_pos rfl]; rfl
  have hcol : ((s.setCol c ((s.col c).begun m s.clk)).col c).hitsNow m line = true := by rw [State.col_setCol, if_pos rfl, hhit']
  unfold State.startOp
  dsimp only
  rw [hne, hin.linesOf_eq, List.foldl_cons, List.foldl_nil, State.updCol_clk, hport]
  dsimp only
  rw [hfind]
  dsimp only
  rw [if_neg Bool.false_ne_true, hby, if_neg Bool.false_ne_true, State.updCol, State.setCol_setCol]
  exact State.atL1_of_hitsNow hcol

/-! ## Its completion -/

/-- The pending write of a performed word: filled, or in error. -/
def MemOp.fill (m : MemOp) (v : VPend) : VPend :=
  let slotB := match m.who with | .warp _ b => b | _ => false
  if m.vid ≠ 0 ∧ v.id = m.vid then
    (if m.bad = 0#32 then { v with value := some m.writes }
     else { v with error := some (.memoryUe, m.bad, m.pkt, m.wpos, slotB), addr := m.pointer m.bad })
  else v

/-- A word that makes no acquire fills its pending write, if it has one, and leaves the column's list. -/
theorem State.complete_eq {s : State} {c : Nat} {m : MemOp} (hacq : m.acquire = none) : s.complete c m =
    (if m.vid = 0 then s else s.setThreadOf c m.who { s.threadOf c m.who with vpend := (s.threadOf c m.who).vpend.map m.fill }).updCol c
      fun x => { x with mops := x.mops.filter fun q => decide (q.id ≠ m.id) } := by
  unfold State.complete
  rw [hacq]
  rfl

theorem State.l1_setThreadOf (s : State) (c d : Nat) (w : Who) (t : Thread) : ((s.setThreadOf c w t).col d).l1 = (s.col d).l1 := by
  cases w <;> by_cases hd : d = c <;> simp [State.setThreadOf, hd]

section
variable {s : State} {c : Nat} {m : MemOp} (hacq : m.acquire = none)
include hacq

theorem State.complete_keeps : s.sameMemory (s.complete c m) ∧ s.sameRegisters (s.complete c m) ∧ ((s.complete c m).col c).l1 = (s.col c).l1 := by
  have hmops : ∀ t : State, t.sameMemory (t.updCol c fun x => { x with mops := x.mops.filter fun q => decide (q.id ≠ m.id) }) ∧
      t.sameRegisters (t.updCol c fun x => { x with mops := x.mops.filter fun q => decide (q.id ≠ m.id) }) :=
    fun t => State.setCol_keeps (Column.sameHolds_mops _ _)
  rw [State.complete_eq hacq]
  split
  next =>
    obtain ⟨hmem, hregs⟩ := hmops s
    exact ⟨hmem, hregs, by rw [State.col_updCol, if_pos rfl]⟩
  next =>
    set t := s.setThreadOf c m.who { s.threadOf c m.who with vpend := (s.threadOf c m.who).vpend.map m.fill }
    obtain ⟨hmem, hregs⟩ := hmops t
    have hl1 : (t.col c).l1 = (s.col c).l1 := State.l1_setThreadOf ..
    exact ⟨State.sameMemory_trans (State.sameMemory_of fun d => State.col_setThreadOf_mem ..) hmem,
      State.sameRegisters_trans (State.sameRegisters_setThreadOf (Thread.sameValues_vpend _ _)) hregs, by rw [State.col_updCol, if_pos rfl, hl1]⟩

/-- The pending write of a word without an uncorrectable error takes its values. -/
theorem State.value_mem_complete {v : VPend} (hvid : m.vid ≠ 0) (hbad : m.bad = 0#32) (hv : v ∈ (s.threadOf c m.who).vpend) (hid : v.id = m.vid) :
    { v with value := some m.writes } ∈ ((s.complete c m).threadOf c m.who).vpend := by
  have hfill : m.fill v = { v with value := some m.writes } := by simp [MemOp.fill, hvid, hid, hbad]
  obtain ⟨-, -, hthreads⟩ := Column.sameHolds_mops
    ((s.setThreadOf c m.who { s.threadOf c m.who with vpend := (s.threadOf c m.who).vpend.map m.fill }).col c) _
  rw [State.complete_eq hacq, if_neg hvid, State.updCol, State.threadOf_setCol hthreads, State.threadOf_setThreadOf _ _ _ _ _ rfl, ← hfill]
  exact List.mem_map_of_mem hv

end

/-! ## Loads and stores that hit -/

theorem Column.l1Line_setL1 (x : Column) (k j : Nat) (l : CacheLine) : (x.setL1 k l).l1Line j = if j = k then l else x.l1Line j := by
  simp [Column.setL1, Column.l1Line]

/-- A load once it has taken its lanes' bytes from a held line. -/
def MemOp.loaded (m : MemOp) (signed : Bool) (l : CacheLine) : MemOp :=
  { m with
    accs := []
    got := m.got ++ m.accs.map fun a => (a.lane, extendLoad signed a.size (natOfBytes (l.bytes (a.pa % 128) a.size))) }

/-- A held line once the lanes of a store have merged their bytes into it. -/
def MemOp.stored (m : MemOp) (l : CacheLine) : CacheLine := { m.accs.foldl CacheLine.mergeAcc l with ep := m.ep, region := m.ctx }

section
variable {x : Column} {m : MemOp} {line k : Nat} (hin : x.inLine m line) (hfind : x.l1Find m.cache line = some k) (hlu : m.lu = false)
include hin hfind hlu

theorem Column.performHeld_load {signed : Bool} (hkind : m.kind = .load signed) :
    ∃ l, x.performHeld m line true = (x.setL1 k l, m.loaded signed (x.l1Line k)) := by
  obtain ⟨hpart, hothers⟩ := hin.part_eq
  obtain ⟨hgood, -, hbad⟩ := hin.good
  rw [Column.performHeld, hlu, if_neg Bool.false_ne_true, Column.performL1, hkind, hfind, hpart, hothers]
  dsimp only
  rw [hgood, hbad, BitVec.or_zero]
  refine ⟨_, Prod.ext rfl ?_⟩
  simp only [MemOp.loaded, hkind]

theorem Column.performHeld_store (hkind : m.kind = .store) :
    ∃ y, x.performHeld m line true = (y, { m with accs := [] }) ∧ y.l1 = (x.setL1 k (m.stored (x.l1Line k))).l1 ∧ x.sameHolds y := by
  obtain ⟨hpart, hothers⟩ := hin.part_eq
  obtain ⟨hgood, hnone, -⟩ := hin.good
  rw [Column.performHeld, hlu, if_neg Bool.false_ne_true, Column.performL1, hkind, hfind, hpart, hothers]
  dsimp only
  rw [hgood, hnone]
  refine ⟨_, Prod.ext rfl ?_, rfl, ⟨rfl, rfl⟩, rfl, fun _ => rfl, fun _ => rfl, rfl⟩
  simp only [hlu]

end

/-- A store whose one line its L1 holds merges its bytes there and is performed whole (R50). -/
theorem State.storeLine_of_hit {s : State} {c : Nat} {m : MemOp} {line k : Nat} (hin : (s.col c).inLine m line)
    (hhit : (s.col c).hitsNow m line = true) (hfind : (s.col c).l1Find m.cache line = some k) (hlu : m.lu = false) (hkind : m.kind = .store)
    (hfetched : m.fetched = []) : ∃ y m', (s.col c).sameHolds y ∧ y.l1 = ((s.col c).setL1 k (m.stored ((s.col c).l1Line k))).l1 ∧
      m'.acquire = m.acquire ∧ s.storeLine c m line true = (s.setCol c y).complete c m' := by
  obtain ⟨hby, hhas, -⟩ := Column.hitsNow_iff.mp hhit
  have hin' : (s.col c).inLine { m with fetched := [(line, true)] } line := hin
  have hcached : ({ m with fetched := [(line, true)] } : MemOp).cachedLines (s.col c) = [line] := by
    have hby' : (s.col c).bypasses { m with fetched := [(line, true)] } line = false := hby
    rw [MemOp.cachedLines, hin'.linesOf_eq]
    simp [hby']
  have hwanted : (s.col c).l1Has m.cache line (({ m with fetched := [(line, true)] } : MemOp).wanted (s.col c) line) = true :=
    Column.l1Has_and _ hhas
  obtain ⟨y, hy, hl1, hholds⟩ := Column.performHeld_store (m := { m with fetched := [(line, true)] }) hin' hfind hlu hkind
  refine ⟨y, { m with accs := [], fetched := [] }, hholds, hl1, rfl, ?_⟩
  simp [State.storeLine, State.afterPart, hfetched, hcached, hwanted, hy]

section
variable {s : State} {c : Nat} {m : MemOp} {line k : Nat} (hin : (s.col c).inLine m line) (hnew : ∀ q ∈ (s.col c).mops, q.id ≠ m.id)
  (hhit : (s.col c).hitsNow m line = true) (hfind : (s.col c).l1Find m.cache line = some k) (hlu : m.lu = false)
include hin hnew hhit hfind hlu

theorem State.startOp_load {signed : Bool} (hkind : m.kind = .load signed) : ∃ y, (s.col c).sameHolds y ∧
    s.startOp c m = (s.setCol c y).complete c (m.loaded signed ((s.col c).l1Line k)) := by
  obtain ⟨-, -, -, -, hbegun⟩ := Column.begun_keeps (s.col c) m s.clk
  have hfind' : ((s.col c).begun m s.clk).l1Find m.cache line = some k := by rw [Column.l1Find_begun, hfind]
  obtain ⟨l, hl⟩ := Column.performHeld_load (Column.inLine_begun s.clk hin) hfind' hlu hkind
  refine ⟨((s.col c).begun m s.clk).setL1 k l, hbegun, ?_⟩
  rw [State.startOp_of_hit hin hnew hhit, State.useL1, hkind]
  dsimp only
  rw [State.col_setCol, if_pos rfl, hl, State.setCol_setCol, Column.l1Line_begun]
  rfl

theorem State.startOp_store (hkind : m.kind = .store) (hfetched : m.fetched = []) : ∃ y m', (s.col c).sameHolds y ∧
    (∀ j, y.l1Line j = if j = k then m.stored ((s.col c).l1Line k) else (s.col c).l1Line j) ∧ m'.acquire = m.acquire ∧
      s.startOp c m = (s.setCol c y).complete c m' := by
  obtain ⟨hl1, -, -, -, hbegun⟩ := Column.begun_keeps (s.col c) m s.clk
  have hcol : (s.setCol c ((s.col c).begun m s.clk)).col c = (s.col c).begun m s.clk := by rw [State.col_setCol, if_pos rfl]
  obtain ⟨y, m', hholds, hline, hacq, hstore⟩ := State.storeLine_of_hit (s := s.setCol c ((s.col c).begun m s.clk)) (c := c)
    (by rw [hcol]; exact Column.inLine_begun s.clk hin) (by rw [hcol, Column.hitsNow_begun, hhit]) (by rw [hcol, Column.l1Find_begun, hfind])
    hlu hkind hfetched
  rw [hcol] at hholds hline
  refine ⟨y, m', Column.sameHolds_trans hbegun hholds, fun j => ?_, hacq, ?_⟩
  · rw [Column.l1Line_congr hline, Column.l1Line_setL1, Column.l1Line_begun, Column.l1Line_begun]
  · rw [State.startOp_of_hit hin hnew hhit, State.useL1, hkind]
    dsimp only
    rw [hstore, State.setCol_setCol]

end

/-- A word that completes in a column that holds the same has left memory and the register files as they were. -/
theorem State.setCol_complete_keeps {s : State} {c : Nat} {y : Column} {m : MemOp} (h : (s.col c).sameHolds y) (hacq : m.acquire = none) :
    s.sameMemory ((s.setCol c y).complete c m) ∧ s.sameRegisters ((s.setCol c y).complete c m) ∧ (((s.setCol c y).complete c m).col c).l1 = y.l1 := by
  obtain ⟨hmem, hregs⟩ := State.setCol_keeps h
  obtain ⟨hmem', hregs', hl1⟩ := State.complete_keeps (s := s.setCol c y) (c := c) hacq
  exact ⟨State.sameMemory_trans hmem hmem', State.sameRegisters_trans hregs hregs', by rw [hl1, State.col_setCol, if_pos rfl]⟩

/-- Settles O22: a word that hits is performed at its L1 and completes as it issues, so a load's values are the held line's bytes, and a store's
bytes stand in the held line alone. -/
theorem hitsAreExact : Obligations.HitsAreExact := by
  unfold Obligations.HitsAreExact
  refine ⟨fun s c m signed line k v hkind hne hall hnew hhit hfind hacq hlu hbad hvid hv hid => ?_,
    fun s c m line k hkind hne hfetched hall hnew hhit hfind hacq hlu => ?_⟩
  · obtain ⟨y, hy, hstart⟩ := State.startOp_load ⟨hne, hall⟩ hnew hhit hfind hlu hkind
    obtain ⟨hmem, hregs, -⟩ := State.setCol_complete_keeps (m := m.loaded signed ((s.col c).l1Line k)) hy hacq
    rw [hstart]
    obtain ⟨-, -, hthreads⟩ := hy
    refine ⟨State.value_mem_complete (m := m.loaded signed ((s.col c).l1Line k)) hacq hvid hbad ?_ hid, hmem, hregs⟩
    rw [State.threadOf_setCol hthreads]
    exact hv
  · have hin : (s.col c).inLine m line := ⟨hne, fun a ha => by obtain ⟨hl, hb, -⟩ := hall a ha; exact ⟨hl, hb⟩⟩
    obtain ⟨y, m', hy, hline, hacq', hstart⟩ := State.startOp_store hin hnew hhit hfind hlu hkind hfetched
    obtain ⟨hmem, hregs, hl1⟩ := State.setCol_complete_keeps hy (hacq'.trans hacq)
    have hlines : ∀ j, ((s.startOp c m).col c).l1Line j = if j = k then m.stored ((s.col c).l1Line k) else (s.col c).l1Line j :=
      fun j => by rw [hstart, Column.l1Line_congr hl1, hline]
    have hheld : ((s.startOp c m).col c).l1Line k = m.stored ((s.col c).l1Line k) := by rw [hlines, if_pos rfl]
    dsimp only
    rw [hheld]
    refine ⟨fun o ho h => ?_, fun o before a after ho hsplit ha h => ?_, fun j hj => by rw [hlines, if_neg hj], by rw [hstart]; exact hmem,
      by rw [hstart]; exact hregs⟩
    · rw [CacheLine.bytes_one, CacheLine.bytes_one]
      exact congrArg (fun b => [b]) (CacheLine.byte_merged_other ho h _)
    · rw [CacheLine.bytes_one]
      obtain ⟨hbyte, hdirty⟩ := CacheLine.merged_last ho ha h ((s.col c).l1Line k) (before := before)
      rw [← hsplit] at hbyte hdirty
      exact ⟨congrArg (fun b => [b]) hbyte, hdirty⟩

end Sys2Proof.Machine
end

section
/-! A request at the end of its time at a slice: what the bay keeps when the request goes and its line is touched (R308, R310), and which operation
serves it (R319). -/

namespace Sys2Proof.Machine

/-! ## The bay once a request has gone -/

/-- A bay with the same physical map, no write-back of which is new: each stood in the other one, as the same L1's and of the same line. -/
def Bay.settled (b d : Bay) : Prop :=
  (∀ region pa, d.kindOf region pa = b.kindOf region pa) ∧ ∀ q ∈ d.reqs, ∃ p ∈ b.reqs, p.put = q.put ∧ p.cache = q.cache ∧ p.line = q.line

theorem Bay.settled_trans {b d e : Bay} (h : b.settled d) (g : d.settled e) : b.settled e := by
  obtain ⟨hkind, hreqs⟩ := h
  obtain ⟨gkind, greqs⟩ := g
  refine ⟨fun region pa => (gkind region pa).trans (hkind region pa), fun q hq => ?_⟩
  obtain ⟨p, hp, hput, hcache, hline⟩ := greqs q hq
  obtain ⟨o, ho, oput, ocache, oline⟩ := hreqs p hp
  exact ⟨o, ho, oput.trans hput, ocache.trans hcache, oline.trans hline⟩

/-- A freed slot goes to a request that waits for one: nothing else of a request changes (R312). -/
theorem Bay.settled_freeSlot (b : Bay) (sl : Nat) : b.settled (b.freeSlot sl) := by
  unfold Bay.freeSlot
  split
  next p hp =>
    refine ⟨fun _ _ => rfl, fun q hq => ?_⟩
    obtain ⟨o, ho, rfl⟩ := List.mem_map.mp hq
    split
    next => exact ⟨p, List.mem_of_find?_eq_some hp, rfl, rfl, rfl⟩
    next => exact ⟨o, ho, rfl, rfl, rfl⟩
  next => exact ⟨fun _ _ => rfl, fun q hq => ⟨q, hq, rfl, rfl, rfl⟩⟩

theorem Bay.settled_removeReq (b : Bay) (r : Req) : b.settled (b.removeReq r) := by
  have hgone : b.settled { b with reqs := b.reqs.filter fun q => decide (q.id ≠ r.id) } :=
    ⟨fun _ _ => rfl, fun q hq => ⟨q, List.mem_of_mem_filter hq, rfl, rfl, rfl⟩⟩
  unfold Bay.removeReq
  dsimp only
  split
  next => exact Bay.settled_trans hgone (Bay.settled_freeSlot _ _)
  next => exact hgone

theorem Bay.kindOf_evictWay (b : Bay) (sl key region pa : Nat) : (b.evictWay sl key).kindOf region pa = b.kindOf region pa := by
  unfold Bay.evictWay
  dsimp only
  split
  next => split <;> rfl
  next => rfl

theorem Bay.kindOf_touch (b : Bay) (rg line : Nat) (sectors : BitVec 4) (dirty : Bool) (ep region pa : Nat) :
    (b.touch rg line sectors dirty ep).kindOf region pa = b.kindOf region pa := by
  unfold Bay.touch
  dsimp only
  split
  next => rfl
  next =>
    split
    next => rfl
    next =>
      split
      next => split <;> rfl
      next => exact Bay.kindOf_evictWay _ _ _ region pa

theorem Bay.settled_touch (b : Bay) (region line : Nat) (sectors : BitVec 4) (dirty : Bool) (ep : Nat) :
    b.settled (b.touch region line sectors dirty ep) :=
  ⟨Bay.kindOf_touch b region line sectors dirty ep, fun q hq => ⟨q, by rwa [Bay.touch_reqs] at hq, rfl, rfl, rfl⟩⟩

/-- A column with another bay. -/
def Column.withBay (x : Column) (b : Bay) : Column := { x with bay := b }

theorem Column.updBay_eq (x : Column) (f : Bay → Bay) : x.updBay f = x.withBay (f x.bay) := rfl
@[simp] theorem Column.bay_withBay (x : Column) (b : Bay) : (x.withBay b).bay = b := rfl
@[simp] theorem Column.withBay_withBay (x : Column) (b d : Bay) : (x.withBay b).withBay d = x.withBay d := rfl

section
variable {x : Column} {b : Bay} (h : x.bay.settled b)
include h

theorem Column.puts_settled {cache line : Nat} (hputs : x.puts cache line = []) : (x.withBay b).puts cache line = [] := by
  obtain ⟨-, hreqs⟩ := h
  refine List.filter_eq_nil_iff.mpr fun q hq => ?_
  obtain ⟨p, hp, hput, hcache, hline⟩ := hreqs q hq
  rw [← hput, ← hcache, ← hline]
  exact List.filter_eq_nil_iff.mp hputs p hp

theorem Column.uncached_settled {line : Nat} (hun : x.uncached line) : (x.withBay b).uncached line := by
  intro c hc
  obtain ⟨hfind, hputs⟩ := hun c hc
  exact ⟨hfind, Column.puts_settled h hputs⟩

theorem Column.bypasses_settled (m : MemOp) (line : Nat) : (x.withBay b).bypasses m line = x.bypasses m line := by
  obtain ⟨hkind, -⟩ := h
  simp only [Column.bypasses, Column.bay_withBay, hkind]

end

/-- A request that goes takes nothing of the bay with it but its place among the requests. -/
theorem Bay.removeReq_eq (b : Bay) (r : Req) : ∃ rs, b.removeReq r = { b with reqs := rs } := by
  unfold Bay.removeReq Bay.freeSlot
  dsimp only
  split
  next => split <;> exact ⟨_, rfl⟩
  next => exact ⟨_, rfl⟩

/-- A change of a column's bay alone. -/
theorem Column.sameHolds_bay (x : Column) (b : Bay) : x.sameHolds (x.withBay b) :=
  ⟨⟨rfl, rfl⟩, rfl, fun _ => rfl, fun _ => rfl, rfl⟩

/-- A request once its sectors have come: it waits at its L1, where its word goes on. -/
def Req.back (r : Req) : Req := { r with sectors := 0#4, atL1 := true, admitted := false, stands := false, till := 0 }

def Column.waitsAtL1 (x : Column) (r : Req) : Column := x.updBay fun b => { b with reqs := b.reqs ++ [r.back] }

theorem Column.l1Find_waitsAtL1 (x : Column) (r : Req) (cache line : Nat) : (x.waitsAtL1 r).l1Find cache line = x.l1Find cache line := rfl
theorem Column.l1Line_waitsAtL1 (x : Column) (r : Req) (k : Nat) : (x.waitsAtL1 r).l1Line k = x.l1Line k := rfl
theorem Column.back_mem_waitsAtL1 (x : Column) (r : Req) : r.back ∈ (x.waitsAtL1 r).bay.reqs := List.mem_append_right _ (List.mem_singleton_self _)
theorem Column.sameHolds_waitsAtL1 (x : Column) (r : Req) : x.sameHolds (x.waitsAtL1 r) := Column.sameHolds_bay x _

/-! ## Its service -/

section
variable {s : State} {c : Nat} {r : Req}

/-- A request that stands at its slice, its data across the strand, is served where its line is of HBM and no engine command owns it. -/
theorem State.sliceRequest_of_crossed (hfind : ((s.col c).bay.reqs.find? fun q => decide (q.id = r.id)) = some r) (hl1 : r.atL1 = false)
    (hstands : r.stands = true) (htill : r.till ≠ 0) (hclk : r.till ≤ s.clk) (heng : r.eng = none)
    (hclaim : (s.col c).claimed r.region r.line = false) (hkind : (s.col c).bay.kindOf r.region (128 * r.line) = .hbm) :
    s.sliceRequest c r.id = s.serve c r := by
  have hroom : (s.col c).answerRoom c 2 r = true := by simp [Column.answerRoom, Req.foreign, heng]
  unfold State.sliceRequest
  dsimp only
  rw [hfind]
  dsimp only
  rw [hl1, if_neg Bool.false_ne_true, if_pos hstands, hclaim, hroom, if_neg (by simp), if_neg htill, if_neg (Nat.not_lt.mpr hclk), hkind, if_neg (by simp)]

/-- A line that an L1 has sent lands at the home (R85, R319). -/
theorem State.serve_put {l : CacheLine} (hput : r.put = some l) (hkind : (s.col c).bay.kindOf r.region (128 * r.line) = .hbm) :
    ∃ b, (s.col c).bay.settled b ∧ s.serve c r = s.setCol c (((s.col c).withBay b).landPut s.free r.cache l) := by
  have hwrites : (s.col c).writesBay r = true := by simp [Column.writesBay, hput]
  have hsettled := Bay.settled_trans (Bay.settled_removeReq (s.col c).bay r) (Bay.settled_touch _ r.region r.line r.sectors true r.ep)
  obtain ⟨hkinds, -⟩ := id hsettled
  refine ⟨_, hsettled, ?_⟩
  have hkind' := (hkinds r.region (128 * r.line)).trans hkind
  unfold State.serve
  dsimp only
  rw [hwrites, if_pos rfl, hput]
  simp only [Column.updBay_eq, Column.bay_withBay, Column.withBay_withBay]
  rw [hkind']

section
variable {m : MemOp} (heng : r.eng = none) (hput : r.put = none) (hmop : (s.col c).mopOf r = some m)
include heng hput hmop

/-- A word past the L1 is performed at the bay. -/
theorem State.serve_bay (hby : (s.col c).bypasses m r.line = true) (hlu : m.lu = false) :
    ∃ b, (s.col c).bay.settled b ∧ s.serve c r =
      (s.setCol c (((s.col c).withBay b).performBay s.free m r.line).1).afterPart c
        (((s.col c).withBay b).performBay s.free m r.line).2 := by
  have hgone := Bay.settled_removeReq (s.col c).bay r
  have htouched := Bay.settled_trans hgone (Bay.settled_touch _ r.region r.line r.sectors true r.ep)
  unfold State.serve
  simp only [Column.updBay_eq, Column.bay_withBay, Column.withBay_withBay]
  rw [hput, heng, hmop]
  dsimp only
  split
  next => exact ⟨_, htouched, by rw [Column.bypasses_settled htouched, if_pos hby, hlu]; rfl⟩
  next => exact ⟨_, hgone, by rw [Column.bypasses_settled hgone, if_pos hby, hlu]; rfl⟩

/-- The sectors of a word that goes through its L1 come there, and it waits at the L1 with its request. -/
theorem State.serve_fill (hby : (s.col c).bypasses m r.line = false) : ∃ b, (s.col c).bay.settled b ∧ s.serve c r =
    s.setCol c (((((s.col c).withBay b).recallU s.free r.line).fillL1 s.free r.cache r.line (r.sectors &&& ~~~(s.col c).badOf r.line)
      (if m.kind = .store then 2 else rdValue r.rd) r.ep r.region).waitsAtL1 r) := by
  have hgone := Bay.settled_removeReq (s.col c).bay r
  have hwrites : (s.col c).writesBay r = false := by simp [Column.writesBay, heng, hput, hmop, hby]
  have hvalue : (if m.kind = .store then 2 else rdValue r.rd) = (match m.kind with | .store => 2 | _ => rdValue r.rd) := by
    cases m.kind <;> rfl
  refine ⟨_, hgone, ?_⟩
  unfold State.serve Column.waitsAtL1 Req.back
  dsimp only
  rw [hput, heng, hmop, hwrites, hvalue]
  simp only [Column.updBay_eq, Column.bypasses_settled hgone, hby, Bool.false_eq_true, if_false]
  rfl

end

end

/-! ## A word whose sectors have come -/

/-- A word goes on at its L1 once nothing there holds it back (R54, R85). -/
theorem State.sliceRequest_of_arrived {s : State} {c : Nat} {r : Req} {m : MemOp} (h : (s.col c).arrived s.clk r m) :
    ∃ b, (s.col c).bay.settled b ∧ s.sliceRequest c r.id = (s.setCol c ((s.col c).withBay b)).useL1 c m r.line false := by
  obtain ⟨hfind, hl1, hmissed, hdue, hmop, hwaits, hlacks⟩ := h
  have hgone := Bay.settled_removeReq (s.col c).bay r
  have hturn : (s.col c).waitsTurn m r.line = false := by
    rw [Column.l1Waits, Bool.or_eq_false_iff] at hwaits
    obtain ⟨hturn, -⟩ := hwaits
    exact hturn
  have hturn' : ((s.col c).withBay ((s.col c).bay.removeReq r)).waitsTurn m r.line = false := by
    obtain ⟨rs, hrs⟩ := Bay.removeReq_eq (s.col c).bay r
    rw [hrs]
    exact hturn
  have hlacks' : ((s.col c).withBay ((s.col c).bay.removeReq r)).l1Lacks m r.line true = 0#4 := hlacks
  refine ⟨_, hgone, ?_⟩
  unfold State.sliceRequest
  dsimp only
  rw [hfind]
  dsimp only
  rw [if_pos hl1, hmop]
  dsimp only
  rw [hmissed, hwaits, if_neg (by simpa using hdue), State.updCol, Column.updBay_eq, State.atL1]
  dsimp only
  rw [State.col_setCol, if_pos rfl, Column.l1Waits, hturn', hlacks', if_neg (by simp), if_pos rfl]
  rfl

end Sys2Proof.Machine
end

section
/-! Room in an L1 for a line that it does not hold (R85), the bytes of a line as they stand at the home, and the line that a fill leaves. -/

namespace Sys2Proof.Machine

/-! ## The ways of a set -/

/-- The keys of the ways that may hold a line. -/
def l1Ways (cache line : Nat) : List Nat := (List.range 16).map (l1Key cache (l1Set cache line))

/-- An L1 line is a line's. -/
def CacheLine.isOf (l : CacheLine) (line : Nat) : Prop := l.present = true ∧ l.line = line

theorem Column.l1Find_eq_none {x : Column} {cache line : Nat} :
    x.l1Find cache line = none ↔ ∀ j ∈ l1Ways cache line, ¬ (x.l1Line j).isOf line := by
  simp [Column.l1Find, CacheLine.isOf, l1Ways]

theorem Column.l1Find_eq_some {x : Column} {cache line k : Nat} (h : x.l1Find cache line = some k) :
    k ∈ l1Ways cache line ∧ (x.l1Line k).isOf line :=
  ⟨List.mem_of_find?_eq_some h, by simpa [CacheLine.isOf] using List.find?_some h⟩

/-- Only the ways of a line's set matter, and among them the first that is the line's. -/
theorem Column.l1Find_congr {x y : Column} {cache line : Nat} (h : ∀ j ∈ l1Ways cache line, (y.l1Line j).isOf line ↔ (x.l1Line j).isOf line) :
    y.l1Find cache line = x.l1Find cache line := by
  refine List.find?_congr fun j hj => ?_
  rw [Bool.eq_iff_iff]
  simpa [CacheLine.isOf] using h j hj

theorem Column.l1Find_of_only {x : Column} {cache line k : Nat} (hk : k ∈ l1Ways cache line) (his : (x.l1Line k).isOf line)
    (h : ∀ j ∈ l1Ways cache line, j ≠ k → ¬ (x.l1Line j).isOf line) : x.l1Find cache line = some k := by
  cases hfind : x.l1Find cache line with
  | none => exact absurd his (Column.l1Find_eq_none.mp hfind k hk)
  | some j =>
    obtain ⟨hj, hjis⟩ := Column.l1Find_eq_some hfind
    rw [Classical.not_not.mp fun hne => h j hj hne hjis]

/-! ## The victim -/

/-- Columns alike but for V in the lines of their L1s. -/
def Column.aged (x y : Column) : Prop := ∃ t, y = { x with l1 := t } ∧ ∀ j, ∃ v, y.l1Line j = { x.l1Line j with v := v }

theorem Column.aged_refl (x : Column) : x.aged x := ⟨x.l1, rfl, fun j => ⟨(x.l1Line j).v, rfl⟩⟩

theorem Column.aged_trans {x y z : Column} (h : x.aged y) (g : y.aged z) : x.aged z := by
  obtain ⟨t, rfl, hline⟩ := h
  obtain ⟨u, rfl, gline⟩ := g
  refine ⟨u, rfl, fun j => ?_⟩
  obtain ⟨v, hv⟩ := hline j
  obtain ⟨w, hw⟩ := gline j
  exact ⟨w, by rw [hw, hv]⟩

theorem Column.aged_setL1 (x : Column) (k v : Nat) : x.aged (x.setL1 k { x.l1Line k with v := v }) := by
  refine ⟨_, rfl, fun j => ?_⟩
  rw [Column.l1Line_setL1]
  split
  next hj => subst hj; exact ⟨v, rfl⟩
  next => exact ⟨_, rfl⟩

/-- The search for a victim changes nothing but V, and ends in a way of the set. -/
theorem Column.l1Victim_spec (n : Nat) (x : Column) (cache line : Nat) :
    x.aged (Column.l1Victim n x cache (l1Set cache line)).1 ∧ (Column.l1Victim n x cache (l1Set cache line)).2 ∈ l1Ways cache line := by
  induction n generalizing x with
  | zero => exact ⟨Column.aged_refl x, List.mem_map_of_mem (by decide)⟩
  | succ n ih =>
    unfold Column.l1Victim
    split
    next k hk => exact ⟨Column.aged_refl x, List.mem_of_find?_eq_some hk⟩
    next =>
      split
      next k hk => exact ⟨Column.aged_refl x, List.mem_of_find?_eq_some hk⟩
      next =>
        obtain ⟨haged, hmem⟩ := ih ((List.range 16).foldl (fun x w =>
          x.setL1 (l1Key cache (l1Set cache line) w)
            { x.l1Line (l1Key cache (l1Set cache line) w) with v := (x.l1Line (l1Key cache (l1Set cache line) w)).v + 1 }) x)
        refine ⟨Column.aged_trans ?_ haged, hmem⟩
        exact List.foldlRecOn (motive := fun y => x.aged y) (List.range 16) _ (Column.aged_refl x)
          fun y hy w _ => Column.aged_trans hy (Column.aged_setL1 y _ _)

/-! ## Its eviction -/

/-- What an L1 sends of a line is posted as one write-back of that line. -/
theorem Column.sendLine_eq (x : Column) (cache : Nat) (l : CacheLine) :
    ∃ b, x.sendLine cache l = { x with bay := b } ∧ ∀ q ∈ b.reqs, q ∈ x.bay.reqs ∨ q.line = l.line := by
  unfold Column.sendLine
  split
  next => exact ⟨x.bay, rfl, fun q hq => .inl hq⟩
  next => exact ⟨_, rfl, fun q hq => (List.mem_append.mp hq).imp_right fun h => by rw [List.mem_singleton.mp h]⟩

/-- An eviction takes its own line from the L1 and posts a write-back of that line at most. -/
theorem Column.evictL1_eq (x : Column) (k : Nat) : ∃ t b, x.evictL1 k = { x with l1 := t, bay := b } ∧
    (∀ j, j ≠ k → (x.evictL1 k).l1Line j = x.l1Line j) ∧ ∀ q ∈ b.reqs, q ∈ x.bay.reqs ∨ (x.l1Line k).isOf q.line := by
  obtain ⟨b, hsend, hreqs⟩ := Column.sendLine_eq x (k / 2048) (x.l1Line k)
  unfold Column.evictL1
  dsimp only
  split
  next hpresent =>
    rw [hsend]
    refine ⟨_, b, rfl, fun j hj => ?_, fun q hq => (hreqs q hq).imp_right fun h => ⟨hpresent, h.symm⟩⟩
    rw [Column.l1Line_setL1, if_neg hj]
    rfl
  next => exact ⟨x.l1, x.bay, rfl, fun _ _ => rfl, fun q hq => .inl hq⟩

/-- An L1's victim for a line evicted: the column, and the key of the way that is free. -/
def Column.makeRoom (x : Column) (cache line : Nat) : Column × Nat :=
  let p := Column.l1Victim 5 x cache (l1Set cache line)
  (p.1.evictL1 p.2, p.2)

theorem Column.makeRoom_keeps {x : Column} {cache line : Nat} (h : x.l1Find cache line = none) :
    (x.makeRoom cache line).2 ∈ l1Ways cache line ∧
    (∀ j ∈ l1Ways cache line, j ≠ (x.makeRoom cache line).2 → ¬ ((x.makeRoom cache line).1.l1Line j).isOf line) ∧
    x.sameHolds (x.makeRoom cache line).1 ∧ (x.puts cache line = [] → (x.makeRoom cache line).1.puts cache line = []) := by
  obtain ⟨⟨t, haged, hage⟩, hmem⟩ := Column.l1Victim_spec 5 x cache line
  have hnot : ∀ j ∈ l1Ways cache line, ¬ ((Column.l1Victim 5 x cache (l1Set cache line)).1.l1Line j).isOf line := by
    intro j hj
    obtain ⟨v, hv⟩ := hage j
    rw [hv]
    exact Column.l1Find_eq_none.mp h j hj
  obtain ⟨u, b, hevict, hlines, hreqs⟩ := Column.evictL1_eq (Column.l1Victim 5 x cache (l1Set cache line)).1
    (Column.l1Victim 5 x cache (l1Set cache line)).2
  unfold Column.makeRoom
  dsimp only
  refine ⟨hmem, fun j hj hne => by rw [hlines j hne]; exact hnot j hj, ?_, fun hputs => ?_⟩
  · rw [hevict, haged]
    exact ⟨⟨rfl, rfl⟩, rfl, fun _ => rfl, fun _ => rfl, rfl⟩
  · rw [hevict]
    refine List.filter_eq_nil_iff.mpr fun q hq hput => ?_
    rcases hreqs q hq with hold | hof
    · rw [haged] at hold
      exact List.filter_eq_nil_iff.mp hputs q hold hput
    · simp only [Bool.and_eq_true, beq_iff_eq] at hput
      obtain ⟨-, hline⟩ := hput
      exact hnot _ hmem (hline ▸ hof)

/-- A line put where room has been made for it is found there. -/
theorem Column.l1Find_makeRoom {x : Column} {cache line : Nat} {l : CacheLine} (h : x.l1Find cache line = none) (hl : l.isOf line) :
    ((x.makeRoom cache line).1.setL1 (x.makeRoom cache line).2 l).l1Find cache line = some (x.makeRoom cache line).2 := by
  obtain ⟨hmem, hnot, -⟩ := Column.makeRoom_keeps h
  refine Column.l1Find_of_only hmem ?_ fun j hj hne => ?_
  · rw [Column.l1Line_setL1, if_pos rfl]; exact hl
  · rw [Column.l1Line_setL1, if_neg hne]; exact hnot j hj hne

/-! ## A line's bytes -/

/-- The bits of a line put together from its bytes, the last first. -/
theorem getLsbD_foldr_bytes (bs : List Byte) : ∀ i, i < 1024 →
    (bs.foldr (fun b (acc : BitVec 1024) => (acc <<< 8) ||| b.setWidth 1024) 0#1024).getLsbD i = (bs.getD (i / 8) 0#8).getLsbD (i % 8) := by
  induction bs with
  | nil => intro i _; simp
  | cons b bs ih =>
    intro i hi
    rw [List.foldr_cons, BitVec.getLsbD_or, BitVec.getLsbD_shiftLeft, BitVec.getLsbD_setWidth]
    by_cases h : i < 8
    · simp [hi, h, Nat.div_eq_of_lt h, Nat.mod_eq_of_lt h]
    · obtain ⟨j, rfl⟩ : ∃ j, i = j + 8 := ⟨i - 8, by omega⟩
      have hb : b.getLsbD (j + 8) = false := BitVec.getLsbD_of_ge _ _ (by omega)
      have hd : (j + 8) / 8 = j / 8 + 1 := by omega
      rw [hb, hd, List.getD_cons_succ, Nat.add_mod_right, ← ih j (by omega)]
      simp [hi]

theorem getLsbD_foldr_range (f : Nat → Byte) {i : Nat} (hi : i < 1024) :
    ((List.range 128).foldr (fun i (acc : BitVec 1024) => (acc <<< 8) ||| (f i).setWidth 1024) 0#1024).getLsbD i = (f (i / 8)).getLsbD (i % 8) := by
  have hmap := getLsbD_foldr_bytes ((List.range 128).map f) i hi
  rw [List.foldr_map] at hmap
  rw [hmap]
  simp [show i / 8 < 128 by omega]

theorem getLsbD_lineData (x : Column) (free line : Nat) {o i : Nat} (ho : o < 128) (hi : i < 8) :
    (x.lineData free line).getLsbD (8 * o + i) = (x.byteAt free (128 * line + o)).getLsbD i := by
  rw [Column.lineData, getLsbD_foldr_range (fun o => x.byteAt free (128 * line + o)) (by omega), show (8 * o + i) / 8 = o by omega,
    show (8 * o + i) % 8 = i by omega]

theorem getLsbD_spreadBytes (m : BitVec 128) {o i : Nat} (ho : o < 128) (hi : i < 8) : (spreadBytes m).getLsbD (8 * o + i) = m.getLsbD o := by
  have hbytes : spreadBytes m = (List.range 128).foldr
      (fun i (acc : BitVec 1024) => (acc <<< 8) ||| (if m.getLsbD i then 0xFF#8 else 0#8).setWidth 1024) 0#1024 := by
    unfold spreadBytes
    refine List.foldr_ext _ _ _ fun j _ acc => ?_
    split <;> simp
  have hbit : (0xFF#8).getLsbD i = true := by interval_cases i <;> rfl
  rw [hbytes, getLsbD_foldr_range _ (by omega), show (8 * o + i) / 8 = o by omega, show (8 * o + i) % 8 = i by omega]
  cases m.getLsbD o
  · simp
  · exact hbit

/-- The bytes of one sector. -/
theorem getLsbD_sectorOnes (j : Nat) {o : Nat} (ho : o < 128) : (0xFFFFFFFF#128 <<< (32 * j)).getLsbD o = decide (o / 32 = j) := by
  have hall : 0xFFFFFFFF#128 = (BitVec.allOnes 32).setWidth 128 := rfl
  rw [BitVec.getLsbD_shiftLeft, hall, BitVec.getLsbD_setWidth, BitVec.getLsbD_allOnes]
  grind

theorem getLsbD_foldl_sectors (m : BitVec 4) {o : Nat} (ho : o < 128) (js : List Nat) : ∀ b : BitVec 128,
    (js.foldl (fun b i => if m.getLsbD i then b ||| (0xFFFFFFFF#128 <<< (32 * i)) else b) b).getLsbD o =
      (b.getLsbD o || (decide (o / 32 ∈ js) && m.getLsbD (o / 32))) := by
  induction js with
  | nil => intro b; simp
  | cons j js ih =>
    intro b
    rw [List.foldl_cons, ih]
    by_cases hj : o / 32 = j
    · subst hj
      cases hm : m.getLsbD (o / 32) <;> simp [getLsbD_sectorOnes _ ho]
    · split
      next => rw [BitVec.getLsbD_or, getLsbD_sectorOnes j ho]; simp [hj]
      next => simp [hj]

theorem getLsbD_sectorBytes (m : BitVec 4) {o : Nat} (ho : o < 128) : (sectorBytes m).getLsbD o = m.getLsbD (o / 32) := by
  rw [sectorBytes, getLsbD_foldl_sectors m ho]
  simp [show o / 32 < 4 by omega]

/-- The bytes of a line under a mask of its sectors. -/
theorem extractLsb_masked (d : BitVec 1024) (m : BitVec 4) {o : Nat} (ho : o < 128) (hm : m.getLsbD (o / 32) = true) :
    (d &&& spreadBytes (sectorBytes m)).extractLsb' (8 * o) 8 = d.extractLsb' (8 * o) 8 := by
  refine BitVec.eq_of_getLsbD_eq fun i hi => ?_
  rw [BitVec.getLsbD_extractLsb', BitVec.getLsbD_extractLsb', BitVec.getLsbD_and, getLsbD_spreadBytes _ ho hi, getLsbD_sectorBytes m ho, hm,
    Bool.and_true]

theorem extractLsb_lineData (x : Column) (free line : Nat) {o : Nat} (ho : o < 128) :
    (x.lineData free line).extractLsb' (8 * o) 8 = x.byteAt free (128 * line + o) := by
  refine BitVec.eq_of_getLsbD_eq fun i hi => ?_
  rw [BitVec.getLsbD_extractLsb', getLsbD_lineData x free line ho hi, decide_eq_true hi, Bool.true_and]

/-! ## A fill -/

/-- A line put into an L1 changes nothing that memory and the agents hold. -/
theorem Column.sameHolds_setL1 (x : Column) (k : Nat) (l : CacheLine) : x.sameHolds (x.setL1 k l) :=
  ⟨⟨rfl, rfl⟩, rfl, fun _ => rfl, fun _ => rfl, rfl⟩

/-- The line that a fill leaves in an L1 that did not hold it: some sectors of the home's bytes. -/
def Column.filled (x : Column) (free line : Nat) (sectors : BitVec 4) (v ep region : Nat) : CacheLine :=
  { line := line, valid := sectors, v := v, data := x.lineData free line &&& spreadBytes (sectorBytes sectors), ep := ep, region := region }

theorem Column.fillL1_of_missing {x : Column} {free cache line : Nat} {sectors : BitVec 4} (v ep region : Nat) (hsec : sectors ≠ 0#4)
    (hfind : x.l1Find cache line = none) (hputs : x.puts cache line = []) :
    x.fillL1 free cache line sectors v ep region =
      (x.makeRoom cache line).1.setL1 (x.makeRoom cache line).2 (x.filled free line sectors v ep region) := by
  obtain ⟨-, -, ⟨hhome, -⟩, hkeep⟩ := Column.makeRoom_keeps hfind
  have hdata : (x.makeRoom cache line).1.seenData free cache line = x.lineData free line := by
    unfold Column.seenData Column.lineData
    rw [hkeep hputs, List.foldl_nil]
    simp only [hhome.byteAt_eq]
  unfold Column.fillL1
  rw [if_neg hsec, hfind]
  unfold Column.filled
  rw [← hdata]
  rfl

theorem Column.bytes_filled (x : Column) (free line : Nat) (sectors : BitVec 4) (v ep region : Nat) {o : Nat} (ho : o < 128)
    (h : sectors.getLsbD (o / 32) = true) : (x.filled free line sectors v ep region).bytes o 1 = [x.byteAt free (128 * line + o)] := by
  rw [CacheLine.bytes_one, CacheLine.byte, Column.filled, extractLsb_masked _ _ ho h, extractLsb_lineData x free line ho]

end Sys2Proof.Machine
end

section
/-! Reductions in an L1: the words of a line and its partial, and a RED begun (R61, R155). -/

namespace Sys2Proof.Machine

/-! ## The words of a line -/

theorem getLsbD_lineWord (l : CacheLine) (i : Nat) {b : Nat} (hb : b < 32) : (lineWord l.data i).getLsbD b = (l.byte (4 * i + b / 8)).getLsbD (b % 8) := by
  rw [lineWord, CacheLine.byte, BitVec.getLsbD_extractLsb', BitVec.getLsbD_extractLsb', decide_eq_true hb, decide_eq_true (show b % 8 < 8 by omega),
    show 8 * (4 * i + b / 8) + b % 8 = 32 * i + b by omega]

/-- A word merged into a line as its four bytes. -/
def CacheLine.mergeWord (l : CacheLine) (j : Nat) (w : Word) : CacheLine := l.mergeBytes (4 * j) (bytesOf 4 w.toNat)

theorem CacheLine.lineWord_mergeWord (l : CacheLine) (j : Nat) (w : Word) {i : Nat} (hi : i < 32) :
    lineWord (l.mergeWord j w).data i = if i = j then w else lineWord l.data i := by
  refine BitVec.eq_of_getLsbD_eq fun b hb => ?_
  rw [getLsbD_lineWord _ i hb, CacheLine.mergeWord, CacheLine.byte_mergeBytes (by omega), length_bytesOf]
  by_cases h : i = j
  · subst h
    rw [if_pos (by omega), if_pos rfl, show 4 * i + b / 8 - 4 * i = b / 8 by omega, getD_bytesOf _ (by omega), BitVec.getLsbD_ofNat,
      Nat.testBit_shiftRight, show 8 * (b / 8) + b % 8 = b by omega, decide_eq_true (show b % 8 < 8 by omega), Bool.true_and]
    rfl
  · rw [if_neg (by omega), if_neg h, getLsbD_lineWord l i hb]

theorem CacheLine.dirty_mergeWord (l : CacheLine) (j : Nat) (w : Word) {i : Nat} (hi : i < 32) :
    (l.mergeWord j w).dirty.extractLsb' (4 * i) 4 = if i = j then 15#4 else l.dirty.extractLsb' (4 * i) 4 := by
  refine BitVec.eq_of_getLsbD_eq fun b hb => ?_
  have hones : (15#4).getLsbD b = true := by interval_cases b <;> rfl
  rw [BitVec.getLsbD_extractLsb', CacheLine.mergeWord, CacheLine.dirty_mergeBytes (by omega), length_bytesOf, decide_eq_true hb, Bool.true_and]
  by_cases h : i = j
  · subst h
    rw [if_pos rfl, hones, decide_eq_true (by omega), Bool.or_true]
  · rw [if_neg h, decide_eq_false (by omega), Bool.or_false, BitVec.getLsbD_extractLsb', decide_eq_true hb, Bool.true_and]

theorem CacheLine.mergeBytes_keeps (bs : List Byte) : ∀ (l : CacheLine) (off : Nat),
    (l.mergeBytes off bs).u = l.u ∧ (l.mergeBytes off bs).line = l.line ∧ (l.mergeBytes off bs).valid = l.valid := by
  induction bs with
  | nil => exact fun l _ => ⟨rfl, rfl, rfl⟩
  | cons b bs ih => exact fun l off => ih (l.merge off b) (off + 1)

/-! ## A partial -/

/-- A lane's operand combined into its word of a partial. -/
def CacheLine.combine (op : Nat) (l : CacheLine) (a : Acc) : CacheLine :=
  l.mergeWord (a.pa % 128 / 4) (redCombine op (lineWord l.data (a.pa % 128 / 4)) (BitVec.ofNat 32 a.x))

theorem CacheLine.combined_keeps (op : Nat) (accs : List Acc) (l : CacheLine) :
    (accs.foldl (CacheLine.combine op) l).u = l.u ∧ (accs.foldl (CacheLine.combine op) l).line = l.line := by
  refine List.foldlRecOn (motive := fun k : CacheLine => k.u = l.u ∧ k.line = l.line) accs _ ⟨rfl, rfl⟩ fun k hk a _ => ?_
  obtain ⟨hu, hline⟩ := hk
  obtain ⟨hu', hline', -⟩ := CacheLine.mergeBytes_keeps (bytesOf 4 (redCombine op (lineWord k.data (a.pa % 128 / 4)) (BitVec.ofNat 32 a.x)).toNat) k
    (4 * (a.pa % 128 / 4))
  exact ⟨hu'.trans hu, hline'.trans hline⟩

/-- Each word of a partial is combined with its own lanes' operands, in their order, and is dirty once one has come. -/
theorem CacheLine.combined_words (op : Nat) {i : Nat} (hi : i < 32) (accs : List Acc) : ∀ l : CacheLine,
    lineWord (accs.foldl (CacheLine.combine op) l).data i =
        (accs.filter fun a => decide (a.pa % 128 / 4 = i)).foldl (fun w a => redCombine op w (BitVec.ofNat 32 a.x)) (lineWord l.data i) ∧
      (accs.foldl (CacheLine.combine op) l).dirty.extractLsb' (4 * i) 4 =
        if (accs.filter fun a => decide (a.pa % 128 / 4 = i)).isEmpty then l.dirty.extractLsb' (4 * i) 4 else 15#4 := by
  induction accs with
  | nil => exact fun l => ⟨rfl, rfl⟩
  | cons a accs ih =>
    intro l
    obtain ⟨hword, hdirty⟩ := ih (l.combine op a)
    have hw := l.lineWord_mergeWord (a.pa % 128 / 4) (redCombine op (lineWord l.data (a.pa % 128 / 4)) (BitVec.ofNat 32 a.x)) hi
    have hd := l.dirty_mergeWord (a.pa % 128 / 4) (redCombine op (lineWord l.data (a.pa % 128 / 4)) (BitVec.ofNat 32 a.x)) hi
    rw [List.foldl_cons, hword, hdirty, CacheLine.combine, hw, hd]
    by_cases h : a.pa % 128 / 4 = i
    · subst h
      simp
    · simp [h, Ne.symm h]

/-- A partial with which nothing has been combined yet (R61). -/
def freshPartial (op line : Nat) : CacheLine :=
  { line := line, u := some op, data := (List.range 32).foldl (fun d _ => (d <<< 32) ||| (redStart op).setWidth 1024) 0#1024 }

/-- Each word of a line put together from copies of one word is that word. -/
theorem getLsbD_foldl_copies (w : Word) {n j b : Nat} (hj : j < n) (hb : b < 32) (hlt : 32 * j + b < 1024) :
    ((List.range n).foldl (fun (d : BitVec 1024) _ => (d <<< 32) ||| w.setWidth 1024) 0#1024).getLsbD (32 * j + b) = w.getLsbD b := by
  induction n generalizing j with
  | zero => omega
  | succ n ih =>
    rw [List.range_succ, List.foldl_append, List.foldl_cons, List.foldl_nil, BitVec.getLsbD_or, BitVec.getLsbD_shiftLeft, BitVec.getLsbD_setWidth]
    cases j with
    | zero => simp [hb, show b < 1024 by omega]
    | succ j =>
      have hw : w.getLsbD (32 * (j + 1) + b) = false := BitVec.getLsbD_of_ge _ _ (by omega)
      rw [hw, show 32 * (j + 1) + b - 32 = 32 * j + b by omega, ih (by omega) (by omega)]
      simp [hlt, show ¬ 32 * (j + 1) + b < 32 by omega]

theorem lineWord_freshPartial (op line : Nat) {i : Nat} (hi : i < 32) : lineWord (freshPartial op line).data i = redStart op := by
  refine BitVec.eq_of_getLsbD_eq fun b hb => ?_
  rw [lineWord, BitVec.getLsbD_extractLsb', decide_eq_true hb, Bool.true_and]
  exact getLsbD_foldl_copies (redStart op) hi hb (by omega)

/-! ## A reduction at its L1 -/

section
variable {x : Column} {m : MemOp} {op line : Nat} (hin : x.inLine m line)
include hin

theorem Column.performRed_of_missing (hfind : x.l1Find m.cache line = none) : x.performRed m op line =
    ((x.makeRoom m.cache line).1.setL1 (x.makeRoom m.cache line).2
      { m.accs.foldl (CacheLine.combine op) (freshPartial op line) with ep := m.ep, region := m.ctx }, { m with accs := [] }) := by
  obtain ⟨hpart, hothers⟩ := hin.part_eq
  unfold Column.performRed
  rw [hfind, hpart, hothers]
  rfl

theorem Column.performRed_of_partial {k : Nat} (hfind : x.l1Find m.cache line = some k) (hu : (x.l1Line k).u = some op) :
    x.performRed m op line =
      (x.setL1 k { m.accs.foldl (CacheLine.combine op) (x.l1Line k) with ep := m.ep, region := m.ctx }, { m with accs := [] }) := by
  obtain ⟨hpart, hothers⟩ := hin.part_eq
  unfold Column.performRed
  dsimp only
  rw [hfind, hpart, hothers]
  dsimp only
  rw [if_pos hu]
  rfl

end

/-- The partial that a reduction continues: the L1's own, or, where it holds no copy of the line, one that nothing has been combined with. -/
def Column.continues (x : Column) (m : MemOp) (op line : Nat) (before : CacheLine) : Prop :=
  (x.l1Find m.cache line = none ∧ before.dirty = 0#128 ∧ ∀ i, i < 32 → lineWord before.data i = redStart op) ∨
    ∃ k, x.l1Find m.cache line = some k ∧ (x.l1Line k).u = some op ∧ before = x.l1Line k

/-- A reduction leaves its partial in its L1, and the home's bytes alone. -/
theorem Column.performRed_spec {x : Column} {m : MemOp} {op line : Nat} {before : CacheLine} (hin : x.inLine m line) (h : x.continues m op line before) :
    ∃ y, x.performRed m op line = (y, { m with accs := [] }) ∧ x.sameHolds y ∧ ∃ k, y.l1Find m.cache line = some k ∧ (y.l1Line k).u = some op ∧
      ∀ i, i < 32 →
        lineWord (y.l1Line k).data i = (m.accs.filter fun a => decide (a.pa % 128 / 4 = i)).foldl
          (fun w a => redCombine op w (BitVec.ofNat 32 a.x)) (lineWord before.data i) ∧
        (y.l1Line k).dirty.extractLsb' (4 * i) 4 =
          if (m.accs.filter fun a => decide (a.pa % 128 / 4 = i)).isEmpty then before.dirty.extractLsb' (4 * i) 4 else 15#4 := by
  rcases h with ⟨hfind, hdirty, hdata⟩ | ⟨k, hfind, hu, rfl⟩
  · obtain ⟨hpu, hpline⟩ := CacheLine.combined_keeps op m.accs (freshPartial op line)
    have hpu : (m.accs.foldl (CacheLine.combine op) (freshPartial op line)).u = some op := hpu
    have hfound := Column.l1Find_makeRoom
      (l := { m.accs.foldl (CacheLine.combine op) (freshPartial op line) with ep := m.ep, region := m.ctx }) hfind
      ⟨by simp [CacheLine.present, hpu], hpline⟩
    obtain ⟨-, -, hholds, -⟩ := Column.makeRoom_keeps hfind
    refine ⟨_, Column.performRed_of_missing hin hfind, hholds, _, hfound, ?_⟩
    rw [Column.l1Line_setL1, if_pos rfl]
    refine ⟨hpu, fun i hi => ?_⟩
    obtain ⟨hword, hdirty'⟩ := CacheLine.combined_words op hi m.accs (freshPartial op line)
    rw [lineWord_freshPartial op line hi] at hword
    rw [hdata i hi, hdirty]
    exact ⟨hword, hdirty'⟩
  · obtain ⟨hpu, hpline⟩ := CacheLine.combined_keeps op m.accs (x.l1Line k)
    obtain ⟨-, -, hline⟩ := Column.l1Find_eq_some hfind
    refine ⟨_, Column.performRed_of_partial hin hfind hu, ⟨⟨rfl, rfl⟩, rfl, fun _ => rfl, fun _ => rfl, rfl⟩, k, ?_, ?_⟩
    · rw [← hfind]
      refine Column.l1Find_congr fun j _ => ?_
      rw [Column.l1Line_setL1]
      split
      next hj =>
        subst hj
        simp [CacheLine.isOf, CacheLine.present, hpu, hpline, hu]
      next => rfl
    · rw [Column.l1Line_setL1, if_pos rfl]
      exact ⟨hpu.trans hu, fun i hi => CacheLine.combined_words op hi m.accs (x.l1Line k)⟩

/-! ## Its issue -/

section
variable {s : State} {c : Nat} {m : MemOp} {line : Nat}

/-- A new word all of whose accesses lie in one line goes to its L1 as it issues, unless it bypasses that (R83). -/
theorem State.startOp_of_inLine (hin : (s.col c).inLine m line) (hnew : ∀ q ∈ (s.col c).mops, q.id ≠ m.id)
    (hby : (s.col c).bypasses m line = false) :
    ∃ due, s.startOp c m = (s.setCol c ((s.col c).begun m s.clk)).atL1 c m line due false := by
  have hne : m.accs.isEmpty = false := by obtain ⟨hne, -⟩ := hin; simpa using hne
  obtain ⟨-, hbay, -, hmops, -⟩ := Column.begun_keeps (s.col c) m s.clk
  have hfind : ((s.col c).begun m s.clk).mops.find? (fun q => decide (q.id = m.id)) = some m := by
    rw [hmops, List.find?_append, List.find?_eq_none.mpr fun q hq => by simpa using hnew q hq]
    simp
  have hby' : ((s.col c).begun m s.clk).bypasses m line = false := by simpa only [Column.bypasses, hbay] using hby
  have hport : ((s.updCol c fun x => { x.noteWrites m with mops := x.mops ++ [m] }).col c).takePort m.cache s.clk =
      (max s.clk (Tab.get 0 ((s.col c).noteWrites m).l1Port m.cache), (s.col c).begun m s.clk) := by
    rw [State.col_updCol, if_pos rfl]; rfl
  refine ⟨max s.clk (Tab.get 0 ((s.col c).noteWrites m).l1Port m.cache), ?_⟩
  unfold State.startOp
  dsimp only
  rw [hne, hin.linesOf_eq, List.foldl_cons, List.foldl_nil, State.updCol_clk, hport]
  dsimp only
  rw [hfind]
  dsimp only
  rw [if_neg Bool.false_ne_true, hby', if_neg Bool.false_ne_true, State.updCol, State.setCol_setCol]

/-- A reduction that waits for no earlier word is combined as it issues: it asks the bay for nothing. -/
theorem State.startOp_red {op : Nat} (hin : (s.col c).inLine m line) (hnew : ∀ q ∈ (s.col c).mops, q.id ≠ m.id)
    (hby : (s.col c).bypasses m line = false) (hturn : (s.col c).waitsTurn m line = false) (hlu : m.lu = false) (hkind : m.kind = .red op) :
    s.startOp c m = (s.setCol c (((s.col c).begun m s.clk).performRed m op line).1).afterPart c (((s.col c).begun m s.clk).performRed m op line).2 := by
  obtain ⟨due, hstart⟩ := State.startOp_of_inLine hin hnew hby
  have hwaits : ((s.col c).begun m s.clk).l1Waits m line false = false := by
    simp [Column.l1Waits, Column.waitsTurn_begun, hturn, Column.l1Lacks, hkind]
  have hlacks : ((s.col c).begun m s.clk).l1Lacks m line false = 0#4 := by simp [Column.l1Lacks, hkind]
  rw [hstart, State.atL1]
  dsimp only
  rw [State.col_setCol, if_pos rfl, hwaits, if_neg Bool.false_ne_true, hlacks, if_pos rfl, State.useL1]
  dsimp only
  rw [hkind]
  dsimp only
  rw [State.col_setCol, if_pos rfl, hlu, if_neg Bool.false_ne_true, State.setCol_setCol]

end

end Sys2Proof.Machine
end

section
/-! What the bay leaves at the home: a line that an L1 has sent, its dirty bytes or its partial (R61, R85), and the lanes of an atomic, one after
another (R153, R154, R156). -/

namespace Sys2Proof.Machine

section
variable {free : Nat}

/-! ## Writes at the home alone -/

/-- A column of which nothing but bytes at the home have changed; a mark may have gone with them (R164). -/
def Column.writesHome (x y : Column) : Prop := ∃ m u b, y = { x with mem := m, undefined := u, badSectors := b } ∧ b ⊆ x.badSectors

theorem Column.writesHome_refl (x : Column) : x.writesHome x := ⟨x.mem, x.undefined, x.badSectors, rfl, List.Subset.refl _⟩

theorem Column.writesHome_trans {x y z : Column} (h : x.writesHome y) (g : y.writesHome z) : x.writesHome z := by
  obtain ⟨m, u, b, rfl, hb⟩ := h
  obtain ⟨m', u', b', rfl, hb'⟩ := g
  exact ⟨m', u', b', rfl, List.Subset.trans hb' hb⟩

theorem Column.writesHome_putByte (x : Column) (a : Nat) (b : Byte) : x.writesHome (x.putByte a b) := ⟨_, _, _, rfl, List.Subset.refl _⟩

theorem Column.writesHome_putBytes (bs : List Byte) : ∀ (x : Column) (a : Nat), x.writesHome (x.putBytes a bs) := by
  induction bs with
  | nil => exact fun x _ => Column.writesHome_refl x
  | cons b bs ih => exact fun x a => Column.writesHome_trans (Column.writesHome_putByte x a b) (ih _ _)

theorem Column.writesHome_clearMarks (x : Column) (line : Nat) (mask : BitVec 128) : x.writesHome (x.clearMarks line mask) :=
  ⟨_, _, _, rfl, List.filter_subset_self _⟩

theorem Column.writesHome_land (x : Column) (free : Nat) (l : CacheLine) : x.writesHome (x.land free l) := by
  unfold Column.land
  split
  next op _ =>
    refine List.foldlRecOn (List.range 32) _ (Column.writesHome_refl x) fun y hy i _ => ?_
    split
    next => exact hy
    next => exact Column.writesHome_trans hy (Column.writesHome_putBytes _ _ _)
  next =>
    refine Column.writesHome_trans (List.foldlRecOn (List.range 128) _ (Column.writesHome_refl x) fun y hy i _ => ?_)
      (Column.writesHome_clearMarks _ _ _)
    split
    next => exact Column.writesHome_trans hy (Column.writesHome_putByte _ _ _)
    next => exact hy

theorem Column.writesHome.sameThreads {x y : Column} (h : x.writesHome y) : x.sameThreads y := by
  obtain ⟨m, u, b, rfl, -⟩ := h
  exact ⟨fun _ => rfl, fun _ => rfl, rfl⟩

theorem Column.writesHome.isBad {x y : Column} (h : x.writesHome y) {a : Acc} (ha : x.isBad a = false) : y.isBad a = false := by
  obtain ⟨m, u, b, rfl, hb⟩ := h
  rw [Column.isBad, ← Bool.not_eq_true, List.contains_iff_mem] at ha ⊢
  exact fun hmem => ha (hb hmem)

/-! ## Numbers at the home -/

theorem Column.bytesAt_congr {x y : Column} {pa n : Nat} (h : ∀ i, i < n → y.byteAt free (pa + i) = x.byteAt free (pa + i)) :
    y.bytesAt free pa n = x.bytesAt free pa n :=
  List.map_congr_left fun i hi => h i (List.mem_range.mp hi)

theorem Column.bytesAt_putBytes (x : Column) (pa n v : Nat) : (x.putBytes pa (bytesOf n v)).bytesAt free pa n = bytesOf n v := by
  refine List.map_congr_left fun i hi => ?_
  have hi : i < n := List.mem_range.mp hi
  rw [Column.byteAt_putBytes, length_bytesOf, if_pos (by omega), Nat.add_sub_cancel_left, getD_bytesOf v hi]

theorem Column.byteAt_putBytes_other (x : Column) {pa a : Nat} {bs : List Byte} (h : a < pa ∨ pa + bs.length ≤ a) :
    (x.putBytes pa bs).byteAt free a = x.byteAt free a := by
  rw [Column.byteAt_putBytes, if_neg (by omega)]

/-! ## A line that an L1 has sent -/

/-- The dirty bytes of a line below a bound written at the home. -/
def Column.putBelow (x : Column) (line : Nat) (mask : BitVec 128) (data : BitVec 1024) (n : Nat) : Column :=
  (List.range n).foldl (fun x i => if mask.getLsbD i then x.putByte (128 * line + i) (data.extractLsb' (8 * i) 8) else x) x

theorem Column.byteAt_putLine_eq (x : Column) (line : Nat) (mask : BitVec 128) (data : BitVec 1024) (a : Nat) :
    (x.putLine line mask data).byteAt free a = (x.putBelow line mask data 128).byteAt free a := rfl

theorem Column.putBelow_succ (x : Column) (line : Nat) (mask : BitVec 128) (data : BitVec 1024) (n : Nat) : x.putBelow line mask data (n + 1) =
    if mask.getLsbD n then (x.putBelow line mask data n).putByte (128 * line + n) (data.extractLsb' (8 * n) 8) else x.putBelow line mask data n := by
  rw [Column.putBelow, List.range_succ, List.foldl_append]
  rfl

theorem Column.byteAt_putBelow (x : Column) (line : Nat) (mask : BitVec 128) (data : BitVec 1024) (a : Nat) {n : Nat} (hn : n ≤ 128) :
    (x.putBelow line mask data n).byteAt free a =
      if a / 128 = line ∧ a % 128 < n ∧ mask.getLsbD (a % 128) = true then data.extractLsb' (8 * (a % 128)) 8 else x.byteAt free a := by
  induction n with
  | zero => simp [Column.putBelow]
  | succ n ih =>
    rw [Column.putBelow_succ]
    by_cases ha : a = 128 * line + n
    · have hdiv : a / 128 = line := by omega
      have hmod : a % 128 = n := by omega
      split
      next hm => rw [Column.byteAt_putByte, if_pos ha, if_pos ⟨hdiv, by omega, by rw [hmod, hm]⟩, hmod]
      next hm => rw [ih (by omega), if_neg (by omega), if_neg (by simp [hmod, hm])]
    · have hiff : (a / 128 = line ∧ a % 128 < n + 1) ↔ (a / 128 = line ∧ a % 128 < n) := by omega
      rw [apply_ite (fun y : Column => y.byteAt free a), Column.byteAt_putByte, if_neg ha, ite_self, ih (by omega)]
      simp only [← and_assoc, hiff]

/-- Dirty bytes are written under their mask. -/
theorem Column.byteAt_putLine (x : Column) (line : Nat) (mask : BitVec 128) (data : BitVec 1024) (a : Nat) :
    (x.putLine line mask data).byteAt free a =
      if a / 128 = line ∧ mask.getLsbD (a % 128) = true then data.extractLsb' (8 * (a % 128)) 8 else x.byteAt free a := by
  have h := x.byteAt_putBelow (free := free) line mask data a (Nat.le_refl 128)
  simpa only [Column.byteAt_putLine_eq, show a % 128 < 128 from Nat.mod_lt _ (by omega), true_and] using h

theorem Column.wordAt_putWord (x : Column) (pa : Nat) (w : Word) : (x.putWord pa w).wordAt free pa = w := by
  have hw : w.toNat < 256 ^ 4 := w.isLt
  rw [Column.wordAt, Column.putWord, Column.bytesAt_putBytes, natOfBytes_bytesOf, Nat.mod_eq_of_lt hw, BitVec.ofNat_toNat, BitVec.setWidth_eq]

theorem Column.wordAt_congr {x y : Column} {pa : Nat} (h : ∀ i, i < 4 → y.byteAt free (pa + i) = x.byteAt free (pa + i)) :
    y.wordAt free pa = x.wordAt free pa := by rw [Column.wordAt, Column.wordAt, Column.bytesAt_congr h]

/-- The words of a partial below a bound folded into memory. -/
def Column.foldBelow (x : Column) (free : Nat) (l : CacheLine) (op n : Nat) : Column :=
  (List.range n).foldl (fun x i =>
    if l.dirty.extractLsb' (4 * i) 4 = 0#4 then x
    else x.putWord (128 * l.line + 4 * i) (redCombine op (x.wordAt free (128 * l.line + 4 * i)) (lineWord l.data i))) x

theorem Column.foldLine_eq (x : Column) (l : CacheLine) (op : Nat) : x.foldLine free l op = x.foldBelow free l op 32 := rfl

theorem Column.foldBelow_succ (x : Column) (l : CacheLine) (op n : Nat) : x.foldBelow free l op (n + 1) =
    if l.dirty.extractLsb' (4 * n) 4 = 0#4 then x.foldBelow free l op n
    else (x.foldBelow free l op n).putWord (128 * l.line + 4 * n)
      (redCombine op ((x.foldBelow free l op n).wordAt free (128 * l.line + 4 * n)) (lineWord l.data n)) := by
  rw [Column.foldBelow, List.range_succ, List.foldl_append]
  rfl

/-- Each word goes to its own four bytes. -/
theorem Column.byteAt_foldBelow_other (x : Column) (l : CacheLine) (op : Nat) {n a : Nat} (h : a < 128 * l.line ∨ 128 * l.line + 4 * n ≤ a) :
    (x.foldBelow free l op n).byteAt free a = x.byteAt free a := by
  induction n with
  | zero => rfl
  | succ n ih =>
    rw [Column.foldBelow_succ]
    split
    next => exact ih (by omega)
    next => rw [Column.putWord, Column.byteAt_putBytes_other _ (by rw [length_bytesOf]; omega), ih (by omega)]

theorem Column.wordAt_foldBelow (x : Column) (l : CacheLine) (op : Nat) {n i : Nat} (hi : i < n) :
    (x.foldBelow free l op n).wordAt free (128 * l.line + 4 * i) =
      if l.dirty.extractLsb' (4 * i) 4 = 0#4 then x.wordAt free (128 * l.line + 4 * i)
      else redCombine op (x.wordAt free (128 * l.line + 4 * i)) (lineWord l.data i) := by
  induction n with
  | zero => omega
  | succ n ih =>
    have hfresh : (x.foldBelow free l op n).wordAt free (128 * l.line + 4 * n) = x.wordAt free (128 * l.line + 4 * n) :=
      Column.wordAt_congr fun j _ => x.byteAt_foldBelow_other l op (by omega)
    rw [Column.foldBelow_succ]
    by_cases h : i = n
    · subst h
      split
      next => exact hfresh
      next => rw [Column.wordAt_putWord, hfresh]
    · rw [← ih (by omega)]
      split
      next => rfl
      next =>
        refine Column.wordAt_congr fun j hj => ?_
        rw [Column.putWord, Column.byteAt_putBytes_other _ (by rw [length_bytesOf]; omega)]

/-- A line lands as it was sent where no other L1 has anything of it to be recalled first. -/
theorem Column.landPut_eq {x : Column} {cache : Nat} {l : CacheLine}
    (h : ∀ c, c < 9 → c ≠ cache → x.l1Find c l.line = none ∧ x.puts c l.line = []) : x.landPut free cache l = x.land free l := by
  have hfold : x.recallFrom free l.line ((List.range 9).filter (· ≠ cache)) = x := by
    refine List.foldlRecOn (motive := fun y => y = x) _ _ rfl fun y hy c hc => ?_
    subst hy
    obtain ⟨hrange, hne⟩ := List.mem_filter.mp hc
    obtain ⟨hfind, hputs⟩ := h c (List.mem_range.mp hrange) (by simpa using hne)
    simp [hfind, hputs]
  rw [Column.landPut, hfold, ite_self]

theorem Column.byteAt_land_other (x : Column) (l : CacheLine) {a : Nat} (ha : a / 128 ≠ l.line) : (x.land free l).byteAt free a = x.byteAt free a := by
  unfold Column.land
  split
  next => rw [Column.foldLine_eq, x.byteAt_foldBelow_other l _ (by omega)]
  next => rw [Column.byteAt_putLine, if_neg fun ⟨hline, _⟩ => ha hline]

theorem Column.byteAt_land_dirty (x : Column) {l : CacheLine} (hu : l.u = none) {o : Nat} (ho : o < 128) :
    (x.land free l).byteAt free (128 * l.line + o) =
      if l.dirty.getLsbD o then l.data.extractLsb' (8 * o) 8 else x.byteAt free (128 * l.line + o) := by
  unfold Column.land
  rw [hu]
  dsimp only
  rw [Column.byteAt_putLine, show (128 * l.line + o) % 128 = o by omega]
  simp [show (128 * l.line + o) / 128 = l.line by omega]

theorem Column.wordAt_land_partial (x : Column) {l : CacheLine} {op : Nat} (hu : l.u = some op) {i : Nat} (hi : i < 32) :
    (x.land free l).wordAt free (128 * l.line + 4 * i) =
      if l.dirty.extractLsb' (4 * i) 4 = 0#4 then x.wordAt free (128 * l.line + 4 * i)
      else redCombine op (x.wordAt free (128 * l.line + 4 * i)) (lineWord l.data i) := by
  unfold Column.land
  rw [hu]
  dsimp only
  rw [Column.foldLine_eq, x.wordAt_foldBelow l op hi]

/-! ## One access after another -/

/-- An access performed at the bay (R154, R156): its bytes become what its operation makes of the value that it finds. -/
def Column.applyAcc (free op line : Nat) (x : Column) (a : Acc) : Column :=
  x.storeHome line [{ a with x := a.apply op (natOfBytes (x.bytesAt free a.pa a.size)) }]

/-- What each of some accesses finds, one after another. -/
def Column.finds (free op line : Nat) : Column → List Acc → List (Nat × Nat)
  | _, [] => []
  | x, a :: accs => (a.lane, natOfBytes (x.bytesAt free a.pa a.size)) :: Column.finds free op line (x.applyAcc free op line a) accs

section
variable {op line : Nat} {x : Column}

theorem Column.writesHome_applyAcc (x : Column) (a : Acc) : x.writesHome (Column.applyAcc free op line x a) :=
  Column.writesHome_trans (Column.writesHome_putBytes _ x a.pa) (Column.writesHome_clearMarks _ _ _)

theorem Column.writesHome_applied (accs : List Acc) (x : Column) : x.writesHome (accs.foldl (Column.applyAcc free op line) x) :=
  List.foldlRecOn accs _ (Column.writesHome_refl x) fun _ hy a _ => Column.writesHome_trans hy (Column.writesHome_applyAcc _ a)

theorem Column.byteAt_applyAcc_other {a : Acc} {b : Nat} (h : b < a.pa ∨ a.pa + a.size ≤ b) :
    (x.applyAcc free op line a).byteAt free b = x.byteAt free b :=
  x.byteAt_putBytes_other (by rwa [length_bytesOf])

theorem Acc.apply_lt {a : Acc} (h8 : op = 15 → a.size = 8) (h4 : op ≠ 15 → a.size = 4) (old : Nat) : a.apply op old < 256 ^ a.size := by
  unfold Acc.apply
  split
  next h => rw [h8 h]; exact Nat.mod_lt _ (by decide)
  next h => rw [h4 h]; exact BitVec.isLt _

theorem Column.bytesAt_applyAcc {a : Acc} (h8 : op = 15 → a.size = 8) (h4 : op ≠ 15 → a.size = 4) :
    natOfBytes ((x.applyAcc free op line a).bytesAt free a.pa a.size) = a.apply op (natOfBytes (x.bytesAt free a.pa a.size)) := by
  have hbytes : (x.applyAcc free op line a).bytesAt free a.pa a.size =
      bytesOf a.size (a.apply op (natOfBytes (x.bytesAt free a.pa a.size))) := Column.bytesAt_putBytes x a.pa a.size _
  rw [hbytes, natOfBytes_bytesOf, Nat.mod_eq_of_lt (Acc.apply_lt h8 h4 _)]

theorem Column.byteAt_applied_other {accs : List Acc} {b : Nat} (h : ∀ a ∈ accs, b < a.pa ∨ a.pa + a.size ≤ b) :
    (accs.foldl (Column.applyAcc free op line) x).byteAt free b = x.byteAt free b :=
  List.foldlRecOn (motive := fun y : Column => y.byteAt free b = x.byteAt free b) accs _ rfl
    fun _ hy a ha => (Column.byteAt_applyAcc_other (h a ha)).trans hy

theorem Column.finds_lanes (accs : List Acc) : ∀ x : Column, (Column.finds free op line x accs).map Prod.fst = accs.map (·.lane) := by
  induction accs with
  | nil => exact fun _ => rfl
  | cons a accs ih => exact fun x => congrArg (a.lane :: ·) (ih _)

/-- The value at an address after some accesses: the operations of those there, in their order. -/
def Column.cellAfter (x : Column) (free op size : Nat) (accs : List Acc) (w : Nat) : Nat :=
  (accs.filter fun a => decide (a.pa = w)).foldl (fun v a => a.apply op v) (natOfBytes (x.bytesAt free w size))

section
variable {size : Nat} (h8 : op = 15 → size = 8) (h4 : op ≠ 15 → size = 4)
include h8 h4

/-- Aligned accesses of one size meet whole or not at all. -/
theorem Column.cellAfter_cons {a : Acc} (hsize : a.size = size) (halign : a.pa % size = 0) (accs : List Acc) {w : Nat} (hw : w % size = 0) :
    (Column.applyAcc free op line x a).cellAfter free op size accs w = x.cellAfter free op size (a :: accs) w := by
  subst hsize
  unfold Column.cellAfter
  by_cases h : a.pa = w
  · subst h
    rw [Column.bytesAt_applyAcc h8 h4]
    simp
  · have hapart : ∀ i, i < a.size → w + i < a.pa ∨ a.pa + a.size ≤ w + i := fun i hi => by
      have := apart_of_dvd halign hw h
      omega
    rw [Column.bytesAt_congr fun i hi => Column.byteAt_applyAcc_other (hapart i hi)]
    simp [h]

theorem Column.bytesAt_applied {accs : List Acc} (hall : ∀ a ∈ accs, a.size = size ∧ a.pa % size = 0) {w : Nat} (hw : w % size = 0) (x : Column) :
    natOfBytes ((accs.foldl (Column.applyAcc free op line) x).bytesAt free w size) = x.cellAfter free op size accs w := by
  induction accs generalizing x with
  | nil => rfl
  | cons a accs ih =>
    obtain ⟨hsize, halign⟩ := hall a (by simp)
    rw [List.foldl_cons, ih (fun e he => hall e (by simp [he])), Column.cellAfter_cons h8 h4 hsize halign accs hw]

/-- An access finds what those before it have left. -/
theorem Column.finds_values {accs : List Acc} (hall : ∀ a ∈ accs, a.size = size ∧ a.pa % size = 0) (x : Column) {i : Nat} {a : Acc}
    (ha : accs[i]? = some a) : ((Column.finds free op line x accs).map Prod.snd)[i]? = some (x.cellAfter free op size (accs.take i) a.pa) := by
  induction accs generalizing x i with
  | nil => simp at ha
  | cons e accs ih =>
    obtain ⟨hsize, halign⟩ := hall e (by simp)
    cases i with
    | zero =>
      obtain rfl : e = a := by simpa using ha
      subst hsize
      rfl
    | succ i =>
      have ha' : accs[i]? = some a := by simpa using ha
      obtain ⟨-, hw⟩ := hall a (by simp [List.mem_of_getElem? ha'])
      rw [List.take_succ_cons, ← Column.cellAfter_cons h8 h4 hsize halign (line := line) _ hw, ← ih (fun e he => hall e (by simp [he])) _ ha']
      rfl

end

end

/-! ## A word performed at the bay -/

/-- One access of a word at the bay: a word that returns values keeps what it finds, or that it has met a mark (R164). -/
def Column.serveAcc (free op line : Nat) (ret : Bool) (acc : Column × MemOp) (a : Acc) : Column × MemOp :=
  if acc.1.isBad a ∧ ret then (acc.1, { acc.2 with bad := acc.2.bad ||| (1#32 <<< a.lane) })
  else (acc.1.applyAcc free op line a,
    if ret then { acc.2 with got := acc.2.got ++ [(a.lane, natOfBytes (acc.1.bytesAt free a.pa a.size))] } else acc.2)

theorem Column.foldl_serveAcc {op line : Nat} (ret : Bool) {accs : List Acc} : ∀ {x : Column} (m : MemOp), (∀ a ∈ accs, x.isBad a = false) →
    accs.foldl (Column.serveAcc free op line ret) (x, m) = (accs.foldl (Column.applyAcc free op line) x,
      if ret then { m with got := m.got ++ Column.finds free op line x accs } else m) := by
  induction accs with
  | nil => intro x m _; cases ret <;> simp [Column.finds]
  | cons a accs ih =>
    intro x m h
    have hrest : ∀ e ∈ accs, (x.applyAcc free op line a).isBad e = false := fun e he => (Column.writesHome_applyAcc x a).isBad (h e (by simp [he]))
    have hone : Column.serveAcc free op line ret (x, m) a = (x.applyAcc free op line a,
        if ret then { m with got := m.got ++ [(a.lane, natOfBytes (x.bytesAt free a.pa a.size))] } else m) := by
      simp [Column.serveAcc, h a (by simp)]
    rw [List.foldl_cons, List.foldl_cons, hone, ih _ hrest]
    cases ret <;> simp [Column.finds]

section
variable {x : Column} {m : MemOp} {line : Nat} (hin : x.inLine m line) (hun : x.uncached line) (hcache : m.cache < 9)
  (hkind : x.bay.kindOf m.ctx (128 * line) = .hbm)
include hin hun hcache hkind

/-- Nothing of the line is to be merged before a word that bypasses the L1, so its lanes' operations are all that happens. -/
theorem Column.performBay_of_uncached {op : Nat} (ret : Bool) (hk : m.kind = if ret then .atom op else .redBay op) :
    x.performBay free m line = m.accs.foldl (Column.serveAcc free (if ret then op else redAtom op) line ret) (x, { m with accs := [] }) := by
  obtain ⟨hfind, hputs⟩ := hun m.cache hcache
  obtain ⟨hpart, hothers⟩ := hin.part_eq
  have hsettle : (x.recallU free line).settleLine free m.cache line = x := by
    rw [recallU_of_uncached hun, Column.settleLine, Column.settlePuts, hputs]
    simp [hfind]
  unfold Column.performBay
  dsimp only
  rw [hsettle, hkind, hk, hpart, hothers]
  cases ret <;> rfl

theorem Column.performBay_atom {op : Nat} (hk : m.kind = .atom op) : x.performBay free m line =
    (m.accs.foldl (Column.applyAcc free op line) x, { m with accs := [], got := m.got ++ Column.finds free op line x m.accs }) := by
  rw [Column.performBay_of_uncached hin hun hcache hkind true hk]
  obtain ⟨-, hall⟩ := hin
  exact Column.foldl_serveAcc true _ fun a ha => by obtain ⟨-, hbad⟩ := hall a ha; exact hbad

theorem Column.performBay_redBay {op : Nat} (hk : m.kind = .redBay op) : x.performBay free m line =
    (m.accs.foldl (Column.applyAcc free (redAtom op) line) x, { m with accs := [] }) := by
  rw [Column.performBay_of_uncached hin hun hcache hkind false hk]
  obtain ⟨-, hall⟩ := hin
  exact Column.foldl_serveAcc false _ fun a ha => by obtain ⟨-, hbad⟩ := hall a ha; exact hbad

end

end

end Sys2Proof.Machine
end

section
/-! Misses and the words of the bay, as they are performed (R83, R85, R144, R145, R153 to R156, R319). -/

namespace Sys2Proof.Machine

/-! ## At the L1, once the sectors have come -/

theorem Column.plainAccs.inLine {x : Column} {m : MemOp} {line size : Nat} (h : x.plainAccs m line size) : x.inLine m line := by
  obtain ⟨hne, hall⟩ := h
  exact ⟨hne, fun a ha => by obtain ⟨hline, -, -, hbad⟩ := hall a ha; exact ⟨hline, hbad⟩⟩

theorem Column.plainAccs.aligned {x : Column} {m : MemOp} {line size : Nat} (h : x.plainAccs m line size) :
    ∀ a ∈ m.accs, a.size = size ∧ a.pa % size = 0 := by
  obtain ⟨-, hall⟩ := h
  exact fun a ha => by obtain ⟨-, hsize, halign, -⟩ := hall a ha; exact ⟨hsize, halign⟩

section
variable {x : Column} {m : MemOp} {line k : Nat} (hin : x.inLine m line) (hfind : x.l1Find m.cache line = some k) (hlu : m.lu = false)
include hin hfind hlu

/-- What a load takes from the line does not depend on whether it hit. -/
theorem Column.performHeld_load_missed {signed : Bool} (hkind : m.kind = .load signed) :
    ∃ l, x.performHeld m line false = (x.setL1 k l, m.loaded signed (x.l1Line k)) := by
  obtain ⟨l, hl⟩ := Column.performHeld_load hin hfind hlu hkind
  have hsame : (x.performHeld m line false).2 = (x.performHeld m line true).2 := by simp only [Column.performHeld, Column.performL1, hkind]
  refine ⟨{ x.l1Line k with ep := m.ep, region := m.ctx }, Prod.ext ?_ ?_⟩
  · simp [Column.performHeld, hlu, Column.performL1, hkind, hfind]
  · rw [hsame, hl]

/-- A store miss leaves V at 2 (R85). -/
theorem Column.performHeld_store_missed (hkind : m.kind = .store) : ∃ y, x.performHeld m line false = (y, { m with accs := [] }) ∧
    y.l1 = (x.setL1 k { m.stored (x.l1Line k) with v := 2 }).l1 ∧ x.sameHolds y := by
  obtain ⟨hpart, hothers⟩ := hin.part_eq
  obtain ⟨hgood, hnone, -⟩ := hin.good
  rw [Column.performHeld, hlu, if_neg Bool.false_ne_true, Column.performL1, hkind, hfind, hpart, hothers]
  dsimp only
  rw [hgood, hnone]
  refine ⟨_, Prod.ext rfl ?_, rfl, ⟨rfl, rfl⟩, rfl, fun _ => rfl, fun _ => rfl, rfl⟩
  simp only [hlu]

end

section
variable {s : State} {c : Nat} {m : MemOp} {line k : Nat} (hin : (s.col c).inLine m line) (hfind : (s.col c).l1Find m.cache line = some k)
  (hlu : m.lu = false)
include hin hfind hlu

theorem State.useL1_load_missed {signed : Bool} (hkind : m.kind = .load signed) :
    ∃ l, s.useL1 c m line false = (s.setCol c ((s.col c).setL1 k l)).complete c (m.loaded signed ((s.col c).l1Line k)) := by
  obtain ⟨l, hl⟩ := Column.performHeld_load_missed hin hfind hlu hkind
  refine ⟨l, ?_⟩
  rw [State.useL1, hkind]
  dsimp only
  rw [hl]
  rfl

/-- A store whose one line has come, with the sectors that it writes, is performed whole (R50). -/
theorem State.useL1_store_missed (hby : (s.col c).bypasses m line = false) (hu : ((s.col c).l1Line k).u = none)
    (hlacks : (s.col c).l1Lacks m line true = 0#4) (hkind : m.kind = .store) (hfetched : m.fetched = []) :
    ∃ y m', (s.col c).sameHolds y ∧ y.l1 = ((s.col c).setL1 k { m.stored ((s.col c).l1Line k) with v := 2 }).l1 ∧ m'.acquire = m.acquire ∧
      s.useL1 c m line false = (s.setCol c y).complete c m' := by
  have hin' : (s.col c).inLine { m with fetched := [(line, false)] } line := hin
  have hcached : ({ m with fetched := [(line, false)] } : MemOp).cachedLines (s.col c) = [line] := by
    have hby' : (s.col c).bypasses { m with fetched := [(line, false)] } line = false := hby
    rw [MemOp.cachedLines, hin'.linesOf_eq]
    simp [hby']
  have hwanted : (s.col c).l1Has m.cache line (({ m with fetched := [(line, false)] } : MemOp).wanted (s.col c) line) = true := by
    refine Column.l1Has_iff.mpr ⟨k, hfind, hu, ?_⟩
    rw [Column.l1Lacks, hkind] at hlacks
    simpa [Column.l1Valid, hfind, hu, MemOp.wanted, MemOp.sectors, MemOp.part, hkind] using hlacks
  obtain ⟨y, hy, hl1, hholds⟩ := Column.performHeld_store_missed (m := { m with fetched := [(line, false)] }) hin' hfind hlu hkind
  refine ⟨y, { m with accs := [], fetched := [] }, hholds, hl1, rfl, ?_⟩
  have huse : s.useL1 c m line false = s.storeLine c m line false := by rw [State.useL1, hkind]
  rw [huse]
  simp [State.storeLine, State.afterPart, hfetched, hcached, hwanted, hy]

end

theorem CacheLine.dirty_merged_other {o : Nat} (ho : o < 128) {accs : List Acc} (h : ∀ a ∈ accs, ¬ a.covers o) (l : CacheLine) :
    (accs.foldl CacheLine.mergeAcc l).dirty.getLsbD o = l.dirty.getLsbD o :=
  List.foldlRecOn (motive := fun k : CacheLine => k.dirty.getLsbD o = l.dirty.getLsbD o) accs _ rfl fun k hk a ha => by
    rw [CacheLine.mergeAcc, CacheLine.dirty_mergeBytes ho, length_bytesOf, decide_eq_false (h a ha), Bool.or_false, hk]

/-- The accesses of a store merged one after another are what R50 asks. -/
theorem MemOp.storedBy_stored (m : MemOp) (l : CacheLine) (v : Nat) : l.storedBy { m.stored l with v := v } m.accs := by
  refine ⟨fun o ho h => ⟨?_, CacheLine.dirty_merged_other ho h l⟩, fun o before a after ho hsplit ha h => ?_⟩
  · rw [CacheLine.bytes_one, CacheLine.bytes_one]
    exact congrArg (fun b => [b]) (CacheLine.byte_merged_other ho h l)
  · obtain ⟨hbyte, hdirty⟩ := CacheLine.merged_last ho ha h l (before := before)
    rw [← hsplit] at hbyte hdirty
    rw [CacheLine.bytes_one]
    exact ⟨congrArg (fun b => [b]) hbyte, hdirty⟩

/-! ## Each request, and a reduction, as a whole -/

theorem State.answers_sliceRequest {s : State} {c rid : Nat} {p : State → Prop} (h : p (s.sliceRequest c rid)) : s.answers (.sliceRequest c rid) p :=
  ⟨_, rfl, h⟩

theorem Column.servable.sliceRequest_eq {s : State} {c : Nat} {r : Req} {m : MemOp} (h : (s.col c).servable s.clk r m .hbm) :
    s.sliceRequest c r.id = s.serve c r := by
  obtain ⟨hfind, hl1, hstands, htill, hclk, heng, -, hclaim, hkind, -⟩ := h
  exact State.sliceRequest_of_crossed hfind hl1 hstands htill hclk heng hclaim hkind

theorem State.sameRegisters_setCol {s : State} {c : Nat} {y : Column} (h : (s.col c).sameThreads y) : s.sameRegisters (s.setCol c y) :=
  fun d w => by rw [State.threadOf_setCol h]; exact ⟨rfl, rfl, rfl⟩

/-- A request of a load or store that missed brings its sectors into its L1. -/
theorem State.fill_performed {s : State} {c : Nat} {r : Req} {m : MemOp} (hs : (s.col c).servable s.clk r m .hbm)
    (hby : (s.col c).bypasses m r.line = false) (hun : (s.col c).uncached r.line) (hcache : r.cache < 9)
    (hsec : r.sectors &&& ~~~(s.col c).badOf r.line ≠ 0#4) :
    s.sameMemory (s.sliceRequest c r.id) ∧ s.sameRegisters (s.sliceRequest c r.id) ∧
      ∃ k, ((s.sliceRequest c r.id).col c).l1Find r.cache r.line = some k ∧
        ((s.sliceRequest c r.id).col c).l1Line k = (s.col c).filled s.free r.line (r.sectors &&& ~~~(s.col c).badOf r.line)
          (if m.kind = .store then 2 else rdValue r.rd) r.ep r.region ∧
        ∃ q ∈ ((s.sliceRequest c r.id).col c).bay.reqs, q.atL1 = true ∧ q.missed = r.missed ∧ q.op = r.op ∧ q.line = r.line ∧ q.due = r.due := by
  have hserve := hs.sliceRequest_eq
  obtain ⟨-, -, -, -, -, heng, hput, -, -, hmop⟩ := hs
  obtain ⟨b, hb, hfill⟩ := State.serve_fill heng hput hmop hby
  have hun' := Column.uncached_settled hb hun
  obtain ⟨hfind, hputs⟩ := hun' r.cache hcache
  rw [hserve, hfill, recallU_of_uncached hun', Column.fillL1_of_missing _ _ _ hsec hfind hputs]
  set v := if m.kind = .store then 2 else rdValue r.rd
  set l := ((s.col c).withBay b).filled s.free r.line (r.sectors &&& ~~~(s.col c).badOf r.line) v r.ep r.region
  obtain ⟨-, -, hholds, -⟩ := Column.makeRoom_keeps hfind
  have hfound := Column.l1Find_makeRoom (l := l) hfind ⟨by simp [CacheLine.present, l, Column.filled, hsec], rfl⟩
  obtain ⟨hmem, hregs⟩ := State.setCol_keeps (s := s) (c := c)
    (Column.sameHolds_trans (Column.sameHolds_trans (Column.sameHolds_bay (s.col c) b) hholds)
      (Column.sameHolds_trans (Column.sameHolds_setL1 _ _ l) (Column.sameHolds_waitsAtL1 _ r)))
  refine ⟨hmem, hregs, (((s.col c).withBay b).makeRoom r.cache r.line).2, ?_, ?_, r.back, ?_, rfl, rfl, rfl, rfl, rfl⟩
  · rw [State.col_setCol, if_pos rfl, Column.l1Find_waitsAtL1, hfound]
  · rw [State.col_setCol, if_pos rfl, Column.l1Line_waitsAtL1, Column.l1Line_setL1, if_pos rfl]
    rfl
  · rw [State.col_setCol, if_pos rfl]
    exact Column.back_mem_waitsAtL1 _ r

/-- A load whose sectors have come takes the held line's bytes. -/
theorem State.load_arrived {s : State} {c : Nat} {r : Req} {m : MemOp} {signed : Bool} {size k : Nat} {v : VPend} (harr : (s.col c).arrived s.clk r m)
    (hkind : m.kind = .load signed) (hacc : (s.col c).plainAccs m r.line size) (hfind : (s.col c).l1Find m.cache r.line = some k)
    (hacq : m.acquire = none) (hlu : m.lu = false) (hbad : m.bad = 0#32) (hvid : m.vid ≠ 0) (hv : v ∈ (s.threadOf c m.who).vpend)
    (hid : v.id = m.vid) : s.sameMemory (s.sliceRequest c r.id) ∧ s.sameRegisters (s.sliceRequest c r.id) ∧
      { v with value := some (m.loaded signed ((s.col c).l1Line k)).writes } ∈ ((s.sliceRequest c r.id).threadOf c m.who).vpend := by
  obtain ⟨b, -, hslice⟩ := State.sliceRequest_of_arrived harr
  have hcol : (s.setCol c ((s.col c).withBay b)).col c = (s.col c).withBay b := by rw [State.col_setCol, if_pos rfl]
  obtain ⟨l, hl⟩ := State.useL1_load_missed (s := s.setCol c ((s.col c).withBay b)) (c := c) (m := m) (line := r.line) (k := k)
    (by rw [hcol]; exact hacc.inLine) (by rw [hcol]; exact hfind) hlu hkind
  rw [hcol, State.setCol_setCol] at hl
  have hholds : (s.col c).sameHolds (((s.col c).withBay b).setL1 k l) := Column.sameHolds_bay (s.col c) b
  rw [hslice, hl]
  obtain ⟨hmem, hregs, -⟩ := State.setCol_complete_keeps (m := m.loaded signed ((s.col c).l1Line k)) hholds hacq
  obtain ⟨-, -, hthreads⟩ := hholds
  refine ⟨hmem, hregs, State.value_mem_complete (m := m.loaded signed ((s.col c).l1Line k)) hacq hvid hbad ?_ hid⟩
  rw [State.threadOf_setCol hthreads]
  exact hv

/-- A store whose sectors have come merges its bytes into the held line. -/
theorem State.store_arrived {s : State} {c : Nat} {r : Req} {m : MemOp} {size k : Nat} (harr : (s.col c).arrived s.clk r m)
    (hkind : m.kind = .store) (hacc : (s.col c).plainAccs m r.line size) (hby : (s.col c).bypasses m r.line = false)
    (hfind : (s.col c).l1Find m.cache r.line = some k) (hu : ((s.col c).l1Line k).u = none) (hfetched : m.fetched = []) (hacq : m.acquire = none)
    (hlu : m.lu = false) : (∀ j, ((s.sliceRequest c r.id).col c).l1Line j =
        if j = k then { m.stored ((s.col c).l1Line k) with v := 2 } else (s.col c).l1Line j) ∧
      s.sameMemory (s.sliceRequest c r.id) ∧ s.sameRegisters (s.sliceRequest c r.id) := by
  obtain ⟨b, hb, hslice⟩ := State.sliceRequest_of_arrived harr
  obtain ⟨-, -, -, -, -, -, hlacks⟩ := harr
  have hcol : (s.setCol c ((s.col c).withBay b)).col c = (s.col c).withBay b := by rw [State.col_setCol, if_pos rfl]
  obtain ⟨y, m', hholds, hl1, hacq', huse⟩ := State.useL1_store_missed (s := s.setCol c ((s.col c).withBay b)) (c := c) (m := m)
    (line := r.line) (k := k) (by rw [hcol]; exact hacc.inLine) (by rw [hcol]; exact hfind) hlu
    (by rw [hcol, Column.bypasses_settled hb]; exact hby) (by rw [hcol]; exact hu) (by rw [hcol]; exact hlacks) hkind hfetched
  rw [hcol] at hholds hl1
  rw [State.setCol_setCol] at huse
  obtain ⟨hmem, hregs, hl1'⟩ := State.setCol_complete_keeps (s := s) (c := c) (m := m')
    (Column.sameHolds_trans (Column.sameHolds_bay (s.col c) b) hholds) (hacq'.trans hacq)
  rw [hslice, huse]
  refine ⟨fun j => ?_, hmem, hregs⟩
  rw [Column.l1Line_congr hl1', Column.l1Line_congr hl1, Column.l1Line_setL1]
  rfl

/-- A reduction is combined in its L1. -/
theorem State.red_performed {s : State} {c : Nat} {m : MemOp} {op line size : Nat} {before : CacheLine} (hkind : m.kind = .red op)
    (hacc : (s.col c).plainAccs m line size) (hnew : ∀ q ∈ (s.col c).mops, q.id ≠ m.id) (hby : (s.col c).bypasses m line = false)
    (hturn : (s.col c).waitsTurn m line = false) (hlu : m.lu = false) (hacq : m.acquire = none)
    (hbefore : (s.col c).continues m op line before) : s.sameMemory (s.startOp c m) ∧ s.sameRegisters (s.startOp c m) ∧
      ∃ k, ((s.startOp c m).col c).l1Find m.cache line = some k ∧ (((s.startOp c m).col c).l1Line k).u = some op ∧ ∀ i, i < 32 →
        lineWord (((s.startOp c m).col c).l1Line k).data i = (m.accs.filter fun a => decide (a.pa % 128 / 4 = i)).foldl
          (fun w a => redCombine op w (BitVec.ofNat 32 a.x)) (lineWord before.data i) ∧
        (((s.startOp c m).col c).l1Line k).dirty.extractLsb' (4 * i) 4 =
          if (m.accs.filter fun a => decide (a.pa % 128 / 4 = i)).isEmpty then before.dirty.extractLsb' (4 * i) 4 else 15#4 := by
  obtain ⟨-, -, -, -, hbegun⟩ := Column.begun_keeps (s.col c) m s.clk
  have hbefore' : ((s.col c).begun m s.clk).continues m op line before := by
    simpa only [Column.continues, Column.l1Find_begun, Column.l1Line_begun] using hbefore
  obtain ⟨y, hy, hholds, k, hfind, hu, hwords⟩ := Column.performRed_spec (Column.inLine_begun s.clk hacc.inLine) hbefore'
  have hstart := State.startOp_red hacc.inLine hnew hby hturn hlu hkind
  rw [hy] at hstart
  have hstart' : s.startOp c m = (s.setCol c y).complete c { m with accs := [] } := hstart
  obtain ⟨hmem, hregs, hl1⟩ := State.setCol_complete_keeps (s := s) (c := c) (m := { m with accs := [] }) (Column.sameHolds_trans hbegun hholds) hacq
  rw [hstart']
  refine ⟨hmem, hregs, k, ?_, ?_⟩
  · rw [← hfind]
    exact Column.l1Find_congr fun j _ => by rw [Column.l1Line_congr hl1]
  · rw [Column.l1Line_congr hl1]
    exact ⟨hu, hwords⟩

/-- A line that an L1 has sent lands at the home. -/
theorem State.put_performed {s : State} {c : Nat} {r : Req} {l : CacheLine}
    (hfind : ((s.col c).bay.reqs.find? fun q => decide (q.id = r.id)) = some r) (hl1 : r.atL1 = false)
    (hstands : r.stands = true) (htill : r.till ≠ 0) (hclk : r.till ≤ s.clk) (heng : r.eng = none) (hput : r.put = some l) (hline : l.line = r.line)
    (hclaim : (s.col c).claimed r.region r.line = false) (hkind : (s.col c).bay.kindOf r.region (128 * r.line) = .hbm)
    (hothers : ∀ d, d < 9 → d ≠ r.cache → (s.col c).l1Find d r.line = none ∧ (s.col c).puts d r.line = []) :
    ∃ b, s.sliceRequest c r.id = s.setCol c (((s.col c).withBay b).land s.free l) := by
  obtain ⟨b, hb, hserve⟩ := State.serve_put hput hkind
  rw [← hline] at hothers
  have hland : ((s.col c).withBay b).landPut s.free r.cache l = ((s.col c).withBay b).land s.free l :=
    Column.landPut_eq fun d hd hne => by
      obtain ⟨hnone, hputs⟩ := hothers d hd hne
      exact ⟨hnone, Column.puts_settled hb hputs⟩
  exact ⟨b, by rw [State.sliceRequest_of_crossed hfind hl1 hstands htill hclk heng hclaim hkind, hserve, hland]⟩

/-- A word past the L1 that works on memory at the slice: the word as it completes. -/
def MemOp.performs (m : MemOp) (op : Nat) (found : List (Nat × Nat)) (m' : MemOp) : Prop :=
  m'.acquire = m.acquire ∧ (m.kind = .atom op → m' = { m with accs := [], got := m.got ++ found })

/-- An ATOM or a RED.BAY is performed at the slice, lane by lane. -/
theorem State.atomic_performed {s : State} {c : Nat} {r : Req} {m : MemOp} {op size : Nat}
    (hop : m.kind = .atom op ∨ ∃ k, m.kind = .redBay k ∧ op = redAtom k) (hs : (s.col c).servable s.clk r m .hbm) (hbypass : m.bypass = true)
    (hctx : m.ctx = r.region) (hacc : (s.col c).plainAccs m r.line size) (hun : (s.col c).uncached r.line) (hcache : m.cache < 9) (hlu : m.lu = false) :
    ∃ b m', m.performs op (Column.finds s.free op r.line ((s.col c).withBay b) m.accs) m' ∧ s.sliceRequest c r.id =
      (s.setCol c (m.accs.foldl (Column.applyAcc s.free op r.line) ((s.col c).withBay b))).complete c m' := by
  have hserve := hs.sliceRequest_eq
  obtain ⟨-, -, -, -, -, heng, hput, -, hkind, hmop⟩ := hs
  obtain ⟨b, hb, hbay⟩ := State.serve_bay heng hput hmop (by simp [Column.bypasses, hbypass]) hlu
  obtain ⟨hkinds, -⟩ := id hb
  have hin' : ((s.col c).withBay b).inLine m r.line := hacc.inLine
  have hkind' : b.kindOf m.ctx (128 * r.line) = .hbm := by rw [hkinds, hctx, hkind]
  rw [hserve, hbay]
  rcases hop with hk | ⟨k, hk, rfl⟩
  · rw [Column.performBay_atom hin' (Column.uncached_settled hb hun) hcache hkind' hk]
    exact ⟨b, { m with accs := [], got := m.got ++ Column.finds s.free op r.line ((s.col c).withBay b) m.accs }, ⟨rfl, fun _ => rfl⟩, rfl⟩
  · rw [Column.performBay_redBay hin' (Column.uncached_settled hb hun) hcache hkind' hk]
    exact ⟨b, { m with accs := [] }, ⟨rfl, fun h => by rw [hk] at h; cases h⟩, rfl⟩

section
variable {s : State} {c : Nat} {r : Req} {m : MemOp} {op size : Nat} (hop : m.kind = .atom op ∨ ∃ k, m.kind = .redBay k ∧ op = redAtom k)
  (hsize : size = if op = 15 then 8 else 4) (hs : (s.col c).servable s.clk r m .hbm) (hbypass : m.bypass = true) (hctx : m.ctx = r.region)
  (hacc : (s.col c).plainAccs m r.line size) (hun : (s.col c).uncached r.line) (hcache : m.cache < 9) (hlu : m.lu = false) (hacq : m.acquire = none)
include hop hsize hs hbypass hctx hacc hun hcache hlu hacq

/-- What the lanes of an ATOM or a RED.BAY leave at the home. -/
theorem State.atomic_leaves :
    (∀ a ∈ m.accs, natOfBytes (((s.sliceRequest c r.id).col c).bytesAt s.free a.pa size) = (s.col c).cellAfter s.free op size m.accs a.pa) ∧
      (∀ b, (∀ a ∈ m.accs, b < a.pa ∨ a.pa + size ≤ b) → ((s.sliceRequest c r.id).col c).byteAt s.free b = (s.col c).byteAt s.free b) ∧
      s.sameRegisters (s.sliceRequest c r.id) := by
  obtain ⟨b, m', ⟨hacq', -⟩, hslice⟩ := State.atomic_performed hop hs hbypass hctx hacc hun hcache hlu
  have haligned := hacc.aligned
  set y := m.accs.foldl (Column.applyAcc s.free op r.line) ((s.col c).withBay b)
  have hthreads : (s.col c).sameThreads y := (Column.writesHome_applied m.accs ((s.col c).withBay b)).sameThreads
  obtain ⟨hmem, hregs, -⟩ := State.complete_keeps (s := s.setCol c y) (c := c) (hacq'.trans hacq)
  have hbyte : ∀ a, ((s.sliceRequest c r.id).col c).byteAt s.free a = y.byteAt s.free a := fun a => by
    obtain ⟨hhome, -⟩ := hmem c
    rw [hslice, hhome, State.col_setCol, if_pos rfl]
  refine ⟨fun a ha => ?_, fun a ha => ?_, ?_⟩
  · obtain ⟨-, halign⟩ := haligned a ha
    rw [Column.bytesAt_congr fun i _ => hbyte (a.pa + i)]
    exact Column.bytesAt_applied (fun h => hsize.trans (if_pos h)) (fun h => hsize.trans (if_neg h)) haligned halign ((s.col c).withBay b)
  · rw [hbyte]
    exact Column.byteAt_applied_other fun e he => by obtain ⟨hsz, -⟩ := haligned e he; rw [hsz]; exact ha e he
  · rw [hslice]
    exact State.sameRegisters_trans (State.sameRegisters_setCol hthreads) hregs

/-- The lanes of an ATOM take the values that they find. -/
theorem State.atomic_returns {v : VPend} (hk : m.kind = .atom op) (hbad : m.bad = 0#32) (hvid : m.vid ≠ 0) (hv : v ∈ (s.threadOf c m.who).vpend)
    (hid : v.id = m.vid) : ∃ got : List (Nat × Nat), got.map Prod.fst = m.accs.map (·.lane) ∧
      (∀ i a, m.accs[i]? = some a → (got.map Prod.snd)[i]? = some ((s.col c).cellAfter s.free op size (m.accs.take i) a.pa)) ∧
      { v with value := some ({ m with got := m.got ++ got } : MemOp).writes } ∈ ((s.sliceRequest c r.id).threadOf c m.who).vpend := by
  obtain ⟨b, m', ⟨-, hatom⟩, hslice⟩ := State.atomic_performed hop hs hbypass hctx hacc hun hcache hlu
  obtain rfl := hatom hk
  set found := Column.finds s.free op r.line ((s.col c).withBay b) m.accs
  have hthreads := (Column.writesHome_applied (free := s.free) (op := op) (line := r.line) m.accs ((s.col c).withBay b)).sameThreads
  refine ⟨found, Column.finds_lanes m.accs _, fun i a ha =>
    Column.finds_values (fun h => hsize.trans (if_pos h)) (fun h => hsize.trans (if_neg h)) hacc.aligned ((s.col c).withBay b) ha, ?_⟩
  rw [hslice]
  refine State.value_mem_complete (m := { m with accs := [], got := m.got ++ found }) hacq hvid hbad ?_ hid
  rw [State.threadOf_setCol hthreads]
  exact hv

end

/-- Settles O23: each case is one operation on the column; what lands at the home is read byte by byte or word by word, and the lanes at a slice one
after another. -/
theorem missesAndBayWordsArePerformed : Obligations.MissesAndBayWordsArePerformed := by
  unfold Obligations.MissesAndBayWordsArePerformed
  refine ⟨fun s c r m => ⟨fun hs hby hun _ hcache hsec => ?_, fun signed size k v harr hkind hacc hfind hacq hlu hbad hvid hv hid => ?_,
    fun size k harr hkind hacc hby hfind hu hfetched hacq hlu => ?_,
    fun l hfind hl1 hstands htill hclk heng hput hline hclaim hkind hothers => ?_,
    fun op before hkind hacc hnew hby hturn hlu hacq _ _ hbefore => ?_,
    fun op size hop hsize hs hbypass hctx hacc hun hcache hlu hacq hbad => ?_⟩,
    fun x free m op line a hkind haccs hline hbad hun hcache hhbm h8 h4 => ?_⟩
  · obtain ⟨hmem, hregs, k, hfind, hfilled, hreq⟩ := State.fill_performed hs hby hun hcache hsec
    refine State.answers_sliceRequest ⟨hmem, hregs, k, hfind, ?_⟩
    dsimp only
    rw [hfilled]
    exact ⟨rfl, rfl, rfl, rfl, fun o ho hvalid => Column.bytes_filled _ _ _ _ _ _ _ ho hvalid, hreq⟩
  · exact State.answers_sliceRequest (State.load_arrived harr hkind hacc hfind hacq hlu hbad hvid hv hid)
  · obtain ⟨hlines, hmem, hregs⟩ := State.store_arrived harr hkind hacc hby hfind hu hfetched hacq hlu
    have hheld := (hlines k).trans (if_pos rfl)
    exact State.answers_sliceRequest ⟨by rw [hheld]; exact m.storedBy_stored _ 2, by rw [hheld], fun j hj => by rw [hlines, if_neg hj], hmem, hregs⟩
  · obtain ⟨b, hslice⟩ := State.put_performed hfind hl1 hstands htill hclk heng hput hline hclaim hkind hothers
    refine State.answers_sliceRequest ?_
    dsimp only
    rw [hslice, State.col_setCol, if_pos rfl, ← hline]
    exact ⟨State.sameRegisters_setCol (Column.writesHome_land ((s.col c).withBay b) s.free l).sameThreads,
      fun a ha => Column.byteAt_land_other ((s.col c).withBay b) l ha, fun hu o ho => Column.byteAt_land_dirty ((s.col c).withBay b) hu ho,
      fun op hu i hi => Column.wordAt_land_partial ((s.col c).withBay b) hu hi⟩
  · exact State.red_performed hkind hacc hnew hby hturn hlu hacq hbefore
  · have hop' : m.kind = .atom op ∨ ∃ k, m.kind = .redBay k ∧ op = redAtom k :=
      hop.imp_right fun ⟨k, hk, _, heq⟩ => ⟨k, hk, heq⟩
    obtain ⟨hcells, hbytes, hregs⟩ := State.atomic_leaves hop' hsize hs hbypass hctx hacc hun hcache hlu hacq
    exact State.answers_sliceRequest ⟨hcells, hbytes, hregs, fun v hk hvid hv hid =>
      State.atomic_returns hop' hsize hs hbypass hctx hacc hun hcache hlu hacq hk hbad hvid hv hid⟩
  · have hin : x.inLine m line := ⟨by simp [haccs], by simp [haccs, hline, hbad]⟩
    dsimp only
    rw [Column.performBay_atom hin hun hcache hhbm hkind, haccs]
    exact ⟨rfl, Column.bytesAt_applyAcc h8 h4, fun b hb => Column.byteAt_applyAcc_other hb⟩

end Sys2Proof.Machine
end
